-- ==== Sys2Proof/Word.lean ====
section
/-! DEFINITION. The value types of the Cisia 3808 model and the two fixed-size families (eight channels, two
outputs). Nothing here has a meaning of its own: the operations stand in `Machine/`. -/

namespace Sys2Proof

/-- One byte (R6). -/
abbrev Byte := BitVec 8

/-- A duration or an instant in quarter-picoseconds (R11). -/
abbrev Qps := Nat

/-- A channel number, CH0 to CH7. -/
abbrev Chan := Fin 8

/-- An output number, AO0 or AO1. -/
abbrev OutNo := Fin 2

/-- Eight like things, one per channel. Plain data, so that states can be compared. -/
structure Per8 (α : Type) where
  c0 : α
  c1 : α
  c2 : α
  c3 : α
  c4 : α
  c5 : α
  c6 : α
  c7 : α
deriving DecidableEq, Repr

/-- Two like things, one per output. -/
structure Per2 (α : Type) where
  o0 : α
  o1 : α
deriving DecidableEq, Repr

/-- The same value for every channel. -/
abbrev Per8.const {α : Type} (a : α) : Per8 α := ⟨a, a, a, a, a, a, a, a⟩

/-- The same value for both outputs. -/
abbrev Per2.const {α : Type} (a : α) : Per2 α := ⟨a, a⟩

/-- The entry of channel `n`. -/
def Per8.get {α : Type} (p : Per8 α) (n : Chan) : α :=
  match n with
  | 0 => p.c0 | 1 => p.c1 | 2 => p.c2 | 3 => p.c3
  | 4 => p.c4 | 5 => p.c5 | 6 => p.c6 | 7 => p.c7

/-- The family with the entry of channel `n` replaced. -/
def Per8.set {α : Type} (p : Per8 α) (n : Chan) (a : α) : Per8 α :=
  match n with
  | 0 => { p with c0 := a } | 1 => { p with c1 := a }
  | 2 => { p with c2 := a } | 3 => { p with c3 := a }
  | 4 => { p with c4 := a } | 5 => { p with c5 := a }
  | 6 => { p with c6 := a } | 7 => { p with c7 := a }

/-- Every entry sent through `f`. -/
def Per8.map {α β : Type} (p : Per8 α) (f : α → β) : Per8 β :=
  ⟨f p.c0, f p.c1, f p.c2, f p.c3, f p.c4, f p.c5, f p.c6, f p.c7⟩

/-- The entries in ascending channel order. -/
def Per8.toList {α : Type} (p : Per8 α) : List α :=
  [p.c0, p.c1, p.c2, p.c3, p.c4, p.c5, p.c6, p.c7]

/-- The entry of output `n`. -/
def Per2.get {α : Type} (p : Per2 α) (n : OutNo) : α :=
  match n with
  | 0 => p.o0 | 1 => p.o1

/-- The pair with the entry of output `n` replaced. -/
def Per2.set {α : Type} (p : Per2 α) (n : OutNo) (a : α) : Per2 α :=
  match n with
  | 0 => { p with o0 := a } | 1 => { p with o1 := a }

/-- The channels in ascending order (R666). -/
def Chan.all : List Chan := [0, 1, 2, 3, 4, 5, 6, 7]

/-- The outputs, AO0 first (R574). -/
def OutNo.all : List OutNo := [0, 1]

end Sys2Proof
end

