-- ==== Sys2Proof/Syntax.lean ====
section
/-! DEFINITION. The commands of the block: one constructor of `Instr` for every row of `spec/opcode_table.json`, in
the table's order, with the operands a command carries.

THE OPERAND `dt` (log 3). Every command but `timeCounterWrap` begins with `dt`, the quarter-picoseconds that have passed
since the command before it; a new level of a live pin has it in its `PinLevel`. Analog quantities and what the
environment presents (a pin reading, a measured temperature, the hits of a calibration run) come as further operands
(log 15). -/

namespace Sys2Proof

/-- The causes of a full reset (R579), by start reason. -/
inductive ResetCause where
  /-- 0x01: V33 below the threshold outside brace. -/
  | supply
  /-- 0x02: V33 below the threshold during brace. -/
  | supplyInBrace
  /-- 0x03: RESET_N low, for `low` ps so far (R97). -/
  | pin (low : Nat)
  /-- 0x04: the core restart limit (R592). -/
  | restartLimit
  /-- 0x05: the service port's RESET. -/
  | service
  /-- 0x01: a power-good fault of the always-on or the cabinet domain (R595). -/
  | powerGood
deriving DecidableEq, Repr

/-- The heavy operations that need leave (R564). -/
inductive HeavyOp where
  | fullRun
  | join (ch : Chan)
  | startupPower (ch : Chan)
  | flashErase
  | flashProgram
  | service
  | stagePower (o : OutNo)
  | scrub
deriving DecidableEq, Repr

/-- The two FIFO stores of the cabinet (R360). -/
inductive StoreId where
  | raw
  | shelf
deriving DecidableEq, Repr

/-- The two row counters (R517): session and commit. -/
inductive RowId where
  | session
  | commit
deriving DecidableEq, Repr

/-- A quadrature sample (R220, R222, R228). -/
inductive QuadStep where
  | forward
  | reverse
  | illegal
deriving DecidableEq, Repr

/-- The two ways a channel is lost (R175). -/
inductive LossCause where
  | timeout
  | swing
deriving DecidableEq, Repr

/-- What the fuse sense of R632 reads when a BLOW was cut off; ignored otherwise. -/
inductive FuseSense where
  | intact
  | between
  | blown
deriving DecidableEq, Repr

/-- A task of the scheduler (R237). -/
inductive Task where
  /-- A time task of period `p` qps; `chans`, `outs` are its targets. -/
  | time (p : Nat) (chans outs : Bool)
  /-- An angle task, per turn or per bin. -/
  | angle (perTurn chans outs : Bool)
  /-- An output-divider task of slot 0's ticks. -/
  | divider (n : Nat)
deriving DecidableEq, Repr

/-- The groups of the snapshot map (R441). -/
inductive Group where
  | stitch (ch : Chan)
  | sample (ch : Chan)
  | counter (ch : Chan)
  | identity
  | time
  | configuration
  | status
  | pps
  | phase
  | count
  | output
  | result (ch : Chan)
deriving DecidableEq, Repr

/-- The readings of one strap read (R86, R87): the 22 pins in both passes, in ohms and pin index order, the two check
resistors of each pass, and the level of SBYTE. -/
structure StrapRead where
  pass1 : List Nat
  pass2 : List Nat
  check1Low : Nat
  check1High : Nat
  check2Low : Nat
  check2High : Nat
  sbyte : Bool
deriving DecidableEq, Repr

/-- What a calibration run measured on one channel (R489, R500). -/
structure ChanMeas where
  /-- widths of the 144 delay cells, in 0.01 ps -/
  widths : List Nat
  /-- hits of bins 0 to 255 in the code-density test -/
  hits : List Nat
  /-- inter-channel term of the path delay, in qps (R191) -/
  interTerm : Int
  /-- interpolator bias code -/
  bias : BitVec 16
  /-- distance of each ladder leg's step from nominal: 15 MSB legs, then 4 spares -/
  legDev : List Nat
  /-- threshold offset trim, in 1/16 DAC step -/
  offsetTrim : Int
deriving DecidableEq, Repr

/-- What a full run measured on one output (R489). -/
structure OutMeas where
  /-- distance of each of the 67 segments from its nominal weight, in ppm -/
  segDev : List Nat
  offsetTrim : Int
  gainTrim : Int
deriving DecidableEq, Repr

/-- What a full run measured (R498). -/
structure FullMeas where
  chans : Per8 ChanMeas
  outs : Per2 OutMeas
  /-- RREF measurement in mΩ -/
  rref : Nat
  /-- mean die temperature over the suspension, in 1/128 °C (R494) -/
  temp : Int
deriving DecidableEq, Repr

/-- What the TETHER receiver saw (R611): the levels of the 96 bit cells of a frame, or a change out of place. -/
inductive FrameIn where
  /-- the level of TETHER in each half of each bit cell, high (the released level) being `true` -/
  | levels (l : List Bool)
  /-- a level change at another place than these, or a missing cell -/
  | violation
deriving DecidableEq, Repr

/-- An active edge as the front end sees it: the width in ps of the pulse that ends there (R154), and the peaks in µV as held
at the edge (R168). -/
structure Pulse where
  width : Nat
  pos : Int
  neg : Int
deriving DecidableEq, Repr

/-- A new level of a live pin: the time `dt` since the command before it (log 3), when the level has stood for `width` ps
(R97). -/
structure PinLevel where
  dt : Nat
  width : Nat
deriving DecidableEq, Repr

/-- A new level of the LEAVE line: high or low, having lasted for `width` ps (R571). -/
structure LineLevel where
  high : Bool
  width : Nat
deriving DecidableEq, Repr

/-- The opcodes of Table — Service commands (R624). -/
def knownOpcode (b : Byte) : Bool :=
  [0x01, 0x02, 0x03, 0x10, 0x11, 0x12, 0x20, 0x21, 0x22, 0x30].any fun n => b == BitVec.ofNat 8 n

/-- The commands, in the order of `spec/opcode_table.json`. -/
inductive Instr where
  | activeEdge (dt : Nat) (ch : Chan) (bin : Byte) (pulse : Pulse)
  | timeTick (dt : Nat) (slot : Fin 16)
  | angleTick (dt : Nat)
  | outputUpdate (dt : Nat)
  | mergeMove (dt : Nat) (flip : BitVec 7)
  | dropRunClose (dt : Nat) (ch : Chan)
  | markerEntry (dt : Nat) (flip : BitVec 7)
  | firmwareMarkerPlace (dt : Nat)
  | queueReset (dt : Nat)
  | packerTakeItem (dt : Nat) (flip : BitVec 7)
  | closeTimerExpiry (dt : Nat)
  | packerTakeResult (dt : Nat)
  | controlSkeinClose (dt : Nat)
  | summaryBoundary (dt : Nat)
  | summaryComplete (dt : Nat)
  | timeCounterWrap
  | keepTick (dt : Nat)
  | resetAssert (dt : Nat) (cause : ResetCause)
  | resetRelease (dt : Nat) (sense : FuseSense)
  | strapLatch (dt : Nat) (r : StrapRead)
  | journalRecovery (dt : Nat)
  | rowCounterReconcile (dt : Nat)
  | sessionCommit (dt : Nat)
  | pllLock (dt : Nat)
  | refinActivityTimeout (dt : Nat)
  | pllLockTimeout (dt : Nat)
  | epochSet (dt : Nat)
  | epochPpsTimeout (dt : Nat)
  | ppsEdge (dt : Nat)
  | ppsGapTimeout (dt : Nat)
  | pllUnlock (dt : Nat)
  | pllRelock (dt : Nat)
  | channelStartupJoin (dt : Nat) (ch : Chan)
  | startupRunAbandon (dt : Nat)
  | watchdogExpiry (dt : Nat) (pc : BitVec 32)
  | coreRestart (dt : Nat)
  | firmwareFetchError (dt : Nat) (sector offset : Nat)
  | domainPowerFault (dt : Nat) (dom : Fin 11)
  | domainRestore (dt : Nat) (dom : Fin 11)
  | domainFaultClear (dt : Nat) (dom : Fin 11)
  | driftCheckRead (dt : Nat) (pin : Fin 23) (reading : Nat)
  | channelLoss (dt : Nat) (ch : Chan) (cause : LossCause)
  | lossHandling (dt : Nat) (ch : Chan)
  | channelIdleTimeout (dt : Nat) (ch : Chan)
  | channelDomainPowerDown (dt : Nat) (ch : Chan)
  | probeAbsentTimeout (dt : Nat) (ch : Chan)
  | swingOverload (dt : Nat) (ch : Chan)
  | swingOverloadClear (dt : Nat) (ch : Chan)
  | autoLevelUpdate (dt : Nat) (ch : Chan) (pos neg : Int)
  | peakReport (dt : Nat) (ch : Chan) (pos neg : Int)
  | joinStart (dt : Nat) (ch : Chan)
  | channelDomainReady (dt : Nat) (ch : Chan)
  | rejoinRunEnd (dt : Nat) (ch : Chan) (m : ChanMeas) (temp : Int)
  | workingSetRebuild (dt : Nat)
  | dieTemperatureRead (dt : Nat) (t : Int)
  | cthRead (dt : Nat) (t : Int)
  | referenceEvent (dt : Nat) (lowTime : Nat)
  | quadratureStep (dt : Nat) (q : QuadStep)
  | referenceEventTimeout (dt : Nat)
  | phaseLoss (dt : Nat)
  | phaseLockTimeout (dt : Nat)
  | referenceSpacingFault (dt : Nat)
  | referenceSpacingClear (dt : Nat)
  | sineAmplitudeFault (dt : Nat)
  | sineAmplitudeClear (dt : Nat)
  | taskArm (dt : Nat) (slot : Fin 16) (t : Task)
  | taskChange (dt : Nat) (slot : Fin 16) (t : Task)
  | taskCancel (dt : Nat) (slot : Fin 16)
  | skeinTakeUp (dt : Nat) (flip : BitVec 26)
  | droppedSkeinMarker (dt : Nat)
  | refreshBurst (dt : Nat)
  | refreshBurstEnd (dt : Nat)
  | scrubRequest (dt : Nat)
  | scrubBurst (dt : Nat) (corrected : Nat) (bad : List Nat) (flip : BitVec 26)
  | storeReset (dt : Nat) (st : StoreId)
  | flushRequest (level : PinLevel)
  | flush (dt : Nat)
  | hostrdyHigh (level : PinLevel)
  | hostrdyLow (level : PinLevel)
  | discovery (dt : Nat)
  | introductionClose (dt : Nat)
  | alignmentDone (dt : Nat)
  | skeinTransmitStart (dt : Nat) (corrected : Nat) (uncorrectable : Bool)
  | transmissionComplete (dt : Nat) (flip : BitVec 26)
  | partnerLoss (dt : Nat)
  | streamShortCircuit (dt : Nat) (lane : Fin 5)
  | statusSkeinTimer (dt : Nat)
  | faultSkeinClose (dt : Nat)
  | logPeriodExpiry (dt : Nat) (code : Byte) (ch : Chan)
  | snapshotPresentation (dt : Nat) (sa : BitVec 9) (hold : Nat)
  | snapshotGroupTimeout (dt : Nat) (g : Group)
  | outputEstablish (dt : Nat) (o : OutNo)
  | outputStageReady (dt : Nat) (o : OutNo) (vpos vneg : Int)
  | breakBeforeMakeExpiry (dt : Nat) (o : OutNo)
  | readBack (dt : Nat) (o : OutNo) (measured : Int)
  | outputHeadroomFault (dt : Nat) (o : OutNo) (sensed vpin : Nat)
  | outputOvercurrent (dt : Nat) (o : OutNo)
  | outputRailFault (dt : Nat) (o : OutNo) (vpos vneg : Int)
  | outputOvertemperature (dt : Nat) (o : OutNo) (t : Int)
  | outputRetry (dt : Nat) (o : OutNo)
  | outputFaultClear (dt : Nat) (o : OutNo)
  | calRequest (level : PinLevel)
  | temperatureTriggerEval (dt : Nat) (mean : Int)
  | precheckStart (dt : Nat)
  | precheckResult (dt : Nat) (ohms : Nat)
  | fullRunStart (dt : Nat)
  | fullRunEnd (dt : Nat) (m : FullMeas)
  | drawerCommit (dt : Nat)
  | compaction (dt : Nat)
  | rowCounterIncrement (dt : Nat) (c : RowId)
  | flashErase (dt : Nat) (sector : Fin 1024)
  | flashProgram (dt : Nat) (addr : BitVec 22) (data : List Byte)
  | flashOperationEnd (dt : Nat) (verified : Bool) (tookMs10 : Nat)
  | sectorRetirement (dt : Nat) (sector : Fin 1024)
  | braceEntry (dt : Nat)
  | braceReturn (dt : Nat) (lowestVin : Nat)
  | standbyEntry (level : PinLevel)
  | standbyExit (level : PinLevel)
  | aoDomainPowerDown (dt : Nat)
  | leaveRequest (dt : Nat) (op : HeavyOp)
  | leaveLineChange (dt : Nat) (level : LineLevel)
  | leaveWindowExpiry (dt : Nat)
  | leaveRequestWithdrawal (dt : Nat)
  | leaveStarvation (dt : Nat)
  | leaveStuck (dt : Nat)
  | leaveStuckClear (dt : Nat)
  | v33RangeFault (dt : Nat) (v33 vin : Nat)
  | v33RangeClear (dt : Nat)
  | vinOvervoltage (dt : Nat) (vin : Nat)
  | vinOvervoltageClear (dt : Nat)
  | vbatCheck (dt : Nat) (vbat : Nat)
  | dieOvertemperature (dt : Nat)
  | dieOvertemperatureClear (dt : Nat)
  | tetherSlot (dt : Nat) (collision : Bool)
  /-- `began` in qps: how long ago the frame began -/
  | tetherFrameReceived (dt : Nat) (began : Nat) (f : FrameIn)
  | adoptionArm (dt : Nat)
  | epochAdoption (dt : Nat)
  | adoptionSessionCommit (dt : Nat)
  | tetherLeadCheck (dt : Nat)
  | tetherStuck (dt : Nat)
  | tetherStuckClear (dt : Nat)
  | tetherIdClashClear (dt : Nat)
  | ident (dt : Nat) (crc : Byte)
  | openPort (dt : Nat) (arg : BitVec 32) (crc : Byte)
  | read (dt : Nat) (addr : BitVec 32) (len : Byte) (crc : Byte)
  | halt (dt : Nat) (crc : Byte)
  | resume (dt : Nat) (crc : Byte)
  | reset (dt : Nat) (crc : Byte)
  | erase (dt : Nat) (sector : BitVec 16) (crc : Byte)
  | program (dt : Nat) (addr : BitVec 32) (data : List Byte) (crc : Byte)
  | verify (dt : Nat) (crc : Byte)
  | blow (dt : Nat) (arg : Byte) (crc : Byte)
  | fuseBlowDone (dt : Nat)
  | serviceUnknownOpcode (dt : Nat) (opcode : Byte)
  | serviceFrameAbort (dt : Nat)
  | refinActivityChange (dt : Nat) (active : Bool)
  | keepDomainVbatLoss (dt : Nat)
  | leaveHoldoffEnd (dt : Nat)
  | eraseHoldEnd (dt : Nat)
  | flashEraseSuspend (dt : Nat)
  | scrubBurstEnd (dt : Nat)
deriving DecidableEq, Repr

end Sys2Proof
end

