-- ==== Sys2Proof/Decode.lean ====
section
/-! DEFINITION. The decoder. No row of `spec/opcode_table.json` gives bits, and the manual gives the block no words that
spell a command, so no word spells one (log 21). -/

namespace Sys2Proof

/-- The command that a word of `nbits` bits spells: none, because the table gives no row any bits. -/
def decodeTableWord (_nbits _w : Nat) : Option Instr := none

end Sys2Proof
end

