-- ==== Sys2Proof/Config.lean ====
section
/-! DEFINITION. What a part fixes and what the manual leaves open. Plain numbers are taken from the manual's tables;
every `opaque` constant has no body, so no proof can see a value of it: a statement holds whatever it is. -/

namespace Sys2Proof.Config

/-- One nanosecond in quarter-picoseconds (R11). -/
abbrev ns : Nat := 4000
/-- One microsecond in quarter-picoseconds (R11). -/
abbrev us : Nat := 4000000
/-- One millisecond in quarter-picoseconds (R11). -/
abbrev ms : Nat := 4000000000
/-- One second in quarter-picoseconds (R11). -/
abbrev sec : Nat := 4000000000000
/-- One coarse period of the 2.5 GHz timebase, 400 ps (R11). -/
abbrev coarse : Nat := 1600
/-- One back-die cycle of 3.2 ns, eight coarse periods (chapter 02, *The timebase*). -/
abbrev cycle : Nat := 12800

/-- The serial number, bits 63:0 (R438). Each part has its own; the manual gives none. Log 8. -/
opaque serial : BitVec 64
/-- The factory values in sectors 0x17C to 0x17F, which the manual does not lay out, by byte address (R517, R635, log 8). -/
opaque factoryByte : Nat → Byte
/-- The factory part of `path_delay[n]`, in qps (R191): held in sectors 0x17C to 0x17F, value and layout not given. Log 8. -/
opaque factoryPath : Chan → Int
/-- How much longer than the least time a stitch takes to the merge, in qps; the operands are the channel and the stitch's
number in its order of formation (R671 gives the least time, R26 the most; log 54). -/
opaque stageDelay : Chan → Nat → Nat
/-- How much longer than the least time a stitch then takes into the snapshot mirror, in qps (R671, R26; log 54). -/
opaque mirrorDelay : Chan → Nat → Nat
/-- Whether a gap of 9 s to 11 s before an edge passes the gap test before PLL lock, where the 10 s are timed to within
±10 % (R169); the operand is the clock value of the edge (log 55). -/
opaque gapPasses : Nat → Bool
/-- Where the coarse boundaries of a PLL that locked at this clock value lie, modulo one coarse period: the phase is
arbitrary (R48, log 63). -/
opaque pllPhase : Nat → Nat
/-- How far the epoch lies from the PPS_IN edge of this clock value, in qps, within the bound its rise time gives (R50, R644,
log 61). -/
opaque ppsError : Nat → Int
/-- The rise time from 20 % to 80 % of the PPS_IN edge of this clock value, in ps (R644, log 61). -/
opaque ppsRise : Nat → Nat
/-- A choice the manual leaves open, one for each value of the state's counter `free` (log 4): whether a pulse under the
minimum width counts (R154), whether a pulse of 200 to 300 ps is flagged (R155), whether a short presentation latches (R433),
whether a level on a live pin between its two limits is recognised (R97). -/
opaque freeBit : Nat → Bool
/-- A byte the manual leaves open (log 4): what a read of an uncorrectable flash word returns (R518). -/
opaque freeByte : Nat → Byte
/-- A value the manual leaves open (log 4), as a natural number: how far a run was that the PLL's unlock ended, its RREF
figure and its mean temperature (R505), a word on SD presented too briefly (R433), how far a cut-off flash operation or scrub
burst came (R386, R518, R523), the instants of PKT (R423), the time of an erase and the retries of a program within a step
(R522, R545). -/
opaque freeNat : Nat → Nat
/-- Whether a value that lies halfway between two whole numbers rounds to the upper one: the manual says that it rounds,
and not which way (log 16). -/
opaque tieUp : Rat → Bool
/-- Whether a quantity given in a unit it is no whole number of is given with the upper neighbour: the manual names the
unit, and not the rounding (log 16). The operands are the quantity and the unit, both in the same measure. -/
opaque unitUp : Nat → Nat → Bool
/-- The statistics engine's own error for an exact result, in units of the encoding, within the bound of R269 (log 16). -/
opaque engineError : Rat → Int
/-- An order among the elements that R489 or R490 leaves equal; the operands are what the run measured and the element's
number (log 25). -/
opaque tieRank : List Nat → Nat → Int
/-- Whether the set below is taken where two sets lie equally near to a die temperature (R513, log 25). -/
opaque takesBelow : Int → Bool
/-- Columns of K28.5 beyond the least number of R403 that go before a skein begun at a clock value: R403 gives bounds
alone (log 53). -/
opaque idleColumns : Nat → Nat
/-- Peak integral nonlinearity in 0.01 ps of a code-density test's hits: the report carries it (R352), and the manual gives
no formula for it (log 25). -/
opaque peakInl : List Nat → Nat

end Sys2Proof.Config
end

