-- ==== Sys2Proof/Machine/State.lean ====
section
/-! DEFINITION. The state of the block as plain data, the reasons a step can stop, and the state right after reset.
Each field's comment gives its width, the rule that names it and its value at reset; `INVENTORY.md` lists the same.
A part below that stands in a domain a full reset powers down has a `.reset` of its own, which `RESET_ASSERT` writes. -/

namespace Sys2Proof.Machine
open Sys2Proof

/-- The machine stops with a fault. NOBODY RAISES ONE: the manual gives every command of the table an effect or says
that it has none, so the type is empty and no step can answer `.fault` (log 5). Safe. -/
inductive Fault where
deriving DecidableEq, Repr

/-- No meaning for the command. -/
inductive Refusal where
  /-- The dispatcher's arm of a command that is not modelled yet raises it. Safe: the machine stops. -/
  | notModelled (mnemonic : String)
deriving DecidableEq, Repr

/-! ## Records -/

/-- A 16-byte record (R330, R331), in the fields of its kind. -/
inductive Stitch where
  /-- kinds 0x00 to 0x03 (R334) -/
  | edge (ch : Chan) (angleState : BitVec 2) (time : BitVec 64) (count : BitVec 40) (angle : BitVec 16)
  /-- kinds 0x04 to 0x07 (R334) -/
  | tick (ch : Chan) (angleState : BitVec 2) (time : BitVec 64) (count : BitVec 40) (angle : BitVec 16)
  /-- kind 0x08 (R344) -/
  | value (ch : Chan) (v : BitVec 64) (aux : BitVec 32) (index status code : Byte)
  /-- kind 0x09 (R340) -/
  | headEnd (ch : Chan) (time : BitVec 64) (count : BitVec 48) (flags : Byte)
  /-- kind 0x0A (R341) -/
  | headStart (ch : Chan) (length gateCount : BitVec 44) (stamps : BitVec 32)
  /-- kind 0x10 (R293) -/
  | gap (ch : Chan) (time : BitVec 64) (count : BitVec 40) (dropped : BitVec 16)
  /-- kind 0x11 (R337): part 0 is `false` -/
  | calGap (ch : Chan) (time : BitVec 64) (count : BitVec 40) (part rejoin : Bool)
  /-- kind 0x12 (R339) -/
  | brace (time : BitVec 64) (part : Bool) (cycles : BitVec 40)
  /-- kind 0x13 (R182) -/
  | yarnStart (ch : Chan) (time : BitVec 64) (count : BitVec 40) (yarn : BitVec 16)
  /-- kind 0x14 (R182) -/
  | yarnEnd (ch : Chan) (time : BitVec 64) (count : BitVec 40) (yarn : BitVec 16)
  /-- kind 0x15 (R392) -/
  | flush (time : BitVec 64) (discarded : BitVec 32) (raw shelf : Bool)
  /-- kind 0x16, queue 1 (R300) -/
  | queueReset (time : BitVec 64) (stitches markers : BitVec 16) (mask : Byte)
  /-- kind 0x16, queues 2 and 3 (R389) -/
  | storeReset (time : BitVec 64) (discarded : BitVec 32) (st : StoreId)
  /-- kind 0x17 (R233) -/
  | phase (time : BitVec 64) (interval : BitVec 40) (event type : BitVec 2)
  /-- kind 0x18 (R422) -/
  | again (time : BitVec 64) (seq : BitVec 32) (session : BitVec 16)
  /-- kind 0x19 (R101, R336) -/
  | drift (time : BitVec 64) (reading : BitVec 16) (pin dir latched observed : Byte)
deriving DecidableEq, Repr

/-- A record on its way to the packer: the session it was formed in and its full time (R45). -/
structure Item where
  st : Stitch
  session : BitVec 16
  full : Nat
deriving DecidableEq, Repr

/-- An entry of the merge: the stitch, and its number in the order its channel formed stitches (log 10). -/
structure MergeEntry where
  item : Item
  no : Nat
deriving DecidableEq, Repr

/-- A stamp as the stamp engine forms it and the statistics engine keeps it (R204, R251). -/
structure StampRec where
  full : Nat
  count : BitVec 48
  angle : BitVec 16
  angleState : BitVec 2
  /-- instant of the tick that armed it, full time -/
  tick : Nat
  /-- it is an edge stamp -/
  isEdge : Bool
  /-- session and yarn it was formed in -/
  session : BitVec 16
  yarn : BitVec 16
  /-- the stretches of stamping of every channel as it formed: no sample spans two (R253) -/
  segs : Per8 Nat
deriving DecidableEq, Repr

/-- A stitch on its way from its edge or expiry instant to the statistics engine and the merge (R25, R671): its angle and
angle state are captured at `captureAt` (R204), and it arrives at both at `at_`. -/
structure Flight where
  stamp : StampRec
  slots : List (Fin 16)
  no : Nat
  captureAt : Nat
  /-- angle and angle state have been captured -/
  taken : Bool
  at_ : Nat
deriving DecidableEq, Repr

/-- A drop run (R292): the refusal that began it, the refusals counted, and the formation numbers of the stitch refused
first and of the latest-formed one (log 10). -/
structure DropRun where
  time : BitVec 64
  count : BitVec 40
  refused : Nat
  lowNo : Nat
  highNo : Nat
  session : BitVec 16
deriving DecidableEq, Repr

/-- A readied gap marker in its channel's register (R293, R294), and the cycle in which it was readied. -/
structure GapReg where
  item : Item
  lowNo : Nat
  highNo : Nat
  since : Nat
deriving DecidableEq, Repr

/-- The body of a skein. -/
inductive Body where
  /-- raw: the count-high word (R311) and the records -/
  | raw (high : Per8 Byte) (recs : List Stitch)
  /-- summary: result stitches -/
  | results (recs : List Stitch)
  /-- a control skein's bytes -/
  | bytes (b : List Byte)
deriving DecidableEq, Repr

/-- A closed skein (R323, R324). The wire form, with its CRC, is `Skein.wire` in `Machine/Formats.lean`. -/
structure Skein where
  /-- TYPE (R325) -/
  typ : BitVec 6
  session : BitVec 16
  era : BitVec 16
  /-- sequence number (R318) -/
  seq : BitVec 32
  /-- unit ID (R324) -/
  unit : BitVec 4
  tsb : Byte
  tsh : BitVec 16
  /-- close reason (R309) -/
  reason : BitVec 3
  /-- FLAGS[30] (R309) -/
  cont : Bool
  body : Body
  /-- closed as part of an introduction, so it goes to the introduction store (R359) -/
  intro : Bool
  /-- place in close order, which orders the drain (R417) -/
  closeNo : Nat
  /-- cycle in which it closed, which orders the numbers of one cycle (R318) -/
  inCycle : Nat
deriving DecidableEq, Repr

/-! ## Time, keep domain, straps -/

/-- The start reasons of R579 as the session start record carries them, and what else it carries (R62). -/
structure StartRecord where
  newSession : BitVec 16
  prevSession : BitVec 16
  reason : Byte
  source : BitVec 2
  keepLost : Bool
  offTicks : BitVec 40
  originId : BitVec 4
  originSession : BitVec 16
  leadId : BitVec 4
  swOldTime : BitVec 64
  swOldEra : BitVec 16
  swNewTime : BitVec 64
  swNewEra : BitVec 16
  swCounts : Per8 (BitVec 48)
deriving DecidableEq, Repr

/-- The timebase, the epoch and the session (chapter 02). -/
structure Timebase where
  /-- PLL enabled at the PLL step. 1 bit; 18 R583; reset off. -/
  pllOn : Bool
  /-- PLL locked. 1 bit; 02 R39; reset unlocked. -/
  locked : Bool
  /-- instant of lock, from which the 1 ms and the 2.5 s run. clock; 02 R48, R51; reset 0 (log 1). -/
  lockAt : Nat
  /-- REFIN activity. 1 bit; 02 R75, 21 R643; reset none (log 1). -/
  refin : Bool
  /-- later of reaching the PLL step and the last change of REFIN activity. clock; 02 R75; reset 0 (log 1). -/
  refinAt : Nat
  /-- epoch set: the time counter runs. 1 bit; 02 R48, 13 R438; reset 0. -/
  epochSet : Bool
  /-- time counter, qps since the session epoch. 64 bits; 02 R46, R68; reset 0. -/
  time : BitVec 64
  /-- era. 16 bits; 02 R67, R68; reset 0. -/
  era : BitVec 16
  /-- a wrap has occurred on the present scale. 1 bit; 02 R70; reset 0. -/
  wrapped : Bool
  /-- clock at the session epoch of the start-up. clock; 02 R48; reset 0 (log 1). -/
  epochClock : Nat
  /-- session number. 16 bits; 02 R56, 13 R451; reset 0 until the commit. -/
  session : BitVec 16
  /-- session number valid: the commit of R58 has completed. 1 bit; 13 R438; reset 0. -/
  sessionValid : Bool
  /-- an adopted session number waits for its flash commit. 1 bit; 02 R59; reset 0. -/
  commitOwed : Bool
  /-- session, era, time counter and wrap of the scale an adoption replaced. 16, 16, 64, 1 bits; 02 R70, R615; reset 0. -/
  oldSession : BitVec 16
  oldEra : BitVec 16
  oldTime : BitVec 64
  oldWrapped : Bool
  /-- session start record of the present session. 88 bytes; 02 R62; reset zeros. -/
  start : StartRecord
  /-- origin of the time scale, unit ID and session. 4 and 16 bits; 19 R609; reset 0. -/
  originId : BitVec 4
  originSession : BitVec 16
  /-- timebase holdover. 1 bit; 02 R42; reset 0. -/
  holdover : Bool
  /-- entry and exit time of the most recent holdover of the session. 64 bits each; 10 R348; reset 0. -/
  holdEntry : BitVec 64
  holdExit : BitVec 64
  /-- most recent PPS offset, signed. 64 bits; 02 R53; reset 0. -/
  ppsOffset : BitVec 64
  /-- last PPS_IN edge captured at or after the epoch. clock or none; 02 R54; reset none. -/
  lastPps : Option Nat
  /-- a gap of more than 1.5 s has been reported since that edge. 1 bit; 02 R54; reset 0. -/
  gapSaid : Bool
  /-- PPS edges after the start-up epoch. count; 19 R612; reset 0. -/
  ppsCount : Nat
deriving DecidableEq, Repr

/-- The keep domain (chapter 02), which a full reset leaves powered. -/
structure Keep where
  /-- copy of the session row counter. 44 bits; 02 R57; reset 0 (log 1). -/
  copy : Nat
  /-- the copy's check word is valid. 1 bit; 02 R57, R58; reset invalid: VBAT has never been present (log 1). -/
  valid : Bool
  /-- off-tick counter. 40 bits; 02 R63, R64; reset 0. -/
  offTicks : BitVec 40
  /-- the off-tick counter counts: a break between sessions. 1 bit; 02 R63; reset counting. -/
  counting : Bool
  /-- VBAT was lost during the break. 1 bit; 02 R66; reset lost (log 1). -/
  lost : Bool
  /-- recorded cause of the last full reset. 8 bits; 18 R580; reset 0x01. -/
  cause : Byte
  /-- assertion of the full reset in force. clock; 18 R580, R582; reset 0 (log 1). -/
  assertedAt : Nat
  /-- end of the back-die cycle of that assertion. clock; 18 R580; reset 0 (log 1). -/
  assertedTo : Nat
deriving DecidableEq, Repr

/-- The strap image of one coded pin (R95). -/
structure PinImage where
  raw : BitVec 4
  applied : BitVec 4
  amb : Bool
  reading : BitVec 16
deriving DecidableEq, Repr

/-- The drift state of one latched pin (R100). -/
structure DriftPin where
  /-- what the previous drift-check read gave: some true if it differed from the latched state -/
  prev : Option Bool
  inDrift : Bool
deriving DecidableEq, Repr

/-- The strap image and the drift check (chapter 03). -/
structure Strap where
  /-- strap image latched. 1 bit; 03 R86; reset 0. -/
  latched : Bool
  /-- image of the 22 coded pins, in pin index order. 25 bits each; 03 R95; reset empty: none read yet (log 1). -/
  pins : List PinImage
  /-- latched SBYTE level. 1 bit; 03 R98; reset 0. -/
  sbyte : Bool
  /-- strap read failed. 1 bit; 03 R87, 04 R142; reset 0. -/
  failed : Bool
  /-- clock at the strap latch. clock; 03 R99; reset 0 (log 1). -/
  at_ : Nat
  /-- second of the drift check last begun, counted from the strap latch, and the pins of it that are done. count, 5 bits;
  03 R99; reset 0. -/
  driftSec : Nat
  driftDone : Nat
  /-- first pin of a drift check that a stall has carried past its second and that is still to be made. 5 bits or none;
  01 R30; reset none. -/
  driftOwed : Option Nat
  /-- drift state of the 23 latched pins; the drift mask is its `inDrift` bits. 2 bits each; 03 R100, R103; reset empty. -/
  drift : List DriftPin
deriving DecidableEq, Repr

/-! ## Channels -/

/-- Channel states (R165). -/
inductive ChanState where
  | disabled
  | absentDown
  | absentUp
  | qualified
  | joining
  | present
  | suspended
deriving DecidableEq, Repr

/-- A detected loss that firmware has not handled yet (R176, R177). -/
structure LossRec where
  time : BitVec 64
  full : Nat
  count : BitVec 48
  session : BitVec 16
deriving DecidableEq, Repr

/-- One channel: front part, domain, stamp engine, merge entries (chapters 05, 06, 09). -/
structure Channel where
  /-- channel state. 4 bits; 05 R165; reset disabled: nothing is powered. -/
  st : ChanState
  /-- the absent state a qualified channel came from is state 2. 1 bit; 05 R173; reset 0. -/
  fromUp : Bool
  /-- channel domain powered. 1 bit; 17 R555; reset 0. -/
  up : Bool
  /-- the domain has been powered for a join and has not settled. 1 bit; 05 R170, R171; reset 0. -/
  settling : Bool
  /-- event counter. 48 bits; 05 R149, 06 R187; reset 0. -/
  count : BitVec 48
  /-- last active edge. clock or none; 05 R168, R175; reset none. -/
  lastEdge : Option Nat
  /-- last 64 intervals between active edges, newest first. 64 durations; 05 R175; reset empty. -/
  intervals : List Nat
  /-- consecutive stable edges. 7 bits; 05 R169; reset 0. -/
  stable : Nat
  /-- yarn ID. 16 bits; 05 R181; reset 0. -/
  yarn : BitVec 16
  /-- detected loss waiting for the firmware. record or none; 05 R177; reset none. -/
  loss : Option LossRec
  /-- entry into state 2. clock; 05 R178; reset 0 (log 1). -/
  absentAt : Nat
  /-- instant the 10 s of fault 0x11 run from. clock; 05 R164; reset 0 (log 1). -/
  missingAt : Nat
  /-- positive and negative peak at the comparator as held when last used, in µV. signed; 05 R158, R163, R168; reset 0 (log 1). -/
  peakPos : Int
  peakNeg : Int
  /-- reported peaks at the probe tip, in mV. 16 bits signed each; 05 R163; reset 0 (log 1). -/
  repPos : Int
  repNeg : Int
  /-- threshold DAC code. 12 bits signed; 05 R156, R160; reset 0 (log 1). -/
  dac : Int
  /-- auto-level: the peaks have once held 50 mV. 1 bit; 05 R160; reset 0. -/
  levelled : Bool
  /-- auto-level: the midpoint is clipped. 1 bit; 05 R161; reset 0. -/
  clipped : Bool
  /-- pending flag. 1 bit; 06 R195; reset 0. -/
  pending : Bool
  /-- instant of the pending tick and the tick that armed it, full time; slots that armed it. 06 R197, 08 R252; reset 0. -/
  tickAt : Nat
  tickSlots : List (Fin 16)
  /-- last taken tick. full time or none; 06 R196; reset none. -/
  lastTick : Option Nat
  /-- a tick stamp has been formed since the last edge stamp or entry into state 5. 1 bit; 06 R199; reset 0. -/
  tickStamped : Bool
  /-- expired-tick counter. 32 bits; 06 R200; reset 0. -/
  expired : BitVec 32
  /-- crossing of the last stamped edge, for the busy window. clock or none; 06 R197; reset none. -/
  stampedAt : Option Nat
  /-- stitches formed that have not reached the merge, oldest first. records; 01 R671; reset empty. -/
  flights : List Flight
  /-- merge entries, oldest first. up to 4; 06 R211, R212; reset empty. -/
  merge : List MergeEntry
  /-- cycle of the last change of the merge entries, and how many were occupied as it began. cycle, count; 09 R292; reset 0. -/
  mergeBegan : Nat × Nat
  /-- stitches formed, which numbers them. count; log 10; reset 0. -/
  formed : Nat
  /-- open drop run. record or none; 09 R292; reset none. -/
  run : Option DropRun
  /-- cycle of the last refusal. cycle or none; 09 R292; reset none. -/
  refusedAt : Option Nat
  /-- gap marker register. record or none; 09 R296; reset empty. -/
  gapReg : Option GapReg
  /-- mirrored stitch. 16 bytes or none; 13 R434; reset none. -/
  mirror : Option Stitch
  /-- stitches on their way into the mirror, oldest first, each with the clock from which it can be read. 01 R671; reset
  empty. -/
  mirrorNext : List (Nat × Stitch)
  /-- full time and count captured at the start of the channel's calibration suspension. record or none; 10 R337; reset none. -/
  susp : Option (Nat × BitVec 48)
  /-- instant of the last entry into state 5, full time. 06 R208; reset 0 (log 1). -/
  presentAt : Nat
  /-- channel of the start-up channel step, until it starts its yarn. 1 bit; 05 R179; reset 0. -/
  startJoin : Bool
deriving DecidableEq, Repr

/-! ## Statistics engine -/

/-- Accumulated terms of one τ within a gate (R273, R275). -/
structure TauAcc where
  m : Nat
  aSum : Rat
  aN : Nat
  mSum : Rat
  mN : Nat
deriving DecidableEq, Repr

/-- One angle bin of a gate (R276). -/
structure BinAcc where
  j : Nat
  n : Nat
  sum : Rat
deriving DecidableEq, Repr

/-- A gate (R261) with everything its summary is computed from. -/
structure Gate where
  ch : Chan
  /-- the interval it lies in (R259) -/
  interval : Nat
  start : Nat
  startCount : BitVec 48
  fin : Nat
  finCount : BitVec 48
  yarn : BitVec 16
  noYarn : Bool
  atYarnStart : Bool
  atYarnEnd : Bool
  cal : Bool
  holdover : Bool
  adoption : Bool
  phaseLoss : Bool
  saturated : Bool
  /-- edge stamps, oldest first: full time and count -/
  stamps : List (Nat × BitVec 48)
  samples : Nat
  sum : Rat
  sumSq : Rat
  minV : Option Rat
  maxV : Option Rat
  excluded : Nat
  bins : List BinAcc
  taus : List TauAcc
  /-- R of recipe 14 (R259) -/
  rRatio : Option Rat
  /-- last phase sample, and T_ref as the gate's first one defined it (R256, R257) -/
  lastPhase : Option Rat
  tRef : Option Rat
  session : BitVec 16
deriving DecidableEq, Repr

/-- The phase history of a yarn (R271). -/
structure PhaseHist where
  /-- session and yarn it belongs to -/
  owner : BitVec 16 × BitVec 16
  /-- tick index of the first point and its time and count -/
  first : Option (Nat × Nat × BitVec 48)
  /-- Δt and ΔN of the first two points, which fix ν0 -/
  nu : Option (Nat × Nat)
  /-- points x_k, newest first -/
  points : List (Nat × Rat)
deriving DecidableEq, Repr

/-- The difference points of recipe 14 (R275). -/
structure DiffHist where
  /-- session, yarn of the channel and yarn of CH0 they belong to -/
  owner : BitVec 16 × BitVec 16 × BitVec 16
  points : List (Nat × Rat)
deriving DecidableEq, Repr

/-- The engine's state of one channel (chapter 08). -/
structure Stat where
  /-- stretch of stamping: it ends with state 5 and at an epoch adoption. count; 08 R253; reset 0. -/
  seg : Nat
  /-- the two most recent stitches a sample can be formed from. records or none; 08 R253; reset none. -/
  cur : Option StampRec
  prev : Option StampRec
  /-- the reference channel's stamps armed by the ticks of those two. records or none; 08 R255; reset none. -/
  curRef : Option StampRec
  prevRef : Option StampRec
  /-- open gate. record or none; 08 R261; reset none. -/
  gate : Option Gate
  /-- the channel has had a gate in the present interval. 1 bit; 08 R262; reset 0. -/
  gated : Bool
  /-- what the head of a channel without a gate has to tell of the present interval. record or none; 08 R262, R263; reset
  none. -/
  span : Option Gate
  /-- boundary sample of the event counter at the start of the present interval, and that instant. 48 bits; 08 R260; reset 0. -/
  boundCount : BitVec 48
  boundAt : Nat
  /-- phase history. record; 08 R271; reset empty. -/
  hist : PhaseHist
  /-- difference history of recipe 14. record; 08 R275; reset empty. -/
  diff : DiffHist
  /-- R of recipe 14. value or none; 08 R259; reset none. -/
  rRatio : Option Rat
  /-- mirrored sample value. 64 bits; 13 R434; reset 0. -/
  sample : BitVec 64
  /-- a sample has been formed in the present yarn. 1 bit; 13 R439; reset 0. -/
  sampled : Bool
  /-- mirrored primary value, its valid flag, and a summary has been formed. 64, 1, 1 bits; 08 R286; reset 0. -/
  primary : BitVec 64
  primaryValid : Bool
  summarised : Bool
  /-- source value for the outputs. value or none; 08 R285; reset none. -/
  src : Option Rat
  /-- vector components of the most recent summary with a valid vector. values or none; 08 R285; reset none. -/
  vec : Option (Rat × Rat)
  /-- the most recent summary held an invalid vector. 1 bit; 14 R472; reset 0. -/
  vecBad : Bool
  /-- last formed gate of the interval (CH0, for the common gate). records; 08 R673; reset empty. -/
  closed : List Gate
deriving DecidableEq, Repr

/-- A result on its way to the packer (R315). -/
structure Result where
  st : Stitch
  last : Bool
  ch : Chan
  yarn : BitVec 16
  session : BitVec 16
  era : BitVec 16
deriving DecidableEq, Repr

/-- The part of the statistics engine that serves all channels. -/
structure Engine where
  /-- number of the interval being gathered. count; 08 R259; reset 0. -/
  interval : Nat
  /-- ended gates waiting for the arithmetic, in the order of R281. records; 08 R282; reset empty. -/
  ended : List Gate
  /-- results of the summary being handed over that have not entered the result queue. records; 08 R283; reset empty. -/
  outgoing : List Result
  /-- result queue. up to 16 entries; 09 R315; reset empty. -/
  queue : List Result
deriving DecidableEq, Repr

/-! ## Chain stitch and packer -/

/-- The chain stitch and the marker input (chapter 09). -/
structure Chain where
  /-- stages from the head; the valid bit of stage i is 1 exactly for i below its length. up to 64 × 128 bits; 09 R287; reset empty. -/
  items : List Item
  /-- entry pointer, two copies. 7 bits each; 09 R298; reset 0. -/
  entryA : BitVec 7
  entryB : BitVec 7
  /-- exit pointer, two copies. 7 bits each; 09 R298; reset 0. -/
  exitA : BitVec 7
  exitB : BitVec 7
  /-- a pointer mismatch waits for its queue reset: instant of detection. record or none; 09 R299; reset none. -/
  mismatch : Option (BitVec 64)
  /-- queue reset markers of the stores at the marker input. records; 11 R389; reset empty. -/
  resets : List Item
  /-- marker buffer. up to 8 entries; 09 R296; reset empty. -/
  buffer : List Item
  /-- hardware markers at their source. records; 09 R297; reset empty. -/
  hwWait : List Item
  /-- firmware markers not yet placed. records; 09 R297; reset empty. -/
  fwWait : List Item
  /-- cycles of the last 8 merge moves, newest first. 06 R211; reset empty. -/
  moves : List Nat
  /-- cycle in which an item last entered. cycle or none; 09 R288; reset none. -/
  entered : Option Nat
  /-- cycle in which an item last entered or left, and the items held as it began. cycle, count; 09 R292; reset 0. -/
  began : Nat × Nat
  /-- aggregate refusal counter. 32 bits; 09 R295; reset 0. -/
  refusals : BitVec 32
deriving DecidableEq, Repr

/-- The open raw skein. -/
structure RawOpen where
  session : BitVec 16
  era : BitVec 16
  recs : List Stitch
  high : Per8 (Option Byte)
  firstAt : Nat
deriving DecidableEq, Repr

/-- The open summary skein. -/
structure SumOpen where
  ch : Chan
  yarn : BitVec 16
  session : BitVec 16
  era : BitVec 16
  recs : List Stitch
  cont : Bool
deriving DecidableEq, Repr

/-- A control skein the firmware has written and not yet closed (R317). -/
structure Ctl where
  typ : BitVec 6
  body : List Byte
  intro : Bool
deriving DecidableEq, Repr

/-- The packer (chapter 09). -/
structure Packer where
  /-- open raw skein. record or none; 09 R303; reset none. -/
  rawOpen : Option RawOpen
  /-- open summary skein. record or none; 09 R315; reset none. -/
  sumOpen : Option SumOpen
  /-- head stitches of the summary being framed. records; 08 R280; reset empty. -/
  heads : List Stitch
  /-- closed raw and summary skeins without a number. records; 09 R320; reset empty. -/
  unnumbered : List Skein
  /-- released skeins the cabinet controller has not taken, in sequence order. records; 09 R319; reset empty. -/
  released : List Skein
  /-- control skeins waiting for the control buffer. records; 09 R317; reset empty. -/
  ctlQueue : List Ctl
  /-- next sequence number of the session. 32 bits; 09 R318; reset 0. -/
  seq : BitVec 32
  /-- next sequence number of the session an adoption ended. 32 bits; 09 R318; reset 0. -/
  oldSeq : BitVec 32
  /-- the session's start status and configuration echo have closed. 1 bit; 09 R320; reset 0. -/
  echoDone : Bool
  /-- the echo of the session an adoption ended had closed. 1 bit; 09 R320; reset 0. -/
  oldEchoDone : Bool
  /-- control skeins still carry the old session after an adoption. 1 bit; 11 R370; reset 0. -/
  ctlOld : Bool
  /-- adoptions so far, skeins numbered in the present session and in the one an adoption ended: the close order (R417).
  counts; 12 R417; reset 0. -/
  scale : Nat
  closed : Nat
  oldClosed : Nat
  /-- cycle of the last take from the chain stitch. cycle or none; 09 R301; reset none. -/
  takenAt : Option Nat
deriving DecidableEq, Repr

/-! ## Scheduler and follower -/

/-- An occupied slot of the scheduler. -/
structure Slot where
  task : Task
  /-- it issues only ticks due after this cycle (R670) -/
  after : Nat
  /-- the task it replaced in that cycle, whose ticks due then are issued (R241, R670) -/
  prev : Option Task
deriving DecidableEq, Repr

/-- What waits for the start of the next back-die cycle. -/
inductive Late where
  /-- a command on a slot that has issued in this cycle: a task, or a cancel (R243) -/
  | slot (i : Fin 16) (t : Option Task)
  /-- a reference event, with its low time, or a quarter-line step after slot 0's angle task has issued in this cycle
  (R243) -/
  | event (low : Nat)
  | step (q : QuadStep)
  /-- the end of a suspension: its calibration gap markers (R505) -/
  | gap (ch : Chan) (rejoin : Bool)
  /-- the start of a rejoin run (R504) -/
  | rejoin (ch : Chan)
deriving DecidableEq, Repr

/-- The scheduler (chapter 07). -/
structure Sched where
  /-- 16 slots. task or empty each; 07 R237; reset empty. -/
  slots : List (Option Slot)
  /-- cycle of the last switch between slots 0 and 2. cycle or none; 07 R241; reset none. -/
  switched : Option Nat
  /-- last output update. clock or none; 04 R116; reset none. -/
  updatedAt : Option Nat
  /-- slot whose last cancel landed in this cycle. 07 R244; reset none. -/
  cancelled : List (Fin 16 × Nat)
  /-- slot that last issued a tick or an output update in this cycle. 07 R243; reset none. -/
  ticked : List (Fin 16 × Nat)
  /-- commands that wait for the end of a stall, in the order they were issued. slot, with its task or none for a cancel;
  01 R30, 07 R669; reset none. -/
  owed : List (Fin 16 × Option Task)
  /-- what takes effect at the start of the next back-die cycle, in order. records; 07 R243, 15 R504, R505; reset empty. -/
  late : List Late
deriving DecidableEq, Repr

/-- The phase follower (chapter 07). -/
structure Follower where
  /-- follower state: 0 off, 1 not locked, 2 locked, 3 coasting. 2 bits; 07 R221; reset 0. -/
  st : BitVec 2
  /-- phase accumulator, its upper 16 bits the follower angle, at the instant `phaseAt`. 32 bits; 07 R222 to R224; reset 0 (log 1). -/
  phase : BitVec 32
  phaseAt : Nat
  /-- turn period in qps, the rate estimate. duration; 07 R223; reset 0 (log 1). -/
  period : Nat
  /-- last locked turn period in qps. duration; 07 R249; reset 0. -/
  lockedPeriod : Nat
  /-- clocks of the last reference events, newest first. up to 5; 07 R223; reset empty. -/
  events : List Nat
  /-- events that count toward acquisition. count; 07 R225; reset 0. -/
  acquired : Nat
  /-- last good reference event. clock; 07 R231; reset 0 (log 1). -/
  goodAt : Nat
  /-- good events in a row while coasting. count; 07 R230; reset 0. -/
  goodRun : Nat
  /-- quadrature: quarter-line count, learned line count, steps since the last index, steps since the last good index,
  last step and its period, direction. 07 R222, R226, R231; reset 0. -/
  quarter : Int
  lines : BitVec 16
  sinceIndex : Int
  stepsSinceGood : Nat
  stepAt : Nat
  stepPeriod : Nat
  stepForward : Bool
  /-- coast count, loss count. 16 bits each, saturating; 07 R249; reset 0. -/
  coasts : BitVec 16
  losses : BitVec 16
  /-- sine asymmetry in angle counts. 16 bits signed; 07 R249; reset 0. -/
  asym : Int
  /-- instant the 10 s of fault 0x29 run from. clock; 07 R250; reset 0 (log 1). -/
  unlockedAt : Nat
  /-- sine amplitude below 0.1 V. 1 bit; 07 R250; reset 0. -/
  weak : Bool
  /-- cycle in which the latest event, step, coast, loss or lock took effect, with the follower's angle of the cycle before
  it. cycle, 16 bits; 07 R235; reset 0 (log 1). -/
  heldAt : Nat
  heldAngle : Nat
deriving DecidableEq, Repr

/-! ## Cabinet and stream port -/

/-- A skein drop run of a store (R368). -/
structure StoreRun where
  time : BitVec 64
  firstSeq : BitVec 32
  n : Nat
deriving DecidableEq, Repr

/-- One FIFO store of the cabinet (chapter 11). -/
structure Store where
  /-- held skeins, oldest first. up to the store's capacity; 11 R360; reset empty. -/
  held : List Skein
  /-- write pointer, two copies. 26 bits each; 11 R387; reset 0. -/
  writeA : BitVec 26
  writeB : BitVec 26
  /-- read pointer, two copies. 26 bits each; 11 R387; reset 0. -/
  readA : BitVec 26
  readB : BitVec 26
  /-- held-bytes register. 27 bits; 11 R387; reset 0. -/
  bytes : Nat
  /-- bytes of skeins discarded from the middle, which the read pointer has still to pass: close number and length.
  11 R385, R387 (log 28); reset none. -/
  holes : List (Nat × Nat)
  /-- open skein drop run. record or none; 11 R368; reset none. -/
  run : Option StoreRun
  /-- skeins dropped since the last reset. 32 bits; 11 R377; reset 0. -/
  dropped : BitVec 32
  /-- a pointer mismatch waits for its store reset: instant of detection. 11 R388; reset none. -/
  mismatch : Option (BitVec 64)
deriving DecidableEq, Repr

/-- The cabinet controller (chapter 11). -/
structure Cabinet where
  raw : Store
  shelf : Store
  /-- introduction store. skeins, 16 KiB; 11 R359; reset empty. -/
  intro : List Skein
  /-- status skeins thinned. 32 bits; 11 R377; reset 0. -/
  thinned : BitVec 32
  /-- ECC words corrected. 32 bits; 11 R377; reset 0. -/
  corrected : BitVec 32
  /-- skeins discarded for ECC. 16 bits, saturating; 11 R377; reset 0. -/
  eccLost : BitVec 16
  /-- extended refresh active. 1 bit; 11 R381; reset 0. -/
  extRefresh : Bool
  /-- a refresh burst runs. 1 bit; 11 R381; reset 0. -/
  burst : Bool
  /-- start of the last refresh burst. clock or none; 11 R381; reset none. -/
  burstAt : Option Nat
  /-- end of the last scrub burst. clock; 11 R383; reset 0, counted from reset release (log 20). -/
  scrubAt : Nat
  /-- a scrub burst runs. 1 bit; 11 R384; reset 0. -/
  scrubbing : Bool
  /-- store the next scrub burst continues in. 11 R384; reset the raw ring. -/
  scrubIn : StoreId
  /-- bytes of that store's held skeins already scrubbed in this pass. count; 11 R384; reset 0. -/
  scrubPos : Nat
  /-- bytes of skeins still held that the burst in progress reads. count; 11 R384; reset 0. -/
  scrubLeft : Nat
  /-- a flush is requested. 1 bit; 11 R390; reset 0. -/
  flushing : Bool
  /-- closed skein drop runs whose marker the firmware has not closed. records; 11 R369; reset empty. -/
  runsClosed : List (StoreId × StoreRun)
deriving DecidableEq, Repr

/-- Stream port states (R408). -/
inductive Port where
  | off
  | down
  | align
  | introducing
  | drain
  | paused
  | standby
deriving DecidableEq, Repr

/-- Where a transmitted skein comes from. -/
inductive Src where
  | store (st : StoreId)
  | intro
deriving DecidableEq, Repr

/-- A transmission in progress. -/
structure Tx where
  src : Src
  skein : Skein
  /-- FLAGS[25] of the transmitted copy (R421) -/
  again : Bool
  /-- HOSTRDY was recognised low since its first column (R419) -/
  lowSeen : Bool
  /-- its skein has been discarded from the store while it was on the lanes: it counts as sent (R385) -/
  gone : Bool
deriving DecidableEq, Repr

/-- A transmission whose last column has left: a HOSTRDY recognised low in the same cycle still cuts it off (chapter 12,
*HOSTRDY low and the last column in one cycle*). -/
structure Ended where
  cycle : Nat
  tx : Tx
  /-- port state before -/
  st : Port
  /-- read pointer copies, holes and scrub position of the store before -/
  readA : BitVec 26
  readB : BitVec 26
  holes : List (Nat × Nat)
  scrubPos : Nat
  /-- bytes the read pointer passed -/
  freed : Nat
  /-- bytes the scrub burst in progress had still to read -/
  scrubLeft : Nat
  /-- a flush has taken effect since: its store no longer holds anything -/
  flushed : Bool
deriving DecidableEq, Repr

/-- The stream port (chapter 12). -/
structure Stream where
  /-- port state. 12 R408; reset down. -/
  st : Port
  /-- the state a pause came from. 12 R410; reset down. -/
  pausedFrom : Port
  /-- stream domain powered. 1 bit; 17 R555; reset 0. -/
  up : Bool
  /-- HOSTRDY recognised high. 1 bit; 12 R407; reset 0. -/
  host : Bool
  /-- HOSTRDY recognised low. clock; 12 R412; reset 0 (log 1). -/
  lowAt : Nat
  /-- transmission in progress. record or none; 12 R401; reset none. -/
  tx : Option Tx
  /-- cut-off skeins that are held, at most one of the cabinet and one of the introduction: where, session, sequence
  number. records; 12 R420; reset none. -/
  cut : List (Src × BitVec 16 × BitVec 32)
  /-- store of the last cabinet skein sent since entry into DRAIN. 12 R417; reset none. -/
  last : Option StoreId
  /-- alignment columns sent. 1 bit; 12 R402; reset 0. -/
  aligned : Bool
  /-- every skein of the introduction of this discovery has been written; closed but for those that wait for the
  control buffer. 1 bit; 12 R414; reset 0. -/
  introClosed : Bool
  /-- introduction skeins of this discovery not yet gathered: the descriptor waits for the first two. 12 R414; reset 0. -/
  introOwed : Bool
  /-- a short circuit has taken the port to DOWN and no HOSTRDY high has been recognised since. 1 bit; 12 R427; reset 0. -/
  shorted : Bool
  /-- PKT pulses given. count; 12 R423; reset 0. -/
  pkt : Nat
  /-- running disparity of each logical lane, as it stands before the columns being sent; positive is true. 4 × 1 bit;
  12 R399; reset negative. -/
  disparity : List Bool
  /-- the last transmission completed. record or none; 12 R419; reset none. -/
  ended : Option Ended
  /-- earliest first column of the next skein: 2 columns of K28.5 go before it. clock; 12 R403; reset 0. -/
  freeAt : Nat
  /-- K28.5 columns that go at least before the next skein. count; 12 R402, R403; reset 2. -/
  idleMin : Nat
  /-- the next skein was held when the last one ended, and no pause or loss has come since. 1 bit; 12 R403; reset 0. -/
  prompt : Bool
  /-- the last PKT pulse: from and to. clock; 12 R423; reset 0, 0. -/
  pktFrom : Nat
  pktTo : Nat
deriving DecidableEq, Repr

/-! ## Snapshot port -/

/-- What SD carries (R428, R431). -/
inductive Sd where
  | hiz
  | word (w : BitVec 16)
  | byte (b : Byte)
deriving DecidableEq, Repr

/-- A latched group (R443). -/
structure Latch where
  g : Group
  words : List (BitVec 16)
  /-- words read whole, and bytes read in 8-bit mode -/
  readLow : List Nat
  readHigh : List Nat
  /-- end of the last presentation of any of its words -/
  lastAt : Nat
deriving DecidableEq, Repr

/-- The words the firmware writes (R438, R449). -/
structure FwWords where
  flags : BitVec 32
  chanState : BitVec 32
  driftMask : BitVec 32
  heldFaults : BitVec 16
  lastFault : Byte
  die : BitVec 16
  cth : BitVec 16
  eraseTime : BitVec 16
  spares : Byte
  drawers : Byte
deriving DecidableEq, Repr

/-- The snapshot port (chapter 13). -/
structure Snap where
  /-- snapshot domain powered. 1 bit; 17 R555; reset 0. -/
  up : Bool
  /-- latched groups. records; 13 R443; reset none latched. -/
  latches : List Latch
  /-- load on each SD ball, in pF, which the board gives. 21 R642; reset: 30 (log 75), kept by a
  full reset. -/
  load : Nat
  /-- what the data balls SD carry while SCS_N and SOE_N are low. 16 bits or high impedance; 13 R428; reset high
  impedance. -/
  sd : Sd
  /-- end of the last presentation: SCS_N and SOE_N are both low until then. clock; 13 R428; reset 0 (log 1). -/
  selectedTo : Nat
  /-- status words as firmware last wrote them. 13 R438; reset 0. -/
  fw : FwWords
  /-- firmware version as the strap latch found it. 32 bits; 13 R438, R442; reset 0. -/
  version : BitVec 32
deriving DecidableEq, Repr

/-! ## Analog outputs -/

/-- Steps of an output (R469, R471). -/
inductive OutState where
  /-- off by strap, no source, waiting for trims or a value, or AO domain down: not established -/
  | idle
  /-- current mode: leave requested and not won -/
  | leaving
  /-- stage powering, range being set -/
  | powering
  /-- break-before-make interval -/
  | breaking
  /-- waiting for the update that connects -/
  | ready
  /-- driven -/
  | driven
  /-- in fault, retry pending -/
  | faulted
deriving DecidableEq, Repr

/-- What one output's block of a drawer holds (R529). -/
structure OutBlock where
  /-- selected segments, ascending -/
  segs : List Nat
  offsetTrim : Int
  gainTrim : Int
deriving DecidableEq, Repr

/-- An update of an output, with what it replaced. -/
structure Written where
  /-- cycle of the update. cycle; 14 R465; reset with the whole record absent. -/
  cycle : Nat
  /-- code before it. 18 bits; 14 R478; reset with the whole record absent. -/
  code : BitVec 18
  /-- saturated bit before it. 1 bit; 14 R471; reset with the whole record absent. -/
  saturated : Bool
  /-- last change of the code before it. clock; 14 R473; reset with the whole record absent. -/
  codeAt : Nat
deriving DecidableEq, Repr

/-- One analog output. -/
structure Output where
  /-- establishment state. 3 bits; 14 R469, R471; reset idle. -/
  st : OutState
  /-- end of the break-before-make interval. clock; 14 R469; reset 0 (log 1). -/
  breakUntil : Nat
  /-- captured centre. value or none; 14 R461; reset none. -/
  centre : Option Rat
  /-- DAC code last written. 18 bits; 14 R460; reset 0 (log 1). -/
  code : BitVec 18
  /-- last code clipped. 1 bit; 14 R460; reset 0. -/
  saturated : Bool
  /-- source values formed since the previous update, oldest first, each with its cycle. values; 14 R463; reset empty. -/
  values : List (Nat × Rat)
  /-- most recent source value of those before them. value or none; 14 R463; reset none. -/
  last : Option Rat
  /-- read-back mismatches in a row. count; 14 R474; reset 0. -/
  mismatches : Nat
  /-- last valid read-back. clock; 14 R471; reset 0 (log 1). -/
  readAt : Nat
  /-- last change of the code. clock; 14 R473; reset 0 (log 1). -/
  codeAt : Nat
  /-- connection. clock; 14 R480; reset 0 (log 1). -/
  connectedAt : Nat
  /-- detection of the last fault. clock; 14 R479; reset 0 (log 1). -/
  faultAt : Nat
  /-- retry wait in s. 7 bits; 14 R479; reset 1. -/
  wait : Nat
  /-- the last update and what it replaced: a fault of the same cycle wins over it. record or none; 14 R478; reset none. -/
  wrote : Option Written
  /-- trims in force at the pin. output block or none; 14 R466; reset none. -/
  trims : Option OutBlock
deriving DecidableEq, Repr

/-- The AO domain. -/
structure AoDomain where
  /-- AO domain powered. 1 bit; 17 R555; reset 0. -/
  up : Bool
  outs : Per2 Output
deriving DecidableEq, Repr

/-! ## Calibration and flash -/

/-- What one channel's block of a drawer holds (R529). -/
structure ChanBlock where
  /-- selected delay cells, ascending -/
  cells : List Nat
  /-- 256 corrections in qps -/
  table : List Nat
  interTerm : Int
  bias : BitVec 16
  /-- spare ladder legs in use, bits 3:0 -/
  legs : BitVec 16
  offsetTrim : Int
deriving DecidableEq, Repr

/-- A calibration set: a drawer, the session drawer or the working correction set. -/
structure CalSet where
  /-- run temperature in 1/128 °C -/
  temp : Int
  chans : Per8 (Option ChanBlock)
  outs : Per2 (Option OutBlock)
deriving DecidableEq, Repr

/-- Why a run was asked for (R493). -/
inductive Trigger where
  | startup
  | calPin
  | temperature
  | join
deriving DecidableEq, Repr

/-- A run in progress. -/
structure Run where
  /-- `none` for a full run, the channel for a rejoin run -/
  rejoin : Option Chan
  trigger : Trigger
  /-- time and full time at which the suspension began -/
  startTime : BitVec 64
  startClock : Nat
  /-- channels it calibrates -/
  mask : Per8 Bool
  /-- outputs it calibrates -/
  outMask : Per2 Bool
  /-- die temperature readings of its suspension: their sum and their number (R494) -/
  dieSum : Int
  dieN : Nat
deriving DecidableEq, Repr

/-- A finished run whose result waits to be committed or whose report waits to be closed (R502). -/
structure RunResult where
  rejoin : Option Chan
  trigger : Trigger
  startTime : BitVec 64
  endTime : BitVec 64
  mask : Per8 Bool
  outMask : Per2 Bool
  rref : Nat
  temp : Int
  set : CalSet
  chans : Per8 (Option ChanMeas)
  outs : Per2 (Option OutMeas)
  session : BitVec 16
  abandoned : Bool
deriving DecidableEq, Repr

/-- Self-calibration (chapter 15). -/
structure Cal where
  /-- pending full run and the trigger of the request that arrived first. 15 R496; reset none. -/
  pending : Option Trigger
  /-- pre-check in progress, and its start. clock or none; 15 R487; reset none. -/
  checking : Option Nat
  /-- last pre-check failed, and when. clock or none; 15 R488; reset none. -/
  failedAt : Option Nat
  /-- pre-check of the pending run passed. 1 bit; 15 R486; reset 0. -/
  passed : Bool
  /-- a pre-check has passed for the next rejoin run. 1 bit; 15 R486; reset 0. -/
  joinPassed : Bool
  /-- channel whose rejoin run waits for the PLL. channel or none; 15 R486; reset none. -/
  joinWaits : Option Chan
  /-- run in progress. record or none; 15 R498, R503; reset none. -/
  run : Option Run
  /-- results waiting for their commit and report. records; 15 R502; reset empty. -/
  results : List RunResult
  /-- run temperature of the last completed full run of the session. 1/128 °C or none; 15 R494; reset none. -/
  lastTemp : Option Int
  /-- end of the last full run. clock or none; 15 R495; reset none. -/
  lastEnd : Option Nat
  /-- end time and die temperature of the most recent run of the session. 64 and 16 bits; 10 R348; reset 0. -/
  lastEndTime : BitVec 64
  lastDie : Int
  /-- session drawer. record or none; 15 R511; reset none. -/
  sessionDrawer : Option CalSet
  /-- working correction set in use and the temperature it was built at. records or none; 15 R192, R514; reset none. -/
  work : Option CalSet
  builtAt : Int
  /-- which of the two banks is in use. 1 bit; 06 R193; reset 0. -/
  bank : Bool
  /-- cycle at whose start the last bank swap takes effect, and the set of the other bank. cycle, record or none; 06 R193;
  reset 0 and none. -/
  swapAt : Nat
  other : Option CalSet
  /-- RREF as the most recent full run of the session measured it, in mΩ. 32 bits; 15 R503; reset 0. -/
  lastRref : Nat
  /-- body of the most recent calibration report of the session. 176 bytes or none; 12 R414; reset none. -/
  report : Option (List Byte)
  /-- the start-up run has ended or been abandoned. 1 bit; 15 R507; reset 0. -/
  startupDone : Bool
  /-- output trims are available. 1 bit; 14 R468; reset 0. -/
  trims : Bool
  /-- start of the calibration step of start-up. clock; 15 R507; reset 0 (log 1). -/
  stepAt : Nat
deriving DecidableEq, Repr

/-- A flash operation (R520). -/
inductive FlashKind where
  | erase (sector : Nat)
  | program (addr : Nat) (data : List Byte)
deriving DecidableEq, Repr

/-- A flash operation in progress or suspended. -/
structure FlashOp where
  kind : FlashKind
  /-- started by the service engine (R627) -/
  service : Bool
  /-- journal entry of an erase: its index in the journal area -/
  journal : Option Nat
  /-- start of the stretch that runs now -/
  startedAt : Nat
  /-- LEAVE hold used by an erase before that stretch (R523) -/
  used : Nat
  /-- bytes of a program already in the array, whole pages (R523) -/
  done : Nat
  retries : Nat
  /-- the core stalls and current flows -/
  running : Bool
deriving DecidableEq, Repr

/-- The embedded flash (chapter 16). The byte array survives every reset. -/
structure Flash where
  /-- 4 MiB array: listed bytes; an unlisted byte reads erased, 0xFF, or a factory value in sectors 0x17C to 0x17F.
  4,194,304 × 8 bits; 16 R517, R518; reset: the delivered image of log 8. -/
  mem : List Host.Cell
  /-- addresses of 64-bit words that read uncorrectable. 16 R518; reset none. -/
  bad : List Nat
  /-- operation in progress or suspended. record or none; 16 R520, R523; reset none. -/
  op : Option FlashOp
  /-- erase times in 0.1 ms, newest first. up to 16; 16 R549; reset empty. -/
  erases : List Nat
  /-- next free byte of the drawer log, as an offset in the 64 logical sectors. 18 bits; 16 R527; reset 0. -/
  head : Nat
  /-- oldest logical sector that holds records. 6 bits; 16 R536; reset 0. -/
  tail : Nat
  /-- next free entry of the journal. 10 bits; 16 R524; reset 0. -/
  jnext : Nat
  /-- physical sectors that needed a second retry and wait for retirement. 10 bits each; 16 R545; reset none. -/
  worn : List Nat
deriving DecidableEq, Repr

/-! ## Power, leave, core, faults, tether, service -/

/-- Brace, standby and the switchable domains (chapter 17). -/
structure Power where
  /-- brace active. 1 bit; 17 R565; reset 0. -/
  brace : Bool
  /-- brace entry: clock and time field. 17 R568; reset 0 (log 1). -/
  braceAt : Nat
  braceTime : BitVec 64
  /-- brace markers formed before the epoch, which they wait for: part and duration. 17 R568; reset none. -/
  early : List (Bool × BitVec 40)
  /-- brace return, for the 10 ms of the detectors. clock; 14 *Brace*; reset 0 (log 1). -/
  returnAt : Nat
  /-- standby. 1 bit; 17 R559; reset 0. -/
  standby : Bool
  /-- consecutive power-good failures of domains 0 to 10. 2 bits each; 18 R595; reset 0. -/
  fails : List Nat
  /-- domains taken down by a power-good fault, and when. 18 R594; reset none. -/
  downAt : List (Nat × Nat)
  /-- checks of VBAT due so far and made: the start-up's and the hourly ones. count; 17 R578; reset 0. -/
  vbatDone : Nat
  /-- power-up of each domain after such a fault. clock; 18 R595; reset none. -/
  upAt : List (Nat × Nat)
deriving DecidableEq, Repr

/-- Steps of winning leave (R572). -/
inductive LeavePhase where
  | idle
  /-- waiting out brace, a withdrawal or the holdoff -/
  | deferred
  /-- window wait, counted from the last rising edge -/
  | window
  /-- LEAVE held -/
  | won
deriving DecidableEq, Repr

/-- The LEAVE line as this unit sees and drives it (chapter 17). -/
structure Leave where
  /-- recognised level: idle is high. 1 bit; 17 R571; reset idle (log 1). -/
  idle : Bool
  /-- last rising edge. clock; 17 R571; reset 0 (log 1). -/
  roseAt : Nat
  /-- last fall. clock; 17 R577; reset 0 (log 1). -/
  fellAt : Nat
  /-- this unit's own last release. clock or none; 17 R572; reset none. -/
  releasedAt : Option Nat
  /-- requests waiting, in the order they were issued. 17 R574; reset none. -/
  reqs : List HeavyOp
  /-- where this unit stands on its way to LEAVE. 17 R572; reset idle. -/
  phase : LeavePhase
  /-- operation LEAVE is held for, and since when. 17 R573; reset none. -/
  holding : Option HeavyOp
  heldAt : Nat
  /-- firmware requests withdrawn for a stall. 1 bit; 17 R674; reset 0. -/
  withdrawn : Bool
  /-- time waited without a win, up to `waitFrom`; `waitFrom` is the start of the stretch being counted. 17 R576; reset 0. -/
  waited : Nat
  waitFrom : Option Nat
  /-- leave starved: status flags bit 3. 1 bit; 17 R576; reset 0. -/
  starved : Bool
  /-- end of the unit's last call pulse, which brace does not cut short. clock; 17 R566, R572; reset 0. -/
  callTo : Nat
deriving DecidableEq, Repr

/-- Where start-up stands (R583). -/
inductive Boot where
  /-- full reset asserted -/
  | inReset
  /-- core held by fault 0xF1 (R601) -/
  | held
  | straps
  | recovery
  | commit
  | pll
  | epoch
  /-- step 6: the start status, the configuration echo and the pre-epoch fault skeins close -/
  | skeins
  | chans
  | calib
  | ready
deriving DecidableEq, Repr

/-- The Ndetal core as the block's other parts see it (chapters 01, 18). -/
structure Core where
  /-- start-up step. 18 R583; reset: reset asserted. -/
  boot : Boot
  /-- journal recovery done, row counters reconciled. 1 bit each; 18 R583; reset 0. -/
  recovered : Bool
  reconciled : Bool
  /-- a core restart found open journal entries that are still to be resolved. 1 bit; 18 R591; reset 0. -/
  recovering : Bool
  /-- core halted by the service port. 1 bit; 18 R593; reset 0. -/
  halted : Bool
  /-- a halt waits for the end of a flash operation. 1 bit; 20 *When things meet*; reset 0. -/
  haltOwed : Bool
  /-- core restarting, and its clock. clock or none; 18 R590; reset none. -/
  restarting : Option Nat
  /-- fault the restart logs, none after a halt. 18 R591, 20 R626; reset none. -/
  restartPc : Option (BitVec 32)
  /-- core restarts of the last 60 s, newest first. clocks; 18 R592; reset empty. -/
  restarts : List Nat
  /-- earliest expiry of the watchdog: 2 s after the core began to run, later by every stall since. clock; 18 R589; reset 0
  (log 1). -/
  dogAt : Nat
  /-- clock at reset release. clock; 18 R582; reset 0 (log 1). -/
  releasedAt : Nat
  /-- up to when causes 0x04 and 0x05 hold the reset. clock; 18 R579, R582; reset 0, no such cause. -/
  heldTo : Nat
deriving DecidableEq, Repr

/-- A raise or a clear whose fault skein has not been closed (R354, R591). -/
structure FaultEvent where
  code : Byte
  raised : Bool
  held : Bool
  time : BitVec 64
  subject : Byte
  detailA : BitVec 32
  detailB : BitVec 32
  /-- occurrences of the code in the session at the event -/
  occ : Nat
deriving DecidableEq, Repr

/-- A rate-limited code's period (R667). -/
structure LogPeriod where
  code : Byte
  ch : Nat
  since : Nat
  acc : Nat
  firstTime : BitVec 64
  subject : Byte
  detailB : BitVec 32
deriving DecidableEq, Repr

/-- Faults (chapter 18). -/
structure Faults where
  /-- active held faults: code, and the channel, output, domain or subject that holds it. 18 R597; reset none. -/
  active : List (Byte × Byte)
  /-- raises and clears whose skein is not closed, oldest first. 18 R591; reset empty. -/
  events : List FaultEvent
  /-- most recent fault code. 8 bits; 10 R348; reset 0. -/
  last : Byte
  /-- occurrences of each code in the session. 16 bits each, saturating; 10 R353; reset empty. -/
  seen : List (Byte × Nat)
  /-- periods of the rate-limited codes. 18 R667; reset empty. -/
  periods : List LogPeriod
  /-- details each active held fault was raised with. 2 × 32 bits each; 10 R355 (log 24); reset none. -/
  details : List ((Byte × Byte) × BitVec 32 × BitVec 32)
deriving DecidableEq, Repr

/-- A valid announcement frame (R607). -/
structure Frame where
  lead : BitVec 3
  origin : BitVec 3
  originSession : BitVec 16
  era : BitVec 16
  seconds : BitVec 40
  /-- clock of the edge that opened its second -/
  second : Nat
deriving DecidableEq, Repr

/-- The tether (chapter 19). -/
structure Tether where
  /-- clock of the PPS edge that opened the tether second. clock or none; 19 R605; reset none. -/
  openedAt : Option Nat
  /-- lowest slot of this second that held a valid frame, the unit's own included. 3 bits or none; 19 R612; reset none. -/
  lowest : Option (Fin 8)
  /-- the unit transmitted in this second. 1 bit; 19 R619; reset 0. -/
  sent : Bool
  /-- the end of slot 7 of this second has been evaluated. 1 bit; 19 R618; reset 0. -/
  checked : Bool
  /-- lowest slots of the last three seconds, newest first. 19 R618; reset empty. -/
  history : List (Option (Fin 8))
  /-- frame received and kept for the firmware. 19 R613; reset none. -/
  kept : Option Frame
  /-- armed adoption. record or none; 19 R614; reset none. -/
  armed : Option Frame
  /-- levels of the frame sent last on the line, two for each bit cell, high being `true`. 192 × 1 bit; 0 R19, 19 R606;
  reset empty. -/
  line : List Bool
  /-- clash of fault 0xA4 last seen. clock; 19 R619; reset 0 (log 1). -/
  clashAt : Nat
  /-- captured edge that switches the armed adoption. clock or none; 19 R615; reset none. -/
  edgeAt : Option Nat
deriving DecidableEq, Repr

/-- The service port fuse (R631, R632). -/
inductive Fuse where
  | intact
  | driving
  | disturbed
  | blown
deriving DecidableEq, Repr

/-- The service port (chapter 20). -/
structure Service where
  /-- fuse. 20 R631; reset intact: a CSA-3808-E as delivered (log 8). -/
  fuse : Fuse
  /-- an OPEN has been accepted since the last full reset. 1 bit; 20 R624; reset 0. -/
  opened : Bool
  /-- image-verified bit. 1 bit; 20 R625; reset 0 until the image check. -/
  verified : Bool
  /-- an ERASE or PROGRAM has been accepted in this halt. 1 bit; 20 R628; reset 0. -/
  changed : Bool
  /-- service operation waiting for leave. 20 R627; reset none. -/
  waiting : Option FlashKind
  /-- status byte and response of the last frame, what SVC_IO carried; empty when nothing was driven. 20 R622; reset empty. -/
  answer : List Byte
  /-- levels of SVC_IO at the rising edges of SVC_CK in the last frame: start byte, request and its CRC, 8 clocks released, and
  what the unit drove. bits, high being `true`; 20 R621, R622; reset empty. -/
  wire : List Bool
  /-- start of BLOW's 2 ms. clock; 20 R631; reset 0 (log 1). -/
  blowAt : Nat
deriving DecidableEq, Repr

/-- Temperatures (chapter 21). -/
structure Sensors where
  /-- die temperature in 1/128 °C. 16 bits signed; 21 R648; reset 0 (log 1). -/
  die : Int
  /-- since when every die reading has been above 125 °C, and since when at or below 120 °C. clocks or none; 17 R578; reset
  none. -/
  hotFrom : Option Nat
  coolFrom : Option Nat
  /-- CTH temperature in 1/128 °C; `none` reads 0x8000. 16 bits signed; 21 R649; reset none (log 1). -/
  cth : Option Int
deriving DecidableEq, Repr

/-- What a snapshot latch of this back-die cycle finds (R443): the parts the snapshot map shows, as the commands of the
cycles before left them. -/
structure Seen where
  /-- clock value these parts are of. clock; 13 R443; reset 0. -/
  clock : Nat
  /-- the core's trims flag. 1 bit; 13 R443; reset 0. -/
  trims : Bool
  /-- status words. words; 13 R443; reset 0. -/
  fw : FwWords
  /-- the parts of these names. as their fields; 13 R443; reset as those parts. -/
  tb : Timebase
  chan : Per8 Channel
  stat : Per8 Stat
  chain : Chain
  fol : Follower
  cab : Cabinet
  port : Stream
  ao : AoDomain
  power : Power
  leave : Leave
deriving DecidableEq, Repr

/-- The whole block. -/
structure State where
  /-- THE MODEL'S OWN: quarter-picoseconds since the model's start (log 3); reset 0. -/
  clock : Nat
  /-- THE MODEL'S OWN: counter of free values (log 4); reset 0 (DESIGN CHOICE; no statement rests on it). -/
  free : Nat
  /-- commands that wait, first in, first out; reset empty. -/
  pending : List Instr
  tb : Timebase
  keep : Keep
  strap : Strap
  chan : Per8 Channel
  stat : Per8 Stat
  eng : Engine
  chain : Chain
  pack : Packer
  sched : Sched
  fol : Follower
  cab : Cabinet
  port : Stream
  snap : Snap
  ao : AoDomain
  cal : Cal
  flash : Flash
  power : Power
  leave : Leave
  core : Core
  faults : Faults
  tether : Tether
  svc : Service
  sens : Sensors
  seen : Seen
deriving DecidableEq, Repr

/-! ## Reset

`State.reset` is a fully delivered part at its first power-up: full reset asserted with cause 0x01 (R579), nothing
powered but the keep domain, whose contents were never written. Every value the manual does not state is zero or
empty (log 1). The parts below but `Keep` and `Flash` are what RESET_ASSERT writes back. -/

def StartRecord.reset : StartRecord :=
  { newSession := 0, prevSession := 0, reason := 0, source := 0, keepLost := false, offTicks := 0, originId := 0,
    originSession := 0, leadId := 0, swOldTime := 0, swOldEra := 0, swNewTime := 0, swNewEra := 0,
    swCounts := .const 0 }

def Timebase.reset : Timebase :=
  { pllOn := false, locked := false, lockAt := 0, refin := false, refinAt := 0, epochSet := false, time := 0, era := 0,
    wrapped := false, epochClock := 0, session := 0, sessionValid := false, commitOwed := false, oldSession := 0,
    oldEra := 0, oldTime := 0, oldWrapped := false, start := .reset, originId := 0, originSession := 0,
    holdover := false, holdEntry := 0, holdExit := 0, ppsOffset := 0, lastPps := none, gapSaid := false,
    ppsCount := 0 }

def Keep.reset : Keep :=
  { copy := 0, valid := false, offTicks := 0, counting := true, lost := true, cause := 0x01, assertedAt := 0, assertedTo := 0 }

def Strap.reset : Strap :=
  { latched := false, pins := [], sbyte := false, failed := false, at_ := 0, driftSec := 0, driftDone := 0, driftOwed := none,
    drift := [] }

def Channel.reset : Channel :=
  { st := .disabled, fromUp := false, up := false, settling := false, count := 0, lastEdge := none, intervals := [], stable := 0, yarn := 0,
    loss := none, absentAt := 0, missingAt := 0, peakPos := 0, peakNeg := 0, repPos := 0, repNeg := 0, dac := 0,
    levelled := false, clipped := false, pending := false, tickAt := 0, tickSlots := [], lastTick := none,
    tickStamped := false, expired := 0, stampedAt := none, flights := [], merge := [], mergeBegan := (0, 0), formed := 0, run := none, refusedAt := none,
    gapReg := none, mirror := none, mirrorNext := [], susp := none, presentAt := 0, startJoin := false }

def PhaseHist.reset : PhaseHist := { owner := (0, 0), first := none, nu := none, points := [] }

def DiffHist.reset : DiffHist := { owner := (0, 0, 0), points := [] }

def Stat.reset : Stat :=
  { seg := 0, cur := none, prev := none, curRef := none, prevRef := none, gate := none, span := none, gated := false,
    boundCount := 0, boundAt := 0, hist := .reset, diff := .reset, rRatio := none, sample := 0, sampled := false, primary := 0, primaryValid := false,
    summarised := false, src := none, vec := none, vecBad := false, closed := [] }

def Engine.reset : Engine := { interval := 0, ended := [], outgoing := [], queue := [] }

def Chain.reset : Chain :=
  { items := [], entryA := 0, entryB := 0, exitA := 0, exitB := 0, mismatch := none, resets := [], buffer := [],
    hwWait := [], fwWait := [], moves := [], entered := none, began := (0, 0), refusals := 0 }

def Packer.reset : Packer :=
  { rawOpen := none, sumOpen := none, heads := [], unnumbered := [], released := [], ctlQueue := [], seq := 0,
    oldSeq := 0, echoDone := false, oldEchoDone := false, ctlOld := false, scale := 0, closed := 0, oldClosed := 0, takenAt := none }

def Sched.reset : Sched :=
  { slots := List.replicate 16 none, switched := none, updatedAt := none, cancelled := [], ticked := [],
    owed := [], late := [] }

def Follower.reset : Follower :=
  { st := 0, phase := 0, phaseAt := 0, period := 0, lockedPeriod := 0, events := [], acquired := 0, goodAt := 0,
    goodRun := 0, quarter := 0, lines := 0, sinceIndex := 0, stepsSinceGood := 0, stepAt := 0, stepPeriod := 0,
    stepForward := false, coasts := 0, losses := 0, asym := 0, unlockedAt := 0, weak := false,
    heldAt := 0, heldAngle := 0 }

def Store.reset : Store :=
  { held := [], writeA := 0, writeB := 0, readA := 0, readB := 0, bytes := 0, holes := [], run := none, dropped := 0,
    mismatch := none }

def Cabinet.reset : Cabinet :=
  { raw := .reset, shelf := .reset, intro := [], thinned := 0, corrected := 0, eccLost := 0, extRefresh := false,
    burst := false, burstAt := none, scrubAt := 0, scrubbing := false, scrubIn := .raw, scrubPos := 0, scrubLeft := 0, flushing := false,
    runsClosed := [] }

def Stream.reset : Stream :=
  { st := .down, pausedFrom := .down, up := false, host := false, lowAt := 0, tx := none, cut := [], last := none,
    aligned := false, introClosed := false, introOwed := false, shorted := false, pkt := 0, disparity := List.replicate 4 false,
    ended := none, freeAt := 0, idleMin := 2, prompt := false, pktFrom := 0, pktTo := 0 }

def FwWords.reset : FwWords :=
  { flags := 0, chanState := 0, driftMask := 0, heldFaults := 0, lastFault := 0, die := 0, cth := 0, eraseTime := 0,
    spares := 0, drawers := 0 }

def Snap.reset : Snap := { up := false, latches := [], load := 30, sd := .hiz, selectedTo := 0, fw := .reset, version := 0 }

def Output.reset : Output :=
  { st := .idle, breakUntil := 0, centre := none, code := 0, saturated := false, values := [], last := none,
    mismatches := 0, readAt := 0, codeAt := 0, connectedAt := 0, faultAt := 0, wait := 1, wrote := none,
    trims := none }

def AoDomain.reset : AoDomain := { up := false, outs := .const .reset }

def Cal.reset : Cal :=
  { pending := none, checking := none, failedAt := none, passed := false, joinPassed := false,
    joinWaits := none, run := none, results := [], lastTemp := none,
    lastEnd := none, lastEndTime := 0, lastDie := 0, sessionDrawer := none, work := none, builtAt := 0, bank := false, swapAt := 0, other := none,
    lastRref := 0, report := none, startupDone := false, trims := false, stepAt := 0 }

/-- The delivered flash (log 8): a firmware image of its header alone, with the header constant of R629, length 0x10,
version 0 and the CRC-32 of no bytes, which is 0; every other byte erased. -/
def Flash.delivered : Flash :=
  { mem := [(0, 0x4C), (1, 0x43), (2, 0x49), (3, 0x4D), (4, 0x10), (5, 0), (6, 0), (7, 0), (8, 0), (9, 0), (10, 0),
      (11, 0), (12, 0), (13, 0), (14, 0), (15, 0)],
    bad := [], op := none, erases := [], head := 0, tail := 0, jnext := 0, worn := [] }

def Power.reset : Power :=
  { brace := false, braceAt := 0, braceTime := 0, early := [], returnAt := 0, standby := false, fails := List.replicate 11 0,
    downAt := [], vbatDone := 0, upAt := [] }

def Leave.reset : Leave :=
  { idle := true, roseAt := 0, fellAt := 0, releasedAt := none, reqs := [], phase := .idle, holding := none, heldAt := 0,
    withdrawn := false, waited := 0, waitFrom := none, starved := false, callTo := 0 }

def Core.reset : Core :=
  { boot := .inReset, recovered := false, reconciled := false, recovering := false, halted := false, haltOwed := false, restarting := none, restartPc := none,
    restarts := [], dogAt := 0, releasedAt := 0, heldTo := 0 }

def Faults.reset : Faults := { active := [], events := [], last := 0, seen := [], periods := [], details := [] }

def Tether.reset : Tether :=
  { openedAt := none, lowest := none, sent := false, checked := false, history := [], kept := none, armed := none, line := [], clashAt := 0,
    edgeAt := none }

def Service.reset : Service :=
  { fuse := .intact, opened := false, verified := false, changed := false, waiting := none, answer := [], wire := [],
    blowAt := 0 }

def Sensors.reset : Sensors := { die := 0, hotFrom := none, coolFrom := none, cth := none }

def Seen.reset : Seen :=
  { clock := 0, trims := false, fw := Snap.reset.fw, tb := .reset, chan := .const .reset, stat := .const .reset,
    chain := .reset, fol := .reset, cab := .reset, port := .reset, ao := .reset, power := .reset, leave := .reset }

/-- The machine right after a full reset has been asserted at the first power-up: cause 0x01, no command waiting. -/
def State.reset : State :=
  { clock := 0, free := 0, pending := [], tb := .reset, keep := .reset, strap := .reset, chan := .const .reset,
    stat := .const .reset, eng := .reset, chain := .reset, pack := .reset, sched := .reset, fol := .reset,
    cab := .reset, port := .reset, snap := .reset, ao := .reset, cal := .reset, flash := .delivered, power := .reset,
    leave := .reset, core := .reset, faults := .reset, tether := .reset, svc := .reset, sens := .reset,
    seen := .reset }

/-- A CSA-3808-S at its first power-up: its fuse is blown, and nothing else differs (R634, R635). -/
def State.resetS : State := { State.reset with svc := { Service.reset with fuse := .blown } }

end Sys2Proof.Machine
end

