-- ==== Sys2Proof/Machine/Ops.lean ====
section
/-! DEFINITION. The named operations every family of commands shares: the passing of time, bytes and checks, the flash
byte array, updates of one part of the state, free values. A block has no exception entry; what stands in its place,
raising and clearing a fault, is in `Machine/Flags.lean`. -/

namespace Sys2Proof.Machine
open Sys2Proof

/-- What a command answers. -/
abbrev Out := Host.Outcome State Fault Refusal

/-! ### Bytes (R6) and checks (R18, R608) -/

/-- The low `n` bytes of a number, least significant first (R6). -/
def le : Nat → Nat → List Byte
  | 0, _ => []
  | n + 1, v => BitVec.ofNat 8 v :: le n (v / 256)

/-- The number a little-endian byte list spells (R6). -/
def leNat : List Byte → Nat
  | [] => 0
  | b :: bs => b.toNat + 256 * leNat bs

/-- An integer in two's complement of `n` bytes, little-endian (R9). -/
def leInt (n : Nat) (v : Int) : List Byte := le n (v % ((256 ^ n : Nat) : Int)).toNat

/-- The signed value of `w` bits (R9). -/
def signed (w v : Nat) : Int := if v % 2 ^ w < 2 ^ (w - 1) then (v % 2 ^ w : Nat) else (v % 2 ^ w : Nat) - (2 ^ w : Nat)

/-- One bit through the reflected CRC-32 register (R18). -/
def crc32Bit (c : BitVec 32) : BitVec 32 :=
  if c.getLsbD 0 then (c >>> 1) ^^^ 0xEDB88320#32 else c >>> 1

/-- One byte through the CRC-32 register (R18). -/
def crc32Byte (c : BitVec 32) (b : Byte) : BitVec 32 :=
  crc32Bit (crc32Bit (crc32Bit (crc32Bit (crc32Bit (crc32Bit (crc32Bit (crc32Bit (c ^^^ b.setWidth 32))))))))

/-- The CRC-32 of R18: reflected 0x04C1_1DB7, initial value and final complement all ones. -/
def crc32 (bs : List Byte) : BitVec 32 := ~~~(bs.foldl crc32Byte 0xFFFFFFFF#32)

/-- Clip an integer to a range. -/
def clipInt (lo hi v : Int) : Int := max lo (min hi v)

/-- Keep a list at its first `n` entries after putting one in front: a history, newest first. -/
def remember {α : Type} (n : Nat) (a : α) (l : List α) : List α := (a :: l).take n

/-- `n / d` to the nearest integer, for a positive `d`; which way a tie goes is free (log 16). -/
def roundDiv (n d : Int) : Int :=
  let f := n / d
  let r := 2 * (n % d)
  if r < d then f else if d < r then f + 1 else if Config.tieUp (mkRat n d.natAbs) then f + 1 else f

/-- The nearest integer to a rational; which way a tie goes is free (log 16). -/
def roundRat (q : Rat) : Int := roundDiv q.num q.den

/-- `n / d` to the nearest natural number, 0 where nothing was measured. -/
def roundNat (n d : Nat) : Nat := if d = 0 then 0 else (roundDiv n d).toNat

/-- A quantity `n` in a unit `d`: exact where it is a whole number of them, either neighbour where it is not (log 16). -/
def inUnits (n d : Nat) : Nat := if n % d = 0 then n / d else if Config.unitUp n d then n / d + 1 else n / d

/-! ### Updates of one part -/

def State.modChan (s : State) (c : Chan) (f : Channel → Channel) : State :=
  { s with chan := s.chan.set c (f (s.chan.get c)) }

def State.modStat (s : State) (c : Chan) (f : Stat → Stat) : State :=
  { s with stat := s.stat.set c (f (s.stat.get c)) }

def State.modOut (s : State) (o : OutNo) (f : Output → Output) : State :=
  { s with ao := { s.ao with outs := s.ao.outs.set o (f (s.ao.outs.get o)) } }

/-- The store a name stands for (R360). -/
def State.store (s : State) : StoreId → Store
  | .raw => s.cab.raw
  | .shelf => s.cab.shelf

def State.modStore (s : State) (st : StoreId) (f : Store → Store) : State :=
  match st with
  | .raw => { s with cab := { s.cab with raw := f s.cab.raw } }
  | .shelf => { s with cab := { s.cab with shelf := f s.cab.shelf } }

/-- A fold over the channels in ascending order (R666). -/
def State.eachChan (s : State) (f : Chan → State → State) : State :=
  Chan.all.foldl (fun t c => f c t) s

/-- A fold over the outputs, AO0 first. -/
def State.eachOut (s : State) (f : OutNo → State → State) : State :=
  OutNo.all.foldl (fun t o => f o t) s

/-- `f` where the condition holds, nothing otherwise. -/
def State.when (s : State) (b : Bool) (f : State → State) : State := if b then f s else s

/-! ### Time -/

/-- The full time of an era and a time field (R45). -/
def fullOf (era : BitVec 16) (time : BitVec 64) : Nat := time.toNat + 2 ^ 64 * era.toNat

/-- The full time now (R45). -/
def State.full (s : State) : Nat := fullOf s.tb.era s.tb.time

/-- How far the clock values at which back-die cycles begin lie short of whole cycles of the clock: the epoch is a cycle
boundary, since the time counter gains 12,800 qps a cycle from 0 (R41, R48, log 3). -/
def Timebase.cycleShift (tb : Timebase) : Nat := Config.cycle - tb.epochClock % Config.cycle

/-- The back-die cycle of a clock value (3.2 ns, R41). -/
def State.cycleAt (s : State) (c : Nat) : Nat := (c + s.tb.cycleShift) / Config.cycle

/-- The back-die cycle the clock stands in. -/
def State.cycle (s : State) : Nat := s.cycleAt s.clock

/-- The clock value at which a back-die cycle begins. -/
def State.cycleFrom (s : State) (k : Nat) : Nat := k * Config.cycle - s.tb.cycleShift

/-- The start of the cycle that contains now, in full time: yarn boundaries and the instants of angle ticks lie there
(R235, R342). -/
def State.cycleNow (s : State) : Nat := s.full - (s.clock - s.cycleFrom s.cycle)

/-- The full time of a clock value of the present session that is not later than now. -/
def State.fullAt (s : State) (c : Nat) : Nat := s.full - (s.clock - c)

/-- The time counter moved on by `dt`, with the era's carry (R46, R68). -/
def Timebase.move (dt : Nat) (tb : Timebase) : Timebase :=
  { tb with
    time := BitVec.ofNat 64 (tb.time.toNat + dt)
    era := tb.era + BitVec.ofNat 16 ((tb.time.toNat + dt) / 2 ^ 64)
    wrapped := tb.wrapped || decide (2 ^ 64 ≤ tb.time.toNat + dt) }

/-- What a latch of a later cycle finds of the state as it stands (R443). -/
def State.show (s : State) : Seen :=
  { clock := s.clock, trims := s.cal.trims, fw := s.snap.fw, tb := s.tb, chan := s.chan, stat := s.stat, chain := s.chain,
    fol := s.fol, cab := s.cab, port := s.port, ao := s.ao, power := s.power, leave := s.leave }

/-- The clock moves by `dt` quarter-picoseconds, and the time counter with it once the epoch is set (R48). With the first
command of a new back-die cycle, what the cycles before left is what latches of this one find (R443). -/
def State.pass (dt : Nat) (s : State) : State :=
  { s with
    clock := s.clock + dt
    tb := if s.tb.epochSet then s.tb.move dt else s.tb
    seen := if s.cycle < s.cycleAt (s.clock + dt) then s.show else s.seen }

/-- The era of a record with this time field in the present scale (R70). -/
def State.eraOf (s : State) (time : BitVec 64) : BitVec 16 :=
  if s.tb.wrapped && !s.tb.time.msb && time.msb then s.tb.era - 1 else s.tb.era

/-! ### Free values (log 4) -/

/-- The next free bit. -/
def State.drawBit (s : State) : Bool × State := (Config.freeBit s.free, { s with free := s.free + 1 })

/-- The next free natural number. -/
def State.drawNat (s : State) : Nat × State := (Config.freeNat s.free, { s with free := s.free + 1 })

/-! ### Flash bytes (R517, R518) -/

/-- What an unlisted address reads as: an erased byte (R518), or in the sectors 0x17C to 0x17F, which nothing the block does ever
erases or programs, the factory's value (R517, R635, log 8). -/
def baseByte (x : Nat) : Byte := if 0x17C000 ≤ x ∧ x < 0x180000 then Config.factoryByte x else 0xFF

/-- One byte of the array. -/
def memGet : List Host.Cell → Nat → Byte
  | [], x => baseByte x
  | (a, b) :: m, x => if x = a then b else memGet m x

/-- Write one byte, keeping the canonical form: addresses rising, no byte listed that the address reads as unlisted. -/
def memPut : List Host.Cell → Nat → Byte → List Host.Cell
  | [], x, v => if v = baseByte x then [] else [(x, v)]
  | (a, b) :: m, x, v =>
    if x < a then (if v = baseByte x then (a, b) :: m else (x, v) :: (a, b) :: m)
    else if x = a then (if v = baseByte a then m else (a, v) :: m)
    else (a, b) :: memPut m x v

/-- Erase the bytes from `lo` up to, not including, `hi`. -/
def memErase (m : List Host.Cell) (lo hi : Nat) : List Host.Cell :=
  m.filter fun c => decide (c.1 < lo) || decide (hi ≤ c.1)

/-- Bytes from an address on. -/
def memGets (m : List Host.Cell) (x n : Nat) : List Byte := (List.range n).map fun i => memGet m (x + i)

/-- The size of the array, 4 MiB (R517). -/
def arrayBytes : Nat := 4194304

/-- Program bytes from an address on: a program can only clear bits (R518), and only bytes the array has. -/
def memProgram : List Host.Cell → Nat → List Byte → List Host.Cell
  | m, _, [] => m
  | m, x, b :: bs => memProgram (if x < arrayBytes then memPut m x (memGet m x &&& b) else m) (x + 1) bs

/-- The canonical form (MEMORY): addresses strictly rising, inside the 4 MiB array, and no byte listed that its address reads as
unlisted. -/
def memWf : List Host.Cell → Bool
  | [] => true
  | [(a, b)] => decide (a < arrayBytes) && b != baseByte a
  | (a, b) :: (a', b') :: m => decide (a < a') && b != baseByte a && memWf ((a', b') :: m)

/-- The flash array of this state is in canonical form. -/
def Flash.wf (f : Flash) : Bool := memWf f.mem

def State.flashGets (s : State) (x n : Nat) : List Byte := memGets s.flash.mem x n

def State.flashNat (s : State) (x n : Nat) : Nat := leNat (s.flashGets x n)

def State.flashProgram (s : State) (x : Nat) (bs : List Byte) : State :=
  { s with flash := { s.flash with mem := memProgram s.flash.mem x bs } }

/-- The first byte of a physical sector (4 KiB each, R517). -/
def sectorBase (p : Nat) : Nat := 4096 * p

/-- Erase a physical sector (R518): its bytes read erased and its uncorrectable words are gone. -/
def State.flashEraseSector (s : State) (p : Nat) : State :=
  { s with flash := { s.flash with
      mem := memErase s.flash.mem (sectorBase p) (sectorBase (p + 1))
      bad := s.flash.bad.filter fun a => decide (a < sectorBase p) || decide (sectorBase (p + 1) ≤ a) } }

/-! ### Markers (R296, R297) -/

/-- A record formed now, with its session and full time. -/
def State.item (s : State) (st : Stitch) : Item := { st := st, session := s.tb.session, full := s.full }

/-- A hardware marker goes to its source, from where it enters the marker buffer as soon as an entry is free (R297). -/
def State.hwMarker (s : State) (st : Stitch) : State :=
  let i := s.item st
  { s with chain := if s.chain.hwWait.isEmpty && decide (s.chain.buffer.length < 8)
                    then { s.chain with buffer := s.chain.buffer ++ [i] }
                    else { s.chain with hwWait := s.chain.hwWait ++ [i] } }

/-! ### The statistics engine's outlets -/

/-- Results of the summary being handed over enter the result queue of 16 as far as there is room (R283, R315). -/
def Engine.refill (e : Engine) : Engine :=
  { e with queue := e.queue ++ e.outgoing.take (16 - e.queue.length), outgoing := e.outgoing.drop (16 - e.queue.length) }

/-- Something the head of every open gate has to tell, and of every interval without one (R263). -/
def State.flagGates (s : State) (f : Gate → Gate) : State :=
  { s with stat := s.stat.map fun st => { st with gate := st.gate.map f, span := st.span.map f } }

/-! ### The core (R29, R30) -/

/-- The firmware runs: the core is out of reset, its image checked, and it is neither stalled by a flash operation, nor
halted, nor restarting (R30, R590, R593, R601). -/
def State.fwRuns (s : State) : Bool :=
  !(s.core.boot == .inReset) && !(s.core.boot == .held) && !s.core.halted && s.core.restarting.isNone &&
    (match s.flash.op with | some o => !(o.running && !o.service) | none => true)

/-- The core is stalled by a flash operation, and would run otherwise (R30). -/
def State.stalled (s : State) : Bool :=
  !s.core.halted && s.core.restarting.isNone &&
    (match s.flash.op with | some o => o.running && !o.service | none => false)

/-- Up to `k` firmware markers take entries of the marker buffer, while at least three are free (R297). -/
def Chain.placeUpTo (k : Nat) (c : Chain) : Chain :=
  let n := min k (6 - c.buffer.length)
  { c with buffer := c.buffer ++ c.fwWait.take n, fwWait := c.fwWait.drop n }

/-- Every waiting firmware marker goes to the buffer as far as there is room (R297). -/
def Chain.place (c : Chain) : Chain := c.placeUpTo c.fwWait.length

/-- The firmware has a marker to place: it does so at once as far as there is room, unless it does not run (R30, R297). -/
def State.fwMarkerItem (s : State) (i : Item) : State :=
  let c := { s.chain with fwWait := s.chain.fwWait ++ [i] }
  { s with chain := if s.fwRuns then c.place else c }

def State.fwMarker (s : State) (st : Stitch) : State := s.fwMarkerItem (s.item st)

/-- The whole second, counted from the strap latch, of a clock value (R99). -/
def Strap.secondOf (p : Strap) (clock : Nat) : Nat := (clock - p.at_) / Config.sec

/-- The part is out of reset: some start-up step runs or has run (R582). -/
def State.outOfReset (s : State) : Bool := !(s.core.boot == .inReset)

end Sys2Proof.Machine
end

