-- ==== Sys2Proof/Machine/Operands.lean ====
section
/-! DEFINITION. The operands every function takes from the strap image: how a reading becomes a code (chapter 03) and
what each code of each coded pin means (chapter 04), with the configuration echo body. -/

namespace Sys2Proof.Machine
open Sys2Proof

/-! ### From a reading to a code (R78, R86, R96) -/

/-- The bands of codes 0 to 14, in ohms (R78). -/
def bandTable : List (Nat × Nat) :=
  [(0, 199), (920, 1080), (1380, 1620), (1886, 2214), (2521, 2959), (3284, 3856), (4269, 5011), (5557, 6523),
   (7240, 8500), (9384, 11016), (12236, 14364), (16008, 18792), (20792, 24408), (27692, 32508), (36984, 43416)]

/-- The code a reading decodes to; none is ambiguous (R78). Code 15 has no upper limit. -/
def decodeReading (r : Nat) : Option Nat :=
  if 48000 ≤ r then some 15 else bandTable.findIdx? fun b => decide (b.1 ≤ r) && decide (r ≤ b.2)

/-- The highest code whose band lower limit lies at or below the reading (R96). -/
def floorCode (r : Nat) : Nat :=
  if 48000 ≤ r then 15 else (bandTable.filter fun b => decide (b.1 ≤ r)).length - 1

/-- A reading in ohms, saturating at 0xFFFF (R95). -/
def sat16 (r : Nat) : BitVec 16 := BitVec.ofNat 16 (min r 0xFFFF)

/-- A count in 32 bits, saturating. -/
def sat32 (r : Nat) : BitVec 32 := BitVec.ofNat 32 (min r 0xFFFFFFFF)

/-- The safe-default code of a coded pin: 0 for CFG_N (index 12), 15 for every other (R137). -/
def safeCode (pin : Nat) : BitVec 4 := if pin = 12 then 0 else 15

/-- The image of one coded pin from its two readings; `failed` when the strap read failed (R79, R91 to R93, R95, R96). -/
def pinImage (failed : Bool) (pin r1 r2 : Nat) : PinImage :=
  let c1 := decodeReading r1
  let amb := failed || c1.isNone || !(c1 == decodeReading r2)
  let raw : BitVec 4 := if failed then 0 else BitVec.ofNat 4 (c1.getD (floorCode r1))
  { raw := raw, applied := if amb then safeCode pin else raw, amb := amb, reading := sat16 r1 }

/-- The strap read has failed: a check reading lies outside its code's band (R87). -/
def strapReadFailed (r : StrapRead) : Bool :=
  !(decodeReading r.check1Low == some 4 && decodeReading r.check2Low == some 4 &&
    decodeReading r.check1High == some 12 && decodeReading r.check2High == some 12)

/-! ### Applied codes (R107) -/

def Strap.code (p : Strap) (pin : Nat) : Nat := (p.pins[pin]?.map fun i => i.applied.toNat).getD (safeCode pin).toNat

def State.code (s : State) (pin : Nat) : Nat := s.strap.code pin

/-- An entry of a code table; every table below has an entry for each of the 16 codes (R108). -/
def pick (t : List Nat) (i : Nat) : Nat := t.getD i 0

def pickInt (t : List Int) (i : Nat) : Int := t.getD i 0

/-! ### CFG_A to CFG_D (R109 to R116) -/

/-- REFIN as word 0 encodes it: 0 = 5, 1 = 10, 2 = 20, 3 = 25, 4 = 50, 5 = 100 MHz (R109, R143). -/
def State.refinField (s : State) : Nat := pick [0, 2, 3, 4, 5, 0, 1, 2, 3, 4, 5, 1, 3, 4, 5, 1] (s.code 0)

/-- REFIN period in qps (R38). -/
def State.refinPeriod (s : State) : Nat := pick [800000, 400000, 200000, 160000, 80000, 40000] s.refinField

/-- PPS use: 0 off, 1 epoch alignment, 2 epoch alignment with check (R109). -/
def State.ppsUse (s : State) : Nat := if s.code 0 ≤ 4 ∨ s.code 0 = 15 then 0 else if s.code 0 ≤ 10 then 1 else 2

/-- Auto-level threshold mode: CFG_B bit 2 (R110). -/
def State.autoLevel (s : State) : Bool := (s.code 1).testBit 2

/-- DC coupling: CFG_B bit 1 (R110). -/
def State.dcCoupled (s : State) : Bool := (s.code 1).testBit 1

/-- The preset threshold in mV (R111). -/
def State.preset (s : State) : Int :=
  pickInt [0, 25, -25, 50, -50, 100, -100, 200, -200, 400, -400, 800, -800, 1200, -1200, 0] (s.code 2)

/-- Time tick rate in units of 0.1 Hz; for angle bases the rate after phase loss (R113, R143). -/
def State.tickRate10 (s : State) : Nat :=
  pick [0, 1, 10, 100, 1000, 100000, 1000000, 10000000, 100000000, 250000000, 10000, 10000, 1000, 100000, 500, 10000]
    (s.code 3)

/-- Tick base: 0 none, 1 time, 2 angle, 3 angle and time (R113, R143). -/
def State.tickBase (s : State) : Nat :=
  if s.code 3 = 0 then 0 else if s.code 3 = 11 then 3 else if s.code 3 = 10 ∨ s.code 3 = 12 ∨ s.code 3 = 13 then 2 else 1

/-- Angle tick placement: 0 none, 1 per angle bin, 2 per turn (R113, R143). -/
def State.anglePlacement (s : State) : Nat :=
  if s.code 3 = 12 then 2 else if s.code 3 = 10 ∨ s.code 3 = 11 ∨ s.code 3 = 13 then 1 else 0

/-- The period in qps of a rate given in units of 0.1 Hz; 0 for no rate. -/
def periodOf (rate10 : Nat) : Nat := if rate10 = 0 then 0 else 40000000000000 / rate10

/-- CFG_D codes 10 to 13 (R144). -/
def State.angleTicks (s : State) : Bool := decide (10 ≤ s.code 3) && decide (s.code 3 ≤ 13)

/-- The output divider of CFG_D codes 7, 8 and 9 (R115). -/
def State.outputDivider (s : State) : Option Nat :=
  if s.code 3 = 7 then some 10 else if s.code 3 = 8 then some 100 else if s.code 3 = 9 then some 250 else none

/-! ### CFG_E to CFG_G (R117 to R121) -/

def State.recipe (s : State) : Nat := s.code 4

/-- Summary interval in units of 0.1 s (R120, R143). -/
def State.interval10 (s : State) : Nat := pick [1, 10, 600, 1000, 6000, 10000, 36000, 100] (s.code 5 % 8)

/-- Summary interval in qps. -/
def State.intervalQps (s : State) : Nat := 400000000000 * s.interval10

/-- Decade spacing of the τ values: CFG_F bit 3 (R120). -/
def State.decade (s : State) : Bool := (s.code 5).testBit 3

/-- Phase base type: 0 none, 1 quadrature, 2 tachometer, 3 sine (R121, R143). -/
def State.phaseType (s : State) : Nat :=
  if s.code 6 = 15 then 0 else if s.code 6 ≤ 4 then 1 else if s.code 6 ≤ 9 then 2 else 3

def State.hasPhase (s : State) : Bool := s.phaseType != 0

/-- log₂ of the angle bins per turn (R121, R143). -/
def State.binsLog2 (s : State) : Nat := pick [4, 6, 8, 6, 8, 4, 6, 8, 6, 8, 4, 6, 8, 6, 8, 0] (s.code 6)

/-- Angle bins per turn. -/
def State.bins (s : State) : Nat := if s.hasPhase then 2 ^ s.binsLog2 else 0

/-- log₂ of the coast length in cycles (R121, R143). -/
def State.coastLog2 (s : State) : Nat := pick [3, 3, 3, 6, 6, 3, 3, 3, 6, 6, 3, 3, 3, 6, 6, 0] (s.code 6)

/-! ### CFG_H to CFG_K (R122 to R124) -/

/-- The code of an output's mode pin: CFG_H for AO0, CFG_J for AO1. -/
def State.aoCode (s : State) (o : OutNo) : Nat := s.code (7 + o.val)

/-- Span: 0 to 6 as word 3 encodes them, 7 off (R122, R143). -/
def State.aoSpan (s : State) (o : OutNo) : Nat := s.aoCode o % 8

def State.aoOff (s : State) (o : OutNo) : Bool := s.aoSpan o == 7

def State.aoMean (s : State) (o : OutNo) : Bool := !s.aoOff o && decide (8 ≤ s.aoCode o)

def State.aoCurrent (s : State) (o : OutNo) : Bool := decide (4 ≤ s.aoSpan o) && decide (s.aoSpan o ≤ 6)

/-- CFG_K[1:0] (R124). -/
def State.aoPairing (s : State) : Nat := s.code 9 % 4

/-- CFG_K[3:2] (R124). -/
def State.aoScale (s : State) : Nat := s.code 9 / 4

/-- What an output follows (R124). -/
inductive AoSource where
  | vector (quadrature : Bool)
  | primary (ch : Chan)
  | dieTemp
deriving DecidableEq, Repr

def State.aoSource (s : State) (o : OutNo) : AoSource :=
  match s.aoPairing with
  | 0 => .vector (o == 1)
  | 1 => if o = 0 then .primary 0 else .dieTemp
  | 2 => if o = 0 then .primary 2 else .primary 3
  | _ => if o = 0 then .primary 0 else .primary 1

/-! ### CFG_L to CFG_P (R125 to R132) -/

/-- Stream lanes: 0 for the port off (R125, R126). -/
def State.lanes (s : State) : Nat := pick [0, 1, 1, 2, 2, 2, 4, 4, 4, 4, 4, 4, 2, 2, 2, 1] (s.code 10)

def State.streamOff (s : State) : Bool := s.code 10 == 0

/-- Lane rate: 0 = 250, 1 = 500, 2 = 1000 Mbit/s (R125, R143). -/
def State.laneRate (s : State) : Nat := pick [0, 1, 2, 0, 1, 2, 0, 1, 2, 2, 1, 0, 2, 1, 0, 0] (s.code 10)

/-- The time of one column: ten bits at the lane rate (R399, R400). -/
def State.columnTime (s : State) : Nat := 40 * Config.ns / 2 ^ s.laneRate

def State.laneReversed (s : State) : Bool := decide (9 ≤ s.code 10) && decide (s.code 10 ≤ 14)

/-- Cabinet split: 0 = 56/8, 1 = 48/16, 2 = 32/32 MiB (R127, R143). -/
def State.split (s : State) : Nat := pick [0, 0, 0, 0, 1, 1, 1, 2, 2, 2, 2, 1, 1, 1, 1, 1] (s.code 11)

/-- Drain order interleaved 1:1 (R127). -/
def State.interleaved (s : State) : Bool := pick [0, 0, 1, 1, 0, 1, 1, 0, 0, 1, 1, 0, 1, 0, 1, 0] (s.code 11) == 1

/-- Close timer: 0 = 1, 1 = 100, 2 = 1000, 3 = 10,000 µs (R127, R143). -/
def State.closeTimer (s : State) : Nat := pick [0, 2, 0, 2, 0, 0, 2, 0, 2, 0, 2, 1, 1, 3, 3, 2] (s.code 11)

/-- Close timer in qps. -/
def State.closeTimerQps (s : State) : Nat := pick [1, 100, 1000, 10000] s.closeTimer * Config.us

/-- Capacity in bytes of a store (R127, R360). -/
def State.capacity (s : State) (st : StoreId) : Nat :=
  match st with
  | .raw => 1048576 * pick [56, 48, 32] s.split
  | .shelf => 1048576 * pick [8, 16, 32] s.split

/-- SEAL (R128). -/
def State.sealed (s : State) : Bool := decide (s.code 12 ≤ 3)

/-- Calibration delta: 0 off, 1 = 0.25, 2 = 0.5, 3 = 1, 4 = 2, 5 = 4, 6 = 8 °C (R128, R143). -/
def State.delta (s : State) : Nat := pick [0, 3, 4, 3, 0, 1, 2, 5, 4, 5, 6, 2, 3, 4, 0, 3] (s.code 12)

/-- The delta in 1/128 °C; none for off. -/
def State.delta128 (s : State) : Option Nat := if s.delta = 0 then none else some (16 * 2 ^ s.delta)

/-- Thermistor type NTC (R128). -/
def State.ntc (s : State) : Bool := pick [0, 0, 0, 1, 0, 0, 0, 1, 0, 0, 0, 1, 1, 1, 1, 0] (s.code 12) == 1

/-- The unit ID (R131). -/
def State.unitId (s : State) : Nat := s.code 13

/-- The unit takes part in the tether (R132). -/
def State.tethered (s : State) : Bool := decide (s.unitId ≤ 7) && s.ppsUse != 0

/-! ### CHn_ID (R134 to R136) -/

def State.chanCode (s : State) (n : Chan) : Nat := s.code (14 + n.val)

/-- The channel is not disabled (R135). -/
def State.enabled (s : State) (n : Chan) : Bool := s.chanCode n != 0

/-- A probe is declared (R134). -/
def State.declared (s : State) (n : Chan) : Bool := decide (1 ≤ s.chanCode n) && decide (s.chanCode n ≤ 14)

/-- Probe attenuation (R134, R136). -/
def State.attenuation (s : State) (n : Chan) : Nat :=
  pick [1, 1, 2, 5, 10, 10, 10, 10, 10, 1, 1, 1, 1, 2, 5, 1] (s.chanCode n)

/-- Threshold offset in mV (R134). -/
def State.probeOffset (s : State) (n : Chan) : Int :=
  pickInt [0, 0, 0, 0, 0, 250, 165, 125, 90, 0, 200, 400, 900, 825, 500, 0] (s.chanCode n)

/-- The fixed threshold in mV (R112). -/
def State.fixedThreshold (s : State) (n : Chan) : Int := clipInt (-1250) 1250 (s.preset + s.probeOffset n)

/-- How many channels are enabled. -/
def State.enabledCount (s : State) : Nat := (Chan.all.filter s.enabled).length

/-! ### Recipes (R117, R119, R145, R147) -/

/-- The function a recipe gives a channel. -/
inductive Func where
  | none
  | totalize
  | frequency
  | period
  | ratio (ref : Chan)
  | interval (start stop : Chan)
  | phase (ref : Chan)
  | fractional (ref : Chan)
  | binned
deriving DecidableEq, Repr

/-- Conflict flag 27: a phase-binned recipe without a phase base (R145). -/
def State.conflictBins (s : State) : Bool :=
  !s.hasPhase && (s.recipe == 11 || s.recipe == 12 || s.recipe == 13)

/-- Phase-binned frequency, or frequency without a phase base (R145). -/
def State.binnedFunc (s : State) : Func := if s.hasPhase then .binned else .frequency

/-- The function of each channel (R117); an interval stands with its start channel in recipes 4 and 8 and with its stop
channel in recipe 5. -/
def State.func (s : State) (n : Chan) : Func :=
  let pair : Func := if n.val % 2 = 0 then .interval n (n + 1) else .none
  match s.recipe with
  | 0 => .totalize
  | 1 => .frequency
  | 2 => .period
  | 3 => if n = 0 then .frequency else .ratio 0
  | 4 => pair
  | 5 => if n = 0 then .none else .interval 0 n
  | 6 => if n = 0 then .frequency else .phase 0
  | 7 => if n.val % 2 = 0 then .frequency else .phase (n - 1)
  | 8 => if n.val < 4 then .frequency else pair
  | 9 => if n.val < 4 then .frequency else .totalize
  | 10 => .frequency
  | 11 => s.binnedFunc
  | 12 => s.binnedFunc
  | 13 => if n.val < 4 then s.binnedFunc else .frequency
  | 14 => if n = 0 then .frequency else .fractional 0
  | _ => .frequency

/-- The channel's recipe computes ADEV (R117, R145). -/
def State.hasAdev (s : State) (n : Chan) : Bool :=
  match s.recipe with
  | 10 => true
  | 11 | 12 => s.conflictBins
  | 13 => decide (4 ≤ n.val) || s.conflictBins
  | 14 | 15 => true
  | _ => false

/-- The channel's recipe computes MDEV (R117). -/
def State.hasMdev (s : State) : Bool := s.recipe == 10

/-- The channel's recipe computes the vibration-sensitivity vector (R117, R145). -/
def State.hasVector (s : State) : Bool := s.recipe == 12 && s.hasPhase

/-- The channels a function needs beside its own (R147). -/
def Func.needs : Func → List Chan
  | .ratio r => [r]
  | .phase r => [r]
  | .fractional r => [r]
  | .interval a b => [a, b]
  | _ => []

/-- The function produces results: it exists and every channel it needs is enabled (R147). -/
def State.produces (s : State) (n : Chan) : Bool :=
  s.enabled n && s.func n != .none && (s.func n).needs.all s.enabled

/-- Conflict flag 29 (R147). -/
def State.conflictNeeds (s : State) : Bool :=
  Chan.all.any fun n =>
    (s.enabled n && s.func n != .none && !(s.func n).needs.all s.enabled) ||
    (match s.func n with | .interval a b => s.enabled b && !s.enabled a && s.func b == .none | _ => false)

/-- An output's source can never produce a value: one of the four cases of R146, and no other. With CFG_D code 0 no sample is
armed, yet R146 names no such case, so flag 28 stays clear and the output waits for its source (log 62). -/
def State.aoUnavailable (s : State) (o : OutNo) : Bool :=
  match s.aoSource o with
  | .dieTemp => false
  | .primary n => !s.produces n
  | .vector _ => !s.enabled 0 || !s.hasVector

/-- The AO domain is wanted: at least one output is neither off by strap nor of unavailable source (R555). -/
def State.aoWanted (s : State) : Bool := OutNo.all.any fun o => !s.aoOff o && !s.aoUnavailable o

/-- Conflict flag 28 (R146). -/
def State.conflictAo (s : State) : Bool := OutNo.all.any fun o => !s.aoOff o && s.aoUnavailable o

/-! ### Digital pins (R97) -/

/-- The pins of Table — Live and latched digital pins. -/
inductive DigitalPin where
  | resetN
  | calN
  | flushN
  | stbyN
  | hostrdy
  | sbyte
deriving DecidableEq, Repr

/-- The level an unconnected pin reads, high being `true`: its internal pull. -/
def DigitalPin.pull : DigitalPin → Bool
  | .resetN => true
  | .calN => true
  | .flushN => true
  | .stbyN => true
  | .hostrdy => false
  | .sbyte => false

/-- The 3.3 V logic inputs (R640): the pins above and those of the snapshot port and of PPS_IN. -/
inductive LogicInput where
  | pin (p : DigitalPin)
  | scsN
  | soeN
  | ppsIn
  | sa (i : Fin 9)
deriving DecidableEq, Repr

/-- The internal pulls, high being `true` (R640). -/
def LogicInput.pull : LogicInput → Bool
  | .pin p => p.pull
  | .scsN => true
  | .soeN => true
  | .ppsIn => false
  | .sa _ => false

/-- What an input reads: the level that drives it, or its pull where nothing does (R640). -/
def LogicInput.reads (i : LogicInput) (driven : Option Bool) : Bool := driven.getD i.pull

/-- The snapshot port is selected: SCS_N and SOE_N both read low, which they do not unconnected (R428, R640). -/
def snapSelected (scsN soeN : Option Bool) : Bool := !LogicInput.scsN.reads scsN && !LogicInput.soeN.reads soeN

/-- The widths of a pulse in ps below which it is ignored and from which it is recognised; HOSTRDY by the filtering of R407,
which leaves nothing open between, high or low. SBYTE is read at the strap latch alone. -/
def DigitalPin.limits : DigitalPin → Bool → Nat × Nat
  | .resetN, _ => (100000, 1000000)
  | .hostrdy, true => (1000000000, 1000000000)
  | .hostrdy, false => (1000000, 1000000)
  | .sbyte, _ => (0, 0)
  | _, _ => (200000, 1000000)

/-- A pin that has stood at a level for `width` ps takes effect: whether it does between the two limits is free (R97,
log 4). -/
def State.takes (s : State) (p : DigitalPin) (level : Bool) (width : Nat) : Bool × State :=
  let l := p.limits level
  if width < l.1 then (false, s) else if width < l.2 then s.drawBit else (true, s)

/-- What a pin does where it takes effect. -/
def State.onPin (s : State) (p : DigitalPin) (level : Bool) (width : Nat) (f : State → State) : State :=
  let r := s.takes p level width
  r.2.when r.1 f

/-! ### The configuration echo (R138 to R143) -/

def boolNat (b : Bool) : Nat := if b then 1 else 0

/-- A pin word (R140). -/
def pinWord (i : PinImage) : Nat :=
  i.raw.toNat + 16 * i.applied.toNat + 256 * boolNat i.amb + 65536 * i.reading.toNat

/-- The strap status word (R142). -/
def Strap.statusWord (p : Strap) : Nat :=
  (p.pins.zipIdx.foldl (fun a i => a + 2 ^ i.2 * boolNat i.1.amb) 0) + 2 ^ 22 * boolNat p.failed

def State.decoded0 (s : State) : Nat :=
  s.refinField + 8 * s.ppsUse + 32 * boolNat (!(s.code 1).testBit 0) + 64 * boolNat (!s.dcCoupled) +
    128 * boolNat s.autoLevel + 256 * boolNat ((s.code 1).testBit 3) + 512 * (s.preset % 4096).toNat

def State.decoded1 (s : State) : Nat := s.tickBase + 4 * s.tickRate10 + 2 ^ 30 * s.anglePlacement

def State.decoded2 (s : State) : Nat :=
  s.recipe + 16 * s.interval10 + 2 ^ 20 * boolNat s.decade + 2 ^ 21 * s.phaseType + 2 ^ 23 * s.binsLog2 +
    2 ^ 27 * s.coastLog2

def State.decoded3 (s : State) : Nat :=
  s.aoSpan 0 + 8 * boolNat (s.aoMean 0) + 16 * s.aoSpan 1 + 128 * boolNat (s.aoMean 1) + 256 * s.aoPairing +
    1024 * s.aoScale

def State.decoded4 (s : State) : Nat :=
  pick [0, 1, 2, 0, 3] s.lanes + 4 * s.laneRate + 16 * boolNat s.laneReversed + 32 * s.split +
    128 * boolNat s.interleaved + 256 * s.closeTimer

def State.decoded5 (s : State) : Nat :=
  s.delta + 8 * boolNat s.sealed + 16 * boolNat s.ntc + 32 * s.unitId + 512 * boolNat s.tethered +
    (Chan.all.foldl (fun a n => a + 2 ^ (10 + n.val) * boolNat (s.enabled n) + 2 ^ (18 + n.val) * boolNat (s.declared n)) 0) +
    2 ^ 26 * boolNat (s.angleTicks && !s.hasPhase) + 2 ^ 27 * boolNat s.conflictBins + 2 ^ 28 * boolNat s.conflictAo +
    2 ^ 29 * boolNat s.conflictNeeds + 2 ^ 30 * boolNat (s.code 3 == 9 && decide (4 < s.enabledCount))

/-- The six decoded words (R143). -/
def State.decodedWords (s : State) : List Nat :=
  [s.decoded0, s.decoded1, s.decoded2, s.decoded3, s.decoded4, s.decoded5]

/-- The configuration echo body, 120 bytes (R138). -/
def State.echoBody (s : State) : List Byte :=
  (s.strap.pins.flatMap fun i => le 4 (pinWord i)) ++ le 4 (boolNat s.strap.sbyte) ++ le 4 s.strap.statusWord ++
    s.decodedWords.flatMap (le 4)

end Sys2Proof.Machine
end

