-- ==== Sys2Proof/Machine/Flags.lean ====
section
/-! DEFINITION. Faults: raising, clearing, logging and rate limiting (chapter 18), and the flag and state words a fault
skein, a status skein and the snapshot map are built from (R165, R348). -/

namespace Sys2Proof.Machine
open Sys2Proof

/-! ### Raising and clearing (R353, R354, R596, R597) -/

/-- Occurrences of a code in the session so far (R353). -/
def Faults.count (f : Faults) (code : Byte) : Nat := ((f.seen.find? fun p => p.1 == code).map (·.2)).getD 0

/-- `n` more occurrences of a code. -/
def Faults.bump (f : Faults) (code : Byte) (n : Nat) : Faults :=
  { f with seen := (code, f.count code + n) :: f.seen.filter fun p => p.1 != code }

/-- The fault of this code and subject is active (R596). -/
def State.faultActive (s : State) (code subj : Byte) : Bool := s.faults.active.contains (code, subj)

/-- FAULT_N is asserted (R597). -/
def State.faultN (s : State) : Bool := !s.faults.active.isEmpty

/-- Append an event whose skein the firmware has still to close (R354, R591). -/
def State.event (s : State) (code : Byte) (raised held : Bool) (time : BitVec 64) (subj : Byte) (a b : BitVec 32) : State :=
  let e : FaultEvent :=
    { code := code, raised := raised, held := held, time := time, subject := subj, detailA := a, detailB := b,
      occ := s.faults.count code }
  { s with faults := { s.faults with events := s.faults.events ++ [e] } }

/-- `n` occurrences of a code: they count, and it is the most recent code (R348, R353). -/
def State.occur (s : State) (code : Byte) (n : Nat) : State :=
  { s with faults := { s.faults.bump code n with last := code } }

/-- One occurrence of a code. -/
def State.occurs (s : State) (code : Byte) : State := s.occur code 1

/-- Raise a held fault that stands for the element `key` and names the subject `subj`; one that is active already stays
as it is (R596). The two differ only for 0x63 and 0x64, whose subject is 0xFF while each channel or output holds its
own (R491, R492, log 24). -/
def State.raiseFor (s : State) (code key subj : Byte) (a b : BitVec 32) : State :=
  if s.faultActive code key then s
  else
    let t := (s.occurs code).event code true true s.tb.time subj a b
    { t with faults := { t.faults with active := t.faults.active ++ [(code, key)]
                                       details := t.faults.details ++ [((code, key), a, b)] } }

/-- The details an active fault was raised with. -/
def Faults.detailsOf (f : Faults) (code key : Byte) : BitVec 32 × BitVec 32 :=
  ((f.details.find? fun d => d.1 == (code, key)).map (·.2)).getD (0, 0)

/-- Clear a held fault that is active: one clearing skein (R354), which repeats the details the fault was raised with
(R355, log 24). -/
def State.clearFor (s : State) (code key subj : Byte) : State :=
  if s.faultActive code key then
    let d := s.faults.detailsOf code key
    let t := s.event code false true s.tb.time subj d.1 d.2
    { t with faults := { t.faults with active := t.faults.active.filter fun p => p != (code, key)
                                       details := t.faults.details.filter fun d => d.1 != (code, key) } }
  else s

/-- Raise a held fault of a subject (R596). -/
def State.raise (s : State) (code subj : Byte) (a b : BitVec 32) : State := s.raiseFor code subj subj a b

/-- Raise a held fault of a subject once more while it is active: a further skein with its own details (R354, R594, R601). -/
def State.raiseAgain (s : State) (code subj : Byte) (a b : BitVec 32) : State :=
  if s.faultActive code subj then
    let t := (s.occurs code).event code true true s.tb.time subj a b
    { t with faults := { t.faults with
      details := (t.faults.details.filter fun d => d.1 != (code, subj)) ++ [((code, subj), a, b)] } }
  else s.raise code subj a b

/-- Clear the held fault of a subject (R354). -/
def State.clearFault (s : State) (code subj : Byte) : State := s.clearFor code subj subj

/-- Log a fault with the time of its event (R354, R596). -/
def State.logAt (s : State) (code : Byte) (time : BitVec 64) (subj : Byte) (a b : BitVec 32) : State :=
  (s.occurs code).event code true false time subj a b

/-- Log a fault now. -/
def State.log (s : State) (code subj : Byte) (a b : BitVec 32) : State := s.logAt code s.tb.time subj a b

/-! ### Rate limits (R667) -/

/-- The period of a rate-limited code in qps (R667). -/
def logPeriod (code : Byte) : Nat :=
  if code = 0x37 then 60 * Config.sec else if code = 0xA2 then 10 * Config.sec else Config.sec

/-- The running period of a code and, for 0x13, a channel. -/
def Faults.period (f : Faults) (code : Byte) (ch : Nat) : Option LogPeriod :=
  f.periods.find? fun p => p.code == code && p.ch == ch

/-- Replace the period of a code and channel. -/
def Faults.setPeriod (f : Faults) (code : Byte) (ch : Nat) (p : Option LogPeriod) : Faults :=
  { f with periods := p.toList ++ f.periods.filter fun q => !(q.code == code && q.ch == ch) }

/-- Occurrences of a rate-limited code with a count of `n`: logged at once outside a period, which then begins, or
accumulated within one (R667). Detail A is the count, detail B is `b`. Each is an occurrence (R353), but for 0x30, where
the close of a drop run is one and its count the refusals. -/
def State.logLimited (s : State) (code : Byte) (ch : Nat) (n : Nat) (subj : Byte) (b : BitVec 32) : State :=
  let k := if code = 0x30 then 1 else n
  let fresh : LogPeriod :=
    { code := code, ch := ch, since := s.clock, acc := 0, firstTime := s.tb.time, subject := subj, detailB := b }
  let now := (s.occur code k).event code true false s.tb.time subj (sat32 n) b
  match s.faults.period code ch with
  | none => { now with faults := now.faults.setPeriod code ch (some fresh) }
  | some p =>
    if p.acc = 0 ∧ logPeriod code ≤ s.clock - p.since then
      { now with faults := now.faults.setPeriod code ch (some fresh) }
    else
      let p' := if p.acc = 0 then { p with acc := n, firstTime := s.tb.time, subject := subj, detailB := b }
                else { p with acc := p.acc + n, subject := subj, detailB := b }
      { s with faults := (s.faults.bump code k).setPeriod code ch (some p') }

/-- The period of a code ends (R667): one log of what has accumulated and a new period, or nothing. -/
def State.endPeriod (s : State) (code : Byte) (ch : Nat) : State :=
  match s.faults.period code ch with
  | none => s
  | some p =>
    if s.clock - p.since < logPeriod code then s
    else if p.acc = 0 then { s with faults := s.faults.setPeriod code ch none }
    else
      let t := s.event code true false p.firstTime p.subject (sat32 p.acc) p.detailB
      { t with faults := { t.faults.setPeriod code ch (some { p with since := s.clock, acc := 0 }) with last := code } }

/-! ### Flag and state words -/

/-- The code of a channel state (R165). -/
def ChanState.code : ChanState → Nat
  | .disabled => 0
  | .absentDown => 1
  | .absentUp => 2
  | .qualified => 3
  | .joining => 4
  | .present => 5
  | .suspended => 6

/-- The channel state word: channel n in bits 4n + 3 to 4n (R165). -/
def State.chanStateWord (s : State) : Nat :=
  Chan.all.foldl (fun a n => a + 16 ^ n.val * (s.chan.get n).st.code) 0

/-- The drift mask (R103). -/
def Strap.driftMask (p : Strap) : Nat := p.drift.zipIdx.foldl (fun a d => a + 2 ^ d.2 * boolNat d.1.inDrift) 0

/-- The drawer area is read-only: SEAL is set or fault 0x74 is held (R543). -/
def State.readOnly (s : State) : Bool := s.sealed || s.faultActive 0x74 0xFF

/-- A stream partner is discovered: INTRODUCING, DRAIN or PAUSED (R408). -/
def State.partner (s : State) : Bool :=
  s.port.st == .introducing || s.port.st == .drain || s.port.st == .paused

/-- STATUS FLAGS of a status skein (R348). -/
def State.statusFlags (s : State) (startRecord : Bool) : Nat :=
  boolNat startRecord + 2 * boolNat s.tb.holdover + 4 * boolNat s.power.brace + 8 * boolNat s.leave.starved +
    16 * boolNat s.readOnly + 32 * boolNat s.partner

/-- Held faults active (R348). -/
def State.heldFaults (s : State) : Nat := s.faults.active.length

end Sys2Proof.Machine
end

