-- ==== Sys2Proof/Machine/Formats.lean ====
section
/-! DEFINITION. Byte layouts (chapter 10): stitches, skeins with header, trailer and CRC, the session start record and the
fault body. -/

namespace Sys2Proof.Machine
open Sys2Proof

/-! ### Stitches (R330 to R345) -/

/-- KIND (R331). -/
def Stitch.kind : Stitch → Nat
  | .edge _ a .. => a.toNat
  | .tick _ a .. => 4 + a.toNat
  | .value .. => 0x08
  | .headEnd .. => 0x09
  | .headStart .. => 0x0A
  | .gap .. => 0x10
  | .calGap .. => 0x11
  | .brace .. => 0x12
  | .yarnStart .. => 0x13
  | .yarnEnd .. => 0x14
  | .flush .. => 0x15
  | .queueReset .. => 0x16
  | .storeReset .. => 0x16
  | .phase .. => 0x17
  | .again .. => 0x18
  | .drift .. => 0x19

/-- CHAN (R331): 0 for the kinds that belong to no channel. -/
def Stitch.chan : Stitch → Chan
  | .edge ch .. => ch
  | .tick ch .. => ch
  | .value ch .. => ch
  | .headEnd ch .. => ch
  | .headStart ch .. => ch
  | .gap ch .. => ch
  | .calGap ch .. => ch
  | .yarnStart ch .. => ch
  | .yarnEnd ch .. => ch
  | .brace .. => 0
  | .flush .. => 0
  | .queueReset .. => 0
  | .storeReset .. => 0
  | .phase .. => 0
  | .again .. => 0
  | .drift .. => 0

/-- A stitch marker: kind 0x10 to 0x1F (R331). -/
def Stitch.isMarker (st : Stitch) : Bool := decide (0x10 ≤ st.kind)

/-- A stamp of the stamp engine (R204). -/
def Stitch.isStamp (st : Stitch) : Bool := decide (st.kind ≤ 0x07)

def Stitch.isBrace : Stitch → Bool
  | .brace .. => true
  | _ => false

/-- The TIME field (R334, R335); a result value has none. -/
def Stitch.time : Stitch → BitVec 64
  | .edge _ _ t _ _ => t
  | .tick _ _ t _ _ => t
  | .value .. => 0
  | .headEnd _ t _ _ => t
  | .headStart .. => 0
  | .gap _ t _ _ => t
  | .calGap _ t _ _ _ => t
  | .brace t _ _ => t
  | .yarnStart _ t _ _ => t
  | .yarnEnd _ t _ _ => t
  | .flush t _ _ _ => t
  | .queueReset t _ _ _ => t
  | .storeReset t _ _ => t
  | .phase t _ _ _ => t
  | .again t _ _ => t
  | .drift t _ _ _ _ _ => t

/-- The 40-bit count field of the kinds that carry one (R332). -/
def Stitch.count? : Stitch → Option (BitVec 40)
  | .edge _ _ _ c _ => some c
  | .tick _ _ _ c _ => some c
  | .gap _ _ c _ => some c
  | .calGap _ _ c _ _ => some c
  | .yarnStart _ _ c _ => some c
  | .yarnEnd _ _ c _ => some c
  | .value .. => none
  | .headEnd .. => none
  | .headStart .. => none
  | .brace .. => none
  | .flush .. => none
  | .queueReset .. => none
  | .storeReset .. => none
  | .phase .. => none
  | .again .. => none
  | .drift .. => none

/-- The queue number of a store's reset marker (R389). -/
def storeQueue : StoreId → Nat
  | .raw => 2
  | .shelf => 3

/-- Bytes 0 to 14 of a stitch (R334, R335, R340, R341, R344). -/
def Stitch.head : Stitch → List Byte
  | .edge _ _ t c a => le 8 t.toNat ++ le 5 c.toNat ++ le 2 a.toNat
  | .tick _ _ t c a => le 8 t.toNat ++ le 5 c.toNat ++ le 2 a.toNat
  | .value _ v aux i st code => le 8 v.toNat ++ le 4 aux.toNat ++ [i, st, code]
  | .headEnd _ t c f => le 8 t.toNat ++ le 6 c.toNat ++ [f]
  | .headStart _ l g n => le 15 (l.toNat + 2 ^ 44 * g.toNat + 2 ^ 88 * n.toNat)
  | .gap _ t c d => le 8 t.toNat ++ le 5 c.toNat ++ le 2 d.toNat
  | .calGap _ t c p r => le 8 t.toNat ++ le 5 c.toNat ++ le 2 (boolNat p + 2 * boolNat r)
  | .brace t p cy => le 8 t.toNat ++ le 5 cy.toNat ++ le 2 (boolNat p)
  | .yarnStart _ t c y => le 8 t.toNat ++ le 5 c.toNat ++ le 2 y.toNat
  | .yarnEnd _ t c y => le 8 t.toNat ++ le 5 c.toNat ++ le 2 y.toNat
  | .flush t d r sh => le 8 t.toNat ++ le 4 d.toNat ++ [0, BitVec.ofNat 8 (boolNat r + 2 * boolNat sh), 0]
  | .queueReset t n m k => le 8 t.toNat ++ le 2 n.toNat ++ le 2 m.toNat ++ [k, 1, 0]
  | .storeReset t d q => le 8 t.toNat ++ le 4 d.toNat ++ [0, BitVec.ofNat 8 (storeQueue q), 0]
  | .phase t i e ty => le 8 t.toNat ++ le 5 i.toNat ++ le 2 (e.toNat + 4 * ty.toNat)
  | .again t q se => le 8 t.toNat ++ le 4 q.toNat ++ [0] ++ le 2 se.toNat
  | .drift t r p d l o => le 8 t.toNat ++ le 2 r.toNat ++ [p, d, l, o, 0]

/-- The 16 bytes of a stitch; byte 15 is KIND × 8 + CHAN (R330). -/
def Stitch.bytes (st : Stitch) : List Byte := st.head ++ [BitVec.ofNat 8 (st.kind * 8 + st.chan.val)]

/-! ### Skeins (R305 to R309, R323 to R329) -/

/-- Records of a body (R308). -/
def Body.records : Body → List Stitch
  | .raw _ r => r
  | .results r => r
  | .bytes _ => []

/-- Body bytes without padding (R325, R327). -/
def Body.content : Body → List Byte
  | .raw h r => h.toList ++ r.flatMap Stitch.bytes
  | .results r => r.flatMap Stitch.bytes
  | .bytes b => b

/-- Body length in bytes without padding. -/
def Body.length : Body → Nat
  | .raw _ r => 8 + 16 * r.length
  | .results r => 16 * r.length
  | .bytes b => b.length

/-- LEN: the skein's length in 64-bit words (R305, R323). -/
def Skein.words (k : Skein) : Nat := 3 + (k.body.length + 7) / 8

/-- The skein's length in bytes. -/
def Skein.size (k : Skein) : Nat := 8 * k.words

/-- The length slot (R305, R309); `rep` is FLAGS[25]. -/
def Skein.slot (k : Skein) (rep : Bool) : Nat :=
  k.words + 2 ^ 16 * (k.body.length % 8) + 2 ^ 19 * k.typ.toNat + 2 ^ 25 * boolNat rep + 2 ^ 26 * k.reason.toNat +
    2 ^ 29 * boolNat (k.body.records.any Stitch.isMarker) + 2 ^ 30 * boolNat k.cont

/-- Header and padded body (R306, R324). -/
def Skein.front (k : Skein) (rep : Bool) : List Byte :=
  le 4 (k.slot rep) ++ le 4 k.seq.toNat ++ le 2 k.session.toNat ++ le 2 k.era.toNat ++
    le 4 (k.unit.toNat + 16 + 256 * k.tsb.toNat + 65536 * k.tsh.toNat) ++ k.body.content ++
    List.replicate (8 * ((k.body.length + 7) / 8) - k.body.length) 0

/-- The skein's bytes with its trailer; the CRC takes FLAGS[25] as 0, which the stored copy
never has set (R328, R329, R357, R375). -/
def Skein.wire (k : Skein) (rep : Bool) : List Byte :=
  k.front rep ++ le 4 (crc32 (k.front false)).toNat ++ le 4 k.body.records.length

/-- TYPE codes (R325). -/
def typeLive : BitVec 6 := 0x01
def typeBacklog : BitVec 6 := 0x02
def typeSummary : BitVec 6 := 0x03
def typeStatus : BitVec 6 := 0x04
def typeEcho : BitVec 6 := 0x05
def typeIntro : BitVec 6 := 0x06
def typeReport : BitVec 6 := 0x07
def typeFault : BitVec 6 := 0x08

def Skein.isRaw (k : Skein) : Bool := k.typ == typeLive || k.typ == typeBacklog

/-! ### Bodies that need only their own record -/

/-- The session start record, 88 bytes (R349). -/
def StartRecord.bytes (r : StartRecord) : List Byte :=
  le 2 r.newSession.toNat ++ le 2 r.prevSession.toNat ++ [r.reason] ++
    le 1 (r.source.toNat + 4 * boolNat r.keepLost + 16 * r.originId.toNat) ++ le 2 r.originSession.toNat ++
    le 5 r.offTicks.toNat ++ le 1 r.leadId.toNat ++ le 2 0 ++ le 8 r.swOldTime.toNat ++ le 2 r.swOldEra.toNat ++
    le 2 r.swNewEra.toNat ++ le 4 0 ++ le 8 r.swNewTime.toNat ++ r.swCounts.toList.flatMap fun c => le 6 c.toNat

/-- The fault body, 22 bytes (R353). -/
def FaultEvent.bytes (e : FaultEvent) : List Byte :=
  [e.code] ++ le 1 (boolNat e.raised + 2 * boolNat e.held) ++ le 8 e.time.toNat ++ [e.subject, 0] ++
    le 4 e.detailA.toNat ++ le 4 e.detailB.toNat ++ le 2 (min e.occ 0xFFFF)

end Sys2Proof.Machine
end

