-- ==== Sys2Proof/Machine/Chain.lean ====
section
/-! DEFINITION. Merge, chain stitch, marker input and packer (chapters 06 and 09); the commands' meanings call
them in `Machine/Meanings.lean`. -/

namespace Sys2Proof.Machine
open Sys2Proof

/-! ### Refusals and drop runs (R212, R290, R292, R295) -/

/-- The run after one more refusal of the stitch with formation number `no` (R292, log 10). -/
def DropRun.more (r : DropRun) (no : Nat) : DropRun :=
  { r with refused := r.refused + 1, highNo := max r.highNo no }

/-- A stitch of channel `n` is refused in a cycle: it joins the channel's drop run or begins one, and the aggregate counter
counts it (R292, R295). -/
def State.refuse (s : State) (n : Chan) (e : MergeEntry) (cycle : Nat) : State :=
  let fresh : DropRun :=
    { time := e.item.st.time, count := e.item.st.count?.getD 0, refused := 1, lowNo := e.no, highNo := e.no,
      session := e.item.session }
  let t := s.modChan n fun c =>
    { c with run := some (match c.run with | some r => r.more e.no | none => fresh), refusedAt := some cycle }
  { t with chain := { t.chain with refusals := t.chain.refusals + 1 } }

/-- The merge entries are about to change in a cycle (R292). -/
def Channel.noteMerge (k : Nat) (c : Channel) : Channel :=
  { c with mergeBegan := if k ≤ c.mergeBegan.1 then c.mergeBegan else (k, c.merge.length) }

/-- Merge entries occupied as a cycle began (R292). -/
def Channel.mergeBefore (c : Channel) (k : Nat) : Nat := if c.mergeBegan.1 = k then c.mergeBegan.2 else c.merge.length

/-- A stitch reaches the merge in a cycle: it takes one of its channel's four entries or is refused (R211, R212). -/
def State.arrive (s : State) (n : Chan) (e : MergeEntry) (cycle : Nat) : State :=
  if 4 ≤ (s.chan.get n).merge.length then s.refuse n e cycle
  else s.modChan n fun c => { c.noteMerge cycle with merge := c.merge ++ [e] }

/-! ### Pointers (R298) -/

/-- The check of a cycle in which an item enters or leaves (R298). -/
def Chain.sound (c : Chain) : Bool :=
  c.entryA == c.entryB && c.exitA == c.exitB && (c.entryA - c.exitA).toNat == c.items.length

/-- A failed check is a pointer mismatch, whose queue reset follows in the next cycle (R298, R299). -/
def State.checkChain (s : State) : State :=
  if s.chain.sound || s.chain.mismatch.isSome then s
  else { s with chain := { s.chain with mismatch := some s.tb.time } }

/-- The items held are about to change in a cycle (R292). -/
def Chain.note (k : Nat) (c : Chain) : Chain :=
  { c with began := if k ≤ c.began.1 then c.began else (k, c.items.length) }

/-- Items held as this cycle began (R292). -/
def State.itemsBefore (s : State) : Nat := if s.chain.began.1 = s.cycle then s.chain.began.2 else s.chain.items.length

/-- An item enters behind the others and the pointers are checked (R287, R298). -/
def State.enterChain (s : State) (i : Item) : State :=
  State.checkChain { s with chain := { s.chain.note s.cycle with
    items := s.chain.items ++ [i], entryA := s.chain.entryA + 1, entryB := s.chain.entryB + 1,
    entered := some s.cycle } }

/-- An upset of the second copy of a pointer (log 14). -/
def State.upsetEntry (s : State) (flip : BitVec 7) : State :=
  { s with chain := { s.chain with entryB := s.chain.entryB ^^^ flip } }

def State.upsetExit (s : State) (flip : BitVec 7) : State :=
  { s with chain := { s.chain with exitB := s.chain.exitB ^^^ flip } }

/-! ### The marker input (R296, R297) -/

/-- A channel has a gap marker, readied before this cycle, whose older kept stitches have left the merge (R292, R294). -/
def Channel.gapOffered (c : Channel) (cycle : Nat) : Bool :=
  match c.gapReg with
  | some g => decide (g.since < cycle) && !(c.merge.any fun e => decide (e.no < g.lowNo))
  | none => false

/-- Where the marker offered in this cycle comes from (R296). -/
inductive Offer where
  | reset (i : Item)
  | gap (ch : Chan) (i : Item)
  | buffer (i : Item)
deriving DecidableEq, Repr

/-- The marker offered in this cycle, in the order of R296. -/
def State.offer (s : State) : Option Offer :=
  match s.chain.resets with
  | i :: _ => some (.reset i)
  | [] =>
    match Chan.all.find? fun n => (s.chan.get n).gapOffered s.cycle with
    | some n => (s.chan.get n).gapReg.map fun g => .gap n g.item
    | none => s.chain.buffer.head?.map .buffer

/-- A hardware marker waiting at its source takes a free entry of the buffer (R297). -/
def Chain.refill (c : Chain) : Chain :=
  match c.hwWait with
  | i :: rest => if c.buffer.length < 8 then { c with buffer := c.buffer ++ [i], hwWait := rest } else c
  | [] => c

def Stitch.isYarnStart : Stitch → Bool
  | .yarnStart .. => true
  | _ => false

/-- How many of the firmware markers that wait come up to the last yarn start among them (log 23). -/
def Chain.yarnAhead (c : Chain) : Nat := (c.fwWait.reverse.dropWhile fun i => !i.st.isYarnStart).length

/-- The offered marker leaves its source. Room in the buffer goes to what waits for it: hardware markers, and what the
firmware has to place; in a stall only what goes up to a yarn start marker, since that precedes its yarn's stitches (R30,
R184, R297, log 23). -/
def State.takeOffer (s : State) : Offer → State
  | .reset _ => { s with chain := { s.chain with resets := s.chain.resets.tail } }
  | .gap n _ => s.modChan n fun c => { c with gapReg := none }
  | .buffer _ =>
    let c := ({ s.chain with buffer := s.chain.buffer.tail } : Chain).refill
    { s with chain := if s.fwRuns then c.place else c.placeUpTo c.yarnAhead }

def Offer.item : Offer → Item
  | .reset i => i
  | .gap _ i => i
  | .buffer i => i

/-- An item may enter in this cycle: none has, and no queue reset is due (R288, R299). -/
def State.entryFree (s : State) : Bool :=
  s.chain.entered != some s.cycle && s.chain.mismatch.isNone

/-- MARKER_ENTRY (R288, R289, R296): the offered marker enters while at most 63 items are held. -/
def State.markerEntry (s : State) (flip : BitVec 7) : State :=
  match s.offer with
  | some o =>
    if s.entryFree && decide (s.chain.items.length ≤ 63) then ((s.takeOffer o).upsetEntry flip).enterChain o.item else s
  | none => s

/-- FIRMWARE_MARKER_PLACE (R297): a firmware marker takes an entry while at least three are free. -/
def State.placeFirmwareMarker (s : State) : State :=
  match s.chain.fwWait with
  | i :: rest =>
    if s.fwRuns && decide (s.chain.buffer.length ≤ 5) then
      { s with chain := { s.chain with buffer := s.chain.buffer ++ [i], fwWait := rest } }
    else s
  | [] => s

/-! ### The merge (R209 to R211, R288 to R294) -/

/-- The oldest entry of a channel that the merge may move: one formed after a readied gap marker's run waits for it, and
one formed after an open run's refusals waits while the chain stitch has room and the cycle began with a free merge entry,
for then the run closes (R292, R294, log 10). -/
def Channel.movable (c : Channel) (room : Bool) (cycle : Nat) : Option MergeEntry :=
  match c.merge with
  | e :: _ =>
    let held := (match c.gapReg with | some g => decide (g.highNo < e.no) | none => false) ||
      (match c.run with | some r => room && decide (r.highNo < e.no) && decide (c.mergeBefore cycle < 4) | none => false)
    if held then none else some e
  | [] => none

/-- `a` leaves the merge before `b`: an earlier session first, then the earlier time (R211). -/
def State.before (s : State) (a b : Item) : Bool :=
  if a.session = b.session then decide (a.full < b.full) else b.session == s.tb.session

/-- The channel whose oldest entry the merge moves next; of equal times the lower channel (R211, R666). -/
def State.mergePick (s : State) : Option (Chan × MergeEntry) :=
  Chan.all.foldl (fun best n =>
    match (s.chan.get n).movable (decide (s.chain.items.length ≤ 62)) s.cycle with
    | none => best
    | some e =>
      match best with
      | none => some (n, e)
      | some b => if s.before e.item b.2.item then some (n, e) else best) none

/-- Fewer than 8 moves lie in the 25 cycles that end with this one, and none in this one (R211). -/
def State.mergeRate (s : State) : Bool :=
  let recent := s.chain.moves.filter fun c => decide (s.cycle < c + 25)
  decide (recent.length < 8) && !recent.contains s.cycle

/-- The merge's offer is deferred: a marker enters in this cycle (R288). -/
def State.mergeDeferred (s : State) : Bool := s.offer.isSome && decide (s.chain.items.length ≤ 63)

/-- MERGE_MOVE (R211, R287 to R290): the oldest stitch enters while at most 62 items are held, and is refused
otherwise; either is a move. -/
def State.mergeMove (s : State) (flip : BitVec 7) : State :=
  match s.mergePick with
  | some (n, e) =>
    if s.entryFree && s.mergeRate && !s.mergeDeferred then
      let t := s.modChan n fun c => { c.noteMerge s.cycle with merge := c.merge.tail }
      let t := { t with chain := { t.chain with moves := remember 8 s.cycle t.chain.moves } }
      if s.chain.items.length ≤ 62 then (t.upsetEntry flip).enterChain e.item else t.refuse n e s.cycle
    else s
  | none => s

/-- DROP_RUN_CLOSE: the drop run of a channel closes in a cycle that began with at most 62 items and a free merge entry, refuses none of its
stitches and finds its register empty: its gap marker is readied and fault 0x30 counts the refusals (R292, R293, R322). -/
def State.closeRun (s : State) (n : Chan) : State :=
  let c := s.chan.get n
  match c.run with
  | some r =>
    if decide (s.itemsBefore ≤ 62) && decide (c.mergeBefore s.cycle < 4) && c.refusedAt != some s.cycle &&
        c.gapReg.isNone then
      let st := Stitch.gap n r.time r.count (sat16 r.refused)
      let g : GapReg :=
        { item := { st := st, session := r.session, full := s.full }, lowNo := r.lowNo, highNo := r.highNo, since := s.cycle }
      (s.modChan n fun c => { c with run := none, gapReg := some g }).logLimited 0x30 0 r.refused 1 0
    else s
  | none => s

/-- QUEUE_RESET (R299, R300): the stages are cleared, the pointers set to 0, fault 0x31 logged, and the queue reset
marker enters as the first item. -/
def State.queueReset (s : State) : State :=
  match s.chain.mismatch with
  | some t =>
    let markers := s.chain.items.filter fun i => i.st.isMarker
    let stitches := s.chain.items.filter fun i => !i.st.isMarker
    let mask := Chan.all.foldl (fun a n => a + 2 ^ n.val * boolNat (stitches.any fun i => i.st.chan == n)) 0
    let m := Stitch.queueReset t (sat16 stitches.length) (sat16 markers.length) (BitVec.ofNat 8 mask)
    let cleared : Chain :=
      { s.chain.note s.cycle with
        items := [s.item m], entryA := 1, entryB := 1, exitA := 0, exitB := 0, mismatch := none, entered := some s.cycle }
    State.log { s with chain := cleared } 0x31 1 0 0
  | none => s

/-! ### The packer: closing and numbering (R304, R314, R318 to R320) -/

/-- The extended count of a record of channel `n` (R310). -/
def State.extCount (s : State) (n : Chan) (f : BitVec 40) : BitVec 48 :=
  let c := (s.chan.get n).count
  c - ((c - f.setWidth 48).setWidth 40).setWidth 48

/-- Bits 47:40 of a count (R311). -/
def countHigh (c : BitVec 48) : Byte := c.extractLsb' 40 8

/-- The era of a record (R47, R69): by R70 in its own session's scale. -/
def State.itemEra (s : State) (i : Item) : BitVec 16 :=
  if i.session = s.tb.session then s.eraOf i.st.time
  else if s.tb.oldWrapped && !s.tb.oldTime.msb && i.st.time.msb then s.tb.oldEra - 1 else s.tb.oldEra

/-- The order of the numbers of one cycle: raw, summary, control (R318); nothing goes before a session's echo (R320). -/
def Skein.rank (k : Skein) : Nat :=
  if k.isRaw || (k.typ == typeEcho && !k.intro) then 0 else if k.typ == typeSummary then 1 else 2

/-- A skein that waits for its session's echo, once it has closed (R320). -/
def Skein.awaitsEcho (k : Skein) : Bool := k.isRaw || k.typ == typeSummary

/-- How many of the latest skeins of a list closed in this one's cycle and are numbered after it (R318). -/
def Skein.ahead (k : Skein) (l : List Skein) : Nat :=
  (l.reverse.takeWhile fun q => q.inCycle == k.inCycle && q.session == k.session && decide (k.rank < q.rank)).length

/-- A skein joins a list in which those closed later in rank in its cycle stand behind it, one number on (R318). -/
def Skein.join (k : Skein) (l : List Skein) : List Skein :=
  let n := k.ahead l
  l.take (l.length - n) ++ { k with seq := k.seq - BitVec.ofNat 32 n, closeNo := k.closeNo - n } ::
    (l.drop (l.length - n)).map fun q => { q with seq := q.seq + 1, closeNo := q.closeNo + 1 }

/-- The place in close order of the `i`-th skein numbered in a session, sessions being told apart by the adoptions before them:
sequence order within a session, session order across an adoption (chapter 12, *The drain*). -/
def placeInOrder (scale i : Nat) : Nat := scale * 2 ^ 64 + i

/-- A closed skein takes the next number of its session, its place in close order with it, and is released (R318, R319, R417). -/
def State.number (s : State) (k : Skein) : State :=
  let p := s.pack
  if k.session = s.tb.session then
    let k := { k with seq := p.seq, closeNo := placeInOrder p.scale p.closed }
    { s with pack := { p with released := Skein.join k p.released, seq := p.seq + 1, closed := p.closed + 1 } }
  else
    let k := { k with seq := p.oldSeq, closeNo := placeInOrder (p.scale - 1) p.oldClosed }
    { s with pack := { p with released := Skein.join k p.released, oldSeq := p.oldSeq + 1, oldClosed := p.oldClosed + 1 } }

/-- A skein closes: it takes its number and is released; a raw or summary skein of a session whose echo has not closed
waits (R318 to R320). -/
def State.release (s : State) (k : Skein) : State :=
  let k := { k with inCycle := s.cycle }
  let done := if k.session = s.tb.session then s.pack.echoDone else s.pack.oldEchoDone
  if done || !k.awaitsEcho then s.number k
  else { s with pack := { s.pack with unnumbered := k.join s.pack.unnumbered } }

/-- The skeins that waited for the echo of a session take the numbers that follow it (R320). -/
def State.numberWaiting (s : State) (session : BitVec 16) : State :=
  (s.pack.unnumbered.filter fun k => k.session == session).foldl (fun t k => t.number k)
    { s with pack := { s.pack with unnumbered := s.pack.unnumbered.filter fun k => k.session != session } }

/-- A skein with the unit's ID and no number yet (R324). -/
def State.skein (s : State) (typ : BitVec 6) (session era : BitVec 16) (reason : BitVec 3) (body : Body) : Skein :=
  { typ := typ, session := session, era := era, seq := 0, unit := BitVec.ofNat 4 s.unitId, tsb := 0, tsh := 0,
    reason := reason, cont := false, body := body, intro := false, closeNo := 0, inCycle := 0 }

/-- The raw skein's type at its close (R314). -/
def State.rawType (s : State) : BitVec 6 := if s.partner && s.cab.raw.held.isEmpty then typeLive else typeBacklog

/-- The count-high word at close (R311). -/
def State.highWord (s : State) (h : Per8 (Option Byte)) : Per8 Byte :=
  let f (n : Chan) : Byte := (h.get n).getD (countHigh (s.chan.get n).count)
  ⟨f 0, f 1, f 2, f 3, f 4, f 5, f 6, f 7⟩

/-- The open raw skein closes with a reason (R304, R312). -/
def State.closeRaw (s : State) (reason : BitVec 3) : State :=
  match s.pack.rawOpen with
  | some o =>
    let k := s.skein s.rawType o.session o.era reason (.raw (s.highWord o.high) o.recs)
    State.release { s with pack := { s.pack with rawOpen := none } } k
  | none => s

/-- Closed skeins of a class that the cabinet controller has not taken (R302). -/
def Packer.closedCount (p : Packer) (f : Skein → Bool) : Nat :=
  (p.released.filter f).length + (p.unnumbered.filter f).length

/-- A raw assembly buffer is open or can be opened (R302). -/
def State.rawBuffer (s : State) : Bool :=
  s.pack.rawOpen.isSome || decide (s.pack.closedCount Skein.isRaw < 2)

/-- The read side is free: the last record was taken at least 2 cycles ago (R301). -/
def State.readSide (s : State) : Bool :=
  match s.pack.takenAt with
  | some c => decide (c + 2 ≤ s.cycle)
  | none => true

/-- Why a record cannot join the open raw skein, by the order of R312; none where it can. -/
def State.closeReason (s : State) (o : RawOpen) (i : Item) : Option (BitVec 3) :=
  if i.session ≠ o.session then some 3
  else if s.itemEra i ≠ o.era then some 2
  else if (match i.st.count?, o.high.get i.st.chan with
      | some f, some b => countHigh (s.extCount i.st.chan f) != b
      | _, _ => false) then some 4
  else if 254 ≤ o.recs.length then some 0
  else none

/-- A record is written into the open raw skein; a brace marker closes it (R311, R312). -/
def State.writeRaw (s : State) (o : RawOpen) (i : Item) : State :=
  let high := match i.st.count? with
    | some f => o.high.set i.st.chan (some (countHigh (s.extCount i.st.chan f)))
    | none => o.high
  let t := { s with pack := { s.pack with
    rawOpen := some { o with recs := o.recs ++ [i.st], high := high, firstAt := if o.recs.isEmpty then s.clock else o.firstAt } } }
  if i.st.isBrace then t.closeRaw 5 else t

/-- A raw skein opened for a record (R303). -/
def State.openFor (s : State) (i : Item) : RawOpen :=
  { session := i.session, era := s.itemEra i, recs := [], high := .const none, firstAt := s.clock }

/-- The item in stage 0 leaves and the pointers are checked (R287, R298). -/
def State.leaveChain (s : State) (flip : BitVec 7) : State :=
  State.checkChain { s with
    chain := { s.chain.note s.cycle with
      items := s.chain.items.tail, exitA := s.chain.exitA + 1, exitB := (s.chain.exitB ^^^ flip) + 1 }
    pack := { s.pack with takenAt := some s.cycle } }

/-- The only item entered in this cycle, so that it reaches the head in the next (R287). -/
def State.headFalls (s : State) : Bool := s.chain.items.length == 1 && s.chain.entered == some s.cycle

/-- The record at the head can be taken in this cycle. -/
def State.takeable (s : State) : Bool := s.readSide && s.rawBuffer && s.chain.mismatch.isNone && !s.headFalls

/-- PACKER_TAKE_ITEM (R287, R302, R310, R312): the head item joins the open raw skein; where it cannot, that skein closes
first and the item opens the next one as soon as a buffer is free. -/
def State.takeItem (s : State) (flip : BitVec 7) : State :=
  match s.chain.items with
  | [] => s
  | i :: _ =>
    if s.takeable then
      match s.pack.rawOpen with
      | none => (s.leaveChain flip).writeRaw (s.openFor i) i
      | some o =>
        match s.closeReason o i with
        | none => (s.leaveChain flip).writeRaw o i
        | some r =>
          let t := s.closeRaw r
          if t.rawBuffer then (t.leaveChain flip).writeRaw (t.openFor i) i else t
    else s

/-- CLOSE_TIMER_EXPIRY (R312, R313): the open skein's timer has run and it holds a record. Where the record that can be taken
in this very cycle closes the skein too, its condition comes first in the table: a brace marker joins it, any other stays for
the next skein (log 32). -/
def State.closeTimer_expire (s : State) : State :=
  match s.pack.rawOpen with
  | some o =>
    if !o.recs.isEmpty && decide (s.closeTimerQps ≤ s.clock - o.firstAt) then
      match s.chain.items with
      | i :: _ =>
        if s.takeable then
          match s.closeReason o i with
          | some r => s.closeRaw r
          | none => if i.st.isBrace then (s.leaveChain 0).writeRaw o i else s.closeRaw 1
        else s.closeRaw 1
      | [] => s.closeRaw 1
    else s
  | none => s

/-! ### Summary skeins (R280, R315, R316, R346) -/

/-- The open summary skein closes with a reason (R315). -/
def State.closeSum (s : State) (reason : BitVec 3) : State :=
  match s.pack.sumOpen with
  | some o =>
    let k := s.skein typeSummary o.session o.era reason (.results o.recs)
    State.release { s with pack := { s.pack with sumOpen := none } }
      { k with tsb := BitVec.ofNat 8 o.ch.val, tsh := o.yarn, cont := o.cont }
  | none => s

/-- A summary assembly buffer is open or can be opened. -/
def State.sumBuffer (s : State) : Bool :=
  s.pack.sumOpen.isSome || decide (s.pack.closedCount (fun k => k.typ == typeSummary) < 2)

/-- A summary skein opened for a result: at the first of a summary, or as a continuation, which repeats the head stitches
(R315, R346). -/
def State.openSum (s : State) (r : Result) : SumOpen :=
  let cont := !s.pack.heads.isEmpty
  { ch := r.ch, yarn := r.yarn, session := r.session, era := r.era, recs := s.pack.heads, cont := cont }

def Stitch.isHead : Stitch → Bool
  | .headEnd .. => true
  | .headStart .. => true
  | _ => false

/-- A result is written into a summary skein, which closes at the end-of-summary mark (R315). -/
def State.writeSum (s : State) (o : SumOpen) (r : Result) : State :=
  let t := { s with
    eng := ({ s.eng with queue := s.eng.queue.tail } : Engine).refill
    pack := { s.pack with
      sumOpen := some { o with recs := o.recs ++ [r.st] }
      heads := if r.last then [] else if r.st.isHead then s.pack.heads ++ [r.st] else s.pack.heads
      takenAt := some s.cycle } }
  if r.last then t.closeSum 6 else t

/-- A raw item can be taken, which then goes before a result (R302). -/
def State.rawWaits (s : State) : Bool :=
  !s.chain.items.isEmpty && s.rawBuffer && s.chain.mismatch.isNone && !s.headFalls

/-- The read side is free and neither a raw item nor a result can be taken: the words of a control skein have it (R302). -/
def State.readIdle (s : State) : Bool := s.readSide && !s.rawWaits && (s.eng.queue.isEmpty || !s.sumBuffer)

/-- PACKER_TAKE_RESULT (R302, R315): the oldest result joins its summary skein. -/
def State.takeResult (s : State) : State :=
  match s.eng.queue with
  | [] => s
  | r :: _ =>
    if s.readSide && s.sumBuffer && !s.rawWaits then
      match s.pack.sumOpen with
      | none => s.writeSum (s.openSum r) r
      | some o =>
        if o.recs.length < 254 then s.writeSum o r
        else
          let t := s.closeSum 0
          if t.sumBuffer then t.writeSum (t.openSum r) r else t
    else s

/-! ### Control skeins (R317, R326) -/

def Skein.isControl (k : Skein) : Bool := !(k.isRaw || k.typ == typeSummary)

/-- The control buffer is free: it holds no closed skein the cabinet controller has not taken (R317). -/
def State.ctlFree (s : State) : Bool := !(s.pack.released.any Skein.isControl)

/-- A start status skein, with its session start record (R62). -/
def Ctl.isStart (c : Ctl) : Bool := c.typ == typeStatus && ((c.body.drop 8).headD 0).getLsbD 0

/-- A control skein closes, with the session and era current then, or those an adoption has just ended where its
skeins have still to close: up to the new session's start status (R326, R370). The echo's close numbers what waited for it (R320). -/
def State.closeCtl (s : State) (c : Ctl) : State :=
  let s := { s with pack := { s.pack with ctlOld := s.pack.ctlOld && !c.isStart } }
  let k := s.skein c.typ (if s.pack.ctlOld then s.tb.oldSession else s.tb.session)
    (if s.pack.ctlOld then s.tb.oldEra else s.tb.era) 7 (.bytes c.body)
  let t := s.release { k with intro := c.intro }
  if c.typ = typeEcho ∧ !c.intro then
    if s.pack.ctlOld then State.numberWaiting { t with pack := { t.pack with oldEchoDone := true } } s.tb.oldSession
    else State.numberWaiting { t with pack := { t.pack with echoDone := true } } s.tb.session
  else t

/-- The firmware has written a control skein: it closes at once with the buffer and the read side free and none before it,
and waits its turn otherwise (R302, R317, log 12). -/
def State.control (s : State) (typ : BitVec 6) (body : List Byte) (intro : Bool) : State :=
  let c : Ctl := { typ := typ, body := body, intro := intro }
  if s.pack.ctlQueue.isEmpty && s.ctlFree && s.readIdle then s.closeCtl c
  else { s with pack := { s.pack with ctlQueue := s.pack.ctlQueue ++ [c] } }

/-- The firmware gathers a control skein now and closes it as soon as it can: after a stall, where there is one (R30,
R347). -/
def State.write (s : State) (typ : BitVec 6) (body : List Byte) (intro : Bool) : State :=
  let c : Ctl := { typ := typ, body := body, intro := intro }
  if s.fwRuns then s.control typ body intro else { s with pack := { s.pack with ctlQueue := s.pack.ctlQueue ++ [c] } }

/-- An introduction skein still waits for the control buffer. -/
def State.introWaits (s : State) : Bool := s.pack.ctlQueue.any (·.intro)

/-- ALIGN ends once the alignment columns are sent and the introduction has closed (R408). -/
def State.settlePort (s : State) : State :=
  if s.port.st == .align && s.port.aligned && s.port.introClosed && !s.introWaits then
    { s with port := { s.port with st := .introducing } }
  else s

/-- CONTROL_SKEIN_CLOSE (R302, R317): the next written control skein closes once the buffer is free and no raw item or
result goes before it. -/
def State.closeNextCtl (s : State) : State :=
  match s.pack.ctlQueue with
  | c :: rest =>
    if s.fwRuns && s.ctlFree && s.readIdle then (State.closeCtl { s with pack := { s.pack with ctlQueue := rest } } c).settlePort else s
  | [] => s

end Sys2Proof.Machine
end

