-- ==== Sys2Proof/Machine/Phase.lean ====
section
/-! DEFINITION. The phase follower and the scheduler's slots (chapter 07). The ticks the slots issue are in
`Machine/Stamp.lean`, the output updates in `Machine/Analog.lean`. -/

namespace Sys2Proof.Machine
open Sys2Proof

/-! ### The angle (R222 to R224, R74) -/

/-- The 32-bit accumulator of a tachometer or sine follower, advanced at the rate estimate (R223). -/
def Follower.accum (f : Follower) (t : Nat) : Nat :=
  if f.period = 0 then f.phase.toNat
  else (f.phase.toNat + (t - f.phaseAt) * 2 ^ 32 / f.period) % 2 ^ 32

/-- The quadrature angle (R222): 65536 × count ÷ (4 L), interpolated at the step rate and never past the next step. -/
def Follower.quadAngle (f : Follower) (t : Nat) : Nat :=
  let l := 4 * f.lines.toNat
  if l = 0 then 0
  else
    let q : Int := max f.stepPeriod 1
    let e : Int := if f.stepPeriod = 0 then 0 else min ((t - f.stepAt : Nat) : Int) q
    let pos : Int := if f.stepForward then f.quarter * q + e else f.quarter * q - e
    ((65536 * pos / (l * q)) % 65536).toNat

/-- The follower's angle at a clock value, whatever its state. -/
def Follower.rawAngle (f : Follower) (ty t : Nat) : Nat :=
  if ty = 1 then f.quadAngle t else f.accum t / 65536

/-- The follower's angle in a back-die cycle, whatever its state: the one at the cycle's start or, later in the cycle, at
the event or step that corrected it; before the last event's cycle the angle kept from there (R221, R243). -/
def State.folIn (s : State) (k : Nat) : Nat :=
  let f := s.fol
  if k < f.heldAt then f.heldAngle
  else f.rawAngle s.phaseType (max (s.cycleFrom k) (if s.phaseType = 1 then f.stepAt else f.phaseAt))

/-- The angle a record of a back-die cycle carries, this one or a later one that nothing has happened in: 0 in states 0
and 1 (R204, R221). -/
def State.angleIn (s : State) (k : Nat) : BitVec 16 :=
  if s.fol.st = 2 ∨ s.fol.st = 3 then BitVec.ofNat 16 (s.folIn k) else 0

/-- The angle a record taken in this cycle carries. -/
def State.angleNow (s : State) : BitVec 16 := s.angleIn s.cycle

/-- The angle task of slot 0 is issued from in states 2 and 3 (R221, R240). -/
def Follower.tracking (f : Follower) : Bool := f.st == 2 || f.st == 3

/-! ### Transitions of the follower -/

def State.modFol (s : State) (f : Follower → Follower) : State := { s with fol := f s.fol }

/-- The slot has issued in this cycle (R243). -/
def State.issued (s : State) (i : Fin 16) : Bool := s.sched.ticked.contains (i, s.cycle)

/-- Something is about to change in the follower: its angle of the cycle before stays known (R235, R243). -/
def State.markFol (s : State) : State :=
  s.modFol fun f => if f.heldAt = s.cycle then f else { f with heldAngle := s.folIn (s.cycle - 1), heldAt := s.cycle }

/-- The follower switches slots 0 and 2 (R240, R241). -/
def State.switchSlots (s : State) : State := { s with sched := { s.sched with switched := some s.cycle } }

/-- The phase loss marker (R233): its time is the instant of the event itself (log 65); the interval is in µs (log 16). -/
def State.phaseMarker (s : State) (event : BitVec 2) (interval : Nat) : State :=
  let us := inUnits interval Config.us
  s.hwMarker (.phase s.tb.time (BitVec.ofNat 40 (min us 0xFFFFFFFFFF)) event (BitVec.ofNat 2 s.phaseType))

/-- Lock or regain (R225, R232, R233, R240, R250). -/
def State.lock (s : State) : State :=
  let t := s.modFol fun f => { f with st := 2, goodAt := s.clock, goodRun := 0, stepsSinceGood := 0, lockedPeriod := f.period }
  (t.switchSlots.phaseMarker 2 0).clearFault 0x29 0xFF

/-- The first bad event in lock starts a coast; one while coasting breaks a run of good events (R229, R230). -/
def Follower.bad (f : Follower) : Follower :=
  if f.st = 2 then { f with st := 3, goodRun := 0 }
  else if f.st = 3 then { f with goodRun := 0 }
  else f

/-- A coast that returns to lock counts (R230, R249). -/
def satSucc (c : BitVec 16) : BitVec 16 := if c = 0xFFFF then c else c + 1

/-- PHASE_LOSS (R231 to R233, R240, R250). -/
def State.phaseLoss (s : State) : State :=
  let c := 2 ^ s.coastLog2
  let due := if s.phaseType = 1 then decide (c * 4 * s.fol.lines.toNat ≤ s.fol.stepsSinceGood)
             else decide (c * s.fol.lockedPeriod ≤ s.clock - s.fol.goodAt)
  if s.hasPhase && s.fol.st == 3 && due then
    let t := s.markFol.modFol fun f =>
      { f with st := 1, events := [], acquired := 0, goodRun := 0, losses := satSucc f.losses, unlockedAt := s.clock }
    let t := t.flagGates fun g => { g with phaseLoss := true }
    ((t.switchSlots.phaseMarker 1 (s.clock - s.fol.goodAt))).log 0x28 0xFF 0 0
  else s

/-! ### Reference events (R222 to R230) -/

/-- An angle difference read as signed (R73). -/
def angleErr (a b : Nat) : Int := signed 16 ((a + 65536 - b % 65536) % 65536)

/-- A tachometer or sine event placed: what it corrects to, how far it lay from there, and the interval before it. -/
structure PulseEvent where
  /-- correction of R224 in qps, 0 for a tachometer -/
  corr : Int
  /-- the angle the event is placed at, in counts -/
  angle : Nat
  err : Int
  interval : Option Nat
deriving DecidableEq, Repr

/-- The correction of R224, (T ÷ 2 − H) ÷ 2, in qps. -/
def sineCorr (period low : Nat) : Int := ((period : Int) - 2 * low) / 4

def State.pulseEvent (s : State) (low : Nat) : PulseEvent :=
  let interval := s.fol.events.head?.map fun e => s.clock - e
  let per := if s.fol.period = 0 then interval.getD 0 else s.fol.period
  let corr := if s.phaseType = 3 ∧ per ≠ 0 then sineCorr per low else 0
  let angle := if per = 0 then 0 else ((65536 * corr / per) % 65536).toNat
  { corr := corr, angle := angle, err := angleErr (s.fol.rawAngle s.phaseType s.clock) angle, interval := interval }

/-- The rate over the last four turns, or over those seen so far (R223, R225). -/
def rateOf (events : List Nat) : Option Nat :=
  match events with
  | a :: rest =>
    match rest.getLast? with
    | some z => some ((a - z) / rest.length)
    | none => none
  | [] => none

/-- The event corrects the accumulator (R223, R224, R228). -/
def State.correct (s : State) (p : PulseEvent) (events : List Nat) : State :=
  s.modFol fun f => { f with phase := BitVec.ofNat 32 (p.angle * 65536), phaseAt := s.clock, events := events }

/-- The rate estimate is measured afresh (R223, R225). -/
def Follower.measure (f : Follower) : Follower := { f with period := (rateOf f.events).getD f.period }

/-- What a good pulse in lock leaves for the phase report: the turn period and the correction as a fraction of it (R249). -/
def Follower.report (f : Follower) (p : PulseEvent) : Follower :=
  { f with lockedPeriod := f.period, asym := if f.period = 0 then f.asym else roundDiv (65536 * p.corr) f.period }

/-- A pulse interval inside 200 µs to 1 s (R225). -/
def goodInterval (i : Option Nat) : Bool :=
  match i with
  | some d => decide (200 * Config.us ≤ d) && decide (d ≤ Config.sec)
  | none => true

/-- A tachometer or sine event while not locked (R225): the next of eight good ones in a row, the first of a new run after
more than 1 s, or one that is not good and ends the run without a place in the next (log 56). -/
def State.acquirePulse (s : State) (p : PulseEvent) : State :=
  let next := s.fol.acquired + 1
  let near := match p.interval with | some d => decide (d < 200 * Config.us) | none => false
  let slow := match p.interval with | some d => decide (Config.sec < d) | none => false
  if s.fol.weak || near || (!slow && decide (5 ≤ next) && decide (64 < p.err.natAbs)) then
    s.modFol fun f => { f with acquired := 0, period := 0, events := [s.clock] }
  else if slow || s.fol.acquired == 0 then
    (s.modFol fun f => { f with acquired := 1, period := 0 }).correct { p with angle := 0, corr := 0 } [s.clock]
  else
    let t := ((s.modFol fun f => { f with acquired := next }).correct p (remember 5 s.clock s.fol.events)).modFol
      Follower.measure
    if next = 8 then (t.modFol fun f => f.report p).lock else t

/-- A tachometer or sine event in lock (R223, R228): good, corrected and followed at the rate of the last four turns, or
bad. One that comes more than 1 s after the one before lies below 1 Hz (R225). -/
def State.lockedPulse (s : State) (p : PulseEvent) : State :=
  let late := decide (3 * s.fol.period < 2 * (s.clock - s.fol.goodAt))
  if decide (p.err.natAbs ≤ 1024) && !late && !s.fol.weak && goodInterval p.interval then
    let t := s.correct p (remember 5 s.clock s.fol.events)
    t.modFol fun f =>
      let g := if f.events.length = 5 then f.measure else f
      { g.report p with goodAt := s.clock }
  else (s.modFol Follower.bad).modFol fun f => { f with events := [s.clock] }

/-- A tachometer or sine event while coasting (R230): the second of two good ones in a row returns to lock. One outside
±64 counts is no good event here and does not restart the coast length (log 58). -/
def State.coastingPulse (s : State) (p : PulseEvent) : State :=
  let good := decide (p.err.natAbs ≤ 64) && !s.fol.weak && goodInterval p.interval
  if !good then s.modFol fun f => { f.bad with events := [s.clock] }
  else if s.fol.goodRun = 0 then s.modFol fun f => { f with goodRun := 1, goodAt := s.clock, events := [s.clock] }
  else
    (s.correct p [s.clock]).modFol fun f =>
      { f.report p with st := 2, goodRun := 0, goodAt := s.clock, coasts := satSucc f.coasts }

/-- An index pulse while not locked (R225, R226). A pulse whose step count fails the test begins a new acquisition as its first
one, and so does a third pulse with another count, also where that count is a multiple of 4: the model's choice (log 56). -/
def State.acquireIndex (s : State) : State :=
  let n := s.fol.sinceIndex.natAbs
  let start (f : Follower) : Follower := { f with quarter := 0, sinceIndex := 0, events := [s.clock] }
  match s.fol.acquired with
  | 0 => s.modFol fun f => { start f with acquired := 1 }
  | 1 =>
    if n % 4 = 0 ∧ 16 ≤ n ∧ n ≤ 65536 then
      s.modFol fun f => { start f with acquired := 2, lines := BitVec.ofNat 16 (n / 4) }
    else s.modFol fun f => { start f with acquired := 1 }
  | _ =>
    if n = 4 * s.fol.lines.toNat then
      let per := (s.fol.events.head?.map fun e => s.clock - e).getD 0
      State.lock (s.modFol fun f => { start f with acquired := 3, period := per })
    else s.modFol fun f => { start f with acquired := 1 }

/-- The index step count lies within ±2 quarter-lines of 0 modulo 4 L (R228). -/
def Follower.indexGood (f : Follower) : Bool :=
  let l : Int := 4 * f.lines.toNat
  if l = 0 then false
  else
    let r := f.quarter % l
    decide (r ≤ 2) || decide (l - r ≤ 2)

/-- An index pulse in lock or while coasting (R222, R228 to R230, R250). -/
def State.trackIndex (s : State) : State :=
  if !s.fol.indexGood then (s.modFol fun f => { f.bad with events := [s.clock] }).log 0x2A 0xFF 0 0
  else
    let per := (s.fol.events.head?.map fun e => s.clock - e).getD s.fol.period
    let good (f : Follower) : Follower :=
      { f with goodAt := s.clock, stepsSinceGood := 0, sinceIndex := 0, events := [s.clock] }
    if s.fol.st = 2 then s.modFol fun f => { good f with quarter := 0, period := per, lockedPeriod := per }
    else if s.fol.goodRun = 0 then s.modFol fun f => { good f with goodRun := 1 }
    else s.modFol fun f => { good f with st := 2, goodRun := 0, quarter := 0, coasts := satSucc f.coasts }

/-- A reference event acts on the follower: an index pulse, a tachometer pulse or a rising sine crossing (R225, R228 to
R230). -/
def State.takeEvent (s : State) (low : Nat) : State :=
  if s.phaseType = 1 then (if s.fol.tracking then s.markFol.trackIndex else s.markFol.acquireIndex)
  else if s.fol.st = 2 then s.markFol.lockedPulse (s.pulseEvent low)
  else if s.fol.st = 3 then s.markFol.coastingPulse (s.pulseEvent low)
  else s.markFol.acquirePulse (s.pulseEvent low)

/-- Something waits for the start of the next cycle. -/
def State.later (s : State) (l : Late) : State := { s with sched := { s.sched with late := s.sched.late ++ [l] } }

/-- Slot 0's angle task has issued in this cycle. Events and steps go before the ticks of their cycle (R243), so one that
comes after it takes effect in the next (log 32). -/
def State.angleIssued (s : State) : Bool :=
  s.issued 0 && (match (s.sched.slots[0]?).join with | some o => (match o.task with | .angle .. => true | _ => false) | none => false)

/-- REFERENCE_EVENT (R225, R228 to R230, R243). The follower runs from the session epoch on (log 22). -/
def State.referenceEvent (s : State) (low : Nat) : State :=
  if !(s.tb.epochSet && s.hasPhase) then s else if s.angleIssued then s.later (.event low) else s.takeEvent low

/-- One quarter-line step (R222). -/
def Follower.step (f : Follower) (t : Nat) (forward : Bool) : Follower :=
  let d : Int := if forward then 1 else -1
  { f with quarter := f.quarter + d, sinceIndex := f.sinceIndex + d, stepsSinceGood := f.stepsSinceGood + 1,
           stepPeriod := t - f.stepAt, stepAt := t, stepForward := forward }

/-- A step up or down, or an illegal transition, which is a bad event (R220, R222, R228, R250). -/
def State.takeStep (s : State) : QuadStep → State
  | .forward => s.markFol.modFol fun f => f.step s.clock true
  | .reverse => s.markFol.modFol fun f => f.step s.clock false
  | .illegal => (s.markFol.modFol Follower.bad).logLimited 0x2C 0 1 0xFF 0

/-- QUADRATURE_STEP (R220, R222, R228, R243, R250). -/
def State.quadratureStep (s : State) (q : QuadStep) : State :=
  if !(s.tb.epochSet && s.phaseType == 1) then s else if s.angleIssued then s.later (.step q) else s.takeStep q

/-- REFERENCE_EVENT_TIMEOUT (R228, R229): no event 1.5 turn periods after the last good one, in lock; while coasting a
predicted event that does not come is no event and breaks no run (log 57). -/
def State.referenceTimeout (s : State) : State :=
  if (s.phaseType == 2 || s.phaseType == 3) && s.fol.st == 2 &&
      decide (3 * s.fol.period ≤ 2 * (s.clock - s.fol.goodAt)) then s.markFol.modFol Follower.bad
  else s

/-! ### Scheduler slots (R237 to R246, R669, R670) -/

def State.slot (s : State) (i : Fin 16) : Option Slot := (s.sched.slots[i.val]?).join

def State.setSlot (s : State) (i : Fin 16) (v : Option Slot) : State :=
  { s with sched := { s.sched with slots := s.sched.slots.set i.val v } }

/-- A cancel of this slot has landed in this cycle (R244). -/
def State.cancelledNow (s : State) (i : Fin 16) : Bool := s.sched.cancelled.contains (i, s.cycle)

/-- The slot is closed to commands for the rest of this cycle, since commands go before ticks and updates in a cycle: it has
issued, or the divider that runs on it has (R243, log 32). -/
def State.slotClosed (s : State) (i : Fin 16) : Bool :=
  s.issued i || (i == 0 && s.issued 3 && (match s.slot 3 with | some o => (match o.task with | .divider _ => true | _ => false) | none => false))

/-- A task arms a slot: it issues only ticks due after this cycle, and the task it replaces those due in it (R28, R241,
R670). -/
def State.arm (s : State) (i : Fin 16) (t : Task) : State :=
  let prev := match s.slot i with
    | some o => if s.cycle ≤ o.after then o.prev else some o.task
    | none => none
  s.setSlot i (some { task := t, after := s.cycle, prev := prev })

/-- A command lands: a task is armed, but where a cancel of the slot lands in the same cycle, which wins (R244, R670); a
cancel leaves the slot empty, and a tick due in the landing cycle is not issued (R244, R245). -/
def State.landCommand (s : State) (i : Fin 16) : Option Task → State
  | some t => if s.cancelledNow i then s else s.arm i t
  | none =>
    let t := s.setSlot i none
    { t with sched := { t.sched with cancelled := (i, s.cycle) :: t.sched.cancelled.filter fun c => c.1 != i } }

/-- A command reaches a slot: it lands in this cycle, or in the next where the slot is closed (R243, log 32). -/
def State.toSlot (s : State) (i : Fin 16) (t : Option Task) : State :=
  if s.slotClosed i then s.later (.slot i t) else s.landCommand i t

/-- A firmware command on a slot: it reaches the slot, or waits for the end of a stall (R30, R669). -/
def State.slotCommand (s : State) (i : Fin 16) (t : Option Task) : State :=
  if s.fwRuns then s.toSlot i t
  else if s.stalled then { s with sched := { s.sched with owed := s.sched.owed ++ [(i, t)] } }
  else s

/-- The commands that waited for the end of a stall land, in the order they were issued (R30, R669). -/
def State.landOwed (s : State) : State :=
  s.sched.owed.foldl (fun t c => t.toSlot c.1 c.2) { s with sched := { s.sched with owed := [] } }

/-- TASK_ARM (R28, R670). -/
def State.armCommand (s : State) (i : Fin 16) (t : Task) : State := s.slotCommand i (some t)

/-- TASK_CANCEL (R244, R245). -/
def State.cancelSlot (s : State) (i : Fin 16) : State := s.slotCommand i none

/-- The tasks the firmware arms at start-up from the strap image (R115, R237, R242). -/
def State.startupTasks (s : State) : List (Option Task) :=
  let p := periodOf s.tickRate10
  let timeBase := s.tickBase == 1
  let slot0 : Option Task :=
    if timeBase then some (.time p true false)
    else if s.angleTicks && s.hasPhase then some (.angle (s.anglePlacement == 2) true true) else none
  let slot1 : Option Task := if s.tickBase = 3 then some (.time Config.ms true false) else none
  let slot2 : Option Task := if s.angleTicks then some (.time p true true) else none
  let slot3 : Option Task :=
    if timeBase then some (.divider (s.outputDivider.getD 1))
    else if s.tickBase = 0 then some (.time Config.ms false true) else none
  [slot0, slot1, slot2, slot3]

/-- The firmware arms the start-up tasks (R237). -/
def State.armStartup (s : State) : State :=
  let mk (t : Option Task) : Option Slot := t.map fun t => { task := t, after := s.cycle, prev := none }
  { s with sched := { s.sched with slots := s.startupTasks.map mk ++ List.replicate 12 none } }

/-- The slots of the start-up table: no other ever issues a sample tick or an output update (R237). -/
def issuingSlot (i : Fin 16) : Bool := decide (i.val < 4)

/-- The task a slot issues ticks from in this cycle: one armed in it leaves this cycle to the task before it (R241). -/
def State.slotTask (s : State) (i : Fin 16) : Option Task :=
  match s.slot i with
  | some o => if !issuingSlot i then none else if s.cycle ≤ o.after then o.prev else some o.task
  | none => none

/-- Slot 0's angle task is active, with the switch cycle left to what was active before it (R240, R241). -/
def State.angleActive (s : State) : Bool :=
  match s.sched.switched with
  | some c => if s.cycle ≤ c then !s.fol.tracking else s.fol.tracking
  | none => s.fol.tracking

/-- The slot is not dormant: only slots 0 and 2 of angle ticks ever are (R240, R242). -/
def State.slotActive (s : State) (i : Fin 16) : Bool :=
  if s.angleTicks && i == 0 then s.angleActive
  else if s.angleTicks && i == 2 then !s.angleActive
  else true

/-- A slot issues in this cycle. -/
def State.issue (s : State) (i : Fin 16) : State :=
  { s with sched := { s.sched with ticked := (i, s.cycle) :: s.sched.ticked.filter fun c => c.1 != i } }

/-- The grid instant `k × P` that lies in this cycle, with its index: an instant is issued in the cycle that contains
it (R194, R238). -/
def State.gridInstant (s : State) (p : Nat) : Option (Nat × Nat) :=
  if p = 0 then none
  else if s.cycleNow ≤ p * (s.full / p) then some (s.full / p, p * (s.full / p)) else none

end Sys2Proof.Machine
end

