-- ==== Sys2Proof/Machine/Stats.lean ====
section
/-! DEFINITION. The statistics engine (chapter 08): samples, gates, regression, Allan terms, bins, summaries.
Arithmetic is exact in rationals; values are rounded once, at their
encoding, where the engine's own error enters (R269, log 16). -/

namespace Sys2Proof.Machine
open Sys2Proof

/-! ### Encodings (R268) -/

/-- A result `r` of the engine's arithmetic, with the engine's own error: at most one unit and 10⁻¹⁸ of the magnitude
(R269); the error within that bound is free (log 16). `x` names the exact result. -/
def withError (x : Rat) (r : Int) : Int :=
  let most : Int := 1 + r.natAbs / 10 ^ 18
  r + clipInt (-most) most (Config.engineError x)

/-- Unsigned 64 bits in units of 2⁻ᵏ, saturating; the flag says that it saturated. -/
def encU (k : Nat) (v : Rat) : BitVec 64 × Bool :=
  let x := v * (2 ^ k : Nat)
  let r := withError x (roundRat x)
  let c := clipInt 0 (2 ^ 64 - 1) r
  (BitVec.ofInt 64 c, c != r)

/-- Signed 64 bits in units of 2⁻ᵏ, saturating. -/
def encS (k : Nat) (v : Rat) : BitVec 64 × Bool :=
  let x := v * (2 ^ k : Nat)
  let r := withError x (roundRat x)
  let c := clipInt (-(2 ^ 63)) (2 ^ 63 - 1) r
  (BitVec.ofInt 64 c, c != r)

/-- The nearest integer to the square root of a rational that is not negative. -/
def roundSqrt (q : Rat) : Int := ((Nat.sqrt (4 * q).floor.toNat + 1) / 2 : Nat)

/-- A square root, unsigned, in units of 2⁻ᵏ, saturating. -/
def encSqrt (k : Nat) (q : Rat) : BitVec 64 × Bool :=
  let x := q * (2 ^ (2 * k) : Nat)
  let r := withError x (roundSqrt x)
  let c := clipInt 0 (2 ^ 64 - 1) r
  (BitVec.ofInt 64 c, c != r)

/-- The unit exponent of a function's samples (R268). -/
def Func.unit : Func → Nat
  | .none => 0
  | .totalize => 32
  | .frequency => 32
  | .binned => 32
  | .period => 16
  | .ratio _ => 40
  | .interval _ _ => 16
  | .phase _ => 16
  | .fractional _ => 60

def Func.isSigned : Func → Bool
  | .interval _ _ => true
  | .phase _ => true
  | .fractional _ => true
  | _ => false

/-- A sample or summary value of a function (R268). -/
def Func.encode (f : Func) (v : Rat) : BitVec 64 × Bool := if f.isSigned then encS f.unit v else encU f.unit v

/-! ### Counts at an instant (R201, R260) -/

/-- Edges not before a clock value `lim`, from the last edge back over the recent intervals. -/
def edgesSince (lim last : Nat) : List Nat → Nat
  | [] => if lim ≤ last then 1 else 0
  | i :: is => if lim ≤ last then 1 + edgesSince lim (last - i) is else 0

/-- Edges of the channel that crossed at or after a clock value. -/
def Channel.edgesFrom (c : Channel) (lim : Nat) : Nat :=
  match c.lastEdge with
  | some e => edgesSince lim e c.intervals
  | none => 0

/-- The event count at an instant (R201): edges more than 400 ps before it are in, edges 400 ps or more after it are
out, and how many of those between are in is a free value (log 4); so is one exactly 400 ps before, which the rule leaves
out of both. -/
def State.countAt (s : State) (n : Chan) (t : Nat) : BitVec 48 × State :=
  let c := s.chan.get n
  let late := c.edgesFrom (t + Config.coarse)
  let open_ := c.edgesFrom (t - Config.coarse) - late
  if open_ = 0 then (c.count - BitVec.ofNat 48 late, s)
  else
    let d := s.drawNat
    (c.count - BitVec.ofNat 48 (late + d.1 % (open_ + 1)), d.2)

/-! ### Sources of the outputs (R285, R461) -/

/-- The 64-bit encoding of an output's centre (R481). -/
def State.centreBits (s : State) (o : OutNo) (v : Rat) : BitVec 64 :=
  match s.aoSource o with
  | .primary n => ((s.func n).encode v).1
  | _ => 0

/-- The centre of this source is captured; those of fractional frequency, vector and temperature sources are fixed
(R459). -/
def State.centreCaptured (s : State) (o : OutNo) : Bool :=
  match s.aoSource o with
  | .primary n => (match s.func n with | .fractional _ => false | _ => true)
  | _ => false

/-- A source value forms for an output at a clock value: the first is captured as its centre (R461), and it joins the values
since the last update (R463). -/
def State.sourceValue (s : State) (o : OutNo) (v : Rat) (at_ : Nat) : State :=
  let s := s.modOut o fun a => { a with values := a.values ++ [(s.cycleAt at_, v)] }
  if s.centreCaptured o && (s.ao.outs.get o).centre.isNone then
    let b := s.centreBits o v
    (s.modOut o fun a => { a with centre := some v }).logAt 0x50 (BitVec.ofNat 64 (s.fullAt at_)) (BitVec.ofNat 8 o.val)
      (b.setWidth 32) (b.extractLsb' 32 32)
  else s

/-- A source forms a value at a clock value: each output that follows it takes it. -/
def State.sourceFormed (s : State) (src : AoSource) (v : Rat) (at_ : Nat) : State :=
  s.eachOut fun o t => if !t.aoOff o && t.aoSource o == src then t.sourceValue o v at_ else t

/-! ### Gates (R259 to R263) -/

/-- A gate that opens (R261). -/
def State.newGate (s : State) (n : Chan) (start : Nat) (count : BitVec 48) (atYarnStart : Bool) : Gate :=
  { ch := n, interval := s.eng.interval, start := start, startCount := count, fin := start, finCount := count,
    yarn := (s.chan.get n).yarn, noYarn := false, atYarnStart := atYarnStart, atYarnEnd := false,
    cal := (s.chan.get n).st == .suspended, holdover := s.tb.holdover, adoption := false, phaseLoss := false,
    saturated := false, stamps := [], samples := 0, sum := 0, sumSq := 0, minV := none, maxV := none, excluded := 0,
    bins := [], taus := [], rRatio := (s.stat.get n).rRatio, lastPhase := none, tRef := none, session := s.tb.session }

/-- The open gate of a channel ends (R261) and waits for its arithmetic. -/
def State.endGate (s : State) (n : Chan) (fin : Nat) (count : BitVec 48) (atYarnEnd adoption : Bool) : State :=
  match (s.stat.get n).gate with
  | some g =>
    let g := { g with fin := fin, finCount := count, atYarnEnd := atYarnEnd, adoption := adoption }
    let t := s.modStat n fun st => { st with gate := none }
    { t with eng := { t.eng with ended := t.eng.ended ++ [g] } }
  | none => s

/-- A gate opens for a channel. -/
def State.openGate (s : State) (n : Chan) (start : Nat) (count : BitVec 48) (atYarnStart : Bool) : State :=
  s.modStat n fun st =>
    { st with gate := some (s.newGate n start count atYarnStart), gated := true }

/-- A no-yarn head for a channel that had no gate in the interval (R262). No run suspends a channel without a yarn, so head
bit 3 stays clear in it (R263, log 68). -/
def State.noYarnHead (s : State) (n : Chan) (fin : Nat) (count : BitVec 48) (adoption : Bool) : State :=
  let st := s.stat.get n
  let g := { (st.span.getD (s.newGate n st.boundAt st.boundCount false)) with
    ch := n, fin := fin, finCount := count, yarn := 0, noYarn := true, cal := false, adoption := adoption }
  { s with eng := { s.eng with ended := s.eng.ended ++ [g] } }

/-- The interval of one channel ends at an instant, with the counter sampled there; a running yarn goes on in a new
gate (R260 to R262). -/
def State.closeInterval (s : State) (n : Chan) (fin : Nat) (count : BitVec 48) (adoption : Bool) : State :=
  if (s.stat.get n).gate.isSome then s.endGate n fin count false adoption
  else if (s.stat.get n).gated then s
  else s.noYarnHead n fin count adoption

/-- The next interval of one channel begins. -/
def State.openInterval (s : State) (n : Chan) (running : Bool) (start : Nat) (count : BitVec 48) : State :=
  let t := s.modStat n fun st =>
    { st with gated := false, boundCount := count, boundAt := start, span := some (s.newGate n start count false) }
  if running then t.openGate n start count false else t

/-- SUMMARY_BOUNDARY (R259 to R262): the boundary instant of this cycle, once. -/
def State.summaryBoundary (s : State) : State :=
  match s.gridInstant s.intervalQps with
  | some (k, inst) =>
    if s.tb.epochSet && decide (0 < k) && decide ((s.stat.get 0).boundAt < inst) then
      let at_ := s.clock - (s.full - inst)
      let t := s.eachChan fun n t =>
        if t.enabled n then
          let c := t.countAt n at_
          let running := (c.2.stat.get n).gate.isSome
          -- the new gate belongs to the interval that begins
          let u := c.2.closeInterval n inst c.1 false
          State.openInterval { u with eng := { u.eng with interval := s.eng.interval + 1 } } n running inst c.1
            |> fun v => { v with eng := { v.eng with interval := s.eng.interval } }
        else t.modStat n fun st => { st with boundAt := inst }
      { t with eng := { t.eng with interval := s.eng.interval + 1 } }
    else s
  | none => s

/-- A stretch of stamping of the channel ends: no sample spans this instant, its own or one formed with it (R253, R255). -/
def State.cutSamples (s : State) (n : Chan) : State := s.modStat n fun st => { st with seg := st.seg + 1 }

/-- R of recipe 14 goes, and from the open gate, with the yarn it was formed in (R259, R673). -/
def Stat.dropRatio (st : Stat) : Stat := { st with rRatio := none, gate := st.gate.map fun g => { g with rRatio := none } }

/-- A yarn begins: its gate opens, and nothing spans its start (R253, R261, R271). R of the gates that run beside a yarn of
CH0 is formed anew with it (R259, R673). -/
def State.statYarnStart (s : State) (n : Chan) (start : Nat) (count : BitVec 48) : State :=
  let t := (s.cutSamples n).modStat n fun st => { st with rRatio := none, sampled := false, sample := 0 }
  let t := if n = 0 then t.eachChan fun m u => u.modStat m Stat.dropRatio else t
  t.openGate n start count true

/-- A yarn ends: its gate ends (R261), and keeps R for what is still on its way to it (R25, R259). -/
def State.statYarnEnd (s : State) (n : Chan) (fin : Nat) (count : BitVec 48) : State :=
  (s.endGate n fin count true false).cutSamples n

/-! ### Samples (R253 to R258) -/

/-- ΔN of two stitches (R188). -/
def dCount (p c : StampRec) : Nat := (c.count - p.count).toNat

/-- Δt of two stitches in qps. -/
def dTime (p c : StampRec) : Int := (c.full : Int) - p.full

/-- Frequency in Hz from two stitches (R255). -/
def pairFreq (p c : StampRec) : Option Rat :=
  if dTime p c ≤ 0 then none else some ((dCount p c : Rat) * Config.sec / dTime p c)

/-- No stretch of stamping of these channels ends between the stamps (R253). -/
def sameStretch (ns : List Chan) (l : List StampRec) : Bool :=
  ns.all fun n => match l with | a :: rest => rest.all fun b => b.segs.get n == a.segs.get n | [] => true

/-- The two most recent stitches of a channel, where a sample can span them (R253). -/
def State.pair (s : State) (n : Chan) : Option (StampRec × StampRec) :=
  match (s.stat.get n).prev, (s.stat.get n).cur with
  | some p, some c => if sameStretch [n] [p, c] then some (p, c) else none
  | _, _ => none

/-- The four stamps of a ratio sample: the reference channel's were armed by the same two ticks (R255). -/
def State.paired (s : State) (n r : Chan) : Option (StampRec × StampRec × StampRec × StampRec) :=
  match s.pair n, (s.stat.get n).prevRef, (s.stat.get n).curRef with
  | some (p, c), some p0, some c0 => if sameStretch [n, r] [p, c, p0, c0] then some (p, c, p0, c0) else none
  | _, _, _ => none

/-- The ratio to the reference channel (R255). -/
def State.pairedRatio (s : State) (n r : Chan) : Option Rat :=
  (s.paired n r).bind fun q =>
    match pairFreq q.1 q.2.1, pairFreq q.2.2.1 q.2.2.2 with
    | some f, some f0 => if f0 = 0 then none else some (f / f0)
    | _, _ => none

/-- Reduce a phase by whole periods into the half-open range about 0 (R256). -/
def reducePhase (d t : Rat) : Rat := d - t * ((d + t / 2) / t).floor

/-- The phase nearest the previous one (R256). -/
def unwrapPhase (d t prev : Rat) : Rat := d + t * roundRat ((prev - d) / t)

/-- What a sample leaves in its gate besides itself: R, the last phase and T_ref (R256, R257, R259). -/
structure SampleKeep where
  rRatio : Option Rat
  lastPhase : Option Rat
  tRef : Option Rat
deriving DecidableEq, Repr

/-- A sample: its value, the full time of its later stitch, and what it leaves. -/
structure Sample where
  value : Rat
  time : Nat
  keep : SampleKeep
deriving DecidableEq, Repr

/-- An open gate of this session that a full time lies in (R261). -/
def Gate.takes (g : Gate) (session : BitVec 16) (t : Nat) : Bool := g.session == session && decide (g.start ≤ t)

/-- An ended gate of a channel and session that a full time lies in (R261). -/
def Gate.took (g : Gate) (n : Chan) (session : BitVec 16) (t : Nat) : Bool :=
  g.takes session t && g.ch == n && !g.noYarn && decide (t < g.fin)

/-- The gate of this session that contains a full time: the open one, or one that has ended (R261, R266). -/
def State.gateAt (s : State) (n : Chan) (session : BitVec 16) (t : Nat) : Option Gate :=
  ((s.stat.get n).gate.filter fun g => g.takes session t).orElse fun _ => s.eng.ended.find? fun e => e.took n session t

/-- What a phase sample of difference `d` keeps from its gate, with the reference's own period `own`: the gate's first sample
defines T_ref (R256, R257). -/
def phaseSample (g : Option Gate) (d own : Rat) : Rat × Rat :=
  let t := (g.bind (·.tRef)).getD own
  (match g.bind (·.lastPhase) with
    | some l => unwrapPhase d t l
    | none => reducePhase d t, t)

/-- The sample of a channel's function from the stitches present (R255 to R257). One formed with another channel's stamp has
the later of the two stamps of its tick as its later stitch (log 66). -/
def State.sampleOf (s : State) (n : Chan) : Option Sample :=
  let st := s.stat.get n
  let keep : SampleKeep := { rRatio := st.rRatio, lastPhase := none, tRef := none }
  let own (v : Option Rat) : Option Sample :=
    match v, st.cur with
    | some v, some c => some { value := v, time := c.full, keep := keep }
    | _, _ => none
  match s.func n with
  | .none => none
  | .totalize | .frequency | .binned => own ((s.pair n).bind fun q => pairFreq q.1 q.2)
  | .period => own ((s.pair n).bind fun q => if dCount q.1 q.2 = 0 then none else some ((dTime q.1 q.2 : Rat) / dCount q.1 q.2))
  | .ratio r =>
    match s.paired n r, s.pairedRatio n r with
    | some (_, c, _, c0), some v => some { value := v, time := max c.full c0.full, keep := keep }
    | _, _ => none
  | .fractional r =>
    match s.paired n r, s.pairedRatio n r with
    | some (_, c, _, c0), some v =>
      let r := st.rRatio.getD v
      if r = 0 then none
      else some { value := v / r - 1, time := max c.full c0.full, keep := { keep with rRatio := some r } }
    | _, _ => none
  | .interval a b =>
    match s.pair n, (s.stat.get a).cur, (s.stat.get b).cur with
    | some _, some x, some y =>
      if x.tick = y.tick ∧ sameStretch [a, b] [x, y] then
        some { value := (y.full : Rat) - x.full, time := max x.full y.full, keep := keep }
      else none
    | _, _, _ => none
  | .phase r =>
    match s.pair n, s.pair r with
    | some (_, c), some (p0, c0) =>
      let own := (dTime p0 c0 : Rat) / dCount p0 c0
      if c.tick = c0.tick ∧ dCount p0 c0 ≠ 0 ∧ own ≠ 0 ∧ sameStretch [n, r] [c, c0] then
        let time := max c.full c0.full
        let v := phaseSample (s.gateAt n c.session time) ((c.full : Rat) - c0.full) own
        some { value := v.1, time := time, keep := { keep with lastPhase := some v.1, tRef := some v.2 } }
      else none
    | _, _ => none

/-- One more sample in a bin (R276, R277). -/
def addBin (j : Nat) (v : Rat) : List BinAcc → List BinAcc
  | [] => [{ j := j, n := 1, sum := v }]
  | b :: bs => if b.j = j then { b with n := b.n + 1, sum := b.sum + v } :: bs else b :: addBin j v bs

/-- The bin of a sample (R234, R276): none where it is excluded. -/
def State.binOf (s : State) (p c : StampRec) : Option Nat :=
  let d := (c.angle - p.angle).toNat
  let w := 65536 / max s.bins 1
  if p.angleState = 2 ∧ c.angleState = 2 ∧ 1 ≤ d ∧ d ≤ 2 * w then
    some ((p.angle.toNat + d / 2) % 65536 / w)
  else none

/-- A sample enters its gate (R266, R276). -/
def State.accumulate (s : State) (n : Chan) (v : Rat) (sat : Bool) (g : Gate) : Gate :=
  let g := { g with
    samples := g.samples + 1, sum := g.sum + v, sumSq := g.sumSq + v * v, saturated := g.saturated || sat
    minV := some (match g.minV with | some m => min m v | none => v)
    maxV := some (match g.maxV with | some m => max m v | none => v) }
  if s.func n = .binned then
    match s.pair n with
    | some (p, c) =>
      match s.binOf p c with
      | some j => { g with bins := addBin j v g.bins }
      | none => { g with excluded := g.excluded + 1 }
    | none => g
  else g

/-- What belongs to a full time of a session goes to the gate that contains it (R266, R275). -/
def State.modGateAt (s : State) (n : Chan) (session : BitVec 16) (t : Nat) (f : Gate → Gate) : State :=
  if (s.stat.get n).gate.any fun g => g.takes session t then s.modStat n fun st => { st with gate := st.gate.map f }
  else { s with eng := { s.eng with ended := s.eng.ended.map fun e => if e.took n session t then f e else e } }

/-- What a sample leaves in its gate. -/
def SampleKeep.put (k : SampleKeep) (g : Gate) : Gate :=
  { g with rRatio := k.rRatio.or g.rRatio, lastPhase := k.lastPhase.or g.lastPhase, tRef := k.tRef.or g.tRef }

/-- A stamp belongs to its channel's present session and yarn. -/
def State.isCurrent (s : State) (n : Chan) (c : StampRec) : Bool :=
  c.session == s.tb.session && c.yarn == (s.chan.get n).yarn

/-- A sample forms at a clock value: gate, mirror, output sources (R253, R259, R285, R286, R671). -/
def State.trySample (s : State) (n : Chan) (at_ : Nat) : State :=
  match s.sampleOf n, (s.stat.get n).cur with
  | some q, some c =>
    let e := (s.func n).encode q.value
    let t := s.modGateAt n c.session q.time fun g => q.keep.put (s.accumulate n q.value e.2 g)
    let t := t.modStat n fun st => { st with src := some q.value }
    let t := if s.isCurrent n c then
        t.modStat n fun st => { st with sample := e.1, sampled := true, rRatio := q.keep.rRatio }
      else t
    t.sourceFormed (.primary n) q.value at_
  | _, _ => s

/-! ### Phase points and Allan terms (R270 to R275) -/

/-- The ADEV slot and its τ0 in qps (R270). -/
def State.adevSlot (s : State) : Option (Fin 16 × Nat) :=
  if s.tickBase = 1 then some (0, periodOf s.tickRate10)
  else if s.code 3 = 11 then some (1, Config.ms)
  else if s.angleTicks && !s.hasPhase then some (2, periodOf s.tickRate10)
  else none

/-- The multiple `m` at a τ index (R272). -/
def State.tauM (s : State) (i : Nat) : Nat :=
  if s.decade then pick [1, 2, 5] (i % 3) * 10 ^ (i / 3) else 2 ^ i

/-- The τ set, as τ index and m (R272). -/
def State.taus (s : State) (tau0 : Nat) : List (Nat × Nat) :=
  ((List.range 32).map fun i => (i, s.tauM i)).filter fun p => decide (p.2 * tau0 ≤ max tau0 (10 * s.intervalQps))

/-- The largest divisor of m not greater than 32 (R273). -/
def largestDivisor (m : Nat) : Nat :=
  (List.range 33).foldl (fun best q => if 0 < q ∧ m % q = 0 then q else best) 1

/-- The point at tick index `k`. -/
def pointAt (l : List (Nat × Rat)) (k : Nat) : Option Rat := (l.find? fun p => p.1 == k).map (·.2)

/-- The sum of the `n` points from index `k`, all of which must be present (R274). -/
def sumPoints (l : List (Nat × Rat)) (k n : Nat) : Option Rat :=
  (List.range n).foldl (fun acc i =>
    match acc, pointAt l (k + i) with
    | some a, some x => some (a + x)
    | _, _ => none) (some 0)

/-- A_k squared, of the term whose last point is `last` (R273, R274); indexes count from the first point `base`. -/
def adevTerm (l : List (Nat × Rat)) (base last m : Nat) : Option Rat :=
  if last < base + 2 * m ∨ (last - 2 * m - base) % (m / largestDivisor m) ≠ 0 then none
  else
    match pointAt l (last - 2 * m), pointAt l (last - m), pointAt l last with
    | some a, some b, some c => some ((c - 2 * b + a) * (c - 2 * b + a))
    | _, _, _ => none

/-- M_k squared, of the term whose last point is `last` (R273, R274). -/
def mdevTerm (l : List (Nat × Rat)) (base last m : Nat) : Option Rat :=
  if last + 1 < base + 3 * m ∨ (last + 1 - 3 * m - base) % (m / largestDivisor m) ≠ 0 then none
  else
    let k := last + 1 - 3 * m
    match sumPoints l k m, sumPoints l (k + m) m, sumPoints l (k + 2 * m) m with
    | some a, some b, some c => some ((c - 2 * b + a) / m * ((c - 2 * b + a) / m))
    | _, _, _ => none

/-- Add a term to the accumulator of its τ. -/
def addTau (m : Nat) (a b : Option Rat) : List TauAcc → List TauAcc
  | [] =>
    [{ m := m, aSum := a.getD 0, aN := boolNat a.isSome, mSum := b.getD 0, mN := boolNat b.isSome }]
  | t :: ts =>
    if t.m = m then
      { t with aSum := t.aSum + a.getD 0, aN := t.aN + boolNat a.isSome, mSum := t.mSum + b.getD 0,
               mN := t.mN + boolNat b.isSome } :: ts
    else t :: addTau m a b ts

/-- The terms whose last phase point is `last`, assigned to the gate that contains its time (R275). -/
def State.addTerms (s : State) (n : Chan) (session : BitVec 16) (l : List (Nat × Rat)) (base last tau0 t : Nat) : State :=
  s.modGateAt n session t fun g =>
    { g with taus := (s.taus tau0).foldl (fun acc p =>
        let a := adevTerm l base last p.2
        let b := if s.hasMdev then mdevTerm l base last p.2 else none
        if a.isSome || b.isSome then addTau p.2 a b acc else acc) g.taus }

/-- The oldest index a later term can need (R272 to R274). -/
def State.keepFrom (s : State) (tau0 last : Nat) : Nat :=
  last - (s.taus tau0).foldl (fun a p => max a (3 * p.2)) 0

/-- The phase history with the point of a stamp; a stamp of another yarn or session begins it anew (R271). -/
def PhaseHist.add (h : PhaseHist) (k : Nat) (c : StampRec) (keep : Nat) : PhaseHist :=
  let fresh : PhaseHist :=
    { owner := (c.session, c.yarn), first := some (k, c.full, c.count), nu := none, points := [(k, (c.full : Rat))] }
  if h.owner ≠ (c.session, c.yarn) then fresh
  else
    match h.first with
    | none => fresh
    | some (k0, t0, n0) =>
      let dn := (c.count - n0).toNat
      match h.nu with
      | none => { h with nu := some (c.full - t0, dn), points := [(k, (t0 : Rat)), (k0, (t0 : Rat))] }
      | some (dt, dn0) =>
        let x : Rat := (c.full : Rat) - (dn : Rat) * dt / dn0
        { h with points := ((k, x) :: h.points).filter fun p => decide (keep ≤ p.1) }

/-- Recipe 14's difference point of a channel against CH0 at a tick index, once both are present (R275): its time is that of
the stamp that completes it (log 66). -/
def State.diffPoint (s : State) (n : Chan) (k tau0 t : Nat) : State :=
  let h := (s.stat.get n).hist
  let h0 := (s.stat.get 0).hist
  match pointAt h.points k, pointAt h0.points k, h.first with
  | some x, some x0, some (k0, _, _) =>
    let owner := (h.owner.1, h.owner.2, h0.owner.2)
    let old := if (s.stat.get n).diff.owner = owner then (s.stat.get n).diff.points else []
    if h.owner.1 ≠ h0.owner.1 ∨ (pointAt old k).isSome then s
    else
      let d := ((k, x - x0) :: old).filter fun p => decide (s.keepFrom tau0 k ≤ p.1)
      (s.modStat n fun q => { q with diff := { owner := owner, points := d } }).addTerms n h.owner.1 d k0 k tau0 t
  | _, _, _ => s

/-- An edge stamp armed by the ADEV slot gives a phase point and completes terms (R271 to R275). -/
def State.phasePoint (s : State) (n : Chan) (c : StampRec) (slots : List (Fin 16)) : State :=
  match s.adevSlot with
  | some (slot, tau0) =>
    if s.hasAdev n && slots.contains slot && decide (0 < tau0) then
      let k := c.tick / tau0
      let t := s.modStat n fun st => { st with hist := st.hist.add k c (s.keepFrom tau0 k) }
      if s.recipe = 14 ∧ n ≠ 0 then t.diffPoint n k tau0 c.full
      else
        let h := (t.stat.get n).hist
        let u := match h.first, h.nu with
          | some (k0, _, _), some _ => t.addTerms n c.session h.points k0 k tau0 c.full
          | _, _ => t
        if s.recipe = 14 then u.eachChan fun m v => if m = 0 then v else v.diffPoint m k tau0 c.full else u
    else s
  | none => s

/-- The stitch joins its channel's two latest, and the stamps paired with them (R253, R255). -/
def State.takeStamp (s : State) (n : Chan) (c : StampRec) : State :=
  let same (m : Chan) : Option StampRec := (s.stat.get m).cur.filter fun x => x.isEdge && x.tick == c.tick
  let ref := if c.isEdge then (s.func n).needs.head?.bind same else none
  let t := s.modStat n fun st => { st with prev := st.cur, cur := some c, prevRef := st.curRef, curRef := ref }
  t.eachChan fun m u =>
    if c.isEdge && (u.func m).needs.contains n then
      u.modStat m fun st => if st.cur.any fun x => x.isEdge && x.tick == c.tick then { st with curRef := some c } else st
    else u

/-- The statistics engine receives a stitch at a clock value (R251 to R254): it forms the channel's sample, and those of the
channels that wait for its stamp of their tick (R257). -/
def State.statInput (s : State) (n : Chan) (c : StampRec) (slots : List (Fin 16)) (at_ : Nat) : State :=
  if c.isEdge || s.func n == .totalize then
    let t := s.takeStamp n c
    let t := if c.isEdge then
        (t.modGateAt n c.session c.full fun g => { g with stamps := g.stamps ++ [(c.full, c.count)] }).phasePoint n c slots
      else t
    t.eachChan fun m u =>
      if m = n ∨ ((u.func m).needs.contains n && c.isEdge && (u.stat.get m).cur.any fun x => x.tick == c.tick) then
        u.trySample m at_
      else u
  else s

/-! ### Summaries (R264 to R269, R273 to R280, R673) -/

/-- The regression frequency in Hz over stamps (R265); none with fewer than two. -/
def regression (l : List (Nat × BitVec 48)) : Option Rat :=
  match l with
  | [] => none
  | (t1, n1) :: _ =>
    let pts : List (Rat × Rat) := l.map fun p => (((p.1 : Int) - t1 : Int), ((p.2 - n1).toNat : Rat))
    let n : Rat := pts.length
    let su := pts.foldl (fun a p => a + p.1) 0
    let sw := pts.foldl (fun a p => a + p.2) 0
    let suu := pts.foldl (fun a p => a + p.1 * p.1) 0 - su * su / n
    let suw := pts.foldl (fun a p => a + p.1 * p.2) 0 - su * sw / n
    if l.length < 2 ∨ suu = 0 then none else some (Config.sec * suw / suu)

/-- The last gate of CH0 in the interval that overlaps a gate, and the overlap (R673). -/
def commonGate (zero : List Gate) (g : Gate) : Option (Gate × Nat × Nat) :=
  zero.foldl (fun acc z =>
    let lo := max z.start g.start
    let hi := min z.fin g.fin
    if z.interval = g.interval ∧ lo < hi then some (z, lo, hi) else acc) none

/-- F_n ÷ F_0 over the common gate (R264, R673). -/
def commonRatio (zero : List Gate) (g : Gate) : Option Rat :=
  match commonGate zero g with
  | some (z, lo, hi) =>
    let cut (l : List (Nat × BitVec 48)) := l.filter fun p => decide (lo ≤ p.1) && decide (p.1 < hi)
    match regression (cut g.stamps), regression (cut z.stamps) with
    | some f, some f0 => if f0 = 0 then none else some (f / f0)
    | _, _ => none
  | none => none

/-- The primary value of a summary; none is invalid (R264, R267). -/
def State.primaryOf (s : State) (g : Gate) : Option Rat :=
  match s.func g.ch with
  | .none => none
  | .frequency => regression g.stamps
  | .binned => regression g.stamps
  | .period => (regression g.stamps).bind fun f => if f = 0 then none else some (Config.sec / f)
  | .totalize =>
    if g.fin - g.start < Config.us then none
    else some (((g.finCount - g.startCount).toNat : Rat) * Config.sec / (g.fin - g.start : Nat))
  | .ratio _ => commonRatio (s.stat.get 0).closed g
  | .fractional _ =>
    match commonRatio (s.stat.get 0).closed g, g.rRatio with
    | some q, some r => if r = 0 then none else some (q / r - 1)
    | _, _ => none
  | .interval _ _ => if g.samples = 0 then none else some (g.sum / g.samples)
  | .phase _ => if g.samples = 0 then none else some (g.sum / g.samples)

/-- A value stitch and whether its value saturated: an invalid result has value 0 (R267, R344). -/
def valueStitch (ch : Chan) (v : Option (BitVec 64 × Bool)) (aux : Nat) (index code : Nat) : Stitch × Bool :=
  let e := v.getD (0, false)
  (.value ch e.1 (sat32 aux) (BitVec.ofNat 8 index) (BitVec.ofNat 8 (boolNat v.isSome + 2 * boolNat e.2))
    (BitVec.ofNat 8 code), e.2)

/-- The variance of a gate's samples (R266). -/
def Gate.variance (g : Gate) : Option Rat :=
  if g.samples < 2 then none
  else some (max 0 ((g.sumSq - g.sum * g.sum / g.samples) / (g.samples - 1 : Nat)))

/-- ȳ_j of a bin (R277): none for an empty bin or with no regression frequency. -/
def Gate.binValue (g : Gate) (f : Option Rat) (j : Nat) : Option Rat :=
  match g.bins.find? fun b => b.j == j, f with
  | some b, some f => if f = 0 then none else some (b.sum / b.n / f - 1)
  | _, _ => none

def Gate.binCount (g : Gate) (j : Nat) : Nat := ((g.bins.find? fun b => b.j == j).map (·.n)).getD 0

/-- One fixed-point unit of the sine below: 2¹⁹². -/
def fxOne : Int := 2 ^ 192

/-- π × 2¹⁹² (log 17). -/
def fxPi : Int := 19720096697726538562396133364228268891463450865190089732560

/-- sin in fixed point by its power series (log 17). -/
def fxSin (x : Int) : Int :=
  ((List.range 60).foldl (fun (acc : Int × Int) i =>
    (acc.1 + acc.2, -(acc.2 * x / fxOne * x / fxOne / ((2 * i + 2) * (2 * i + 3))))) (0, x)).1

/-- sin of an integer multiple of π ÷ B, as a rational (log 17). -/
def sinPi (k b : Nat) : Rat := mkRat (fxSin (fxPi * (k % (2 * b)) / b)) (2 ^ 192)

/-- cos of an integer multiple of π ÷ B. -/
def cosPi (k b : Nat) : Rat := sinPi (2 * k + b) (2 * b)

/-- The vibration-sensitivity vector and the square of its residual (R278): none unless every bin is valid (R267). -/
def vectorOf (y : List (Option Rat)) : Option (Rat × Rat × Rat) :=
  let b := y.length
  if b = 0 ∨ y.any Option.isNone then none
  else
    let v := (y.map fun o => o.getD 0).zipIdx
    let g := sinPi 1 b / mkRat (fxPi / b) (2 ^ 192)
    let i := 2 / (b : Rat) * (v.foldl (fun a p => a + p.1 * sinPi (2 * p.2 + 1) b) 0) / g
    let q := 2 / (b : Rat) * (v.foldl (fun a p => a + p.1 * cosPi (2 * p.2 + 1) b) 0) / g
    let r := v.foldl (fun a p =>
      let d := p.1 - (i * sinPi (2 * p.2 + 1) b + q * cosPi (2 * p.2 + 1) b) * g
      a + d * d) 0
    some (i, q, r / b)

/-- ADEV and MDEV stitches of a summary (R273, R279, R345). With no ADEV slot there is no τ0, and every index of the table has
its invalid result (R267, log 67). -/
def State.tauStitches (s : State) (g : Gate) : List (Stitch × Bool) :=
  if s.hasAdev g.ch then
    let tau0 := (s.adevSlot.map (·.2)).getD 0
    let set := s.taus tau0
    let acc (m : Nat) : TauAcc := (g.taus.find? fun t => t.m == m).getD { m := m, aSum := 0, aN := 0, mSum := 0, mN := 0 }
    let enc (sum : Rat) (n m : Nat) : Option (BitVec 64 × Bool) :=
      if n = 0 ∨ tau0 = 0 then none else some (encSqrt 64 (sum / n / (2 * (m * tau0 * (m * tau0)) : Nat)))
    let a := set.map fun p => valueStitch g.ch (enc (acc p.2).aSum (acc p.2).aN p.2) (acc p.2).aN p.1 (0x10 + p.1)
    let b := if s.hasMdev then
        set.map fun p => valueStitch g.ch (enc (acc p.2).mSum (acc p.2).mN p.2) (acc p.2).mN p.1 (0x30 + p.1)
      else []
    a ++ b
  else []

/-- The value stitches of a summary, in ascending code order (R279, R280, R345). The residual, code 0x52, has no row in the
table of encodings: unsigned, in units of 2⁻⁶⁰ (log 67). -/
def State.valueStitches (s : State) (g : Gate) : List (Stitch × Bool) :=
  let f := s.func g.ch
  if g.noYarn || !s.produces g.ch then []
  else
    let some? (b : Bool) (v : Rat) : Option (BitVec 64 × Bool) := if b then some (f.encode v) else none
    let reg := regression g.stamps
    let bins := if f = .binned then List.range s.bins else []
    let y := bins.map (g.binValue reg)
    let vec := vectorOf y
    let binned := g.bins.foldl (fun a b => a + b.n) 0
    [valueStitch g.ch ((s.primaryOf g).map f.encode) (if f = .binned then g.excluded else 0) 0 0x02,
     valueStitch g.ch (some? (0 < g.samples) (g.sum / g.samples)) g.samples 0 0x03,
     valueStitch g.ch (g.variance.map (encSqrt f.unit)) g.samples 0 0x04,
     valueStitch g.ch (g.minV.map f.encode) g.samples 0 0x05,
     valueStitch g.ch (g.maxV.map f.encode) g.samples 0 0x06] ++
    (match f with
      | .fractional _ => [valueStitch g.ch (g.rRatio.map (encU 40)) 0 0 0x07]
      | .totalize =>
        [valueStitch g.ch (some (((g.finCount - g.startCount).setWidth 64), false)) 0 0 0x08]
      | _ => []) ++
    s.tauStitches g ++
    (if s.hasVector then
      [valueStitch g.ch (vec.map fun v => encS 60 v.1) binned 0 0x50,
       valueStitch g.ch (vec.map fun v => encS 60 v.2.1) binned 0 0x51,
       valueStitch g.ch (vec.map fun v => encSqrt 60 v.2.2) binned 0 0x52]
     else []) ++
    (y.zipIdx.map fun p => valueStitch g.ch (p.1.map (encS 60)) (g.binCount p.2) p.2 0x80)

/-- The head flags (R263). -/
def Gate.flags (g : Gate) (sat : Bool) : Byte :=
  BitVec.ofNat 8 (boolNat g.noYarn + 2 * boolNat g.atYarnStart + 4 * boolNat g.atYarnEnd + 8 * boolNat g.cal +
    16 * boolNat g.holdover + 32 * boolNat g.adoption + 64 * boolNat g.phaseLoss + 128 * boolNat (g.saturated || sat))

/-- Both head stitches (R340, R341, R343). -/
def Gate.heads (g : Gate) (sat : Bool) : List Stitch :=
  let gc := (g.finCount - g.startCount).toNat
  let ns := g.stamps.length
  let overflow := decide (2 ^ 44 ≤ gc) || decide (2 ^ 32 ≤ ns)
  [.headEnd g.ch (BitVec.ofNat 64 g.fin) g.finCount (g.flags (sat || overflow)),
   .headStart g.ch (BitVec.ofNat 44 ((g.fin - g.start) / Config.coarse)) (BitVec.ofNat 44 (min gc (2 ^ 44 - 1))) (sat32 ns)]

/-- The results of a gate's summary, the last with the end-of-summary mark (R280, R315, R316). -/
def State.results (s : State) (g : Gate) : List Result :=
  let vals := s.valueStitches g
  let sts := g.heads (vals.any (·.2)) ++ vals.map (·.1)
  sts.zipIdx.map fun p =>
    { st := p.1, last := p.2 + 1 == sts.length, ch := g.ch, yarn := g.yarn, session := g.session,
      era := BitVec.ofNat 16 (g.fin / 2 ^ 64) }

/-- What a summary leaves for the mirror and the outputs (R285, R286, R439). -/
def State.publish (s : State) (g : Gate) : State :=
  let f := s.func g.ch
  if g.noYarn || !s.produces g.ch then
    s.modStat g.ch fun st =>
      { st with primary := 0, primaryValid := false, summarised := true, vecBad := st.vecBad || s.hasVector }
  else
    let p := (s.primaryOf g).map f.encode
    let s := s.modStat g.ch fun st =>
      { st with primary := (p.getD (0, false)).1, primaryValid := p.isSome, summarised := true }
    if s.hasVector then
      match vectorOf ((List.range s.bins).map (g.binValue (regression g.stamps))) with
      | some (i, q, _) =>
        let t := s.modStat g.ch fun st => { st with vec := some (i, q), vecBad := false }
        if g.ch = 0 then (t.sourceFormed (.vector false) i s.clock).sourceFormed (.vector true) q s.clock else t
      | none => s.modStat g.ch fun st => { st with vecBad := true }
    else s

/-- The next ended gate of a closed interval, in the order of R281. -/
def Engine.next (e : Engine) : Option Gate :=
  e.ended.foldl (fun best g =>
    if e.interval ≤ g.interval then best
    else
      match best with
      | none => some g
      | some b => if g.interval < b.interval ∨ (g.interval = b.interval ∧ g.ch < b.ch) then some g else some b) none

/-- A stitch of a gate's session from before its end is still on its way to the engine, so that the gate cannot be finished
(R25, R282, log 70). -/
def State.gateOpenEnded (s : State) (g : Gate) : Bool :=
  Chan.all.any fun n => (s.chan.get n).flights.any fun f => f.stamp.session == g.session && decide (f.stamp.full < g.fin)

/-- SUMMARY_COMPLETE (R280 to R286): the next gate's results form and enter the result queue as far as it has room. -/
def State.summaryComplete (s : State) : State :=
  if !s.eng.outgoing.isEmpty then { s with eng := s.eng.refill }
  else
    match s.eng.next with
    | none => s
    | some g =>
      if s.gateOpenEnded g then s else
      let r := s.results g
      let t := s.publish g
      let t := if g.ch = 0 then
          t.modStat 0 fun st => { st with closed := (st.closed.filter fun z => z.interval == g.interval) ++ [g] }
        else t
      { t with eng := ({ t.eng with ended := t.eng.ended.erase g, outgoing := r } : Engine).refill }

end Sys2Proof.Machine
end

