-- ==== Sys2Proof/Machine/Leave.lean ====
section
/-! DEFINITION. Winning and releasing LEAVE (R564 to R577, R674). -/

namespace Sys2Proof.Machine
open Sys2Proof

/-- The unit's window W (R572). -/
def State.window (s : State) : Nat := Config.us * (10 + 5 * s.unitId)

/-- The place of a heavy operation in the order of R574; joins by channel, stages by output. -/
def HeavyOp_rank : HeavyOp → Nat
  | .fullRun => 0
  | .join ch => 10 + ch.val
  | .startupPower ch => 10 + ch.val
  | .flashErase => 20
  | .flashProgram => 20
  | .service => 20
  | .stagePower o => 30 + o.val
  | .scrub => 40

/-- The row of Table — Heavy operations, 1 to 7 (R578). -/
def State.heavyRow (s : State) : HeavyOp → Nat
  | .fullRun => 1
  | .join _ => 2
  | .startupPower _ => 3
  | .flashErase => 4
  | .flashProgram => 5
  | .service =>
    match s.svc.waiting, s.flash.op with
    | some (.erase _), _ => 4
    | some (.program ..), _ => 5
    | none, some o => (match o.kind with | .erase _ => 4 | .program .. => 5)
    | none, none => 5
  | .stagePower _ => 6
  | .scrub => 7

/-- The requests that are not withdrawn: with the core stalled, halted or restarting only the service engine's (R674). -/
def State.liveReqs (s : State) : List HeavyOp :=
  if s.fwRuns then s.leave.reqs else s.leave.reqs.filter fun r => r == .service

/-- The first of some requests in the order of R574: of equal rank the one issued first. -/
def State.firstOf (_ : State) (l : List HeavyOp) : Option HeavyOp :=
  l.foldl (fun best r =>
    match best with
    | none => some r
    | some b => if HeavyOp_rank r < HeavyOp_rank b then some r else some b) none

/-- The request the unit makes next (R574). -/
def State.nextReq (s : State) : Option HeavyOp := s.firstOf s.liveReqs

def State.modLeave (s : State) (f : Leave → Leave) : State := { s with leave := f s.leave }

/-- The 2 s of R576 run: a request waits, LEAVE is not held, and brace does not stop it. -/
def State.starving (s : State) : Bool :=
  !s.liveReqs.isEmpty && s.leave.holding.isNone && !s.power.brace

/-- Time waited without a win (R576). -/
def State.waitedNow (s : State) : Nat :=
  s.leave.waited + (match s.leave.waitFrom with | some t => s.clock - t | none => 0)

/-- Start or stop the count of R576 as the state now asks. -/
def State.settleWait (s : State) : State :=
  if s.leave.reqs.isEmpty then s.modLeave fun l => { l with waited := 0, waitFrom := none }
  else if s.starving then
    s.modLeave fun l => { l with waitFrom := some (l.waitFrom.getD s.clock) }
  else s.modLeave fun l => { l with waited := s.waitedNow, waitFrom := none }

/-- The first step of R572: with brace or the holdoff the request is deferred; on a line idle for longer than W the unit
calls, pulling the line low, and its window runs from the line's next rising edge; otherwise from the line's last or next
one. -/
def State.startRequest (s : State) : State :=
  if s.liveReqs.isEmpty then s.modLeave fun l => { l with phase := if l.holding.isSome then .won else .idle }
  else if s.leave.holding.isSome then s
  else
    let holdoff := match s.leave.releasedAt with | some t => decide (s.clock < t + 100 * Config.us) | none => false
    if s.power.brace || holdoff then s.modLeave fun l => { l with phase := .deferred }
    else if s.leave.idle && decide (s.window < s.clock - s.leave.roseAt) then
      s.modLeave fun l => { l with phase := .window, idle := false, fellAt := s.clock, callTo := s.clock + Config.us }
    else s.modLeave fun l => { l with phase := .window }

/-- The unit drives LEAVE low: it holds it, or its call pulse runs (R572, R573). -/
def State.drivesLeave (s : State) : Bool := s.leave.holding.isSome || decide (s.clock < s.leave.callTo)

/-- A request for a heavy operation joins those waiting; the first starts R572. -/
def State.requestLeave (s : State) (op : HeavyOp) : State :=
  if s.leave.reqs.contains op || s.leave.holding == some op then s
  else
    let idle := s.leave.phase == .idle
    let t := s.modLeave fun l => { l with reqs := l.reqs ++ [op] }
    (if idle then t.startRequest else t).settleWait

/-- A request is given up. -/
def State.dropRequest (s : State) (op : HeavyOp) : State :=
  let t := s.modLeave fun l => { l with reqs := l.reqs.filter fun r => r != op }
  (if t.liveReqs.isEmpty && t.leave.holding.isNone then t.modLeave fun l => { l with phase := .idle } else t).settleWait

/-- LEAVE is released (R573): the holdoff of R572 runs, and waiting requests begin again after it. The line is idle once it is
recognised high, which another unit may delay (R571). -/
def State.releaseLeave (s : State) : State :=
  if s.leave.holding.isSome then
    let t := s.modLeave fun l =>
      { l with holding := none, phase := .idle, releasedAt := some s.clock }
    t.startRequest.settleWait
  else s

/-- LEAVE is released if it is held for this operation. -/
def State.releaseFor (s : State) (op : HeavyOp) : State := if s.leave.holding = some op then s.releaseLeave else s

/-- LEAVE is held for this operation. -/
def State.holds (s : State) (op : HeavyOp) : Bool := s.leave.holding == some op

/-- Firmware requests are withdrawn for a stall, a halt or a restart (R674). -/
def State.withdrawLeave (s : State) : State :=
  if s.fwRuns then s
  else
    let t := s.modLeave fun l => { l with withdrawn := true }
    (if t.leave.holding.isNone && t.liveReqs.isEmpty then t.modLeave fun l => { l with phase := .idle } else t).settleWait

/-- Requests begin again from the first step of R572 (R674, R566). -/
def State.resumeLeave (s : State) : State :=
  if s.leave.holding.isSome then (s.modLeave fun l => { l with withdrawn := false }).settleWait
  else (State.startRequest (s.modLeave fun l => { l with withdrawn := false })).settleWait

/-- A power-good fault holds the domain down (R594, R595). -/
def State.domainHeld (s : State) (dom : Nat) : Bool := s.power.downAt.any fun d => d.1 == dom

/-- The operation LEAVE is held for is under way. A current stage begins to power as soon as leave is won, but for a win in the
cycle of a brace entry, which comes first (R469, R574, log 39). -/
def State.underWay (s : State) : HeavyOp → Bool
  | .fullRun => (match s.cal.run with | some r => r.rejoin.isNone | none => false)
  | .join ch => (s.chan.get ch).settling || s.cal.joinWaits == some ch ||
      (match s.cal.run with | some r => r.rejoin == some ch | none => false)
  | .startupPower ch => (s.chan.get ch).settling
  | .flashErase => (match s.flash.op with | some o => !o.service && o.running | none => false)
  | .flashProgram => (match s.flash.op with | some o => !o.service && o.running | none => false)
  | .service => (match s.flash.op with | some o => o.service && o.running | none => false)
  | .stagePower _ => decide (s.cycleAt s.leave.heldAt < s.cycle)
  | .scrub => s.cab.scrubbing

/-- A channel whose join has won leave and cannot begin waits in state 3 again (R170, R574). -/
def State.unjoin (s : State) : HeavyOp → State
  | .join n | .startupPower n => s.modChan n fun c => { c with st := .qualified }
  | _ => s

/-- LEAVE won for an operation that cannot start is given back, and the request is kept (R574, R674). -/
def State.giveBack (s : State) : State :=
  match s.leave.holding with
  | some op =>
    if s.underWay op then s
    else State.settleWait ((s.unjoin op).releaseLeave.modLeave fun l => { l with reqs := op :: l.reqs, phase := .deferred })
  | none => s

/-- In a halt or a restart LEAVE is not held for an operation of the firmware, which cannot run: one under way is left as it
stands, and one that has not begun keeps its request (R573, R674). A domain that is powering up goes on in hardware and keeps
LEAVE until it has (chapter 18, *When things meet*). -/
def State.dropHold (s : State) : State :=
  match s.leave.holding with
  | some op =>
    let powers := match op with | .join n | .startupPower n => (s.chan.get n).settling | _ => false
    if op == .service || op == .scrub || powers then s else if s.underWay op then s.releaseLeave else s.giveBack
  | none => s

/-- The operation is wanted: a request for it has a reason. Flash operations are the firmware's own decision. A join asks
for leave once a pre-check has passed for its run and while the PLL is locked (R486, R488, log 25), a scrub burst 64 s
after the one before it (R383). -/
def State.wants (s : State) : HeavyOp → Bool
  | .fullRun => s.cal.pending.isSome && s.cal.passed
  | .join ch => (s.chan.get ch).st == .qualified && (s.core.boot == .calib || s.core.boot == .ready) &&
      !s.domainHeld ch.val && s.cal.failedAt.isNone && s.cal.joinPassed && s.tb.locked
  | .startupPower ch => (s.chan.get ch).st == .qualified && (s.chan.get ch).startJoin && s.core.boot == .chans &&
      !s.domainHeld ch.val
  | .flashErase => true
  | .flashProgram => true
  | .service => s.svc.waiting.isSome || (match s.flash.op with | some o => o.service && !o.running | none => false)
  | .stagePower o => (s.ao.outs.get o).st == .leaving
  | .scrub => !(s.cab.raw.held.isEmpty && s.cab.shelf.held.isEmpty) && !s.cab.scrubbing &&
      decide (64 * Config.sec ≤ s.clock - s.cab.scrubAt)

/-- A level of the LEAVE line is recognised: low, or the rising edge windows run from (R571, R572), which cannot come while this
unit pulls the line low. -/
def State.lineChange (s : State) (high : Bool) : State :=
  s.modLeave fun l =>
    if high then (if l.idle || s.drivesLeave then l else { l with idle := true, roseAt := s.clock })
    else { l with idle := false, fellAt := if l.idle then s.clock else l.fellAt }

/-- A level of the line that has lasted for `width` ps is recognised: up to 200 ns never, from 400 ns on always, and
between the two a free bit decides (R571, log 4). -/
def State.lineSeen (s : State) (width : Nat) : Bool × State :=
  if width ≤ 200000 then (false, s) else if width < 400000 then s.drawBit else (true, s)

/-- A flash operation for which LEAVE has just been won in hardware starts: the service engine's next one (R627), or one
that brace suspended or stopped (R523). -/
def State.startWon (s : State) (op : HeavyOp) : State :=
  let run (o : FlashOp) : State := { s with flash := { s.flash with op := some o } }
  match s.flash.op with
  | some o =>
    let mine := match op with
      | .service => o.service
      | .flashErase => !o.service
      | .flashProgram => !o.service
      | _ => false
    if mine && !o.running then (run { o with running := true, startedAt := s.clock }).withdrawLeave else s
  | none =>
    match op, s.svc.waiting with
    | .service, some k =>
      let o : FlashOp :=
        { kind := k, service := true, journal := none, startedAt := s.clock, used := 0, done := 0, retries := 0,
          running := true }
      let t := run o
      { t with svc := { t.svc with waiting := none } }
    | _, _ => s

/-- LEAVE can be won for a request: a join waits while a full run is pending, or its own reasons no longer stand (R486, R497,
R498). -/
def State.canWin (s : State) : HeavyOp → Bool
  | .fullRun => s.wants .fullRun
  | .join n => s.wants (.join n) && s.cal.pending.isNone
  | .startupPower n => s.wants (.startupPower n)
  | .flashErase | .flashProgram | .service | .stagePower _ | .scrub => true

/-- The operation LEAVE is won for. Of the channels qualified at that moment the lowest-numbered one joins first, also where
its own request has still to come (R172, R179). -/
def State.winner (s : State) : Option HeavyOp :=
  (s.firstOf (s.liveReqs.filter s.canWin)).map fun op =>
    match op with
    | .join n => .join ((Chan.all.find? fun m => s.canWin (.join m)).getD n)
    | .startupPower n => .startupPower ((Chan.all.find? fun m => s.canWin (.startupPower m)).getD n)
    | _ => op

/-- A channel enters state 4 as the hold of its join begins (R170, R179). -/
def State.enterJoin (s : State) : HeavyOp → State
  | .join n | .startupPower n => s.modChan n fun c => { c with st := .joining, stable := 64 }
  | _ => s

/-- LEAVE_WINDOW_EXPIRY (R170, R572 to R574, R576): the window has run on an idle line; the unit pulls LEAVE low and has won
it for its first operation in the order of R574. -/
def State.winLeave (s : State) : State :=
  match s.winner with
  | some op =>
    if s.leave.phase == .window && s.leave.idle && decide (s.leave.roseAt + s.window ≤ s.clock) &&
        s.leave.holding.isNone && !s.power.brace then
      let t := s.modLeave fun l =>
        { l with reqs := l.reqs.erase op, phase := .won, holding := some op, heldAt := s.clock, idle := false,
                 fellAt := s.clock, waited := 0, waitFrom := none, starved := false }
      ((t.clearFault 0x82 0xFF).enterJoin op).startWon op
    else s
  | none => s

/-- LEAVE_HOLDOFF_END (R572): 100 µs after the unit's own release a waiting request starts. -/
def State.holdoffEnd (s : State) : State :=
  match s.leave.releasedAt with
  | some r =>
    if s.leave.phase == .deferred && decide (r + 100 * Config.us ≤ s.clock) then s.startRequest.settleWait else s
  | none => s

/-- LEAVE_REQUEST_WITHDRAWAL (R674): withdrawn while the core does not run, restarted after. -/
def State.withdrawal (s : State) : State :=
  if !s.fwRuns then s.withdrawLeave else if s.leave.withdrawn then s.resumeLeave else s

/-- LEAVE_STARVATION (R576): 2 s without a win set status flag bit 3 and raise fault 0x82. -/
def State.starve (s : State) : State :=
  match s.nextReq with
  | some op =>
    if s.starving && decide (2 * Config.sec ≤ s.waitedNow) then
      (s.modLeave fun l => { l with starved := true }).raise 0x82 0xFF (BitVec.ofNat 32 (s.heavyRow op)) 0
    else s
  | none => s

end Sys2Proof.Machine
end

