-- ==== Sys2Proof/Machine/FlashArea.lean ====
section
/-! DEFINITION. What the flash holds (chapter 16): the retirement table, the journal, the row counters and the drawer
log, read from and written to the byte array. The commands are in `Machine/FlashOps.lean`. -/

namespace Sys2Proof.Machine
open Sys2Proof

/-! ### Sectors and retirement (R517, R546) -/

/-- The listed bytes of a physical sector. -/
def State.secCells (s : State) (p : Nat) : List Host.Cell :=
  s.flash.mem.filter fun c => decide (sectorBase p ≤ c.1) && decide (c.1 < sectorBase (p + 1))

/-- A word of the array reads uncorrectable (R518). -/
def State.badIn (s : State) (lo len : Nat) : Bool := s.flash.bad.any fun a => decide (lo ≤ a) && decide (a < lo + len)

/-- Every word of a physical sector reads erased (R518). -/
def State.sectorErased (s : State) (p : Nat) : Bool := (s.secCells p).isEmpty && !s.badIn (sectorBase p) 4096

/-- One valid entry of a retirement table copy: bits 63:32 are the complement of bits 31:0 (chapter 16, *Wear*). -/
def retireEntry (cells : List Host.Cell) (p i : Nat) : Option (Nat × Nat) :=
  let lo := leNat (memGets cells (sectorBase p + 8 * i) 4)
  let hi := leNat (memGets cells (sectorBase p + 8 * i + 4) 4)
  if lo + hi = 0xFFFFFFFF then some (lo % 1024, lo / 65536 % 1024) else none

/-- The mappings one physical sector holds as a copy of the table; a word that reads uncorrectable was never written. -/
def State.retireCopy (s : State) (p : Nat) : List (Nat × Nat) :=
  let cells := s.secCells p
  if cells.isEmpty then []
  else (List.range 512).filterMap fun i => if s.badIn (sectorBase p + 8 * i) 8 then none else retireEntry cells p i

/-- Follow mappings from a sector, at most `n` times. -/
def followMap (t : List (Nat × Nat)) : Nat → Nat → Nat
  | 0, p => p
  | n + 1, p =>
    match t.find? fun e => e.1 == p with
    | some e => followMap t n e.2
    | none => p

/-- Every mapping of both copies, wherever retirement has moved them. -/
def State.retireTable (s : State) : List (Nat × Nat) :=
  let t := s.retireCopy 0x1CA ++ s.retireCopy 0x1CB
  let moved (p : Nat) : List (Nat × Nat) :=
    let q := followMap t t.length p
    if q = p then [] else s.retireCopy q
  t ++ moved 0x1CA ++ moved 0x1CB

/-- The physical sector that stands for an original one (R517). -/
def State.phys (s : State) (p : Nat) : Nat := let t := s.retireTable; followMap t t.length p

/-- The physical sector of a logical sector of the drawer area (R517). -/
def State.drawerSector (s : State) (l : Nat) : Nat := s.phys (0x180 + l % 64)

/-- Spare sectors in use (R546). -/
def State.usedSpares (s : State) : List Nat :=
  (s.retireTable.map (·.2)).eraseDups.filter fun p => decide (0x1CC ≤ p) && decide (p ≤ 0x3CB)

/-- Spare sectors remaining: those that are erased and not in use (R549). -/
def State.spares (s : State) : Nat :=
  let gone := s.usedSpares ++ s.flash.mem.map (fun c => c.1 / 4096) ++ s.flash.bad.map fun a => a / 4096
  512 - (gone.eraseDups.filter fun p => decide (0x1CC ≤ p) && decide (p ≤ 0x3CB)).length

/-- The sector has been retired: it is never used again (R546). -/
def State.retired (s : State) (p : Nat) : Bool := s.retireTable.any fun e => e.1 == p

/-- Retirements made. -/
def State.retirements (s : State) : Nat := s.retireTable.eraseDups.length

/-- The original sector a physical sector stands for. -/
def State.original (s : State) (p : Nat) : Nat :=
  let t := s.retireTable
  (followMap (t.map fun e => (e.2, e.1)) t.length p)

/-- The journal's area code of an original sector (R524): 1 drawer, 2 journal, 3 row counter, 4 retirement table. -/
def areaOf (p : Nat) : Option Nat :=
  if 0x180 ≤ p ∧ p ≤ 0x1BF then some 1
  else if 0x1C0 ≤ p ∧ p ≤ 0x1C3 then some 2
  else if 0x1C4 ≤ p ∧ p ≤ 0x1C9 then some 3
  else if p = 0x1CA ∨ p = 0x1CB then some 4
  else none

/-! ### Words and cells that did not take (R518, R539) -/

/-- The words of a stretch of bytes, by address. -/
def wordsIn (lo len : Nat) : List Nat := (List.range ((lo + len + 7) / 8 - lo / 8)).map fun i => 8 * (lo / 8 + i)

/-- These words read uncorrectable from now on (R518). -/
def State.markBad (s : State) (ws : List Nat) : State :=
  { s with flash := { s.flash with bad := s.flash.bad ++ ws.filter fun a => !s.flash.bad.contains a } }

/-- A tally sector, which has no check bits and is programmed by the byte (R518). -/
def State.isTally (s : State) (p : Nat) : Bool := p == s.phys 0x1C4 || p == s.phys 0x1C7

/-- The cells of a tally sector after an erase that did not finish: each keeps a free part of its clear bits (R539, log 4). -/
def State.blurTally (s : State) (p : Nat) : State :=
  let t := (s.secCells p).foldl (fun t c =>
    t.flashProgram c.1 [c.2 ||| Config.freeByte (s.free + (c.1 - sectorBase p))]) (s.flashEraseSector p)
  { t with free := s.free + 4096 }

/-- What an erase leaves that did not finish, or did not verify. -/
def State.spoilErase (s : State) (p : Nat) : State :=
  if s.isTally p then s.blurTally p else (s.flashEraseSector p).markBad (wordsIn (sectorBase p) 4096)

/-- What a program leaves that did not verify: words that read uncorrectable, or a tally cell with a free part of its bits
programmed. -/
def State.spoilProgram (s : State) (x : Nat) (bs : List Byte) : State :=
  if s.isTally (x / 4096) then
    let b := Config.freeByte s.free
    State.flashProgram { s with free := s.free + 1 } x (bs.map fun c => c ||| b)
  else (s.flashProgram x bs).markBad (wordsIn x bs.length)

/-! ### Operations within a step (R545, R549)

A step of the table is whole (chapter 95); how long each erase in it takes, how many times a program is repeated and
whether the last attempt verifies is left open, within the limits of the chapter (log 13). -/

/-- A sector whose operation needed a second retry waits for retirement, a spare in use like any other (R545). -/
def State.wear (s : State) (p retries : Nat) : State :=
  if 2 ≤ retries && ((areaOf (s.original p)).isSome || (decide (0x1CC ≤ p) && decide (p ≤ 0x3CB))) &&
      !s.flash.worn.contains p then
    { s with flash := { s.flash with worn := s.flash.worn ++ [p] } }
  else s

/-- Retry `n` of an operation on a sector (R545, R550). -/
def State.retryFault (s : State) (p n : Nat) : State := s.log 0x72 0xFF (BitVec.ofNat 32 p) (BitVec.ofNat 32 n)

/-- An operation that has been repeated `n` times, at most twice. -/
def State.retried (s : State) (p n : Nat) : State :=
  State.wear ((List.range (min n 2)).foldl (fun t i => t.retryFault p (i + 1)) s) p n

/-- An erase enters the list of R549 with its time in 0.1 ms, and is reported above 80 ms (R545). -/
def State.noteTook (s : State) (p took : Nat) : State :=
  let t := { s with flash := { s.flash with erases := remember 16 took s.flash.erases } }
  if 800 < took then t.log 0x71 0xFF (BitVec.ofNat 32 p) (sat32 took) else t

/-- Erase a sector within a step: at most 300 ms, an attempt having up to 100 ms, and the third may not verify (R522, R545). -/
def State.eraseNow (s : State) (p : Nat) : State :=
  let d := s.drawNat
  let took := min 3000 (d.1 % 3002)
  let t := if d.1 % 3002 = 3001 then d.2.spoilErase p else d.2.flashEraseSector p
  (t.noteTook p took).retried p ((took - 1) / 1000)

/-- Program bytes within a step: at most two repeats, and the second may not verify (R545). -/
def State.programNow (s : State) (x : Nat) (bs : List Byte) : State :=
  let d := s.drawNat
  (if d.1 % 4 = 3 then d.2.spoilProgram x bs else d.2.flashProgram x bs).retried (x / 4096) (d.1 % 4)

/-! ### The journal (R524 to R526) -/

/-- The address of a journal entry. -/
def State.journalAddr (s : State) (i : Nat) : Nat := sectorBase (s.phys (0x1C0 + i % 1024 / 256)) + 16 * (i % 256)

def erasedWord : Nat := 2 ^ 64 - 1

/-- Word `w` of entry `i`; none where it reads uncorrectable. -/
def State.journalWord (s : State) (i w : Nat) : Option Nat :=
  let a := s.journalAddr i + 8 * w
  if s.badIn a 8 then none else some (s.flashNat a 8)

/-- The entry has begun: its word 0 is programmed and reads right (R525). -/
def State.journalBegan (s : State) (i : Nat) : Bool :=
  match s.journalWord i 0 with
  | some w => w != erasedWord
  | none => false

/-- The entry is open: begun and not complete (R524). -/
def State.journalOpen (s : State) (i : Nat) : Bool := s.journalBegan i && s.journalWord i 1 != some 0

/-- Word 0 of a journal entry (R524). -/
def journalEntry (typ area sector tail dest new : Nat) : Nat :=
  typ + 2 ^ 8 * area + 2 ^ 16 * sector + 2 ^ 32 * tail + 2 ^ 38 * dest + 2 ^ 44 * new

/-- Program word 0 of the next entry, with no regard to room. -/
def State.journalPut (s : State) (w : Nat) : State :=
  let t := s.programNow (s.journalAddr s.flash.jnext) (le 8 w)
  { t with flash := { t.flash with jnext := (s.flash.jnext + 1) % 1024 } }

/-- Complete an entry (R524). A complete mark that a reset cut off is programmed again: the zeros of the mark are what its word
then reads (log 71). -/
def State.journalComplete (s : State) (i : Nat) : State :=
  let a := s.journalAddr i + 8
  State.programNow { s with flash := { s.flash with bad := s.flash.bad.filter fun b => b != a } } a (le 8 0)

/-- An erase entry is complete once its sector has verified (R524). -/
def State.completeErased (s : State) (i p : Nat) : State := if s.sectorErased p then s.journalComplete i else s

/-- Make room before an entry is written: the next journal sector is reclaimed by an erase journaled in this one, its
open entries copied first (R526). -/
def State.journalRoom (s : State) : State :=
  let j := s.flash.jnext
  let next := (j / 256 + 1) % 4 * 256
  let opens := ((List.range 256).map (next + ·)).filter s.journalOpen
  let p := s.phys (0x1C0 + next / 256)
  if s.sectorErased p || decide (j % 256 + opens.length + 1 < 256) then s
  else
    let t := opens.foldl (fun t i => match s.journalWord i 0 with | some w => t.journalPut w | none => t) s
    let i := t.flash.jnext
    ((t.journalPut (journalEntry 1 2 p 0 0 0)).eraseNow p).completeErased i p

/-- Begin a journaled operation: the index of its entry. -/
def State.journalBegin (s : State) (w : Nat) : Nat × State :=
  let t := s.journalRoom
  (t.flash.jnext, t.journalPut w)

/-- Erase a sector under its own journal entry (R525). -/
def State.journaledErase (s : State) (area p : Nat) : State :=
  let b := s.journalBegin (journalEntry 1 area p 0 0 0)
  (b.2.eraseNow p).completeErased b.1 p

/-- One more than the last entry of a journal sector that is not erased, 0 where it is empty. -/
def State.journalFill (s : State) (k : Nat) : Nat :=
  (List.range 256).foldl (fun a i => if s.journalWord (256 * k + i) 0 != some erasedWord then i + 1 else a) 0

/-- The entries of a journal sector have been moved there by a retirement that another sector records: entries made since lie
behind that record, and the holes between the moved ones are never used (R518, R546, log 71). -/
def State.journalMoved (s : State) (k : Nat) : Bool :=
  (List.range 1024).any fun i => i / 256 != k && s.journalBegan i &&
    (match s.journalWord i 0 with
     | some w => w % 65536 == 0x0204 && w / 2 ^ 44 % 1024 == s.phys (0x1C0 + k)
     | none => false)

/-- The entry after the newest one, as start-up finds it: behind the last entry of the sector being filled, or else at the start
of the erased sector behind the newest (R524, R526). -/
def State.findJournalNext (s : State) : Nat :=
  let ks := List.range 4
  let part (k : Nat) : Bool := decide (0 < s.journalFill k) && decide (s.journalFill k < 256)
  match ks.find? fun k => part k && !s.journalMoved k with
  | some k => 256 * k + s.journalFill k
  | none =>
    match ks.find? fun k => decide (s.journalFill k = 0) && decide (0 < s.journalFill ((k + 3) % 4)) with
    | some k => 256 * k
    | none => ((ks.find? part).map fun k => 256 * k + s.journalFill k).getD 0

/-- The open entries, oldest first (R544). -/
def State.openEntries (s : State) : List Nat :=
  ((List.range 1024).map fun i => (s.flash.jnext + i) % 1024).filter s.journalOpen

/-- The journal entries whose words are not all erased. -/
def State.journalUsed (s : State) : List Nat :=
  ((List.range 4).flatMap fun k =>
    let p := s.phys (0x1C0 + k)
    (s.secCells p).map fun c => 256 * k + (c.1 - sectorBase p) / 16).eraseDups

/-- An erase of the sector has an open entry: the sector is not used until it is complete (chapter 16, *Recovery at
start-up*). -/
def State.erasing (s : State) (p : Nat) : Bool :=
  s.journalUsed.any fun i =>
    s.journalOpen i && (match s.journalWord i 0 with | some w => w % 256 == 1 && w / 65536 % 1024 == p | none => false)

/-- The journal sector of the next entry may be used. -/
def State.journalReady (s : State) : Bool := !s.erasing (s.phys (0x1C0 + s.flash.jnext % 1024 / 256))

/-- The firmware may begin a flash sequence now: it has won leave for it, no operation is in progress or suspended, brace is not
active, and no core restart has still to resolve open entries (R520, R565, R591). -/
def State.mayWork (s : State) (op : HeavyOp) : Bool :=
  s.fwRuns && s.holds op && s.flash.op.isNone && !s.power.brace && !s.core.recovering

/-- A sector of the drawer area waits so. -/
def State.drawersErasing (s : State) : Bool := (List.range 64).any fun l => s.erasing (s.drawerSector l)

/-! ### Row counters (R538 to R541) -/

/-- The three sectors of a row counter: tally, carry copy A, carry copy B (R517). -/
def State.rowSectors (s : State) : RowId → Nat × Nat × Nat
  | .session => (s.phys 0x1C4, s.phys 0x1C5, s.phys 0x1C6)
  | .commit => (s.phys 0x1C7, s.phys 0x1C8, s.phys 0x1C9)

/-- The sectors of a row counter and of the journal may be used (R544). -/
def State.rowReady (s : State) (c : RowId) : Bool :=
  let q := s.rowSectors c
  s.journalReady && !s.erasing q.1 && !s.erasing q.2.1 && !s.erasing q.2.2

/-- The counter index of fault 0x75 (R550). -/
def rowIndex : RowId → Nat
  | .session => 0
  | .commit => 1

/-- Bits of a cell that read 0 (R539). -/
def zeroBits (b : Byte) : Nat := ((List.range 8).filter fun i => !b.getLsbD i).length

def cellSet (b : Byte) : Bool := decide (6 ≤ zeroBits b)

def cellClear (b : Byte) : Bool := decide (zeroBits b ≤ 2)

/-- The tally count: one more than the index of the highest cell that is not clear (R539). -/
def State.tally (s : State) (p : Nat) : Nat :=
  (s.secCells p).foldl (fun a c => if cellClear c.2 then a else max a (c.1 - sectorBase p + 1)) 0

/-- A carry record: its place in the copy, CARRY and CLEARED (R538). -/
structure CarryRec where
  idx : Nat
  carry : Nat
  cleared : Byte
deriving DecidableEq, Repr

/-- The records of a copy that are not skipped (R538). -/
def State.carryRecs (s : State) (p : Nat) : List CarryRec :=
  let cells := s.secCells p
  if cells.isEmpty then []
  else (List.range 256).filterMap fun i =>
    let a := sectorBase p + 16 * i
    let c := leNat (memGets cells a 4)
    if c + leNat (memGets cells (a + 4) 4) = 0xFFFFFFFF ∧ !s.badIn a 8 then
      some { idx := i, carry := c, cleared := memGet cells (a + 8) }
    else none

/-- The current record of a copy (R538). -/
def State.currentCarry (s : State) (p : Nat) : Option CarryRec := (s.carryRecs p).getLast?

def State.carryOf (s : State) (p : Nat) : Nat := ((s.currentCarry p).map (·.carry)).getD 0

/-- The value of a row counter (R540). An empty copy holds CARRY 0 (log 8). -/
def State.rowValue (s : State) (c : RowId) : Nat :=
  let q := s.rowSectors c
  4096 * s.carryOf q.2.1 + s.tally q.1

/-- The first erased record position of a copy (R538). -/
def State.carryFree (s : State) (p : Nat) : Option Nat :=
  let cells := s.secCells p
  (List.range 256).find? fun i =>
    (cells.all fun c => decide (c.1 < sectorBase p + 16 * i) || decide (sectorBase p + 16 * i + 16 ≤ c.1)) &&
      !s.badIn (sectorBase p + 16 * i) 16

/-- The 9 bytes of a carry record (R538). -/
def carryBytes (carry : Nat) (cleared : Byte) : List Byte := le 4 carry ++ le 4 (0xFFFFFFFF - carry) ++ [cleared]

/-- Append a record to a carry copy; a copy with no room is erased first (R540). -/
def State.appendCarry (s : State) (p carry : Nat) (cleared : Byte) : State :=
  match s.carryFree p with
  | some i => s.programNow (sectorBase p + 16 * i) (carryBytes carry cleared)
  | none => (s.journaledErase 3 p).programNow (sectorBase p) (carryBytes carry cleared)

/-- Set CLEARED in the current record of a copy (R540). -/
def State.setCleared (s : State) (p : Nat) : State :=
  match s.currentCarry p with
  | some r => s.programNow (sectorBase p + 16 * r.idx + 8) [0]
  | none => s

/-- Erase the tally and set CLEARED in A, then in B (R540, R541). -/
def State.clearTally (s : State) (q : Nat × Nat × Nat) : State :=
  ((s.journaledErase 3 q.1).setCleared q.2.1).setCleared q.2.2

/-- The carry of R540. -/
def State.rowCarry (s : State) (q : Nat × Nat × Nat) : State :=
  let c := s.carryOf q.2.1 + 1
  ((s.appendCarry q.2.1 c 0xFF).appendCarry q.2.2 c 0xFF).clearTally q

/-- One increment (R540). -/
def State.rowIncrement (s : State) (c : RowId) : State :=
  let q := s.rowSectors c
  let k := s.tally q.1
  let t := s.programNow (sectorBase q.1 + k) [0]
  if k + 1 = 4096 then t.rowCarry q else t

/-- An advance by `n` is `n` increments (R540). -/
def State.rowAdvance (c : RowId) : Nat → State → State
  | 0, s => s
  | n + 1, s => State.rowAdvance c n (s.rowIncrement c)

/-- Cells below the tally count that are not set (R541, step 3). -/
def State.badCells (s : State) (p : Nat) : List Nat :=
  let cells := s.secCells p
  (List.range (s.tally p)).filter fun i => !cellSet (memGet cells (sectorBase p + i))

/-- A step of the reconciliation acted: fault 0x75 with the counter index (R541, R550). -/
def State.resolved (s : State) (c : RowId) : State := s.log 0x75 0xFF 5 (BitVec.ofNat 32 (rowIndex c))

/-- The reconciliation of one row counter (R541). -/
def State.reconcileRow (s : State) (c : RowId) : State :=
  let q := s.rowSectors c
  let a := s.currentCarry q.2.1
  let b := s.currentCarry q.2.2
  let ca := (a.map (·.carry)).getD 0
  let cb := (b.map (·.carry)).getD 0
  let s1 :=
    if ca < cb then
      (s.appendCarry q.2.1 cb ((b.map (·.cleared)).getD 0xFF)).resolved c
    else if cb < ca then
      (s.appendCarry q.2.2 ca ((a.map (·.cleared)).getD 0xFF)).resolved c
    else s
  let un (p : Nat) : Bool := match s1.currentCarry p with | some r => r.cleared == 0xFF | none => false
  let s2 := if un q.2.1 && un q.2.2 then (s1.clearTally q).resolved c else s1
  let fix := s2.badCells q.1
  let s3 := if fix.isEmpty then s2
            else (fix.foldl (fun t i => t.programNow (sectorBase q.1 + i) [0]) s2).resolved c
  if s3.tally q.1 = 4096 then (s3.rowCarry q).resolved c else s3

/-! ### Drawer records (R527 to R534) -/

/-- A drawer record as the log holds it (R528). -/
structure DrawerRec where
  addr : Nat
  logical : Nat
  typ : Nat
  slot : Nat
  block : Nat
  len : Nat
  flags : Nat
  commit : Nat
  temp : Int
  body : List Byte
  /-- the written mark reads zero -/
  marked : Bool
  /-- the CRC matches and every word is readable -/
  sound : Bool
deriving DecidableEq, Repr

/-- A record is written (R531). -/
def DrawerRec.written (r : DrawerRec) : Bool := r.marked && r.sound

/-- Length of a record by type (R529). -/
def recordLength (typ : Nat) : Nat := if typ = 1 then 576 else if typ = 2 then 48 else if typ = 3 then 64 else 0

/-- The record at an offset of a sector, if its header is one. -/
def State.recordAt (s : State) (cells : List Host.Cell) (l p o : Nat) : Option DrawerRec :=
  let a := sectorBase p + o
  let typ := (memGet cells (a + 1)).toNat
  let len := recordLength typ
  if memGet cells a = 0xD5 ∧ len ≠ 0 ∧ o + len ≤ 4096 ∧ leNat (memGets cells (a + 4) 2) = len then
    let body := memGets cells (a + 32) (len - 32)
    some { addr := a, logical := l, typ := typ, slot := (memGet cells (a + 2)).toNat,
           block := (memGet cells (a + 3)).toNat, len := len, flags := (memGet cells (a + 6)).toNat,
           commit := leNat (memGets cells (a + 8) 4), temp := signed 16 (leNat (memGets cells (a + 12) 2)),
           body := body, marked := leNat (memGets cells (a + 24) 8) == 0
           sound := leNat (memGets cells (a + 16) 4) == (crc32 (memGets cells a 16 ++ body)).toNat && !s.badIn a len }
  else none

/-- The records of a sector from an offset on: each begins at a multiple of 8 (R527). -/
def State.walkSector (s : State) (cells : List Host.Cell) (l p : Nat) : Nat → Nat → List DrawerRec
  | 0, _ => []
  | n + 1, o =>
    if 4096 ≤ o then []
    else
      match s.recordAt cells l p o with
      | some r => r :: s.walkSector cells l p n (o + r.len)
      | none => s.walkSector cells l p n (o + 8)

/-- The records of a logical sector. -/
def State.sectorRecs (s : State) (l : Nat) : List DrawerRec :=
  let p := s.drawerSector l
  let cells := s.secCells p
  if cells.isEmpty then [] else s.walkSector cells l p 512 0

/-- Every record of the drawer log. -/
def State.drawerRecs (s : State) : List DrawerRec := (List.range 64).flatMap s.sectorRecs

/-- The written commit record of a commit number and slot (R531). -/
def commitOf (rs : List DrawerRec) (slot commit : Nat) : Option DrawerRec :=
  rs.find? fun r => r.typ == 3 && r.written && r.slot == slot && r.commit == commit

/-- The block record belongs to a commit (R531). -/
def DrawerRec.belongs (rs : List DrawerRec) (r : DrawerRec) : Bool :=
  (r.typ == 1 || r.typ == 2) && r.written &&
    (match commitOf rs r.slot r.commit with
     | some c => (leNat (c.body.take 2)).testBit r.block
     | none => false)

/-- The highest by a measure; the first of equals. -/
def highest (f : DrawerRec → Nat) (rs : List DrawerRec) : Option DrawerRec :=
  rs.foldl (fun best r =>
    match best with
    | none => some r
    | some b => if f b < f r then some r else some b) none

/-- The block in force of a slot (R532). -/
def inForce (rs : List DrawerRec) (slot block : Nat) : Option DrawerRec :=
  highest (·.commit) (rs.filter fun r => r.slot == slot && r.block == block && r.belongs rs)

/-- The written commit records of a slot. -/
def commitsOf (rs : List DrawerRec) (slot : Nat) : List DrawerRec :=
  rs.filter fun r => r.typ == 3 && r.written && r.slot == slot

/-- The slot is stored (R533). -/
def slotStored (rs : List DrawerRec) (slot : Nat) : Bool := !(commitsOf rs slot).isEmpty

/-- The slot's temperature (R533). -/
def slotTemp (rs : List DrawerRec) (slot : Nat) : Option Int :=
  let cs := commitsOf rs slot
  let full := cs.filter fun r => r.body.getD 2 0 == 1
  (highest (·.commit) (if full.isEmpty then cs else full)).map (·.temp)

/-- Drawers stored (R549). -/
def State.drawersStored (s : State) : Nat :=
  let rs := s.drawerRecs
  ((List.range 24).filter (slotStored rs)).length

/-- The bits set in a little-endian field, ascending. -/
def bitsOf (bytes : List Byte) (n : Nat) : List Nat := let v := leNat bytes; (List.range n).filter v.testBit

/-- A field with these bits set. -/
def bitField (bits : List Nat) : Nat := bits.foldl (fun a i => a ||| 2 ^ i) 0

/-- A channel block's body (R529). -/
def ChanBlock.bytes (b : ChanBlock) : List Byte :=
  le 18 (bitField b.cells) ++ le 2 0 ++ ((List.range 256).flatMap fun j => le 2 (pick b.table j)) ++
    leInt 2 b.interTerm ++ le 2 b.bias.toNat ++ le 2 b.legs.toNat ++ leInt 2 b.offsetTrim ++ le 4 0

/-- The channel block a body holds (R529). -/
def chanBlockOf (b : List Byte) : ChanBlock :=
  let f (o n : Nat) : List Byte := (b.drop o).take n
  { cells := bitsOf (f 0 18) 144, table := (List.range 256).map fun j => leNat (f (20 + 2 * j) 2)
    interTerm := signed 16 (leNat (f 0x214 2)), bias := BitVec.ofNat 16 (leNat (f 0x216 2))
    legs := BitVec.ofNat 16 (leNat (f 0x218 2)), offsetTrim := signed 16 (leNat (f 0x21A 2)) }

/-- An output block's body (R529). -/
def OutBlock.bytes (b : OutBlock) : List Byte :=
  le 9 (bitField b.segs) ++ [0] ++ leInt 2 b.offsetTrim ++ leInt 2 b.gainTrim ++ le 2 0

def outBlockOf (b : List Byte) : OutBlock :=
  let f (o n : Nat) : List Byte := (b.drop o).take n
  { segs := bitsOf (f 0 9) 67, offsetTrim := signed 16 (leNat (f 10 2)), gainTrim := signed 16 (leNat (f 12 2)) }

/-- The drawer of a slot: its temperature and its blocks in force. -/
def drawerOf (rs : List DrawerRec) (slot : Nat) : Option CalSet :=
  (slotTemp rs slot).map fun t =>
    let c (n : Chan) : Option ChanBlock := (inForce rs slot n.val).map fun r => chanBlockOf r.body
    let o (n : OutNo) : Option OutBlock := (inForce rs slot (8 + n.val)).map fun r => outBlockOf r.body
    { temp := t, chans := ⟨c 0, c 1, c 2, c 3, c 4, c 5, c 6, c 7⟩, outs := ⟨o 0, o 1⟩ }

/-- The stored drawers with their slots, ascending. -/
def State.drawers (s : State) : List (Nat × CalSet) :=
  let rs := s.drawerRecs
  (List.range 24).filterMap fun i => (drawerOf rs i).map fun d => (i, d)

/-- The header of a record with everything but its CRC; reserved bytes are 0 (R8). -/
def recordHead (typ slot block len flags commit : Nat) (temp : Int) : List Byte :=
  [0xD5] ++ le 1 typ ++ le 1 slot ++ le 1 block ++ le 2 len ++ le 1 flags ++ [0] ++ le 4 commit ++ leInt 2 temp ++ le 2 0

/-- A whole record as the array holds it once its written mark is programmed (R528). -/
def recordBytes (typ slot block flags commit : Nat) (temp : Int) (body : List Byte) : List Byte :=
  let h := recordHead typ slot block (32 + body.length) flags commit temp
  h ++ le 4 (crc32 (h ++ body)).toNat ++ le 4 0 ++ le 8 0 ++ body

/-- Where a record of `len` bytes starts with the head at `h`: it lies within one sector (R527). -/
def placeAt (h len : Nat) : Nat := if 4096 < h % 4096 + len then 4096 * (h / 4096 + 1) % 262144 else h

/-- The head after records of these lengths, and the logical sectors they lie in. -/
def placeAll (h : Nat) : List Nat → Nat × List Nat
  | [] => (h, [])
  | l :: ls =>
    let p := placeAt h l
    let r := placeAll ((p + l) % 262144) ls
    (r.1, p / 4096 :: r.2)

/-- Append records to the drawer log, each at the head (R527, R530). -/
def State.appendRecs (s : State) (rs : List (List Byte)) : State :=
  rs.foldl (fun t b =>
    let p := placeAt t.flash.head b.length
    let t := t.programNow (sectorBase (t.drawerSector (p / 4096)) + p % 4096) b
    { t with flash := { t.flash with head := (p + b.length) % 262144 } }) s

/-- Logical sectors with nothing written. -/
def State.erasedLogical (s : State) : List Nat := (List.range 64).filter fun l => s.sectorErased (s.drawerSector l)

/-- A write of records of these lengths would leave fewer than 11 erased logical sectors (R536). -/
def State.needsCompaction (s : State) (lens : List Nat) : Bool :=
  let used := (placeAll s.flash.head lens).2
  decide ((s.erasedLogical.filter fun l => !used.contains l).length < 11)

/-- Head and tail as start-up finds them: the run of sectors that hold something. -/
def State.findLog (s : State) : State :=
  let used (l : Nat) : Bool := !s.sectorErased (s.drawerSector (l % 64))
  match (List.range 64).find? fun l => used l && !used (l + 63) with
  | none => { s with flash := { s.flash with head := 0, tail := 0 } }
  | some t =>
    let n := ((List.range 64).find? fun i => !used (t + i)).getD 64
    let last := (t + n - 1) % 64
    let p := s.drawerSector last
    let hurt := s.flash.bad.filter fun a => decide (sectorBase p ≤ a) && decide (a < sectorBase (p + 1))
    let fill := ((s.secCells p).map (·.1) ++ hurt).foldl (fun m x => max m (x - sectorBase p + 1)) 0
    { s with flash := { s.flash with tail := t, head := (4096 * last + 8 * ((fill + 7) / 8)) % 262144 } }

/-- The index is built: block records written under a mark that reads right, but not sound themselves, are rejected with
fault 0x76 (R534). -/
def State.buildIndex (s : State) : State :=
  let bad := s.drawerRecs.filter fun r => r.typ != 3 && r.marked && !s.badIn (r.addr + 24) 8 && !r.sound
  bad.foldl (fun t r =>
    t.log 0x76 0xFF (BitVec.ofNat 32 (r.addr / 4096)) (BitVec.ofNat 32 (r.addr % 4096))) s.findLog

end Sys2Proof.Machine
end

