-- ==== Sys2Proof/Machine/Stamp.lean ====
section
/-! DEFINITION. Active edges, presence and the stamp engine (chapters 05 and 06), and the suspension of a channel
for a calibration run. -/

namespace Sys2Proof.Machine
open Sys2Proof

/-! ### Instants and counts -/

/-- The full time now, at the start of its coarse period, as the coarse counter captures it (R40). -/
def State.coarseNow (s : State) : Nat := Config.coarse * (s.full / Config.coarse)

/-- The clock value of a full time of the present session that is not later than now. -/
def State.clockOf (s : State) (full : Nat) : Nat := s.clock - (s.full - full)

/-- The event count at a clock value: every edge that has arrived by then (R20, R182). -/
def State.countBy (s : State) (n : Chan) (t : Nat) : BitVec 48 :=
  (s.chan.get n).count - BitVec.ofNat 48 ((s.chan.get n).edgesFrom (t + 1))

/-- `path_delay[n]` of the working correction set (R191). -/
def pathDelay (n : Chan) (inter : Int) : Nat := (clipInt 4000 16000 (Config.factoryPath n + inter)).toNat

/-- The working correction set in use in this cycle: a bank swap takes effect at a cycle boundary (R193). A stitch is corrected
from the bank in use in the cycle of its edge's crossing (log 64). -/
def State.bankNow (s : State) : Option CalSet := if s.cycle < s.cal.swapAt then s.cal.other else s.cal.work

/-- The channel's block of the working correction set in use (R192); without one the channel is not stamped (R32, R514). -/
def State.workChan (s : State) (n : Chan) : Option ChanBlock := s.bankNow.bind fun w => w.chans.get n

/-- The time of an edge that crosses now, from its bin and the channel's block (R190). -/
def State.edgeTime (s : State) (n : Chan) (b : ChanBlock) (bin : Byte) : Nat :=
  let d := pathDelay n b.interTerm
  Config.coarse * ((s.full + d) / Config.coarse) + pick b.table bin.toNat - d

/-- The clock value of the coarse capture of an edge that crosses now: the coarse boundary after it has passed the path
(R191, R204). -/
def State.captureAt (s : State) (n : Chan) (b : ChanBlock) : Nat :=
  let d := pathDelay n b.interTerm
  s.clock + d + (Config.coarse - (s.full + d) % Config.coarse)

/-! ### Stitches (R204, R25, R35, R671) -/

/-- What a stitch takes to the statistics engine and the merge beyond the minimum of R671: at most 159.8 ns in all (R672,
log 54). -/
def stageExtra (n : Chan) (no : Nat) : Nat := min 134000 (Config.stageDelay n no)

/-- From an edge or expiry instant to the statistics engine and the merge: 126.3 ns to 159.8 ns (R671, R672). -/
def mergeWait (n : Chan) (no : Nat) : Nat := 505200 + stageExtra n no

/-- From there to where the stitch can be read in the mirror: 12.8 ns to 16 ns, 175.8 ns in all at most, so that a latch, which
shows the cycle before it, finds the stitch 180 ns after its edge (R26, R443, R671, R672). -/
def mirrorExtra (n : Chan) (no : Nat) : Nat := 51200 + min 12800 (Config.mirrorDelay n no)

/-- The stitch the mirror shows at a clock value (R35, R671). -/
def Channel.mirrorAt (c : Channel) (t : Nat) : Option Stitch :=
  match (c.mirrorNext.filter fun p => decide (p.1 ≤ t)).getLast? with
  | some p => some p.2
  | none => c.mirror

/-- A stitch sets out for the mirror, readable from a clock value on, never before the one ahead of it (R35). -/
def Channel.mirrorPut (c : Channel) (now v : Nat) (st : Stitch) : Channel :=
  { c with
    mirror := c.mirrorAt now
    mirrorNext := (c.mirrorNext.filter fun p => decide (now < p.1)) ++
      [(max v ((c.mirrorNext.getLast?.map (·.1)).getD 0), st)] }

/-- The stitch of a flight (R204, R334). -/
def Flight.stitch (f : Flight) (n : Chan) : Stitch :=
  let r := f.stamp
  if r.isEdge then .edge n r.angleState (BitVec.ofNat 64 r.full) (r.count.setWidth 40) r.angle
  else .tick n r.angleState (BitVec.ofNat 64 r.full) (r.count.setWidth 40) r.angle

/-- A stamp of a channel, its angle still to be captured (R204, R253). -/
def State.stampRec (s : State) (n : Chan) (full : Nat) (count : BitVec 48) (tick : Nat) (isEdge : Bool) : StampRec :=
  { full := full, count := count, angle := 0, angleState := 0, tick := tick, isEdge := isEdge, session := s.tb.session,
    yarn := (s.chan.get n).yarn, segs := s.stat.map (·.seg) }

/-- A stitch formed for an edge or expiry instant of the clock value `inst` sets out for the statistics engine and the merge,
where it never arrives before the one ahead of it (R25, R209, R671, R672). -/
def Channel.form (c : Channel) (n : Chan) (r : StampRec) (slots : List (Fin 16)) (inst captureAt : Nat) : Channel :=
  let a := max (inst + mergeWait n c.formed) ((c.flights.getLast?.map (·.at_)).getD 0)
  { c with
    flights := c.flights ++ [{ stamp := r, slots := slots, no := c.formed, captureAt := captureAt, taken := false, at_ := a }]
    formed := c.formed + 1 }

/-- A tick stamp at an expiry instant (R199, R201, R204). -/
def State.tickStamp (s : State) (n : Chan) (inst : Nat) (slot : Fin 16) : State :=
  let c := s.countAt n (s.clockOf inst)
  let r := c.2.stampRec n inst c.1 inst false
  c.2.modChan n fun ch => ch.form n r [slot] (s.clockOf inst) (s.clockOf inst)

/-- An edge stamp of the edge that crosses now, captured at a clock value (R21 to R24, R189, R190, R197, R204). -/
def State.edgeStamp (s : State) (n : Chan) (full captureAt : Nat) : State :=
  let c := s.chan.get n
  let r := s.stampRec n full c.count c.tickAt true
  s.modChan n fun c =>
    { c.form n r c.tickSlots s.clock captureAt with
      pending := false, tickStamped := false, stampedAt := some s.clock, tickSlots := [] }

/-! ### Capture and arrival (R25, R204, R671) -/

/-- Angle and angle state are captured in the cycle of the capture, once it is over: as the events of that cycle leave them
(R204, R221, R243). -/
def State.capturedIn (s : State) (k : Nat) (f : Flight) : Flight :=
  let c := s.cycleAt f.captureAt
  if f.taken || decide (k ≤ c) then f
  else { f with stamp := { f.stamp with angle := s.angleIn c, angleState := s.fol.st }, taken := true }

/-- The cycles before `k` are over: what they capture is captured (R204). -/
def State.takeCaptures (s : State) (k : Nat) : State :=
  { s with chan := s.chan.map fun c => { c with flights := c.flights.map (s.capturedIn k) } }

/-- The channel whose stitch arrives next; of two at once the lower one's (R666). -/
def State.nextFlight (s : State) : Option (Chan × Flight) :=
  Chan.all.foldl (fun best n =>
    match (s.chan.get n).flights with
    | [] => best
    | f :: _ =>
      match best with
      | none => some (n, f)
      | some b => if f.at_ < b.2.at_ then some (n, f) else best) none

/-- A stitch arrives at the merge and the statistics engine, and goes on to the mirror, which shows the present yarn's
(R25, R35, R437, R671). -/
def State.land (s : State) (n : Chan) (f : Flight) : State :=
  let st := f.stitch n
  let t := s.modChan n fun c => { c with flights := c.flights.tail }
  let t := if s.isCurrent n f.stamp then t.modChan n fun c => c.mirrorPut f.at_ (f.at_ + mirrorExtra n f.no) st else t
  (t.arrive n { item := { st := st, session := f.stamp.session, full := f.stamp.full }, no := f.no }
    (t.cycleAt f.at_)).statInput n f.stamp f.slots f.at_

/-- What has arrived by now arrives, in the order of arrival; at most `fuel` stitches are on their way. -/
def State.settle : Nat → State → State
  | 0, s => s
  | fuel + 1, s =>
    match s.nextFlight with
    | some (n, f) => if f.at_ ≤ s.clock then State.settle fuel (s.land n f) else s
    | none => s

/-- Stitches on their way. -/
def State.inFlight (s : State) : Nat := Chan.all.foldl (fun a n => a + (s.chan.get n).flights.length) 0

/-- What has arrived by now has arrived. -/
def State.settleAll (s : State) : State := State.settle s.inFlight s

/-! ### Ticks (R195 to R208) -/

/-- The minimum tick spacing and the busy window, 40 ns (R196, R197). -/
def fortyNs : Nat := 40 * Config.ns

/-- A tick falls on a channel. In state 5 it is taken unless it falls less than 40 ns after the one taken before; a
taken tick sets the pending flag, and one that finds it set has made it expire (R195 to R200, R206, R208). A channel with
no block in the working set forms no stamp, a tick stamp neither (R32). -/
def State.tickChannel (s : State) (n : Chan) (inst : Nat) (slot : Fin 16) : State :=
  let c := s.chan.get n
  if c.st != .present || decide (inst ≤ c.presentAt) then s
  else if c.lastTick = some inst then
    s.modChan n fun c =>
      if c.pending && c.tickAt == inst && !c.tickSlots.contains slot then { c with tickSlots := c.tickSlots ++ [slot] } else c
  else if (match c.lastTick with | some l => decide (inst < l + fortyNs) | none => false) then s
  else
    let t := if c.pending then s.modChan n fun c => { c with expired := c.expired + 1 } else s
    let u := if c.pending && !c.tickStamped && (s.workChan n).isSome then
        (t.modChan n fun c => { c with tickStamped := true }).tickStamp n inst slot
      else t
    u.modChan n fun c => { c with lastTick := some inst, pending := true, tickAt := inst, tickSlots := [slot] }

/-- The tick falls on every channel (R195). -/
def State.tickAll (s : State) (inst : Nat) (slot : Fin 16) : State := s.eachChan fun n t => t.tickChannel n inst slot

/-- TIME_TICK (R194, R238, R240 to R246): a grid instant of the slot's time task lies in this cycle. -/
def State.timeTick (s : State) (slot : Fin 16) : State :=
  match s.slotTask slot with
  | some (.time p true _) =>
    if s.tb.epochSet && s.slotActive slot && !s.cancelledNow slot then
      match s.gridInstant p with
      | some (_, inst) => (s.tickAll inst slot).issue slot
      | none => s
    else s
  | _ => s

/-- The follower angle reaches or passes a boundary of this spacing, in counts, forward in this cycle: seen from the angle
of the cycle before, by its own advance, by a quarter-line step or by a correction (R235, R236). -/
def State.crossedForward (s : State) (w : Nat) : Bool :=
  let a := s.folIn (s.cycle - 1)
  let d := angleErr (s.folIn s.cycle) a
  decide (0 < d) && decide (w ≤ a % w + d.toNat)

/-- The spacing of the angle ticks in counts (R235). -/
def State.tickWidth (s : State) (perTurn : Bool) : Nat := if perTurn then 65536 else 65536 / max 1 s.bins

/-- ANGLE_TICK (R235, R236, R240, R241): slot 0's angle task issues a tick at a forward crossing. -/
def State.angleTick (s : State) : State :=
  match s.slotTask 0 with
  | some (.angle perTurn true _) =>
    if s.tb.epochSet && s.angleActive && !s.cancelledNow 0 && s.crossedForward (s.tickWidth perTurn) then
      (s.tickAll s.cycleNow 0).issue 0
    else s
  | _ => s

/-! ### Presence (R168 to R174) -/

/-- The gap before an edge passes (R168, R169): at most 10 s, which on the start-up oscillator, before the PLL has
locked, are timed only to within ±10 %, so that a gap of 9 s to 11 s is left open then (log 55). -/
def State.gapShort (s : State) (gap : Nat) : Bool :=
  if s.tb.locked || s.tb.epochSet then decide (gap ≤ 10 * Config.sec)
  else decide (gap < 9 * Config.sec) || (decide (gap ≤ 11 * Config.sec) && Config.gapPasses s.clock)

/-- The edge that arrives now is stable (R168). -/
def State.stableEdge (s : State) (n : Chan) (narrow : Bool) (pos neg : Int) : Bool :=
  (match (s.chan.get n).lastEdge with | some e => s.gapShort (s.clock - e) | none => true) && !narrow &&
    decide (50000 ≤ pos - neg)

/-- A channel enters the absent state 2 (R173, R174, R177): the 10 s of R178 run. -/
def State.goAbsentUp (s : State) (n : Chan) : State :=
  s.modChan n fun c => { c with st := .absentUp, absentAt := s.clock, stable := 0, startJoin := false, settling := false }

/-- The channel step of start-up is over once no channel of it waits for its power-up or powers up; the calibration
step begins and requests the start-up run, of trigger 1, into which a run asked for since the epoch is merged (R179, R493, R583,
log 74). -/
def State.settleBoot (s : State) : State :=
  let busy := Chan.all.any fun n =>
    ((s.chan.get n).startJoin && (s.chan.get n).st == .qualified && decide (s.power.fails.getD n.val 0 < 3)) || s.holds (.startupPower n)
  if s.core.boot == .chans && !busy then
    { s with core := { s.core with boot := .calib }
             cal := { s.cal with stepAt := s.clock, pending := some .startup } }
  else s

/-- No channel is on its way to join any more: a pre-check passed for the next rejoin run is of no use to a later one (R486,
log 25). -/
def State.settleJoin (s : State) : State :=
  let any := Chan.all.any fun n => (s.chan.get n).st == .qualified || (s.chan.get n).st == .joining
  { s with cal := { s.cal with joinPassed := s.cal.joinPassed && any } }

/-- The channel returns to the absent state it came from with fault 0x16 (R173). -/
def State.withdrawJoin (s : State) (n : Chan) : State :=
  let t := s.modChan n fun c =>
    { c with st := if c.fromUp then .absentUp else .absentDown, stable := 0, startJoin := false,
             absentAt := if c.fromUp then s.clock else c.absentAt }
  let t := (t.dropRequest (.join n)).dropRequest (.startupPower n)
  (t.log 0x16 (BitVec.ofNat 8 n.val) 0 0).settleJoin.settleBoot

/-- What an edge does to presence: 64 stable edges qualify an absent channel, an edge that is not stable ends a wait or
marks a join (R169, R173, R174). -/
def State.presence (s : State) (n : Chan) (stable : Bool) : State :=
  let c := s.chan.get n
  match c.st with
  | .absentDown | .absentUp =>
    if !stable then s.modChan n fun c => { c with stable := 0 }
    else if c.stable + 1 < 64 then s.modChan n fun c => { c with stable := c.stable + 1 }
    else s.modChan n fun c => { c with stable := 64, st := .qualified, fromUp := c.st == .absentUp }
  | .qualified => if stable then s else s.withdrawJoin n
  | .joining => if stable then s else s.modChan n fun c => { c with stable := 0 }
  | .disabled | .present | .suspended => s

/-- The front parts of enabled channels are powered: from the strap latch to the end of the session (R149). -/
def State.frontOn (s : State) (n : Chan) : Bool := s.outOfReset && s.strap.latched && s.enabled n

/-- The pending flag is set and the edge is eligible: not before its tick, and outside the busy window (R197). -/
def State.eligible (s : State) (n : Chan) (full : Nat) : Bool :=
  let c := s.chan.get n
  c.st == .present && c.pending && decide (c.tickAt ≤ full) &&
    (match c.stampedAt with | some t => decide (t + fortyNs ≤ s.clock) | none => true)

/-- An edge that counts: counter, intervals, presence, stamp (R20, R168, R175, R190, R197). Instants and intervals are held
exactly where the detector resolves 3.2 ns, and edges beyond 1.5 GHz count like any other (log 55). -/
def State.countEdge (s : State) (n : Chan) (bin : Byte) (narrow : Bool) (pos neg : Int) : State :=
  let stable := s.stableEdge n narrow pos neg
  let t := s.modChan n fun c =>
    { c with
      count := c.count + 1, lastEdge := some s.clock, peakPos := pos, peakNeg := neg
      intervals := match c.lastEdge with
        | some e => remember 64 (s.clock - e) c.intervals
        | none => c.intervals }
  let u := t.presence n stable
  match u.workChan n with
  | some b =>
    let full := u.edgeTime n b bin
    if u.eligible n full then u.edgeStamp n full (u.captureAt n b) else u
  | none => u

/-- ACTIVE_EDGE (R20, R154, R155, R186): the pulse that ends at the edge may be too narrow to count, and one the
narrow-pulse detector flags while the channel is present logs fault 0x13. -/
def State.activeEdge (s : State) (n : Chan) (bin : Byte) (pulse : Nat) (pos neg : Int) : State :=
  if !s.frontOn n then s
  else
    let counts := if pulse < 300 then s.drawBit else (true, s)
    let flag := if pulse < 200 then (true, counts.2) else if pulse < 300 then counts.2.drawBit else (false, counts.2)
    let t := flag.2
    let u := if flag.1 && (t.chan.get n).st == .present then
        t.logLimited 0x13 n.val 1 (BitVec.ofNat 8 n.val) 0 else t
    if counts.1 then u.countEdge n bin flag.1 pos neg else u

/-! ### Entering and leaving state 5 (R207, R208) -/

/-- The channel leaves state 5: its pending flag is cleared without a tick stamp, and no sample spans what follows
(R166, R207, R253). -/
def State.stopStamping (s : State) (n : Chan) : State :=
  (s.modChan n fun c => { c with pending := false, tickSlots := [] }).cutSamples n

/-- The channel enters state 5 at an instant of full time (R208). -/
def State.enterPresent (s : State) (n : Chan) (inst : Nat) : State :=
  (s.modChan n fun c =>
    { c with st := .present, pending := false, tickStamped := false, tickSlots := [], presentAt := inst, startJoin := false,
             settling := false }).clearFault
      0x11 (BitVec.ofNat 8 n.val)

/-- A yarn starts at an instant of full time: yarn ID, marker, gate, mirror, state 5 (R181 to R184, R437). -/
def State.startYarn (s : State) (n : Chan) (inst : Nat) : State :=
  let count := s.countBy n (s.clockOf inst)
  let y := (s.chan.get n).yarn + 1
  let st := Stitch.yarnStart n (BitVec.ofNat 64 inst) (count.setWidth 40) y
  let t := s.modChan n fun c => { c with yarn := y, mirror := some st, mirrorNext := [] }
  let t := t.fwMarkerItem { st := st, session := s.tb.session, full := inst }
  (t.statYarnStart n inst count).enterPresent n inst

/-- The start of the next back-die cycle in full time: where what ends "in the cycle after" ends. -/
def State.nextCycle (s : State) : Nat := s.full + (s.cycleFrom (s.cycle + 1) - s.clock)

/-! ### Suspension (R337, R338, R503, R504) -/

/-- The channel's count and instant are captured as its suspension begins (R33, R498, R504). -/
def State.capture (s : State) (n : Chan) : State :=
  let inst := s.cycleNow
  let c := s.countBy n (s.clockOf inst)
  s.modChan n fun ch => { ch with susp := some (inst, c) }

/-- The two parts of a channel's calibration gap marker, the second at the instant the suspension ends (R337, R338). -/
def State.gapMarkers (s : State) (n : Chan) (rejoin : Bool) (inst1 : Nat) : State :=
  match (s.chan.get n).susp with
  | some (inst0, c0) =>
    let c1 := s.countBy n (s.clockOf inst1)
    let mk (inst : Nat) (c : BitVec 48) (part : Bool) : Item :=
      { st := .calGap n (BitVec.ofNat 64 inst) (c.setWidth 40) part rejoin, session := s.tb.session, full := inst }
    let t := s.modChan n fun ch => { ch with susp := none }
    (t.fwMarkerItem (mk inst0 c0 false)).fwMarkerItem (mk inst1 c1 true)
  | none => s

/-- The suspension of a rejoin run begins (R504). -/
def State.beginRejoin (s : State) (n : Chan) : State :=
  let none8 : Per8 Bool := .const false
  let r : Run :=
    { rejoin := some n, trigger := .join, startTime := BitVec.ofNat 64 s.cycleNow, startClock := s.clock,
      mask := none8.set n true, outMask := .const false, dieSum := 0, dieN := 0 }
  let t := s.capture n
  { t with cal := { t.cal with run := some r, joinPassed := false, joinWaits := none } }

/-- The rejoin run of a join begins, or waits until the PLL is locked (R486, R504). -/
def State.startRejoin (s : State) (n : Chan) : State :=
  if s.tb.locked then s.beginRejoin n else { s with cal := { s.cal with joinWaits := some n } }

/-- A rejoin run of this channel can begin: its join holds LEAVE and no run is in progress (R170, R504). -/
def State.rejoinDue (s : State) (n : Chan) : Bool :=
  s.fwRuns && s.holds (.join n) && (s.chan.get n).st == .joining && s.cal.run.isNone

end Sys2Proof.Machine
end

