-- ==== Sys2Proof/Machine/Advance.lean ====
section
/-! DEFINITION. The passing of time (log 3): captures at the end of their cycle, stitches that arrive, and what waited for the
start of the next back-die cycle. -/

namespace Sys2Proof.Machine
open Sys2Proof

/-- What waited for the start of this cycle takes effect (R243, R504, R505). -/
def State.landOne (s : State) : Late → State
  | .slot i t => s.landCommand i t
  | .event low => s.takeEvent low
  | .step q => s.takeStep q
  | .gap n rejoin => s.gapMarkers n rejoin s.cycleNow
  | .rejoin n =>
    let t := s.modChan n fun c => { c with settling := false }
    if t.rejoinDue n then t.startRejoin n else if t.fwRuns then t else t.releaseFor (.join n)

/-- Everything that waited for the start of this cycle, in order. -/
def State.landLate (s : State) : State :=
  s.sched.late.foldl State.landOne { s with sched := { s.sched with late := [] } }

/-- Time passes in which no command and nothing that waited takes effect: what the cycles passed capture is captured, the clock
moves, and what has arrived by then arrives (R204, R671). -/
def State.flow (dt : Nat) (s : State) : State :=
  let k := s.cycleAt (s.clock + dt)
  State.settleAll (State.pass dt (if s.cycle < k then s.takeCaptures k else s))

/-- The time up to the start of the next back-die cycle. -/
def State.toNext (s : State) : Nat := s.cycleFrom (s.cycle + 1) - s.clock

/-- `dt` quarter-picoseconds pass (log 3); what waits for the start of the next cycle takes effect there. -/
def advance (dt : Nat) (s : State) : State :=
  if s.sched.late.isEmpty || decide (dt < s.toNext) then s.flow dt
  else (s.flow s.toNext).landLate.flow (dt - s.toNext)

end Sys2Proof.Machine
end

