-- ==== Sys2Proof/Machine/Meanings.lean ====
section
/-! DEFINITION. The meanings of the commands whose effects stand in the files up to `Machine/Stamp.lean`: edges and ticks, merge,
markers and packer, follower and scheduler, statistics, leave. -/

namespace Sys2Proof.Machine
open Sys2Proof

/-! ### Edges and ticks (chapters 05 and 06) -/

def execTimeTick (dt : Nat) (slot : Fin 16) (s : State) : Out := .next ((advance dt s).timeTick slot)

def execAngleTick (dt : Nat) (s : State) : Out := .next (advance dt s).angleTick

def execActiveEdge (dt : Nat) (ch : Chan) (bin : Byte) (pulse : Pulse) (s : State) : Out :=
  .next ((advance dt s).activeEdge ch bin pulse.width pulse.pos pulse.neg)

/-! ### Merge, markers and packer (chapter 09) -/

def execMarkerEntry (dt : Nat) (flip : BitVec 7) (s : State) : Out := .next ((advance dt s).markerEntry flip)

def execFirmwareMarkerPlace (dt : Nat) (s : State) : Out := .next (advance dt s).placeFirmwareMarker

def execMergeMove (dt : Nat) (flip : BitVec 7) (s : State) : Out := .next ((advance dt s).mergeMove flip)

def execDropRunClose (dt : Nat) (ch : Chan) (s : State) : Out := .next ((advance dt s).closeRun ch)

def execQueueReset (dt : Nat) (s : State) : Out := .next (advance dt s).queueReset

def execPackerTakeItem (dt : Nat) (flip : BitVec 7) (s : State) : Out := .next ((advance dt s).takeItem flip)

def execCloseTimerExpiry (dt : Nat) (s : State) : Out := .next (advance dt s).closeTimer_expire

def execPackerTakeResult (dt : Nat) (s : State) : Out := .next (advance dt s).takeResult


/-! ### Follower and scheduler (chapter 07) -/

def execReferenceEvent (dt : Nat) (lowTime : Nat) (s : State) : Out := .next ((advance dt s).referenceEvent lowTime)

def execPhaseLoss (dt : Nat) (s : State) : Out := .next (advance dt s).phaseLoss

def execQuadratureStep (dt : Nat) (q : QuadStep) (s : State) : Out := .next ((advance dt s).quadratureStep q)

def execReferenceEventTimeout (dt : Nat) (s : State) : Out := .next (advance dt s).referenceTimeout

/-- PHASE_LOCK_TIMEOUT: not locked 10 s after the epoch or a phase loss raises fault 0x29. -/
def execPhaseLockTimeout (dt : Nat) (s : State) : Out :=
  let t := advance dt s
  .next (t.when (t.tb.epochSet && t.hasPhase && t.fol.st == 1 && decide (10 * Config.sec ≤ t.clock - t.fol.unlockedAt))
    fun t => t.raise 0x29 0xFF 0 0)

/-- REFERENCE_SPACING_FAULT: tachometer or sine events less than 200 µs apart for 1 s raise fault 0x2B. -/
def execReferenceSpacingFault (dt : Nat) (s : State) : Out :=
  let t := advance dt s
  .next (t.when (t.outOfReset && (t.phaseType == 2 || t.phaseType == 3)) fun t => t.raise 0x2B 0xFF 0 0)

/-- REFERENCE_SPACING_CLEAR: 1 s of events at least 200 µs apart clears fault 0x2B. -/
def execReferenceSpacingClear (dt : Nat) (s : State) : Out := .next ((advance dt s).clearFault 0x2B 0xFF)

/-- SINE_AMPLITUDE_FAULT: below 0.1 V peak for 1 s raises fault 0x2D, and crossings become bad events. -/
def execSineAmplitudeFault (dt : Nat) (s : State) : Out :=
  let t := advance dt s
  .next (t.when (t.outOfReset && t.phaseType == 3) fun t =>
    (t.modFol fun f => { f with weak := true }).raise 0x2D 0xFF 0 0)

/-- SINE_AMPLITUDE_CLEAR: 1 s at or above 0.1 V peak clears fault 0x2D. -/
def execSineAmplitudeClear (dt : Nat) (s : State) : Out :=
  .next (((advance dt s).modFol fun f => { f with weak := false }).clearFault 0x2D 0xFF)

def execTaskArm (dt : Nat) (slot : Fin 16) (t : Task) (s : State) : Out := .next ((advance dt s).armCommand slot t)

def execTaskChange (dt : Nat) (slot : Fin 16) (t : Task) (s : State) : Out := .next ((advance dt s).armCommand slot t)

def execTaskCancel (dt : Nat) (slot : Fin 16) (s : State) : Out := .next ((advance dt s).cancelSlot slot)

/-! ### Statistics (chapter 08) -/

def execSummaryBoundary (dt : Nat) (s : State) : Out := .next (advance dt s).summaryBoundary

def execSummaryComplete (dt : Nat) (s : State) : Out := .next (advance dt s).summaryComplete

/-! ### Leave (chapter 17) -/

/-- LEAVE_REQUEST (R572, R574): requests are firmware work but for the service engine's (R30, R627). -/
def execLeaveRequest (dt : Nat) (op : HeavyOp) (s : State) : Out :=
  let t := advance dt s
  .next (t.when ((t.fwRuns || op == .service) && t.outOfReset && t.wants op) fun t => t.requestLeave op)

/-- LEAVE_LINE_CHANGE (R571, R572). -/
def execLeaveLineChange (dt : Nat) (level : LineLevel) (s : State) : Out :=
  let r := (advance dt s).lineSeen level.width
  .next (r.2.when r.1 fun t => t.lineChange level.high)

def execLeaveWindowExpiry (dt : Nat) (s : State) : Out := .next (advance dt s).winLeave

def execLeaveHoldoffEnd (dt : Nat) (s : State) : Out := .next (advance dt s).holdoffEnd

def execLeaveRequestWithdrawal (dt : Nat) (s : State) : Out := .next (advance dt s).withdrawal

def execLeaveStarvation (dt : Nat) (s : State) : Out := .next (advance dt s).starve

/-- LEAVE_STUCK (R577): low for 100 ms without a break. -/
def execLeaveStuck (dt : Nat) (s : State) : Out :=
  let t := advance dt s
  .next (t.when (t.outOfReset && !t.leave.idle && decide (100 * Config.ms ≤ t.clock - t.leave.fellAt))
    fun t => t.raise 0x83 0xFF 0 0)

/-- LEAVE_STUCK_CLEAR (R577): the line has been idle for 10 µs. -/
def execLeaveStuckClear (dt : Nat) (s : State) : Out :=
  let t := advance dt s
  .next (t.when (t.leave.idle && decide (10 * Config.us ≤ t.clock - t.leave.roseAt)) fun t => t.clearFault 0x83 0xFF)

end Sys2Proof.Machine
end

