-- ==== Sys2Proof/Machine/Calib.lean ====
section
/-! DEFINITION. Self-calibration (chapter 15): element choice, correction tables, the working correction set, runs, and the
calibration report (R352), with the meanings of their commands. -/

namespace Sys2Proof.Machine
open Sys2Proof

/-! ### Element choice (R489 to R492) -/

/-- Insert by a key, behind equals. -/
def insertBy {α : Type} (key : α → Int) (a : α) : List α → List α
  | [] => [a]
  | b :: bs => if key a < key b then a :: b :: bs else b :: insertBy key a bs

/-- Sort ascending by a key; equals keep their order. -/
def sortBy {α : Type} (key : α → Int) (l : List α) : List α := l.foldl (fun acc a => insertBy key a acc) []

/-- A good delay cell: 1.5 ps to 5.0 ps, in 0.01 ps (R490). -/
def goodCell (w : Nat) : Bool := decide (150 ≤ w) && decide (w ≤ 500)

/-- Span of cells in 0.01 ps. -/
def spanOf (ws cells : List Nat) : Nat := cells.foldl (fun a i => a + pick ws i) 0

/-- The smallest by a key. -/
def leastBy (key : Nat → Int) (l : List Nat) : Option Nat := (sortBy key l).head?

/-- Replace the narrowest selected cell with the widest unselected good one until the chain spans 1600 qps, which is
40,000 × 0.01 ps (R490). -/
def growChain (ws : List Nat) : Nat → List Nat → List Nat → Option (List Nat)
  | 0, _, _ => none
  | n + 1, sel, pool =>
    if 40000 ≤ spanOf ws sel then some sel
    else
      match leastBy (fun i => -(pick ws i : Int)) pool, leastBy (fun i => (pick ws i : Int)) sel with
      | some c, some d => growChain ws n (c :: sel.erase d) (pool.erase c)
      | _, _ => none

/-- The good cells of a channel. -/
def goodCells (ws : List Nat) : List Nat := (List.range 144).filter fun i => goodCell (pick ws i)

/-- Elements in the order of the free rank, for a sort that keeps the order of equals (log 25). -/
def byRank (measured l : List Nat) : List Nat := sortBy (Config.tieRank measured) l

/-- The 128 cells of R490, or none where R491 applies; among equally near cells the choice is free (log 25). -/
def chooseCells (ws : List Nat) : Option (List Nat) :=
  let good := goodCells ws
  let sum : Int := spanOf ws good
  let near := sortBy (fun i => ((pick ws i : Int) * good.length - sum).natAbs) (byRank ws good)
  if good.length < 128 then none else growChain ws 145 (near.take 128) (near.drop 128)

/-- The 128 widest cells (R491). -/
def widestCells (ws : List Nat) : List Nat := (sortBy (fun i => -(pick ws i : Int)) (byRank ws (List.range 144))).take 128

/-- The active chain a run selects (R490, R491), ascending. -/
def activeChain (ws : List Nat) : List Nat := sortBy (fun i => (i : Int)) ((chooseCells ws).getD (widestCells ws))

/-- The correction table of R500, within 0 to 1599 (R190). -/
def correctionTable (h : List Nat) : List Nat :=
  let total := h.foldl (· + ·) 0
  (h.foldr (fun x (acc : Nat × List Nat) =>
    (acc.1 + x, min 1599 (roundNat (1600 * (2 * acc.1 + x)) (2 * total)) :: acc.2)) (0, [])).2

/-- The spare legs in use: of 15 legs and 4 spares, the 15 whose step lies nearest to nominal (R489). -/
def spareLegs (dev : List Nat) : BitVec 16 :=
  let used := (sortBy (fun i => (pick dev i : Int)) (byRank dev (List.range 19))).take 15
  BitVec.ofNat 16 (bitField ((used.filter fun i => decide (15 ≤ i)).map fun i => i - 15))

/-- A channel's block from what a run measured on it. -/
def measuredChan (m : ChanMeas) : ChanBlock :=
  { cells := activeChain m.widths, table := correctionTable m.hits, interTerm := m.interTerm, bias := m.bias,
    legs := spareLegs m.legDev, offsetTrim := m.offsetTrim }

/-- The 63 of 67 segments whose weight lies nearest to nominal, ascending (R489, R492). -/
def chooseSegs (dev : List Nat) : List Nat :=
  sortBy (fun i => (i : Int)) ((sortBy (fun i => (pick dev i : Int)) (byRank dev (List.range 67))).take 63)

def measuredOut (m : OutMeas) : OutBlock :=
  { segs := chooseSegs m.segDev, offsetTrim := m.offsetTrim, gainTrim := m.gainTrim }

/-- Segments outside 0.1 % of their nominal weight (R492). -/
def badSegs (dev : List Nat) : Nat := ((List.range 67).filter fun i => decide (1000 < pick dev i)).length

/-- Fault 0x63 of a channel after a run (R491, R516). -/
def State.judgeCells (s : State) (n : Chan) (m : ChanMeas) : State :=
  let key := BitVec.ofNat 8 n.val
  if (chooseCells m.widths).isNone then
    s.raiseFor 0x63 key 0xFF (BitVec.ofNat 32 n.val) (BitVec.ofNat 32 (goodCells m.widths).length)
  else s.clearFor 0x63 key 0xFF

/-- Fault 0x64 of an output after a run (R492, R516). -/
def State.judgeSegs (s : State) (o : OutNo) (m : OutMeas) : State :=
  let key := BitVec.ofNat 8 o.val
  if 4 < badSegs m.segDev then
    s.raiseFor 0x64 key 0xFF (BitVec.ofNat 32 o.val) (BitVec.ofNat 32 (badSegs m.segDev))
  else s.clearFor 0x64 key 0xFF

/-! ### The working correction set (R192, R512 to R514) -/

/-- The set whose temperature lies nearest at or below `t`; of equal temperatures the first listed. -/
def setBelow (t : Int) (l : List CalSet) : Option CalSet :=
  l.foldl (fun best d =>
    if t < d.temp then best
    else match best with
      | none => some d
      | some b => if b.temp < d.temp then some d else some b) none

/-- The set whose temperature lies nearest above `t`. -/
def setAbove (t : Int) (l : List CalSet) : Option CalSet :=
  l.foldl (fun best d =>
    if d.temp ≤ t then best
    else match best with
      | none => some d
      | some b => if d.temp < b.temp then some d else some b) none

/-- One quantity between two temperatures (R512). -/
def between (t ta tb a b : Int) : Int :=
  if tb = ta then a else roundRat ((a : Rat) + ((t - ta : Int) : Rat) / ((tb - ta : Int) : Rat) * ((b - a : Int) : Rat))

/-- The set below lies nearer to `t` than the set above; where both lie as near, which is taken is free (log 25). -/
def nearerBelow (t ta tb : Int) : Bool :=
  if t - ta = tb - t then Config.takesBelow t else decide (t - ta < tb - t)

/-- A channel's block between two drawers (R512, R513). -/
def blendChan (t ta tb : Int) (a b : ChanBlock) : ChanBlock :=
  let near := if nearerBelow t ta tb then a else b
  { cells := near.cells
    table := if a.cells = b.cells then
        (List.range 256).map fun j => (between t ta tb (pick a.table j) (pick b.table j)).toNat
      else near.table
    interTerm := between t ta tb a.interTerm b.interTerm
    bias := BitVec.ofInt 16 (between t ta tb a.bias.toNat b.bias.toNat)
    legs := near.legs
    offsetTrim := between t ta tb a.offsetTrim b.offsetTrim }

def blendOut (t ta tb : Int) (a b : OutBlock) : OutBlock :=
  { segs := (if nearerBelow t ta tb then a else b).segs
    offsetTrim := between t ta tb a.offsetTrim b.offsetTrim
    gainTrim := between t ta tb a.gainTrim b.gainTrim }

/-- A block interpolated over the sets that have it (R512, R534). -/
def interpolate {β : Type} (t : Int) (l : List CalSet) (f : CalSet → Option β) (blend : Int → Int → Int → β → β → β) :
    Option β :=
  let l := l.filter fun d => (f d).isSome
  match setBelow t l, setAbove t l with
  | some a, some b =>
    match f a, f b with
    | some x, some y => some (blend t a.temp b.temp x y)
    | _, _ => none
  | some a, none => f a
  | none, some b => f b
  | none, none => none

/-- The working correction set for a die temperature (R512, R513). -/
def workingSet (t : Int) (l : List CalSet) : CalSet :=
  let c (n : Chan) : Option ChanBlock := interpolate t l (fun d => d.chans.get n) blendChan
  let o (n : OutNo) : Option OutBlock := interpolate t l (fun d => d.outs.get n) blendOut
  { temp := t, chans := ⟨c 0, c 1, c 2, c 3, c 4, c 5, c 6, c 7⟩, outs := ⟨o 0, o 1⟩ }

/-- The sets a working set is built from: the session drawer first, then results that wait for their commit (log 26),
then the stored drawers (R512). -/
def State.calSets (s : State) : List CalSet :=
  s.cal.sessionDrawer.toList ++ (s.cal.results.filter fun r => !r.abandoned).map (·.set) ++ s.drawers.map (·.2)

/-- An update in the cycle of a rebuild uses the new trims (R466, chapter 14). -/
def Output.retrim (a : Output) (cycle : Nat) (b : Option OutBlock) : Output :=
  { a with trims := match a.wrote with
      | some w => if w.cycle = cycle ∧ a.st = .driven then b else a.trims
      | none => a.trims }

/-- A working set takes effect with a bank swap, at the next cycle boundary (R193). -/
def State.useSet (s : State) (w : CalSet) : State :=
  let t := s.eachOut fun o t => t.modOut o fun a => a.retrim s.cycle (w.outs.get o)
  { t with cal := { t.cal with work := some w, builtAt := s.sens.die, bank := !s.cal.bank, other := s.bankNow,
                               swapAt := s.cycle + 1 } }

/-- Rebuild the working correction set from the drawers (R512, R514). -/
def State.rebuild (s : State) : State :=
  if s.calSets.isEmpty then s else s.useSet (workingSet s.sens.die s.calSets)

/-- The working correction set blocks are carried from: the one in use, or before the first run the one the stored drawers make
(R509, R512, R514). -/
def State.workSet (s : State) : Option CalSet :=
  s.cal.work.orElse fun _ => if s.calSets.isEmpty then none else some (workingSet s.sens.die s.calSets)

/-- WORKING_SET_REBUILD (R192): the die temperature has moved by 0.1 °C, which is 12.8 / 128 °C. -/
def execWorkingSetRebuild (dt : Nat) (s : State) : Out :=
  let t := advance dt s
  .next (t.when (t.fwRuns && t.cal.work.isSome && decide (128 ≤ 10 * (t.sens.die - t.cal.builtAt).natAbs)) State.rebuild)

/-! ### The calibration report (R352) -/

/-- The bin widths in 0.01 ps, from the hits. -/
def binWidths (h : List Nat) : List Nat :=
  let total := h.foldl (· + ·) 0
  if total = 0 then h.map fun _ => 0 else h.map fun x => inUnits (x * 40000) total

/-- A channel block of the report; `prev` is the previous selection at the same drawer. -/
def reportChan (n : Chan) (m : Option ChanMeas) (prev : Option ChanBlock) : List Byte :=
  match m with
  | some m =>
    let b := measuredChan m
    let w := binWidths m.hits
    let good := goodCells m.widths
    le 2 (pathDelay n b.interTerm) ++ le 2 (inUnits (spanOf m.widths b.cells) 25) ++
      le 2 (w.foldl max 0) ++ le 2 (w.foldl min 65535) ++ le 2 (Config.peakInl m.hits) ++
      le 1 (good.filter fun i => !b.cells.contains i).length ++
      le 1 (match prev with | some p => (b.cells.filter fun i => !p.cells.contains i).length | none => 0) ++
      leInt 2 b.offsetTrim ++ le 2 0
  | none => le 16 0

def reportOut (m : Option OutMeas) (prev : Option OutBlock) : List Byte :=
  match m with
  | some m =>
    let b := measuredOut m
    le 1 (((List.range 67).filter fun i => !b.segs.contains i && decide (pick m.segDev i ≤ 1000)).length) ++
      le 1 (match prev with | some p => (b.segs.filter fun i => !p.segs.contains i).length | none => 0) ++
      leInt 2 b.offsetTrim ++ leInt 2 b.gainTrim ++ le 2 0
  | none => le 8 0

def Trigger.code : Trigger → Nat
  | .startup => 1
  | .calPin => 2
  | .temperature => 3
  | .join => 4

def maskByte (m : Per8 Bool) : Nat := Chan.all.foldl (fun a n => a + 2 ^ n.val * boolNat (m.get n)) 0

/-- The 176 bytes of the calibration report (R352). -/
def RunResult.report (r : RunResult) (outcome slot : Nat) (prev : Option CalSet) : List Byte :=
  le 8 r.startTime.toNat ++ le 8 r.endTime.toNat ++ le 1 (if r.rejoin.isSome then 2 else 1) ++ le 1 r.trigger.code ++
    le 1 outcome ++ le 1 slot ++ le 1 (maskByte r.mask) ++ [0] ++ leInt 2 r.temp ++ le 4 r.rref ++ le 4 0 ++
    (Chan.all.flatMap fun n => reportChan n (r.chans.get n) (prev.bind fun p => p.chans.get n)) ++
    (OutNo.all.flatMap fun o => reportOut (r.outs.get o) (prev.bind fun p => p.outs.get o))

/-- The report closes (R352, R502). -/
def State.closeReport (s : State) (r : RunResult) (outcome slot : Nat) (prev : Option CalSet) : State :=
  let b := r.report outcome slot prev
  State.control { s with cal := { s.cal with report := some b } } typeReport b false

/-! ### Requests and the pre-check (R486 to R488, R493 to R497) -/

/-- A full run is requested; one pending keeps its trigger (R496). -/
def State.requestRun (s : State) (t : Trigger) : State :=
  { s with cal := { s.cal with pending := some (s.cal.pending.getD t) } }

/-- CAL_REQUEST (R97, R493, R496, R587): kept by the hardware; one before the epoch is merged into the start-up run. -/
def execCalRequest (level : PinLevel) (s : State) : Out :=
  .next ((advance level.dt s).onPin .calN false level.width fun t =>
    t.when (t.outOfReset && t.tb.epochSet) fun t => t.requestRun .calPin)

/-- What a pre-check takes: 2.0 ms (R487). -/
def checkTime : Nat := 2 * Config.ms

/-- I_REF flows through RREF, 100 µA: during a run and in the 2.0 ms of a pre-check, and at no other time (R485, R487). -/
def State.irefMicroamps (s : State) : Nat :=
  let checks := match s.cal.checking with | some t => decide (s.clock - t < checkTime) | none => false
  if s.cal.run.isSome || checks then 100 else 0

/-- TEMPERATURE_TRIGGER_EVAL (R494, R495): not within 10 s of the end of the previous full run, nor while one is in
progress. A trigger that comes in a stall is kept (R30). -/
def State.temperatureEval (s : State) (mean : Int) : State :=
  match s.delta128, s.cal.lastTemp with
  | some d, some t =>
    if (s.fwRuns || s.stalled) && decide ((d : Int) < (mean - t).natAbs) &&
        (match s.cal.run with | some r => r.rejoin.isSome | none => true) &&
        (match s.cal.lastEnd with | some e => decide (10 * Config.sec ≤ s.clock - e) | none => true) then
      s.requestRun .temperature
    else s
  | _, _ => s

def execTemperatureTriggerEval (dt : Nat) (mean : Int) (s : State) : Out := .next ((advance dt s).temperatureEval mean)

/-- A channel waits to join, so that its rejoin run needs a pre-check of its own (R170, R486). -/
def State.joinAhead (s : State) : Bool :=
  !s.cal.joinPassed && (s.core.boot == .calib || s.core.boot == .ready) &&
    Chan.all.any fun n => (s.chan.get n).st == .qualified && !s.domainHeld n.val

/-- The report of a run waits to close (R496). -/
def State.reportWaits (s : State) : Bool :=
  !s.cal.results.isEmpty || s.pack.ctlQueue.any fun c => c.typ == typeReport && !c.intro

/-- The start-up timeline has come to the calibration step: no run begins before it (R583). -/
def State.runsAllowed (s : State) : Bool := s.core.boot == .calib || s.core.boot == .ready

/-- PRECHECK_START (R486 to R488, R496): for a pending run or a join, or every 1 s while the last one failed; a later run
waits until the reports of those before it have closed. -/
def State.precheckStart (s : State) : State :=
  let due := match s.cal.failedAt with | some t => decide (Config.sec ≤ s.clock - t) | none => true
  let wanted := if s.cal.pending.isSome then !s.cal.passed && !s.reportWaits else s.cal.failedAt.isSome || s.joinAhead
  if s.fwRuns && s.runsAllowed && wanted && s.cal.checking.isNone && due && s.cal.run.isNone then
    { s with cal := { s.cal with checking := some s.clock } }
  else s

def execPrecheckStart (dt : Nat) (s : State) : Out := .next (advance dt s).precheckStart

/-- PRECHECK_RESULT (R486 to R488), after the 2.0 ms of the check: a pass requests leave for the pending run, or lets a waiting
join ask for it, and clears fault 0x61; a failure raises it. -/
def State.precheckResult (s : State) (ohms : Nat) : State :=
  match s.cal.checking with
  | some t0 =>
    if s.clock - t0 < checkTime then s
    else if 9800 ≤ ohms ∧ ohms ≤ 10200 then
      let wanted := s.cal.pending.isSome
      let t := State.clearFault { s with cal := { s.cal with
        checking := none, failedAt := none, passed := wanted
        joinPassed := s.cal.joinPassed || (!wanted && s.joinAhead) } } 0x61 0xFF
      if wanted then t.requestLeave .fullRun else t
    else State.raise { s with cal := { s.cal with checking := none, failedAt := some t0 } } 0x61 0xFF (sat32 ohms) 0
  | none => s

def execPrecheckResult (dt : Nat) (ohms : Nat) (s : State) : Out :=
  let t := advance dt s
  .next (t.when t.fwRuns fun t => t.precheckResult ohms)

/-! ### Suspension (R337, R338, R498, R501) -/

/-- A channel in state 5 is suspended (R207, R263, R498). -/
def State.suspend (s : State) (n : Chan) : State :=
  if (s.chan.get n).st == .present then
    let t := (s.capture n).stopStamping n
    (t.modChan n fun c => { c with st := .suspended }).modStat n fun st =>
      { st with gate := st.gate.map fun g => { g with cal := true } }
  else s

/-- A channel of a full run leaves the suspension: to state 5 within its yarn, or to state 2 where it was lost
(R501, R506). -/
def State.resumeChan (s : State) (n : Chan) (inst : Nat) : State :=
  if (s.chan.get n).st == .suspended then
    if (s.chan.get n).loss.isSome then
      (s.goAbsentUp n).modChan n fun c => { c with missingAt := s.clock }
    else s.enterPresent n inst
  else s

/-- The suspension of a full run ends on every channel at an instant, in ascending order; then the gap markers form
(R501). -/
def State.endSuspension (s : State) (inst : Nat) : State :=
  let t := s.eachChan fun n t => t.resumeChan n inst
  t.eachChan fun n t => t.gapMarkers n false inst

/-- The calibration gap markers of a channel form at the start of the next cycle (R338, R505). -/
def State.lateGap (s : State) (n : Chan) (rejoin : Bool) : State :=
  if (s.chan.get n).susp.isSome then s.later (.gap n rejoin) else s

/-- The calibration step of start-up has ended: the AO domain is powered unless the unit stands by (R555, R559). -/
def State.endCalStep (s : State) : State :=
  { s with cal := { s.cal with startupDone := true }
           ao := { s.ao with up := s.ao.up || (s.aoWanted && !s.power.standby && !s.domainHeld 9) } }

/-- READY (R585). -/
def State.ready (s : State) : State := State.endCalStep { s with core := { s.core with boot := .ready } }

/-- The channels of the start-up step start yarn 1 (R179, R508). R174 speaks of the steps of R170, and R179 starts each of
them: an edge that was not stable does not end its join here (log 60). -/
def State.startYarns (s : State) (inst : Nat) : State :=
  s.eachChan fun n t => if (t.chan.get n).startJoin && (t.chan.get n).st == .joining then t.startYarn n inst else t

/-- A start-up run is abandoned, which ends the calibration step (R508, R585): with a stored drawer the yarns start; with none
fault 0x65 is held and the run is requested again. -/
def State.startupAbandoned (s : State) (inst : Nat) : State :=
  if s.drawers.isEmpty then
    let t := s.endCalStep
    State.raise { t with cal := { t.cal with pending := some (t.cal.pending.getD .startup) } } 0x65 0xFF 0 0
  else
    let t := (s.rebuild.startYarns inst).ready
    { t with cal := { t.cal with trims := true } }

/-- STARTUP_RUN_ABANDON (R507): no pass within 1 s of the calibration step. -/
def State.startupRunAbandon (s : State) : State :=
  if s.fwRuns && s.core.boot == .calib && !s.cal.startupDone && s.cal.run.isNone && !s.cal.passed &&
      decide (Config.sec ≤ s.clock - s.cal.stepAt) then
    State.startupAbandoned { s with cal := { s.cal with pending := none } } s.cycleNow
  else s

def execStartupRunAbandon (dt : Nat) (s : State) : Out := .next (advance dt s).startupRunAbandon

/-! ### The full run (R498 to R502) -/

/-- Channels a full run calibrates: those in state 5 or 6, and those of the start-up step (R179, R499). -/
def State.runMask (s : State) : Per8 Bool :=
  s.chan.map fun c => c.st == .present || c.st == .suspended || (c.startJoin && c.st == .joining)

/-- Outputs that are not driven (R499). -/
def State.runOuts (s : State) : Per2 Bool :=
  ⟨(s.ao.outs.get 0).st != .driven, (s.ao.outs.get 1).st != .driven⟩

/-- FULL_RUN_START (R486, R498): leave is won, the PLL is locked, and the suspension begins. -/
def State.fullRunStart (s : State) : State :=
  match s.cal.pending with
  | some trig =>
    if s.fwRuns && s.runsAllowed && s.holds .fullRun && s.tb.locked && s.cal.passed && s.cal.run.isNone then
      let r : Run :=
        { rejoin := none, trigger := trig, startTime := BitVec.ofNat 64 s.cycleNow, startClock := s.clock,
          mask := s.runMask, outMask := s.runOuts, dieSum := 0, dieN := 0 }
      let t := s.eachChan fun n t => t.suspend n
      { t with cal := { t.cal with run := some r, pending := none, passed := false } }
    else s
  | none => s

def execFullRunStart (dt : Nat) (s : State) : Out := .next (advance dt s).fullRunStart

/-- Values kept where a mask is set. -/
def maskChans {β : Type} (m : Per8 Bool) (f : Chan → β) : Per8 (Option β) :=
  let g (n : Chan) : Option β := if m.get n then some (f n) else none
  ⟨g 0, g 1, g 2, g 3, g 4, g 5, g 6, g 7⟩

def maskOuts {β : Type} (m : Per2 Bool) (f : OutNo → β) : Per2 (Option β) :=
  let g (n : OutNo) : Option β := if m.get n then some (f n) else none
  ⟨g 0, g 1⟩

/-- Blocks a run measured, with the others carried from the working correction set (R509, R510). -/
def carryOn (temp : Int) (chans : Per8 (Option ChanBlock)) (outs : Per2 (Option OutBlock)) (w : Option CalSet) : CalSet :=
  let c (n : Chan) : Option ChanBlock := (chans.get n).orElse fun _ => w.bind fun w => w.chans.get n
  let o (n : OutNo) : Option OutBlock := (outs.get n).orElse fun _ => w.bind fun w => w.outs.get n
  { temp := temp, chans := ⟨c 0, c 1, c 2, c 3, c 4, c 5, c 6, c 7⟩, outs := ⟨o 0, o 1⟩ }

/-- What a completed full run measured. -/
def State.fullResult (s : State) (r : Run) (m : FullMeas) : RunResult :=
  let chans := maskChans r.mask m.chans.get
  let outs := maskOuts r.outMask m.outs.get
  { rejoin := none, trigger := r.trigger, startTime := r.startTime, endTime := BitVec.ofNat 64 s.cycleNow,
    mask := r.mask, outMask := r.outMask, rref := m.rref, temp := m.temp
    set := carryOn m.temp (maskChans r.mask fun n => measuredChan (m.chans.get n))
      (maskOuts r.outMask fun o => measuredOut (m.outs.get o)) s.workSet
    chans := chans, outs := outs, session := s.tb.session, abandoned := false }

/-- FULL_RUN_END (R501): corrections, channels, LEAVE, markers, and at start-up the yarns and READY. -/
def State.fullRunEnd (s : State) (m : FullMeas) : State :=
  match s.cal.run with
  | some r =>
    if r.rejoin.isSome || !s.fwRuns then s
    else
      let res := s.fullResult r m
      let t := (s.eachChan fun n t => if r.mask.get n then t.judgeCells n (m.chans.get n) else t).eachOut fun o t =>
        if r.outMask.get o then t.judgeSegs o (m.outs.get o) else t
      let t := t.useSet res.set
      let t := { t with cal := { t.cal with
        run := none, results := t.cal.results ++ [res], lastTemp := some m.temp, lastEnd := some s.clock,
        lastEndTime := res.endTime, lastDie := m.temp, lastRref := m.rref, trims := true } }
      let t := ((t.endSuspension s.cycleNow).releaseFor .fullRun).clearFault 0x65 0xFF
      let t := (t.clearFault 0x57 0).clearFault 0x57 1
      let t := t.startYarns s.cycleNow
      if s.core.boot == .calib then t.ready else t
  | none => s

def execFullRunEnd (dt : Nat) (m : FullMeas) (s : State) : Out := .next ((advance dt s).fullRunEnd m)

/-! ### The rejoin run (R503, R504, R510) -/

/-- The PLL has locked: a rejoin run that waited for it begins (R486). -/
def State.resumeJoin (s : State) : State :=
  match s.cal.joinWaits with
  | some n =>
    if s.fwRuns && s.holds (.join n) && (s.chan.get n).st == .joining && s.cal.run.isNone then s.startRejoin n else s
  | none => s

/-- What a completed rejoin run measured; RREF is that of the last full run (R503, log 25). -/
def State.rejoinResult (s : State) (r : Run) (n : Chan) (m : ChanMeas) (temp : Int) : RunResult :=
  { rejoin := some n, trigger := r.trigger, startTime := r.startTime, endTime := BitVec.ofNat 64 s.cycleNow,
    mask := r.mask, outMask := r.outMask, rref := s.cal.lastRref, temp := temp
    set := carryOn temp (maskChans r.mask fun _ => measuredChan m) (.const none) s.workSet
    chans := maskChans r.mask fun _ => m, outs := .const none, session := s.tb.session, abandoned := false }

/-- REJOIN_RUN_END (R170, R174, R503, R504): LEAVE released, gap markers, then the new yarn, or state 2 with fault 0x16
where the channel stopped being stable. -/
def State.rejoinRunEnd (s : State) (n : Chan) (m : ChanMeas) (temp : Int) : State :=
  match s.cal.run with
  | some r =>
    if r.rejoin ≠ some n ∨ !s.fwRuns then s
    else
      let res := s.rejoinResult r n m temp
      let t := (s.judgeCells n m).useSet res.set
      let t := { t with cal := { t.cal with
        run := none, results := t.cal.results ++ [res], lastTemp := some temp, lastEndTime := res.endTime,
        lastDie := temp } }
      let t := (t.releaseFor (.join n)).gapMarkers n true s.cycleNow
      if 64 ≤ (s.chan.get n).stable then t.startYarn n s.cycleNow
      else (t.goAbsentUp n).log 0x16 (BitVec.ofNat 8 n.val) 0 0
  | none => s

def execRejoinRunEnd (dt : Nat) (ch : Chan) (m : ChanMeas) (temp : Int) (s : State) : Out :=
  .next ((advance dt s).rejoinRunEnd ch m temp)

/-! ### Abandonment (R505 to R508) -/

/-- The mean die temperature over the suspension of a run: that of the readings that fell in it, or the reading in force where
none did (R494, log 50). -/
def State.meanDie (s : State) (r : Run) : Int := if r.dieN = 0 then s.sens.die else roundDiv r.dieSum r.dieN

/-- What a run abandoned at an instant leaves to report: nothing calibrated; its RREF figure is a free value (log 4). -/
def State.abandonedResult (s : State) (r : Run) (rref inst : Nat) : RunResult :=
  let mean := s.meanDie r
  { rejoin := r.rejoin, trigger := r.trigger, startTime := r.startTime, endTime := BitVec.ofNat 64 inst,
    mask := .const false, outMask := .const false, rref := rref % 4294967296, temp := mean
    set := { temp := mean, chans := .const none, outs := .const none }
    chans := .const none, outs := .const none, session := s.tb.session, abandoned := true }

/-- The ends of the steps of a run at the latest, in µs from its start (R498, R503). -/
def stepEnds (rejoin : Bool) : List Nat :=
  if rejoin then [400, 3200, 3900, 4500] else [1, 5001, 8001, 30001, 33001, 37501, 42001]

/-- The step of the code-density test, and the time in µs its hits take at least: 1,048,576 or 131,072 of an oscillator of about
62 MHz, taken as 65 MHz at most (R498, R500, R503, log 50). -/
def densityStep (rejoin : Bool) : Nat × Nat := if rejoin then (2, 2016) else (4, 16131)

/-- The step a run had come to `d` qps after its start (R505, R516): each step lasts no longer than its maximum, so the steps of
which that many µs are over have ended, and no step behind the code-density test begins before its hits can have come; where
in between the run was is a free value (log 50). -/
def stepReached (rejoin : Bool) (d free : Nat) : Nat :=
  let ends := stepEnds rejoin
  let test := densityStep rejoin
  let least := min ends.length (1 + (ends.filter fun e => decide (e * Config.us < d)).length)
  let most := if d < test.2 * Config.us then test.1 else ends.length
  least + free % (most + 1 - least)

/-- A run in progress is abandoned because the PLL has unlocked (R505, R506, R508): the suspension ends in the cycle after,
corrections stay, fault 0x62 is logged with the step. -/
def State.abandonRun (s : State) : State :=
  match s.cal.run with
  | some r =>
    let inst := s.nextCycle
    let d1 := s.drawNat
    let d2 := d1.2.drawNat
    let step := BitVec.ofNat 32 (stepReached r.rejoin.isSome (s.clock - r.startClock) d2.1)
    let res := d2.2.abandonedResult r d1.1 inst
    let t := { d2.2 with cal := { d2.2.cal with
      run := none, results := d2.2.cal.results ++ [res], lastEndTime := res.endTime, lastDie := res.temp } }
    match r.rejoin with
    | some n => (((t.releaseFor (.join n)).goAbsentUp n).lateGap n true).log 0x62 0xFF 2 step
    | none =>
      let t := (t.eachChan fun n t => t.resumeChan n inst).eachChan fun n t => t.lateGap n false
      let t := (t.releaseFor .fullRun).log 0x62 0xFF 1 step
      if s.core.boot == .calib then t.startupAbandoned inst
      else if r.trigger = .temperature then t.requestRun .temperature
      else t
  | none => s

/-! ### Joins (R170 to R172, R179, R497) -/

/-- The domain of a joining channel powers up, and has then to settle (R170, R171). -/
def State.powerJoin (s : State) (n : Chan) : State := s.modChan n fun c => { c with up := true, settling := true }

/-- JOIN_START (R170, R180, R504): the channel holds LEAVE and is in state 4; with its domain up the rejoin run begins at once,
otherwise the domain powers up first. -/
def State.joinStart (s : State) (n : Chan) : State :=
  if s.rejoinDue n && !s.underWay (.join n) && !s.domainHeld n.val then
    if (s.chan.get n).up then s.startRejoin n else s.powerJoin n
  else s

def execJoinStart (dt : Nat) (ch : Chan) (s : State) : Out := .next ((advance dt s).joinStart ch)

/-- CHANNEL_STARTUP_JOIN (R179): the hold of a channel of the channel step begins; its domain powers up. -/
def State.startupJoin (s : State) (n : Chan) : State :=
  let c := s.chan.get n
  if s.fwRuns && s.core.boot == .chans && s.holds (.startupPower n) && c.st == .joining && c.startJoin &&
      !c.settling && !s.domainHeld n.val then s.powerJoin n
  else s

def execChannelStartupJoin (dt : Nat) (ch : Chan) (s : State) : Out := .next ((advance dt s).startupJoin ch)

/-- CHANNEL_DOMAIN_READY (R170, R171, R179, R504): the domain is powered and has settled. At start-up LEAVE is released; in a
join the suspension begins in the cycle after, but with the core halted or restarting LEAVE is released (chapter 18, *When
things meet*). -/
def State.domainReady (s : State) (n : Chan) : State :=
  let c := s.chan.get n
  let t := s.modChan n fun c => { c with settling := false }
  if !c.settling || s.sched.late.contains (.rejoin n) then s
  else if s.holds (.startupPower n) && c.st == .joining then (t.releaseFor (.startupPower n)).settleBoot
  else if s.rejoinDue n then s.later (.rejoin n)
  else if s.fwRuns then t
  else t.releaseFor (.join n)

def execChannelDomainReady (dt : Nat) (ch : Chan) (s : State) : Out := .next ((advance dt s).domainReady ch)

/-! ### Storing a result (R502, R509 to R511, R530) -/

/-- A calibration gap marker is still on its way to a closed raw skein: the report must follow it (R352). -/
def State.gapOnTheWay (s : State) : Bool :=
  let isGap (st : Stitch) : Bool := match st with | .calGap .. => true | _ => false
  s.chain.fwWait.any (fun i => isGap i.st) || s.chain.buffer.any (fun i => isGap i.st) ||
    s.chain.items.any (fun i => isGap i.st) ||
    (match s.pack.rawOpen with | some o => o.recs.any isGap | none => false)

/-- The nearest drawer to a temperature; of two as near the lower slot. -/
def nearestSlot (t : Int) (l : List (Nat × CalSet)) : Option (Nat × CalSet) :=
  l.foldl (fun best d =>
    match best with
    | none => some d
    | some b => if (d.2.temp - t).natAbs < (b.2.temp - t).natAbs then some d else some b) none

/-- The slot a run is stored in (R509): a drawer within ±0.5 °C, a free slot, or the nearest drawer. -/
def chooseSlot (t : Int) (l : List (Nat × CalSet)) : Nat :=
  match nearestSlot t (l.filter fun d => decide ((d.2.temp - t).natAbs ≤ 64)) with
  | some d => d.1
  | none =>
    match (List.range 24).find? fun i => !(l.any fun d => d.1 == i) with
    | some i => i
    | none => ((nearestSlot t l).map (·.1)).getD 0

/-- The blocks a result writes into its slot: its channel's alone where a rejoin run meets a stored slot, all otherwise
(R509, R510). -/
def RunResult.blocks (r : RunResult) (stored : Bool) : CalSet :=
  match r.rejoin with
  | some n =>
    if stored then
      { r.set with chans := (Per8.const (none : Option ChanBlock)).set n (r.set.chans.get n), outs := .const none }
    else r.set
  | none => r.set

/-- Flags of a record (R528). -/
def RunResult.flags (r : RunResult) (measured : Bool) : Nat := boolNat measured + 2 * boolNat r.rejoin.isSome

/-- The records of a commit, blocks ascending, the commit record last (R529, R530). -/
def RunResult.records (r : RunResult) (slot commit : Nat) (stored : Bool) : List (List Byte) :=
  let set := r.blocks stored
  let c := Chan.all.filterMap fun n => (set.chans.get n).map fun b => (n.val, r.mask.get n, ChanBlock.bytes b)
  let o := OutNo.all.filterMap fun n => (set.outs.get n).map fun b => (8 + n.val, r.outMask.get n, OutBlock.bytes b)
  let mask := (c.map (·.1) ++ o.map (·.1)).foldl (fun a i => a + 2 ^ i) 0
  let body := le 2 mask ++ le 1 (if r.rejoin.isSome then 2 else 1) ++ le 1 r.trigger.code ++ le 4 r.rref ++
    le 8 r.endTime.toNat ++ le 2 r.session.toNat ++ le 14 0
  (c.map fun p => recordBytes 1 slot p.1 (r.flags p.2.1) commit r.temp p.2.2) ++
    (o.map fun p => recordBytes 2 slot p.1 (r.flags p.2.1) commit r.temp p.2.2) ++
    [recordBytes 3 slot 0xFF (r.flags true) commit r.temp body]

/-- The result that is settled next, its slot and whether the slot is stored. -/
def State.nextCommit (s : State) : Option (RunResult × Nat × Option CalSet) :=
  match s.cal.results with
  | r :: _ =>
    let l := s.drawers
    let i := chooseSlot r.temp l
    some (r, i, (l.find? fun d => d.1 == i).map (·.2))
  | [] => none

/-- The lengths of the records the next commit writes. -/
def State.commitLengths (s : State) : List Nat :=
  match s.nextCommit with
  | some (r, i, d) => (r.records i 0 d.isSome).map (·.length)
  | none => []

/-- The result leaves the queue of those to be settled. -/
def State.dropResult (s : State) : State := { s with cal := { s.cal with results := s.cal.results.tail } }

/-- DRAWER_COMMIT (R502, R509 to R511, R530): the oldest result is settled and its report closes. An abandoned one is
reported; with the drawer area read-only it becomes the session drawer; otherwise, with leave won and room in the log,
it is committed, whole (log 13). -/
def State.drawerCommit (s : State) : State :=
  match s.nextCommit with
  | some (r, slot, prev) =>
    if !s.fwRuns || s.gapOnTheWay then s
    else if r.abandoned then s.dropResult.closeReport r 3 0xFF none
    else if s.readOnly then
      let t := { s with cal := { s.cal with sessionDrawer := some r.set } }
      t.dropResult.closeReport r (if s.sealed then 1 else 2) 0xFF s.cal.sessionDrawer
    else if s.holds .flashProgram && s.flash.op.isNone && !s.power.brace && !s.needsCompaction s.commitLengths &&
        !s.drawersErasing then
      let t := s.rowIncrement .commit
      let n := t.rowValue .commit % 4294967296
      let t := (t.appendRecs (r.records slot n prev.isSome)).releaseFor .flashProgram
      t.dropResult.closeReport r 0 slot prev
    else s
  | none => s

def execDrawerCommit (dt : Nat) (s : State) : Out := .next (advance dt s).drawerCommit

end Sys2Proof.Machine
end

