-- ==== Sys2Proof/Machine/Channels.lean ====
section
/-! DEFINITION. Loss, thresholds and peaks of the channels (chapter 05), with the meanings of their commands. -/

namespace Sys2Proof.Machine
open Sys2Proof

/-! ### Loss (R175 to R178) -/

/-- The loss timeout (R175): 4 × the longest of the last 64 intervals, from 10 µs to 10 s. -/
def Channel.lossTimeout (c : Channel) : Nat := max (10 * Config.us) (min (10 * Config.sec) (4 * c.intervals.foldl max 0))

/-- What the hardware does in the cycle of detection (R176, R436): stamping stops, the pending tick is cleared, instant
and count are kept for the firmware, and the yarn's gate ends. A channel in state 6 goes to state 2 when its run ends. -/
def State.loseChannel (s : State) (n : Chan) : State :=
  let c := s.chan.get n
  let inst := s.cycleNow
  let count := s.countBy n (s.clockOf inst)
  let r : LossRec := { time := BitVec.ofNat 64 inst, full := inst, count := count, session := s.tb.session }
  let t := (s.stopStamping n).statYarnEnd n inst count
  let t := t.modChan n fun c => { c with loss := some r, stable := 0 }
  if c.st = .present then (t.goAbsentUp n).modChan n fun c => { c with missingAt := s.clock } else t

/-- CHANNEL_LOSS (R175, R176). -/
def State.channelLoss (s : State) (n : Chan) (cause : LossCause) : State :=
  let c := s.chan.get n
  let due := match cause with
    | .timeout => (match c.lastEdge with | some e => decide (c.lossTimeout < s.clock - e) | none => false)
    | .swing => true
  if (c.st == .present || c.st == .suspended) && c.loss.isNone && due then s.loseChannel n else s

def execChannelLoss (dt : Nat) (ch : Chan) (cause : LossCause) (s : State) : Out :=
  .next ((advance dt s).channelLoss ch cause)

/-- A stitch of the channel is in the merge or the chain stitch (R178, R556). -/
def State.inPath (s : State) (n : Chan) : Bool :=
  !(s.chan.get n).flights.isEmpty || !(s.chan.get n).merge.isEmpty || s.chain.items.any fun i => i.st.isStamp && i.st.chan == n

/-- CHANNEL_DOMAIN_POWER_DOWN (R150, R178, R556): the domain of an absent or disabled channel, with nothing in the path. -/
def State.domainDown (s : State) (n : Chan) : State :=
  let c := s.chan.get n
  if c.up && (c.st == .absentDown || c.st == .disabled) && !s.inPath n then s.modChan n fun c => { c with up := false } else s

def execChannelDomainPowerDown (dt : Nat) (ch : Chan) (s : State) : Out := .next ((advance dt s).domainDown ch)

/-- CHANNEL_IDLE_TIMEOUT (R178): 10 s in state 2; the domain goes down once the path is empty of the channel. -/
def State.idleTimeout (s : State) (n : Chan) : State :=
  let c := s.chan.get n
  if c.st == .absentUp && decide (10 * Config.sec ≤ s.clock - c.absentAt) then
    (s.modChan n fun c => { c with st := .absentDown }).domainDown n
  else s

def execChannelIdleTimeout (dt : Nat) (ch : Chan) (s : State) : Out := .next ((advance dt s).idleTimeout ch)

/-! ### Faults of the inputs (R164, R186) -/

/-- PROBE_ABSENT_TIMEOUT (R164): a declared probe not present for 10 s. -/
def execProbeAbsentTimeout (dt : Nat) (ch : Chan) (s : State) : Out :=
  let t := advance dt s
  let c := t.chan.get ch
  .next (t.when (t.tb.epochSet && t.declared ch && c.st != .present && c.st != .suspended &&
      decide (10 * Config.sec ≤ t.clock - c.missingAt)) fun t => t.raise 0x11 (BitVec.ofNat 8 ch.val) 0 0)

/-- SWING_OVERLOAD (R186): above 2200 mV for 1 ms. -/
def execSwingOverload (dt : Nat) (ch : Chan) (s : State) : Out :=
  let t := advance dt s
  .next (t.when (t.frontOn ch) fun t => t.raise 0x14 (BitVec.ofNat 8 ch.val) 0 0)

/-- SWING_OVERLOAD_CLEAR (R186): below 2000 mV for 1 ms. -/
def execSwingOverloadClear (dt : Nat) (ch : Chan) (s : State) : Out :=
  .next ((advance dt s).clearFault 0x14 (BitVec.ofNat 8 ch.val))

/-! ### Threshold and peaks (R156 to R163) -/

/-- The threshold DAC code of a value given as `num / den` mV (chapter 05, *The threshold*). -/
def dacCode (num den : Int) : Int := clipInt (-2048) 2047 (roundDiv (num * 4096) (2500 * den))

/-- The DAC code moved toward a target by at most 16 steps (R158). -/
def dacStep (dac target : Int) : Int := dac + clipInt (-16) 16 (target - dac)

/-- AUTO_LEVEL_UPDATE (R158, R160, R161): the peaks as held now, in µV at the comparator. -/
def State.autoLevelUpdate (s : State) (n : Chan) (pos neg : Int) : State :=
  if s.frontOn n && s.autoLevel then
    let c := s.chan.get n
    let on := c.levelled || decide (50000 ≤ pos - neg)
    let sum := pos + neg
    let clips := on && decide (2500000 < sum.natAbs)
    let t := s.modChan n fun c =>
      { c with peakPos := pos, peakNeg := neg, levelled := on, clipped := clips,
               dac := if on then dacStep c.dac (dacCode (clipInt (-2500000) 2500000 sum) 2000) else c.dac }
    if clips && !c.clipped then t.log 0x15 (BitVec.ofNat 8 n.val) 0 0 else t
  else s

def execAutoLevelUpdate (dt : Nat) (ch : Chan) (pos neg : Int) (s : State) : Out :=
  .next ((advance dt s).autoLevelUpdate ch pos neg)

/-- A peak in µV at the comparator, in mV at the probe tip, 16 bits signed (R163). -/
def tipPeak (att : Nat) (v : Int) : Int := clipInt (-32768) 32767 (roundDiv (v * att) 1000)

/-- PEAK_REPORT (R163): the report of the grid instant of this cycle, referred to the probe tip; the grid of 1 ms is counted
from the strap latch. -/
def State.peakReport (s : State) (n : Chan) (pos neg : Int) : State :=
  if s.frontOn n && decide ((s.clock - s.strap.at_) % Config.ms < Config.cycle) then
    let a := s.attenuation n
    s.modChan n fun c => { c with peakPos := pos, peakNeg := neg, repPos := tipPeak a pos, repNeg := tipPeak a neg }
  else s

def execPeakReport (dt : Nat) (ch : Chan) (pos neg : Int) (s : State) : Out := .next ((advance dt s).peakReport ch pos neg)

end Sys2Proof.Machine
end

