-- ==== Sys2Proof/Machine/Report.lean ====
section
/-! DEFINITION. What the firmware reports: the phase report (R249), the cabinet count group (R377), the status body (R348),
the backlog descriptor (R351) and the snapshot words the firmware writes (R438, R449), with the meaning of LOSS_HANDLING. -/

namespace Sys2Proof.Machine
open Sys2Proof

/-- The phase report of R249, in the 16-byte layout of R348. -/
def State.phaseReport (s : State) : List Byte :=
  let f := s.fol
  le 1 f.st.toNat ++ [0] ++ le 2 s.angleNow.toNat ++ le 4 (min (inUnits f.lockedPeriod Config.ns) 0xFFFFFFFF) ++
    le 2 (if s.phaseType = 1 then f.lines.toNat else 0) ++ le 2 f.coasts.toNat ++ le 2 f.losses.toNat ++
    leInt 2 (if s.phaseType = 3 ∧ f.lockedPeriod ≠ 0 then f.asym else 0)

/-- Bytes of the skeins held (R377, R378). -/
def Store.heldBytes (st : Store) : Nat := st.held.foldl (fun a k => a + k.size) 0

/-- Bytes held ÷ 1024, rounded up (R377). -/
def Store.fill (st : Store) : Nat := (st.heldBytes + 1023) / 1024

/-- The shelf reserve is in use: less than its 64 KiB is free (R363, R377). -/
def State.reserveUsed (s : State) : Bool := decide (s.capacity .shelf < s.cab.shelf.bytes + 65536)

/-- Thinning is active: no partner is discovered (R366). -/
def State.thinning (s : State) : Bool := !s.partner

/-- The cabinet flags (R377). -/
def State.cabFlags (s : State) : Nat :=
  boolNat s.cab.raw.run.isSome + 2 * boolNat s.cab.shelf.run.isSome + 4 * boolNat s.reserveUsed +
    8 * boolNat s.thinning + 16 * boolNat s.cab.extRefresh

/-- The cabinet count group (R377, R438), 36 bytes. -/
def State.countGroup (s : State) : List Byte :=
  le 4 s.cab.raw.fill ++ le 4 s.cab.shelf.fill ++ le 4 s.cab.raw.held.length ++ le 4 s.cab.shelf.held.length ++
    le 4 s.cab.raw.dropped.toNat ++ le 4 s.cab.shelf.dropped.toNat ++ le 4 s.cab.thinned.toNat ++
    le 4 s.cab.corrected.toNat ++ le 2 s.cab.eccLost.toNat ++ le 2 s.cabFlags

/-- The longest of the last 16 erases, in 0.1 ms (R549). -/
def State.eraseTime (s : State) : Nat := min (s.flash.erases.foldl max 0) 0xFFFF

/-- The CTH reading as a field: 0x8000 with none (R348, R649). -/
def Sensors.cthField (n : Sensors) : Nat := match n.cth with | some t => (t % 65536).toNat | none => 0x8000

/-- A channel block of the status body (R348), with the event count at a clock value; zeros for a disabled channel. -/
def State.statusChan (s : State) (at_ : Nat) (n : Chan) : List Byte :=
  let c := s.chan.get n
  if s.enabled n then
    le 6 (s.countBy n at_).toNat ++ le 2 c.yarn.toNat ++ le 4 c.expired.toNat ++ leInt 2 c.repPos ++ leInt 2 c.repNeg ++
      leInt 2 c.dac ++ le 14 0
  else le 32 0

/-- The status body (R348) of a status time and its clock value, with the session start record where it opens a session. -/
def State.statusBody (s : State) (time : BitVec 64) (at_ : Nat) (startRecord : Bool) : List Byte :=
  le 8 time.toNat ++ le 4 (s.statusFlags startRecord) ++ le 4 s.chanStateWord ++ le 4 s.strap.driftMask ++
    le 4 s.chain.refusals.toNat ++ le 8 s.tb.ppsOffset.toNat ++ le 8 s.tb.holdEntry.toNat ++ le 8 s.tb.holdExit.toNat ++
    leInt 2 s.sens.die ++ le 2 s.sens.cthField ++ le 2 s.heldFaults ++ [s.faults.last, 0] ++ le 4 s.cab.raw.fill ++
    le 4 s.cab.shelf.fill ++ s.phaseReport ++ le 8 s.cal.lastEndTime.toNat ++ leInt 2 s.cal.lastDie ++
    le 2 s.eraseTime ++ le 1 (min s.spares 0xFF) ++ le 1 s.drawersStored ++ le 2 0 ++ Chan.all.flatMap (s.statusChan at_) ++
    (if startRecord then s.tb.start.bytes else [])

/-- Session and sequence number of a store's oldest skein, 0 where it is empty (R351). -/
def Store.oldest (st : Store) : List Byte :=
  match st.held with
  | k :: _ => le 2 k.session.toNat ++ le 2 0 ++ le 4 k.seq.toNat
  | [] => le 8 0

/-- The backlog descriptor (R351), 48 bytes. -/
def State.descriptor (s : State) : List Byte :=
  le 8 s.tb.time.toNat ++ s.cab.raw.oldest ++ le 4 s.cab.raw.held.length ++ le 4 s.cab.raw.heldBytes ++
    s.cab.shelf.oldest ++ le 4 s.cab.shelf.held.length ++ le 4 s.cab.shelf.heldBytes ++ le 1 (boolNat s.interleaved) ++
    le 1 (boolNat s.cab.raw.held.isEmpty + 2 * boolNat s.cab.shelf.held.isEmpty + 4 * boolNat (!s.port.cut.isEmpty)) ++ le 6 0

/-- The status words as the firmware would write them now (R438). -/
def State.fwNow (s : State) : FwWords :=
  { flags := BitVec.ofNat 32 (s.statusFlags false), chanState := BitVec.ofNat 32 s.chanStateWord,
    driftMask := BitVec.ofNat 32 s.strap.driftMask, heldFaults := BitVec.ofNat 16 s.heldFaults,
    lastFault := s.faults.last, die := BitVec.ofInt 16 s.sens.die, cth := BitVec.ofNat 16 s.sens.cthField,
    eraseTime := BitVec.ofNat 16 s.eraseTime, spares := BitVec.ofNat 8 (min s.spares 0xFF),
    drawers := BitVec.ofNat 8 s.drawersStored }

/-- The firmware rewrites its status words (R449): whenever it handles one of the commands that say so (log 27). -/
def State.writeFw (s : State) : State := if s.fwRuns then { s with snap := { s.snap with fw := s.fwNow } } else s

/-! ### Handling of a loss -/

/-- LOSS_HANDLING (R177, R182, R183): the yarn end marker and fault 0x12 carry the instant of detection. A channel lost in
a run is handled after the run's gap markers. The status words follow (R449, log 27). -/
def State.lossHandling (s : State) (n : Chan) : State :=
  let c := s.chan.get n
  match c.loss with
  | some r =>
    if s.fwRuns && c.st != .suspended then
      let m : Item := { st := .yarnEnd n r.time (r.count.setWidth 40) c.yarn, session := r.session, full := r.full }
      let t := (s.modChan n fun c => { c with loss := none }).fwMarkerItem m
      (t.logAt 0x12 r.time (BitVec.ofNat 8 n.val) 0 0).writeFw
    else s
  | none => s

def execLossHandling (dt : Nat) (ch : Chan) (s : State) : Out := .next ((advance dt s).lossHandling ch)

end Sys2Proof.Machine
end

