-- ==== Sys2Proof/Machine/Analog.lean ====
section
/-! DEFINITION. The analog outputs (chapter 14) and the temperature readings they and the cabinet use, with the meanings of
their commands. -/

namespace Sys2Proof.Machine
open Sys2Proof

/-! ### From source value to code (R458 to R463) -/

/-- Low end of a span in µV or nA (R458). -/
def spanLow (span : Nat) : Int := pickInt [0, 0, -5000000, -10000000, 0, 4000000, 0, 0] span

/-- High end of a span in µV or nA. -/
def spanHigh (span : Nat) : Int := pickInt [5000000, 10000000, 5000000, 10000000, 20000000, 20000000, 24000000, 0] span

/-- The pin level of a code in µV or nA (R458). -/
def State.level (s : State) (o : OutNo) (code : BitVec 18) : Rat :=
  let sp := s.aoSpan o
  spanLow sp + (spanHigh sp - spanLow sp : Int) * (code.toNat : Rat) / 262144

/-- The full-span scale S: a fraction for frequency-type sources, qps for interval and phase sources (R124). -/
def State.scale (s : State) (time : Bool) : Rat :=
  if time then (4000 : Rat) * (10 ^ s.aoScale : Nat) else (10 ^ s.aoScale : Nat) / (10000000 : Rat)

/-- An interval or phase source. -/
def Func.isTime : Func → Bool
  | .interval _ _ => true
  | .phase _ => true
  | _ => false

/-- The code that `2¹⁷ × (1 + d ÷ S)` or a temperature rounds to, and whether it was clipped (R460, R462). -/
def clipCode (v : Rat) : BitVec 18 × Bool :=
  let r := roundRat v
  let c := clipInt 0 262143 r
  (BitVec.ofInt 18 c, c != r)

/-- The quotient d ÷ S of a source value (R459); none where the centre is 0 and the deviation relative to it. -/
def State.deviation (s : State) (o : OutNo) (x : Rat) : Option Rat :=
  let c := (s.ao.outs.get o).centre.getD x
  match s.aoSource o with
  | .vector _ => some (x / s.scale false)
  | .primary n =>
    match s.func n with
    | .fractional _ => some (x / s.scale false)
    | .interval _ _ => some ((x - c) / s.scale true)
    | .phase _ => some ((x - c) / s.scale true)
    | _ => if c = 0 then none else some ((x - c) / c / s.scale false)
  | .dieTemp => none

/-- The code of a source value (R460, R462). A deviation relative to a centre of 0 is a value the manual does not state:
a free code (log 4). -/
def State.codeOf (s : State) (o : OutNo) (x : Rat) : (BitVec 18 × Bool) × State :=
  if s.aoSource o = .dieTemp then (clipCode ((x + 40) / 165 * 262144), s)
  else
    match s.deviation o x with
    | some q => (clipCode (131072 * (1 + q)), s)
    | none => let d := s.drawNat; ((BitVec.ofNat 18 d.1, false), d.2)

/-- The source values an update takes: those formed since the previous update in cycles before this one (R463). -/
def Output.taken (a : Output) (cycle : Nat) : List Rat := (a.values.filter fun v => decide (v.1 < cycle)).map (·.2)

/-- The most recent source value formed before the cycle of the update (R463). -/
def Output.latest (a : Output) (cycle : Nat) : Option Rat := (a.taken cycle).getLast?.orElse fun _ => a.last

/-- An update takes the values formed before its cycle (R463). -/
def Output.consume (a : Output) (cycle : Nat) : Output :=
  { a with last := a.latest cycle, values := a.values.filter fun v => !decide (v.1 < cycle) }

/-- The mean of values. -/
def meanOf (l : List Rat) : Option Rat := if l.isEmpty then none else some (l.foldl (· + ·) 0 / l.length)

/-- The value an update writes from (R463, R464): none writes the previous code again. Under "mean" the update that
connects the output takes the most recent value. -/
def State.updateValue (s : State) (o : OutNo) (connecting : Bool) : Option Rat :=
  let a := s.ao.outs.get o
  if s.aoMean o && !connecting then meanOf (a.taken s.cycle) else a.latest s.cycle

/-- A code is written, and the trims of the working correction set are taken into force (R463 to R466). A fault of this
cycle finds what was there before (R478). -/
def State.writeCode (s : State) (o : OutNo) (connecting : Bool) : State :=
  let c := match s.updateValue o connecting with
    | some x => s.codeOf o x
    | none => (((s.ao.outs.get o).code, (s.ao.outs.get o).saturated), s)
  c.2.modOut o fun a =>
    { a with
      code := c.1.1, saturated := c.1.2, codeAt := if a.code = c.1.1 then a.codeAt else s.clock
      wrote := some { cycle := s.cycle, code := a.code, saturated := a.saturated, codeAt := a.codeAt }
      trims := s.cal.work.bind fun w => w.outs.get o }

/-! ### Updates (R239, R247, R248, R469) -/

/-- The instant, as a clock value, of an output update of this slot that falls in this cycle. -/
def State.updateOf (s : State) (i : Fin 16) : Option Nat :=
  if !s.slotActive i || s.cancelledNow i then none
  else
    match s.slotTask i with
    | some (.time p _ true) => (s.gridInstant p).map fun k => s.clockOf k.2
    | some (.divider n) =>
      match s.slotTask 0 with
      | some (.time p _ _) =>
        match s.gridInstant p with
        | some (k, inst) => if n ≠ 0 ∧ k % n = 0 then some (s.clockOf inst) else none
        | none => none
      | _ => none
    | some (.angle perTurn _ true) =>
      let at_ := s.clockOf s.cycleNow
      if s.angleActive && s.crossedForward (s.tickWidth perTurn) &&
          (match s.sched.updatedAt with | some u => decide (u + 10 * Config.us ≤ at_) | none => true) then some at_
      else none
    | _ => none

/-- The slots in ascending order. -/
def allSlots : List (Fin 16) := [0, 1, 2, 3, 4, 5, 6, 7, 8, 9, 10, 11, 12, 13, 14, 15]

/-- The update that falls in this cycle and has not been made yet, with the slot that issues it. -/
def State.updateDue (s : State) : Option (Fin 16 × Nat) :=
  (allSlots.filterMap fun i => (s.updateOf i).map fun at_ => (i, at_)).find? fun u =>
    match s.sched.updatedAt with
    | some v => decide (v < u.2)
    | none => true

/-- What an update does to one output: a driven one takes its code, one ready to connect connects with it (R464, R469);
in brace it is skipped, without being queued, so that its values do not wait for a later one. -/
def State.updateOutput (s : State) (o : OutNo) : State :=
  let a := s.ao.outs.get o
  let t :=
    if s.power.brace then s
    else if a.st = .driven then s.writeCode o false
    else if a.st = .ready then
      (s.writeCode o true).modOut o fun a =>
        { a with st := .driven, connectedAt := s.clock, readAt := s.clock, mismatches := 0, codeAt := s.clock }
    else s
  t.modOut o fun a => a.consume s.cycle

/-- OUTPUT_UPDATE (R247, R248, R463 to R469). -/
def State.outputUpdate (s : State) : State :=
  match s.updateDue with
  | some (i, at_) =>
    if s.tb.epochSet then
      let t := (s.eachOut fun o t => t.updateOutput o).issue i
      { t with sched := { t.sched with updatedAt := some at_ } }
    else s
  | none => s

def execOutputUpdate (dt : Nat) (s : State) : Out := .next (advance dt s).outputUpdate

/-! ### Faults and retries (R475 to R480) -/

/-- The output's subject byte. -/
def outByte (o : OutNo) : Byte := BitVec.ofNat 8 o.val

/-- The fault codes 0x51 to 0x56. -/
def outFaults : List Byte := [0x51, 0x52, 0x53, 0x54, 0x55, 0x56]

/-- One of the faults of R478 is held for the output. -/
def State.outFaulty (s : State) (o : OutNo) : Bool := outFaults.any fun c => s.faultActive c (outByte o)

/-- The wait before the next retry (R479): a retry that fails doubles it, up to 64 s. -/
def State.nextWait (s : State) (o : OutNo) (connected : Bool) : Nat :=
  let a := s.ao.outs.get o
  if s.outFaulty o && (!connected || decide (s.clock - a.connectedAt < Config.sec)) then min 64 (2 * a.wait) else 1

/-- A fault of the cycle of an update wins: the update has written nothing (chapter 14, *An update and a fault in one
cycle*). -/
def Output.unwritten (a : Output) (cycle : Nat) : Output :=
  match a.wrote with
  | some w => if w.cycle = cycle then { a with code := w.code, saturated := w.saturated, codeAt := w.codeAt } else a
  | none => a

/-- A fault opens the pin switch, powers the stage down and puts the output in state 7 (R478). -/
def State.faultOutput (s : State) (o : OutNo) (code : Byte) (a b : BitVec 32) : State :=
  let w := s.nextWait o ((s.ao.outs.get o).st == .driven)
  let t := s.modOut o fun x =>
    { x.unwritten s.cycle with st := .faulted, faultAt := s.clock, wait := w, mismatches := 0 }
  (((t.dropRequest (.stagePower o)).releaseFor (.stagePower o)).raise code (outByte o) a b)

/-- The detectors of R475 and the read-back run: not in brace, nor in the 10 ms after its return (chapter 14, *Brace*). -/
def State.detectorsOn (s : State) : Bool :=
  !s.power.brace && (decide (s.power.returnAt = 0) || decide (10 * Config.ms ≤ s.clock - s.power.returnAt))

/-- OUTPUT_HEADROOM_FAULT (R475): sensed current in nA, pin voltage in mV. -/
def State.headroomFault (s : State) (o : OutNo) (sensed vpin : Nat) : State :=
  let a := (s.ao.outs.get o).unwritten s.cycle
  let cmd := s.level o a.code
  if a.st == .driven && s.aoCurrent o && s.detectorsOn && decide ((500000 : Rat) ≤ cmd) then
    s.faultOutput o (if (2 * sensed : Rat) < cmd then 0x52 else 0x53) (BitVec.ofInt 32 (roundRat cmd)) (sat32 vpin)
  else s

def execOutputHeadroomFault (dt : Nat) (o : OutNo) (sensed vpin : Nat) (s : State) : Out :=
  .next ((advance dt s).headroomFault o sensed vpin)

/-- OUTPUT_OVERCURRENT (R476). -/
def execOutputOvercurrent (dt : Nat) (o : OutNo) (s : State) : Out :=
  let t := advance dt s
  let a := (t.ao.outs.get o).unwritten t.cycle
  .next (t.when (a.st == .driven && !t.aoCurrent o) fun t => t.faultOutput o 0x54 (a.code.setWidth 32) 0)

/-- The rails, in mV, meet the requirement of the output's span (R454, R477). -/
def State.railsMeet (s : State) (o : OutNo) (vpos vneg : Int) : Bool :=
  let sp := s.aoSpan o
  decide (pickInt [7500, 12500, 7500, 12500, 0, 0, 0, 0] sp ≤ vpos) &&
    decide (vneg ≤ pickInt [0, 0, -7500, -12500, 0, 0, 0, 0] sp)

/-- OUTPUT_RAIL_FAULT (R477): while driven in voltage mode. -/
def execOutputRailFault (dt : Nat) (o : OutNo) (vpos vneg : Int) (s : State) : Out :=
  let t := advance dt s
  .next (t.when ((t.ao.outs.get o).st == .driven && !t.aoCurrent o && !t.railsMeet o vpos vneg) fun t =>
    t.faultOutput o 0x55 (BitVec.ofInt 32 vpos) (BitVec.ofInt 32 vneg))

/-- The stage is powered: a current stage from the moment leave is won for it (R469). -/
def State.stagePowered (s : State) (o : OutNo) : Bool :=
  match (s.ao.outs.get o).st with
  | .powering => true
  | .breaking => true
  | .ready => true
  | .driven => true
  | .leaving => s.holds (.stagePower o)
  | .idle => false
  | .faulted => false

/-- OUTPUT_OVERTEMPERATURE (R477): above 150 °C, in 1/128 °C. -/
def execOutputOvertemperature (dt : Nat) (o : OutNo) (temp : Int) (s : State) : Out :=
  let t := advance dt s
  .next (t.when (t.stagePowered o && decide (19200 < temp)) fun t =>
    t.faultOutput o 0x56 (BitVec.ofInt 32 temp) 0)

/-- READ_BACK (R473, R474): the measured level in µV or nA; a third valid mismatch in a row raises fault 0x51. -/
def State.readBack (s : State) (o : OutNo) (measured : Int) : State :=
  let a := s.ao.outs.get o
  let valid := decide (20 * Config.us ≤ s.clock - a.codeAt)
  if a.st == .driven && s.cal.run.isNone && s.detectorsOn && valid then
    let want := s.level o a.code
    let span : Rat := spanHigh (s.aoSpan o) - spanLow (s.aoSpan o)
    let off := decide (span / 200 < |(measured : Rat) - want|)
    let t := s.modOut o fun a => { a with readAt := s.clock, mismatches := if off then a.mismatches + 1 else 0 }
    if off && decide (3 ≤ a.mismatches + 1) then
      t.faultOutput o 0x51 (BitVec.ofInt 32 (roundRat want)) (BitVec.ofInt 32 measured)
    else t
  else s

def execReadBack (dt : Nat) (o : OutNo) (measured : Int) (s : State) : Out := .next ((advance dt s).readBack o measured)

/-! ### Establishment (R468, R469) -/

/-- The source has formed a valid value since the reset (R468). -/
def Output.sourced (a : Output) : Bool := a.last.isSome || !a.values.isEmpty

/-- Everything but the trims enables the output (R468). -/
def State.almostEnabled (s : State) (o : OutNo) : Bool :=
  !s.aoOff o && !s.aoUnavailable o && s.ao.up && !s.power.brace && !s.power.standby &&
    ((s.ao.outs.get o).sourced || s.aoSource o == .dieTemp)

/-- The first step of R469. -/
def State.establish (s : State) (o : OutNo) : State :=
  if s.aoCurrent o then (s.modOut o fun a => { a with st := .leaving }).requestLeave (.stagePower o)
  else s.modOut o fun a => { a with st := .powering }

/-- OUTPUT_ESTABLISH (R468, R469, R481): an enabled output begins; one that lacks only trims after an abandoned start-up
run with no drawer holds fault 0x57. -/
def State.outputEstablish (s : State) (o : OutNo) : State :=
  if s.fwRuns && (s.ao.outs.get o).st == .idle then
    if s.almostEnabled o && s.cal.trims then s.establish o
    else if s.almostEnabled o && !s.cal.trims && s.faultActive 0x65 0xFF then s.raise 0x57 (outByte o) 0 0
    else s
  else s

def execOutputEstablish (dt : Nat) (o : OutNo) (s : State) : Out := .next ((advance dt s).outputEstablish o)

/-- OUTPUT_STAGE_READY (R469, R470, R477): the stage is powered and its range set; the rails are checked in voltage mode,
LEAVE is released in current mode, and the 50 µs run. -/
def State.stageReady (s : State) (o : OutNo) (vpos vneg : Int) : State :=
  let a := s.ao.outs.get o
  let go (t : State) : State := t.modOut o fun x => { x with st := .breaking, breakUntil := s.clock + 50 * Config.us }
  if !s.fwRuns then s
  else if s.aoCurrent o then
    if a.st == .leaving && s.holds (.stagePower o) then go (s.releaseFor (.stagePower o)) else s
  else if a.st == .powering then
    if s.railsMeet o vpos vneg then go s
    else s.faultOutput o 0x55 (BitVec.ofInt 32 vpos) (BitVec.ofInt 32 vneg)
  else s

def execOutputStageReady (dt : Nat) (o : OutNo) (vpos vneg : Int) (s : State) : Out :=
  .next ((advance dt s).stageReady o vpos vneg)

/-- BREAK_BEFORE_MAKE_EXPIRY (R469). -/
def State.breakExpiry (s : State) (o : OutNo) : State :=
  let a := s.ao.outs.get o
  if a.st == .breaking && decide (a.breakUntil ≤ s.clock) then s.modOut o fun a => { a with st := .ready } else s

def execBreakBeforeMakeExpiry (dt : Nat) (o : OutNo) (s : State) : Out := .next ((advance dt s).breakExpiry o)

/-- OUTPUT_RETRY (R479): the wait is over; R469 runs from its first step, or waits until the output is enabled again. -/
def State.outputRetry (s : State) (o : OutNo) : State :=
  let a := s.ao.outs.get o
  if s.fwRuns && a.st == .faulted && decide (a.wait * Config.sec ≤ s.clock - a.faultAt) then
    (s.modOut o fun a => { a with st := .idle }).outputEstablish o
  else s

def execOutputRetry (dt : Nat) (o : OutNo) (s : State) : Out := .next ((advance dt s).outputRetry o)

/-- OUTPUT_FAULT_CLEAR (R480): driven for 1 s after a connection. -/
def State.outputFaultClear (s : State) (o : OutNo) : State :=
  let a := s.ao.outs.get o
  if a.st == .driven && decide (Config.sec ≤ s.clock - a.connectedAt) then
    let t := outFaults.foldl (fun t c => t.clearFault c (outByte o)) s
    t.modOut o fun a => { a with wait := 1 }
  else s

def execOutputFaultClear (dt : Nat) (o : OutNo) (s : State) : Out := .next ((advance dt s).outputFaultClear o)

/-- The pin switches open and the stages power down (R478, chapter 14, *AO domain power-down*); centres are kept. -/
def State.dropOutputs (s : State) : State :=
  s.eachOut fun o t =>
    let t := (t.dropRequest (.stagePower o)).releaseFor (.stagePower o)
    t.modOut o fun a => { a with st := if a.st == .faulted then .faulted else .idle, mismatches := 0 }

/-! ### Temperatures (R381, R462, R648, R649) -/

/-- DIE_TEMPERATURE_READ (R381, R462): the 1 ms reading in 1/128 °C; extended refresh begins above 95 °C and ends below
92 °C. The firmware's status words follow (log 27). -/
def State.dieRead (s : State) (t : Int) : State :=
  if s.outOfReset && s.strap.latched then
    let u := { s with
      sens := { s.sens with
        die := t, hotFrom := if 16000 < t then some (s.sens.hotFrom.getD s.clock) else none
        coolFrom := if t ≤ 15360 then some (s.sens.coolFrom.getD s.clock) else none }
      cab := { s.cab with extRefresh := if 12160 < t then true else if t < 11776 then false else s.cab.extRefresh }
      cal := { s.cal with run := s.cal.run.map fun (r : Run) => { r with dieSum := r.dieSum + t, dieN := r.dieN + 1 } } }
    (u.sourceFormed .dieTemp ((t : Rat) / 128) s.cycle).writeFw
  else s

def execDieTemperatureRead (dt : Nat) (temp : Int) (s : State) : Out := .next ((advance dt s).dieRead temp)

/-- CTH_READ (R128, R648, R649): none without a thermistor, or outside −55 °C to +150 °C. -/
def State.cthRead (s : State) (t : Int) : State :=
  if s.fwRuns && s.strap.latched then
    State.writeFw { s with sens := { s.sens with cth := if s.ntc && decide (-7040 ≤ t) && decide (t ≤ 19200) then some t else none } }
  else s

def execCthRead (dt : Nat) (temp : Int) (s : State) : Out := .next ((advance dt s).cthRead temp)

end Sys2Proof.Machine
end

