-- ==== Sys2Proof/Machine/Cabinet.lean ====
section
/-! DEFINITION. The cabinet controller (chapter 11): take-up, drops, thinning, refresh, scrub, store resets and flushes, with
the meanings of their commands. -/

namespace Sys2Proof.Machine
open Sys2Proof

/-! ### Stores and pointers (R360, R373, R387) -/

/-- The queue number of a store as a subject byte (R394). -/
def storeByte (st : StoreId) : Byte := BitVec.ofNat 8 (storeQueue st)

/-- The check of R387. -/
def Store.sound (st : Store) (cap : Nat) : Bool :=
  st.writeA == st.writeB && st.readA == st.readB &&
    (st.writeA.toNat + cap - st.readA.toNat % cap) % cap == st.bytes % cap

/-- A failed check is a pointer mismatch, whose store reset follows in the next cycle (R387, R388). -/
def State.checkStore (s : State) (st : StoreId) : State :=
  if (s.store st).sound (s.capacity st) || (s.store st).mismatch.isSome then s
  else s.modStore st fun q => { q with mismatch := some s.tb.time }

/-- A pointer moved on by a skein's bytes (R360). -/
def movePtr (p : BitVec 26) (n cap : Nat) : BitVec 26 := BitVec.ofNat 26 ((p.toNat + n) % cap)

/-- The read pointer passes bytes at the head. -/
def Store.pass (q : Store) (n cap : Nat) : Store :=
  { q with readA := movePtr q.readA n cap, readB := movePtr q.readB n cap, bytes := q.bytes - n }

/-- The read pointer passes every hole in front of the oldest skein held. -/
def Store.passHoles (q : Store) (cap : Nat) : Store :=
  let ahead (h : Nat × Nat) : Bool := match q.held with | k :: _ => decide (h.1 < k.closeNo) | [] => true
  let n := (q.holes.filter ahead).foldl (fun a h => a + h.2) 0
  { (q.pass n cap) with holes := q.holes.filter fun h => !ahead h }

/-- A skein leaves a store: freed or discarded (R373, R385). -/
def Store.remove (q : Store) (k : Skein) (cap : Nat) : Store :=
  match q.held with
  | h :: rest =>
    if h.closeNo = k.closeNo then ({ q with held := rest }.pass k.size cap).passHoles cap
    else { q with held := q.held.filter fun x => x.closeNo != k.closeNo, holes := q.holes ++ [(k.closeNo, k.size)] }
  | [] => q

/-- Bytes of a store held in front of a skein. -/
def Store.ahead (q : Store) (k : Skein) : Nat :=
  (q.held.takeWhile fun x => x.closeNo != k.closeNo).foldl (fun a x => a + x.size) 0

/-- Where in the bytes of the held skeins, the raw ring before the shelf, the next scrub burst continues (R384). -/
def State.scrubFrom (s : State) : Nat :=
  match s.cab.scrubIn with
  | .raw => s.cab.scrubPos
  | .shelf => s.cab.raw.heldBytes + s.cab.scrubPos

/-- Bytes from `off` on, in that order, leave a store: those the burst in progress was to read are no longer read, and those a
pass has read no longer count (R384). -/
def State.scrubWithout (s : State) (st : StoreId) (off size : Nat) (c : Cabinet) : Cabinet :=
  let base := match st with | .raw => 0 | .shelf => s.cab.raw.heldBytes
  let lo := base + off
  let gone := min (lo + size) (s.scrubFrom + s.cab.scrubLeft) - max lo s.scrubFrom
  { c with scrubLeft := c.scrubLeft - gone
           scrubPos := if c.scrubIn = st then c.scrubPos - min size (c.scrubPos - off) else c.scrubPos }

/-- A skein leaves its store, and a scrub pass (R384). -/
def State.takeOut (s : State) (st : StoreId) (k : Skein) : State :=
  let t := s.modStore st fun q => q.remove k (s.capacity st)
  { t with cab := s.scrubWithout st ((s.store st).ahead k) k.size t.cab }

/-- An upset of the second copy of a pointer (log 14). -/
def State.upsetRead (s : State) (st : StoreId) (flip : BitVec 26) : State :=
  s.modStore st fun q => { q with readB := q.readB ^^^ flip }

/-- An open skein drop run closes; its marker waits for the firmware (R368, R369). -/
def State.closeDropRun (s : State) (st : StoreId) : State :=
  match (s.store st).run with
  | some r =>
    let t := s.modStore st fun q => { q with run := none }
    { t with cab := { t.cab with runsClosed := t.cab.runsClosed ++ [(st, r)] } }
  | none => s

/-- A skein is dropped from a store (R364, R368). -/
def State.dropSkein (s : State) (st : StoreId) (k : Skein) : State :=
  s.modStore st fun q =>
    { q with
      dropped := q.dropped + 1
      run := some (match q.run with
        | some r => { r with n := r.n + 1 }
        | none => { time := s.tb.time, firstSeq := k.seq, n := 1 }) }

/-- A store accepts a skein (R360, R362, R363, R368). -/
def State.acceptSkein (s : State) (st : StoreId) (k : Skein) (flip : BitVec 26) : State :=
  let cap := s.capacity st
  let t := (s.closeDropRun st).modStore st fun q =>
    { q with held := q.held ++ [k], writeA := movePtr q.writeA k.size cap,
             writeB := movePtr (q.writeB ^^^ flip) k.size cap, bytes := q.bytes + k.size }
  t.checkStore st

/-! ### Take-up (R359 to R367, R379) -/

/-- The skein belongs to the introduction store (R359). -/
def Skein.toIntro (k : Skein) : Bool := k.intro

/-- The store of a skein (R359). -/
def Skein.home (k : Skein) : StoreId := if k.isRaw then .raw else .shelf

/-- A status skein that carries a session start record, or whose time is a whole multiple of 600 s (R366). -/
def Skein.keptStatus (k : Skein) : Bool :=
  match k.body with
  | .bytes b =>
    (leNat ((b.drop 8).take 4)).testBit 0 ||
      decide (fullOf k.era (BitVec.ofNat 64 (leNat (b.take 8))) % (600 * Config.sec) = 0)
  | _ => true

/-- The skein is thinned (R366). -/
def State.thins (s : State) (k : Skein) : Bool := k.typ == typeStatus && s.thinning && !k.keptStatus

/-- The free bytes a skein needs (R362, R363). -/
def Skein.room (k : Skein) : Nat := if k.typ = typeSummary ∨ k.typ = typeStatus then k.size + 65536 else k.size

/-- The controller takes one skein: it is accepted, thinned or dropped (R362 to R368). -/
def State.placeSkein (s : State) (k : Skein) (flip : BitVec 26) : State :=
  if k.toIntro then { s with cab := { s.cab with intro := s.cab.intro ++ [k] } }
  else if s.thins k then { s with cab := { s.cab with thinned := s.cab.thinned + 1 } }
  else if (s.store k.home).bytes + k.room ≤ s.capacity k.home then s.acceptSkein k.home k flip
  else s.dropSkein k.home k

/-- SKEIN_TAKE_UP (R379, R381): the next released skein, outside a refresh burst. -/
def State.takeUp (s : State) (flip : BitVec 26) : State :=
  match s.pack.released with
  | k :: rest =>
    if s.cab.burst || (!k.toIntro && (s.store k.home).mismatch.isSome) then s
    else State.placeSkein { s with pack := { s.pack with released := rest } } k flip
  | [] => s

def execSkeinTakeUp (dt : Nat) (flip : BitVec 26) (s : State) : Out := .next ((advance dt s).takeUp flip)

/-- The marker of the oldest closed run: a fault skein of code 0x34 or 0x35 (R369). -/
def State.takeRun (s : State) : State :=
  match s.cab.runsClosed with
  | (st, r) :: rest =>
    let code : Byte := match st with | .raw => 0x34 | .shelf => 0x35
    let t := State.occurs { s with cab := { s.cab with runsClosed := rest } } code
    let e : FaultEvent :=
      { code := code, raised := true, held := false, time := r.time, subject := storeByte st, detailA := r.firstSeq,
        detailB := sat32 r.n, occ := t.faults.count code }
    t.write typeFault e.bytes false
  | [] => s

/-- DROPPED_SKEIN_MARKER (R369): firmware work. -/
def State.droppedMarker (s : State) : State := if s.fwRuns then s.takeRun else s

def execDroppedSkeinMarker (dt : Nat) (s : State) : Out := .next (advance dt s).droppedMarker

/-! ### Refresh, ECC and scrub (R381 to R386) -/

/-- REFRESH_BURST (R381): in extended refresh, no more than one in any 32 ms. -/
def State.refreshBurst (s : State) : State :=
  if s.cab.extRefresh && !s.cab.burst &&
      (match s.cab.burstAt with | some t => decide (32 * Config.ms ≤ s.clock - t) | none => true) then
    { s with cab := { s.cab with burst := true, burstAt := some s.clock } }
  else s

def execRefreshBurst (dt : Nat) (s : State) : Out := .next (advance dt s).refreshBurst

/-- REFRESH_BURST_END (R381). -/
def execRefreshBurstEnd (dt : Nat) (s : State) : Out :=
  let t := advance dt s
  .next { t with cab := { t.cab with burst := false } }

/-- Words corrected on reads (R382, R394). -/
def State.correctWords (s : State) (n : Nat) : State :=
  if n = 0 then s
  else State.logLimited { s with cab := { s.cab with corrected := s.cab.corrected + BitVec.ofNat 32 n } } 0x37 0 n 0xFF 0

/-- A skein on the lanes is no longer held: it counts as sent, and is not repeated (R385). -/
def Tx.without (x : Tx) (st : StoreId) (k : Skein) : Tx :=
  if x.src = .store st ∧ x.skein.closeNo = k.closeNo then { x with gone := true } else x

/-- A skein with an uncorrectable word is discarded from its store with fault 0x36 (R385). -/
def State.discardBad (s : State) (st : StoreId) (k : Skein) : State :=
  if !(s.store st).held.any fun x => x.closeNo == k.closeNo then s
  else
    let t := s.takeOut st k
    let t := { t with
      cab := { t.cab with eccLost := satSucc t.cab.eccLost }
      port := { t.port with tx := t.port.tx.map fun (x : Tx) => x.without st k
                            cut := t.port.cut.filter fun c => c != (Src.store st, k.session, k.seq) } }
    (t.log 0x36 (storeByte st) k.seq (k.session.setWidth 32)).checkStore st

/-- The held skeins in the order of a scrub pass (R384). -/
def State.scrubOrder (s : State) : List (StoreId × Skein) :=
  s.cab.raw.held.map (fun k => (StoreId.raw, k)) ++ s.cab.shelf.held.map fun k => (StoreId.shelf, k)

/-- What a burst reads at most: 4 MiB (R384). -/
def scrubBytes : Nat := 4194304

/-- Bytes of the `i`-th held skein that the next burst reads. -/
def State.scrubReads (s : State) (i : Nat) : Nat :=
  let lo := ((s.scrubOrder.take i).map fun x => x.2.size).sum
  let hi := lo + ((s.scrubOrder[i]?).map fun x => x.2.size).getD 0
  min hi (s.scrubFrom + scrubBytes) - max lo s.scrubFrom

/-- SCRUB_REQUEST (R383). -/
def State.scrubRequest (s : State) : State := if s.fwRuns && s.wants .scrub then s.requestLeave .scrub else s

def execScrubRequest (dt : Nat) (s : State) : Out := .next (advance dt s).scrubRequest

/-- SCRUB_BURST (R382, R384 to R387): outside a refresh burst and brace, a burst begins; its reads correct words and may
find some uncorrectable in the held skeins of these places, which lie in what it reads. A pointer upset shows at the
first such discard. Each store read is checked. -/
def State.scrubBurst (s : State) (corrected : Nat) (bad : List Nat) (flip : BitVec 26) : State :=
  if s.fwRuns && s.holds .scrub && !s.cab.scrubbing && !s.cab.burst && !s.power.brace then
    let places := bad.eraseDups.filter fun i => decide (0 < s.scrubReads i)
    let hit := places.filterMap fun i => s.scrubOrder[i]?
    let reads (st : StoreId) : Bool :=
      (List.range s.scrubOrder.length).any fun i =>
        decide (0 < s.scrubReads i) && ((s.scrubOrder[i]?).map (·.1)) == some st
    let t := State.correctWords { s with cab := { s.cab with scrubbing := true, scrubLeft := scrubBytes } } corrected
    let t := match hit with | x :: _ => t.upsetRead x.1 flip | [] => t
    let t := hit.foldl (fun t x => t.discardBad x.1 x.2) t
    (t.when (reads .raw) fun t => t.checkStore .raw).when (reads .shelf) fun t => t.checkStore .shelf
  else s

def execScrubBurst (dt : Nat) (corrected : Nat) (bad : List Nat) (flip : BitVec 26) (s : State) : Out :=
  .next ((advance dt s).scrubBurst corrected bad flip)

/-- Bytes a scrub pass covers. -/
def State.scrubTotal (s : State) : Nat := s.cab.raw.heldBytes + s.cab.shelf.heldBytes

/-- The place a burst that has read `n` bytes stops at: the next pass begins when the shelf is done (R384). -/
def State.scrubTo (s : State) (n : Nat) : State :=
  let p := s.scrubFrom + n
  let raw := s.cab.raw.heldBytes
  let place : StoreId × Nat := if p < raw then (.raw, p) else if p < s.scrubTotal then (.shelf, p - raw) else (.raw, 0)
  { s with cab := { s.cab with scrubIn := place.1, scrubPos := place.2, scrubbing := false, scrubAt := s.clock } }

/-- SCRUB_BURST_END (R383, R384): up to 4 MiB have been read, LEAVE is released and the 64 s run. -/
def State.scrubEnd (s : State) : State :=
  if s.cab.scrubbing then (s.scrubTo s.cab.scrubLeft).releaseFor .scrub else s

def execScrubBurstEnd (dt : Nat) (s : State) : Out := .next (advance dt s).scrubEnd

/-- A burst stops at brace entry after the word being checked, somewhere in its 4 MiB (R386). -/
def State.scrubStop (s : State) : State :=
  if s.cab.scrubbing then
    let d := s.drawNat
    (d.2.scrubTo (d.1 % (s.cab.scrubLeft / 8 + 1) * 8)).releaseFor .scrub
  else s

/-! ### Store reset and flush (R388 to R393) -/

/-- A skein on the lanes is discarded with its store: the lanes stop taking it at once, at a column the manual does not
say, and it is not repeated (R388, log 4). -/
def State.dropTx (s : State) (st : StoreId) : State :=
  match s.port.tx with
  | some x =>
    if x.src = .store st then
      let d := s.drawNat
      { d.2 with port := { d.2.port with
          tx := none, freeAt := s.clock + 2 * s.columnTime, idleMin := 2, prompt := false
          disparity := (List.range 4).map fun i => d.1.testBit i } }
    else s
  | none => s

/-- STORE_RESET (R388, R389): the store is emptied, the fault logged, the queue reset marker placed. -/
def State.storeReset (s : State) (st : StoreId) : State :=
  match (s.store st).mismatch with
  | some time =>
    let n := (s.store st).held.length
    let m : Item := { st := .storeReset time (sat32 n) st, session := s.tb.session, full := s.full }
    let keep (c : Src × BitVec 16 × BitVec 32) : Bool := c.1 != Src.store st
    let t := ((s.dropTx st).closeDropRun st).modStore st fun q => { Store.reset with dropped := q.dropped }
    let t := { t with port := { t.port with cut := t.port.cut.filter keep, ended := t.port.ended.filter fun e => e.tx.src != Src.store st }
                      cab := s.scrubWithout st 0 (s.store st).heldBytes t.cab
                      chain := { t.chain with resets := t.chain.resets ++ [m] } }
    t.log (match st with | .raw => 0x32 | .shelf => 0x33) (storeByte st) (sat32 n) 0
  | none => s

def execStoreReset (dt : Nat) (st : StoreId) (s : State) : Out := .next ((advance dt s).storeReset st)

/-- FLUSH_REQUEST (R97, R390, R393, R587): a FLUSH_N edge after the epoch, with the low that follows it. -/
def execFlushRequest (level : PinLevel) (s : State) : Out :=
  .next ((advance level.dt s).onPin .flushN false level.width fun t =>
    t.when t.tb.epochSet fun t => { t with cab := { t.cab with flushing := true } })

/-- A store with nothing held, its pointers together (R391). -/
def Store.emptied (q : Store) : Store := { q with held := [], holes := [], readA := q.writeA, readB := q.writeB, bytes := 0 }

/-- FLUSH (R390 to R392): at the flush instant, with no transmission in progress, the backlog is discarded, and the
pointers of both stores are checked (R387). -/
def State.flush (s : State) : State :=
  if s.cab.flushing && s.port.tx.isNone then
    let raw := s.cab.raw.held.length
    let shelf := s.cab.shelf.held.length
    let t := (((s.checkStore .raw).checkStore .shelf).closeDropRun .raw).closeDropRun .shelf
    let left := (s.scrubWithout .raw 0 s.scrubTotal t.cab).scrubLeft
    let t := { t with
      cab := { t.cab with flushing := false, scrubIn := .raw, scrubPos := 0, scrubLeft := left, raw := t.cab.raw.emptied
                          shelf := t.cab.shelf.emptied }
      port := { t.port with cut := t.port.cut.filter (fun c => c.1 == Src.intro)
                            ended := t.port.ended.map fun (e : Ended) => { e with flushed := true } } }
    t.hwMarker (.flush s.tb.time (sat32 (raw + shelf)) (decide (0 < raw)) (decide (0 < shelf)))
  else s

def execFlush (dt : Nat) (s : State) : Out := .next (advance dt s).flush

end Sys2Proof.Machine
end

