-- ==== Sys2Proof/Machine/Lanes.lean ====
section
/-! DEFINITION. What the stream lanes carry (R396, R399 to R402): the 8b/10b code groups of a skein's columns, the idle
columns, the lane order on the balls, SL_CLK and PKT; and the Manchester levels of TETHER (R19, R606). The code tables are those of IEEE
802.3 Clause 36, which R17 and R399 name (log 53). -/

namespace Sys2Proof.Machine
open Sys2Proof

/-! ### 8b/10b (R399) -/

/-- Bits a to i of the data code groups at negative running disparity, a leftmost, by the byte's low five bits. -/
def sixTable : List (BitVec 6) :=
  [0b100111#6, 0b011101#6, 0b101101#6, 0b110001#6, 0b110101#6, 0b101001#6, 0b011001#6, 0b111000#6,
   0b111001#6, 0b100101#6, 0b010101#6, 0b110100#6, 0b001101#6, 0b101100#6, 0b011100#6, 0b010111#6] ++
  [0b011011#6, 0b100011#6, 0b010011#6, 0b110010#6, 0b001011#6, 0b101010#6, 0b011010#6, 0b111010#6,
   0b110011#6, 0b100110#6, 0b010110#6, 0b110110#6, 0b001110#6, 0b101110#6, 0b011110#6, 0b101011#6]

/-- Bits f to j of the data code groups at negative running disparity, f leftmost, by the byte's high three bits. -/
def fourTable : List (BitVec 4) :=
  [0b1011#4, 0b1001#4, 0b0101#4, 0b1100#4, 0b1101#4, 0b1010#4, 0b0110#4, 0b1110#4]

/-- Ones among the lowest `n` bits. -/
def onesIn (n v : Nat) : Nat := ((List.range n).filter fun i => v.testBit i).length

/-- Bits a to i for the low five bits of a byte, and the running disparity after them; positive is `true`. -/
def sixOf (rd : Bool) (x : Nat) : BitVec 6 × Bool :=
  let c := (sixTable[x]?).getD 0
  let uneven := onesIn 6 c.toNat != 3
  (if rd && (uneven || x == 7) then ~~~c else c, rd != uneven)

/-- The alternate form of bits f to j for a high part of 7. -/
def alternate (rd : Bool) (x : Nat) : Bool :=
  if rd then x == 11 || x == 13 || x == 14 else x == 17 || x == 18 || x == 20

/-- Bits f to j for the high three bits `y` of a byte whose low five bits are `x`, and the running disparity after them. -/
def fourOf (rd : Bool) (x y : Nat) : BitVec 4 × Bool :=
  let c := if y = 7 ∧ alternate rd x = true then 0b0111#4 else (fourTable[y]?).getD 0
  let uneven := onesIn 4 c.toNat != 2
  (if rd && (uneven || y == 3) then ~~~c else c, rd != uneven)

/-- The data code group of a byte, bit a leftmost, which is sent first, and the running disparity after it. -/
def codeGroup (rd : Bool) (b : Byte) : BitVec 10 × Bool :=
  let six := sixOf rd (b.toNat % 32)
  let four := fourOf six.2 (b.toNat % 32) (b.toNat / 32)
  (six.1 ++ four.1, four.2)

/-- K28.5, the one special code group sent (R400); it turns the running disparity. -/
def idleGroup (rd : Bool) : BitVec 10 := if rd then 0b1100000101#10 else 0b0011111010#10

/-- The code groups of a lane's bytes, and the running disparity after them. -/
def codeGroups (rd : Bool) : List Byte → List (BitVec 10) × Bool
  | [] => ([], rd)
  | b :: bs =>
    let g := codeGroup rd b
    let r := codeGroups g.2 bs
    (g.1 :: r.1, r.2)

/-! ### Columns (R400 to R403) -/

/-- The bytes of a skein that logical lane `i` of `l` carries (R401). -/
def laneBytes (l i : Nat) (bs : List Byte) : List Byte := (bs.zipIdx.filter fun p => p.2 % l == i).map (·.1)

/-- The lanes after `n` columns of K28.5 (R402). -/
def idled (n : Nat) (ds : List Bool) : List Bool := ds.map fun d => d != (n % 2 == 1)

/-- The lanes after the columns of a skein's bytes (R399, R401). -/
def State.carried (s : State) (bs : List Byte) (ds : List Bool) : List Bool :=
  ds.zipIdx.map fun d => (codeGroups d.1 (laneBytes s.lanes d.2 bs)).2

/-- The logical lane that the ball SL_D`j` carries, none where it is not selected (R125, R395). -/
def State.laneOfBall (s : State) (j : Nat) : Option Nat :=
  if s.lanes ≤ j then none else some (if s.laneReversed then s.lanes - 1 - j else j)

/-- What the ball SL_D`j` carries: nothing with the domain down or the lane not selected (R395, R396), the code groups of
the skein being sent, or one of the K28.5 between skeins (R402). -/
def State.ballGroups (s : State) (j : Nat) : List (BitVec 10) :=
  match s.port.up, s.laneOfBall j with
  | true, some i =>
    let rd := s.port.disparity.getD i false
    match s.port.tx with
    | some x => (codeGroups rd (laneBytes s.lanes i (x.skein.wire x.again))).1
    | none => [idleGroup rd]
  | _, _ => []

/-- What a ball other than the lanes carries. -/
inductive Ball where
  | hiz
  | low
  | high
  /-- a running clock -/
  | running
deriving DecidableEq, Repr

/-- SL_CLK: high impedance with the stream domain down, and running with it up (R396, R412). -/
def State.slClk (s : State) : Ball := if s.port.up then .running else .hiz

/-- PKT: driven from reset release on, low but for its pulses, and low with the stream domain down (R396, R423). -/
def State.pktBall (s : State) : Ball :=
  if !s.outOfReset then .hiz
  else if s.port.up && decide (s.port.pktFrom ≤ s.clock) && decide (s.clock < s.port.pktTo) then .high
  else .low

/-! ### TETHER's line code (R19, R606) -/

/-- The two levels of a bit cell, high being the released level: a 1 rises in the middle, a 0 falls. -/
def cellLevels (b : Bool) : List Bool := [!b, b]

/-- The levels of a frame on TETHER, two for each bit cell: byte 0 first, bit 0 of each byte first. -/
def frameLevels (bs : List Byte) : List Bool :=
  bs.flatMap fun b => (List.range 8).flatMap fun i => cellLevels (b.toNat.testBit i)

/-- The bit of a cell: 1 where the level rises in its middle, 0 where it falls, none where it does neither (R19). -/
def cellBit : Bool × Bool → Option Bool
  | (false, true) => some true
  | (true, false) => some false
  | _ => none

/-- The bits of the cells of a frame; none at a Manchester violation. -/
def cellBits : List Bool → Option (List Bool)
  | a :: b :: l => (cellBit (a, b)).bind fun x => (cellBits l).map (x :: ·)
  | [] => some []
  | [_] => none

/-- The bytes whose bits these are, bit 0 of each first (R606). -/
def bytesOfBits : List Bool → List Byte
  | a :: b :: c :: d :: e :: f :: g :: h :: l =>
    let n (x : Bool) (k : Nat) : Nat := if x then k else 0
    BitVec.ofNat 8 (n a 1 + n b 2 + n c 4 + n d 8 + n e 16 + n f 32 + n g 64 + n h 128) :: bytesOfBits l
  | _ => []

/-- The bytes of the levels of a frame; none at a Manchester violation. -/
def bytesOfLevels (l : List Bool) : Option (List Byte) := (cellBits l).map bytesOfBits

end Sys2Proof.Machine
end

