-- ==== Sys2Proof/Machine/Stream.lean ====
section
/-! DEFINITION. The stream port (chapter 12): discovery, introduction, drain, cut-off and loss, with the meanings of its
commands. -/

namespace Sys2Proof.Machine
open Sys2Proof

def State.modPort (s : State) (f : Stream → Stream) : State := { s with port := f s.port }

/-! ### Cut-off (R420 to R422) -/

/-- The skein in flight is cut off: it stays held, is repeated first, and the repeat marker and fault 0x42 say so. A
transmission is cut off once; one whose skein is no longer held counts as sent (R385). -/
def State.cutOff (s : State) (partly : Bool) : State :=
  match s.port.tx with
  | some x =>
    if x.lowSeen || x.gone then s
    else
      let k := x.skein
      let other (c : Src × BitVec 16 × BitVec 32) : Bool := (c.1 == Src.intro) != (x.src == Src.intro)
      let t := s.modPort fun p =>
        { p with tx := some { x with lowSeen := true }
                 cut := p.cut.filter other ++ [(x.src, k.session, k.seq)] }
      let t := t.hwMarker (.again s.tb.time k.seq k.session)
      t.log 0x42 0xFF k.seq (BitVec.ofNat 32 (k.session.toNat + 65536 * boolNat partly))
  | none => s

/-- The stream domain powers down: a skein in flight is cut off and partial (R420, R424). -/
def State.streamDown (s : State) (st : Port) : State :=
  (s.cutOff true).modPort fun p =>
    { p with st := st, up := false, tx := none, aligned := false, introClosed := false, introOwed := false
             prompt := false, ended := none }

/-- Entry to standby (R411). -/
def State.streamStandby (s : State) : State := if s.port.st == .off then s else s.streamDown .standby

/-- The end of standby (R411): a HOSTRDY that is high then counts as a discovery's. -/
def State.streamResume (s : State) : State :=
  if s.port.st == .standby then s.modPort fun p => { p with st := .down, shorted := false } else s

/-! ### HOSTRDY (R407, R409, R410) -/

/-- HOSTRDY_HIGH: the port returns from PAUSED to the state it was paused from; a return to DRAIN is an entry into it. HOSTRDY
that counts as high already changes nothing: a low in between was too short (R407). -/
def State.hostHigh (s : State) : State :=
  let t := s.modPort fun p => { p with host := true, shorted := false }
  if s.port.host then s
  else if t.port.st == .paused then
    (t.modPort fun p => { p with st := p.pausedFrom, last := if p.pausedFrom == .drain then none else p.last }).settlePort
  else t

def execHostrdyHigh (level : PinLevel) (s : State) : Out :=
  .next ((advance level.dt s).onPin .hostrdy true level.width fun t => t.when t.outOfReset fun t => t.hostHigh)

/-- The transmission that ended in this cycle, which a HOSTRDY low of the cycle cuts off (chapter 12, *HOSTRDY low and the last
column in one cycle*). -/
def State.endedInCycle (s : State) : Option Ended :=
  match s.port.ended with
  | some e => if e.cycle = s.cycle && s.port.tx.isNone then some e else none
  | none => none

/-- A flush has discarded the skein of this transmission with its store. -/
def Ended.discarded (e : Ended) : Bool := e.flushed && e.tx.src != Src.intro

/-- One skein more in a flush marker (R391, R392). -/
def Stitch.flushMore (st : StoreId) : Stitch → Stitch
  | .flush t n raw shelf => .flush t (n + 1) (raw || st == .raw) (shelf || st == .shelf)
  | x => x

/-- The flush of this cycle has discarded one skein more: the one that has turned out to be cut off (R391). -/
def State.flushMore (s : State) (src : Src) : State :=
  match src with
  | .store st =>
    let f (i : Item) : Item := if s.cycleNow ≤ i.full then { i with st := i.st.flushMore st } else i
    { s with chain := { s.chain with
        buffer := s.chain.buffer.map f, hwWait := s.chain.hwWait.map f, items := s.chain.items.map f } }
  | .intro => s

/-- A skein that ended in this cycle is held again, at the head of its store, and counts as in transmission: nothing of
its completion has come about; a flush since has then discarded it with the others. -/
def State.reopen (s : State) : State :=
  match s.endedInCycle with
  | some e =>
      let t := s.modPort fun p =>
        { p with tx := some e.tx, st := e.st, pkt := p.pkt - 1, pktFrom := 0, pktTo := 0, ended := none }
      if e.tx.gone then t
      else if e.discarded then t.flushMore e.tx.src
      else
        match e.tx.src with
        | .intro => { t with cab := { t.cab with intro := e.tx.skein :: t.cab.intro } }
        | .store st =>
          let u := t.modStore st fun q =>
            { q with held := e.tx.skein :: q.held, readA := e.readA, readB := e.readB, holes := e.holes
                     bytes := q.bytes + e.freed }
          { u with cab := { u.cab with scrubPos := if u.cab.scrubIn = st then e.scrubPos else u.cab.scrubPos
                                       scrubLeft := e.scrubLeft } }
  | none => s

/-- HOSTRDY_LOW: every powered-up state moves to PAUSED, and a skein in flight is cut off but sent whole; one whose last
column has left in this cycle is cut off too. HOSTRDY that counts as low already changes nothing: a high in between was too
short (R407). -/
def State.hostLow (s : State) : State :=
  let ending := s.port.tx.isNone
  let gone := match s.endedInCycle with | some e => e.discarded | none => false
  let t := s.reopen.modPort fun p => { p with host := false, lowAt := s.clock, prompt := false }
  if !s.port.host then s
  else if t.port.st == .align || t.port.st == .introducing || t.port.st == .drain then
    (t.cutOff false).modPort fun p =>
      { p with st := .paused, pausedFrom := p.st, tx := if ending then none else p.tx
               cut := if gone then p.cut.filter fun c => c.1 == Src.intro else p.cut }
  else t

def execHostrdyLow (level : PinLevel) (s : State) : Out :=
  .next ((advance level.dt s).onPin .hostrdy false level.width fun t => t.when t.outOfReset fun t => t.hostLow)

/-! ### Discovery and introduction (R402, R408, R414 to R416) -/

/-- A domain powers up after a power-good fault: the 1 s of R595 runs. -/
def State.powered (dom : Nat) (s : State) : State :=
  { s with power := { s.power with upAt := (dom, s.clock) :: s.power.upAt.filter fun d => d.1 != dom } }

/-- DISCOVERY (R399, R408, R412, R424): HOSTRDY high outside standby with the session's echo closed;
the lanes start at negative disparity. -/
def State.discover (s : State) : State :=
  if s.fwRuns && s.port.st == .down && s.port.host && !s.port.shorted && s.pack.echoDone && !s.power.standby &&
      !s.streamOff && !s.domainHeld 8 then
    State.powered 8 <| s.modPort fun p =>
      { p with
        st := .align, up := true, aligned := false, introClosed := false, introOwed := false
        disparity := List.replicate 4 false, idleMin := 2048, prompt := false }
  else s

def execDiscovery (dt : Nat) (s : State) : Out := .next (advance dt s).discover

/-- ALIGNMENT_DONE (R402): the 2048 columns are out. A power-up that has come this far has no driver at its limit, so
fault 0x43 clears (R427). -/
def State.alignmentDone (s : State) : State :=
  if s.port.up && (s.port.st == .align || (s.port.st == .paused && s.port.pausedFrom == .align)) then
    ((s.modPort fun p => { p with aligned := true }).clearFault 0x43 0xFF).settlePort
  else s

def execAlignmentDone (dt : Nat) (s : State) : Out := .next (advance dt s).alignmentDone

/-- Skeins of an introduction not sent whole are held somewhere on their way (R416). -/
def State.introHeld (s : State) : Bool :=
  !s.cab.intro.isEmpty || s.introWaits || s.pack.released.any Skein.toIntro

/-- The port stands in ALIGN, or is paused from it. -/
def Stream.aligning (p : Stream) : Bool := p.st == .align || (p.st == .paused && p.pausedFrom == .align)

/-- The last skein of the introduction, its descriptor gathered after the others have closed (R414, R415). -/
def State.closeDescriptor (s : State) : State :=
  if s.port.introOwed && !s.introWaits then
    ((s.control typeIntro s.descriptor true).modPort fun p => { p with introOwed := false, introClosed := true }).settlePort
  else s

/-- INTRODUCTION_CLOSE (R414, R416): the firmware closes the echo, the calibration report and the introduction skein. An
earlier introduction's unsent skeins go first; the descriptor waits until the first two have closed. -/
def State.introductionClose (s : State) : State :=
  if s.fwRuns && s.port.up && s.port.aligning && !s.port.introClosed then
    if s.port.introOwed then s.closeDescriptor
    else if s.introHeld then s
    else
      let t := s.control typeEcho s.echoBody true
      let t := match s.cal.report with
        | some b => t.control typeReport b true
        | none => t
      (t.modPort fun p => { p with introOwed := true }).closeDescriptor
  else s

def execIntroductionClose (dt : Nat) (s : State) : Out := .next (advance dt s).introductionClose

/-! ### The drain (R403, R409, R417 to R419, R421) -/

/-- The choice of R417 between the two stores. -/
def State.drainChoice (s : State) : Option (StoreId × Skein) :=
  let r := s.cab.raw.held.head?.map fun k => (StoreId.raw, k)
  let h := s.cab.shelf.held.head?.map fun k => (StoreId.shelf, k)
  let cut := s.port.cut.findSome? fun c =>
    match c.1 with
    | .store .raw => r
    | .store .shelf => h
    | .intro => none
  match cut, r, h with
  | some c, _, _ => some c
  | none, none, h => h
  | none, r, none => r
  | none, some a, some b =>
    if s.interleaved then
      match s.port.last with
      | some .shelf => some a
      | _ => some b
    else if a.2.closeNo < b.2.closeNo then some a else some b

/-- The repeat flag: this skein has been cut off (R421). -/
def State.repeats (s : State) (src : Src) (k : Skein) : Bool := s.port.cut.contains (src, k.session, k.seq)

/-- The oldest introduction skein held, where the port may send it: in INTRO, and in ALIGN what an earlier introduction
left (R416). -/
def State.introChoice (s : State) : Option Skein :=
  if s.port.st == .introducing || (s.port.st == .align && s.port.aligned && !s.port.introClosed && !s.port.introOwed) then
    s.cab.intro.head?
  else none

/-- The columns of K28.5 before the skein that begins now: at least 2, after a power-up 2048; at most 8 where it was
already held and nothing has come between (R402, R403, log 53). -/
def State.idleColumns (s : State) : Nat :=
  let n := Config.idleColumns s.clock
  s.port.idleMin + if s.port.prompt then n % 7 else n

/-- A skein's first column leaves. -/
def State.startTx (s : State) (src : Src) (k : Skein) : State :=
  let x : Tx := { src := src, skein := k, again := s.repeats src k, lowSeen := false, gone := false }
  let n := s.idleColumns
  s.modPort fun p =>
    { p with tx := some x
             last := match src with | .store st => some st | .intro => p.last
             disparity := idled n p.disparity }

/-- SKEIN_TRANSMIT_START (R376, R382, R385, R387, R417): the chosen skein is read whole; its corrections count, the
store's pointers are checked, and a skein with an uncorrectable word is discarded before its first column, which counts
as sent. Cabinet reads wait for a refresh burst (R381), for a store reset, and a flush goes first (R390). -/
def State.transmitStart (s : State) (corrected : Nat) (uncorrectable : Bool) : State :=
  if !s.port.up || !s.port.host || s.port.tx.isSome || decide (s.clock < s.port.freeAt) then s
  else
    match s.introChoice with
    | some k => s.startTx .intro k
    | none =>
      if s.port.st == .drain && !s.cab.burst && !s.cab.flushing then
        match s.drainChoice with
        | some (st, k) =>
          let t := s.correctWords corrected
          if (s.store st).mismatch.isSome then s
          else if uncorrectable then (t.discardBad st k).modPort fun p => { p with last := some st }
          else (t.startTx (.store st) k).checkStore st
        | none => s
      else s

def execSkeinTransmitStart (dt : Nat) (corrected : Nat) (uncorrectable : Bool) (s : State) : Out :=
  .next ((advance dt s).transmitStart corrected uncorrectable)

/-- A cabinet skein that has gone out is freed; the pointers are checked (R373, R384, R387). -/
def State.freeSkein (s : State) (st : StoreId) (k : Skein) (flip : BitVec 26) : State :=
  ((s.takeOut st k).upsetRead st flip).checkStore st

/-- The introduction is sent whole and the port enters DRAIN (R408). -/
def State.settleIntro (s : State) : State :=
  if s.port.st == .introducing && !s.introHeld then s.modPort fun p => { p with st := .drain, last := none } else s

/-- What a completion leaves for a HOSTRDY low of its cycle. -/
def State.endedNow (s : State) (x : Tx) : Ended :=
  let st : StoreId := match x.src with | .store st => st | .intro => .raw
  let q := s.store st
  { cycle := s.cycle, tx := x, st := s.port.st, readA := q.readA, readB := q.readB, holes := q.holes
    scrubPos := s.cab.scrubPos
    freed := match x.src with
      | .store st => q.bytes - (q.remove x.skein (s.capacity st)).bytes
      | .intro => 0
    scrubLeft := s.cab.scrubLeft, flushed := false }

/-- PKT pulses: from 0 to 40 ns after the last bit, for 18 to 25 ns (R423, log 4). -/
def State.pulsePkt (s : State) : State :=
  let a := s.drawNat
  let b := a.2.drawNat
  let at_ := s.clock + a.1 % (40 * Config.ns + 1)
  b.2.modPort fun p => { p with pkt := p.pkt + 1, pktFrom := at_, pktTo := at_ + 18 * Config.ns + b.1 % (7 * Config.ns + 1) }

/-- TRANSMISSION_COMPLETE (R419, R423): without a low HOSTRDY since the first column the skein is freed and PKT pulses; a
cut-off one stays held (R374), and one discarded on the way has left already (R385). -/
def State.transmissionComplete (s : State) (flip : BitVec 26) : State :=
  match s.port.tx with
  | some x =>
    let e := s.endedNow x
    let t := s.modPort fun p =>
      { p with tx := none, freeAt := s.clock + 2 * s.columnTime, idleMin := 2
               disparity := s.carried (x.skein.wire x.again) p.disparity }
    if x.lowSeen then t
    else
      let t := t.pulsePkt.modPort fun p =>
        { p with ended := some e, cut := p.cut.filter fun c => c != (x.src, x.skein.session, x.skein.seq) }
      let t := match x.src with
        | .store st => if x.gone then t else t.freeSkein st x.skein flip
        | .intro => State.settleIntro { t with cab := { t.cab with intro := t.cab.intro.drop 1 } }
      t.modPort fun p => { p with prompt := p.host && (t.introChoice.isSome || t.drainChoice.isSome) }
  | none => s

def execTransmissionComplete (dt : Nat) (flip : BitVec 26) (s : State) : Out :=
  .next ((advance dt s).transmissionComplete flip)

/-! ### Loss and faults (R412, R427) -/

/-- PARTNER_LOSS (R412, R416): HOSTRDY low for 10 s in PAUSED. -/
def State.partnerLoss (s : State) : State :=
  if s.fwRuns && s.port.st == .paused && !s.port.host && decide (10 * Config.sec ≤ s.clock - s.port.lowAt) then
    let held := s.cab.raw.held.length + s.cab.shelf.held.length
    let bytes := s.cab.raw.heldBytes + s.cab.shelf.heldBytes
    (s.streamDown .down).log 0x41 0xFF (sat32 held) (sat32 ((bytes + 1023) / 1024))
  else s

def execPartnerLoss (dt : Nat) (s : State) : Out := .next (advance dt s).partnerLoss

/-- STREAM_SHORT_CIRCUIT (R427): lanes 0 to 3, or 4 for SL_CLK. -/
def State.shortCircuit (s : State) (lane : Fin 5) : State :=
  if s.port.up then
    ((s.streamDown .down).modPort fun p => { p with shorted := true }).raise 0x43 0xFF (BitVec.ofNat 32 lane.val) 0
  else s

def execStreamShortCircuit (dt : Nat) (lane : Fin 5) (s : State) : Out := .next ((advance dt s).shortCircuit lane)

end Sys2Proof.Machine
end

