-- ==== Sys2Proof/Machine/Snapshot.lean ====
section
/-! DEFINITION. The snapshot port (chapter 13): the 256-word map, group latching and the meanings of SNAPSHOT_PRESENTATION and
SNAPSHOT_GROUP_TIMEOUT. -/

namespace Sys2Proof.Machine
open Sys2Proof

/-! ### Groups (R441) -/

/-- The words of a group. -/
def groupWords : Group → List Nat
  | .stitch c => (List.range 8).map (16 * c.val + ·)
  | .sample c => (List.range 4).map (16 * c.val + 8 + ·)
  | .counter c => (List.range 4).map (16 * c.val + 12 + ·)
  | .identity => (List.range 6).map (0x80 + ·)
  | .time => (List.range 7).map (0x88 + ·)
  | .configuration => (List.range 14).map (0x90 + ·)
  | .status => (List.range 14).map (0xA0 + ·)
  | .pps => (List.range 4).map (0xB0 + ·)
  | .phase => (List.range 8).map (0xB8 + ·)
  | .count => (List.range 18).map (0xC0 + ·)
  | .output => (List.range 6).map (0xD2 + ·)
  | .result c => (List.range 4).map (0xD8 + 4 * c.val + ·) ++ [0xF8 + c.val]

/-- Every group. -/
def allGroups : List Group :=
  Chan.all.map .stitch ++ Chan.all.map .sample ++ Chan.all.map .counter ++
    [.identity, .time, .configuration, .status, .pps, .phase, .count, .output] ++ Chan.all.map .result

/-- The group of a word; none for a reserved word (R440). -/
def groupOf (w : Nat) : Option Group := allGroups.find? fun g => (groupWords g).contains w

/-! ### What the words hold (R434 to R439, R451) -/

/-- Little-endian bytes as words (R6). -/
def wordsOf : List Byte → List (BitVec 16)
  | [] => []
  | [a] => [a.setWidth 16]
  | a :: b :: l => (b ++ a) :: wordsOf l

/-- A channel block holds the absent pattern outside states 5 and 6: from the cycle of loss detection, or of the domain's
power-down, on (R167, R435, R436). -/
def State.blockAbsent (s : State) (n : Chan) : Bool :=
  let c := s.chan.get n
  !(c.st == .present || (c.st == .suspended && c.loss.isNone && c.up))

/-- The absent pattern over `k` pairs of words. -/
def absentWords (k : Nat) : List (BitVec 16) := (List.replicate k [0x0000#16, 0xDEAD#16]).flatten

/-- The full time at the end of the back-die cycle before the one the latch is in, from the cycle's last
quarter-picosecond on (R443). -/
def State.cycleEnd (s : State) : Nat := if s.tb.epochSet then s.full + 1 else 0

/-- The time state word (R438). -/
def State.timeState (s : State) : Nat :=
  boolNat s.tb.epochSet + 2 * s.tb.start.source.toNat + 8 * boolNat s.tb.holdover + 16 * boolNat s.tb.sessionValid

/-- The output state (R471). What an idle output waits for is its first obstacle in the table's order; in brace it waits
for the end of brace (log 29). -/
def State.outState (s : State) (o : OutNo) : Nat :=
  let a := s.ao.outs.get o
  match a.st with
  | .driven => 6
  | .faulted => 7
  | .leaving => if s.holds (.stagePower o) then 5 else 4
  | .powering => 5
  | .breaking => if s.power.brace then 4 else 5
  | .ready => if s.power.brace then 4 else 5
  | .idle =>
    if s.aoOff o then 0
    else if s.aoUnavailable o then 1
    else if !s.cal.trims then 2
    else if !a.sourced && !(s.aoSource o == .dieTemp) then 3
    else if s.power.brace || s.power.standby then 4
    else 5

/-- The source-stale bit (R472). -/
def State.sourceStale (s : State) (o : OutNo) : Bool :=
  match s.aoSource o with
  | .dieTemp => false
  | .vector _ => (s.stat.get 0).vecBad
  | .primary n => (n :: (s.func n).needs).any fun m => (s.chan.get m).st != .present

/-- The output state word (R471). -/
def State.outWord (s : State) (o : OutNo) : Nat :=
  let a := s.ao.outs.get o
  boolNat (a.st == .driven) + 2 * s.outState o + 16 * boolNat (s.aoCurrent o) + 32 * boolNat s.power.brace +
    64 * boolNat (s.sourceStale o) + 128 * boolNat a.saturated +
    256 * boolNat (a.st == .driven && decide (100 * Config.ms ≤ s.clock - a.readAt)) +
    512 * boolNat (a.centre.isSome || !s.centreCaptured o)

/-- The block as it stood at the last quarter-picosecond of the cycle before this one (R443), what had arrived by
then included (R295, R671). -/
def State.cycleBefore (s : State) : State :=
  let b := s.seen
  let fin := s.cycleFrom s.cycle - 1
  let u := { s with
    clock := fin, tb := if b.tb.epochSet then b.tb.move (fin - b.clock) else b.tb
    chan := b.chan, stat := b.stat, chain := b.chain, fol := b.fol, cab := b.cab, port := b.port, ao := b.ao, power := b.power
    leave := b.leave, snap := { Snap.reset with fw := b.fw, version := s.snap.version }
    cal := { s.cal with trims := b.trims } }
  State.settleAll (u.takeCaptures s.cycle)

/-- The values of a group's words, in the order of `groupWords`; all of one cycle (R432, R452, R453). -/
def State.groupNow (s : State) (g : Group) : List (BitVec 16) :=
  match g with
  | .stitch n =>
    if s.blockAbsent n then absentWords 4
    else wordsOf (match (s.chan.get n).mirrorAt s.clock with | some m => m.bytes | none => le 16 0)
  | .sample n => if s.blockAbsent n then absentWords 2 else wordsOf (le 8 (s.stat.get n).sample.toNat)
  | .counter n =>
    let c := s.chan.get n
    if s.blockAbsent n then absentWords 2
    else wordsOf (le 4 c.expired.toNat ++ leInt 2 c.repPos ++ leInt 2 c.repNeg)
  | .identity => wordsOf (le 8 Config.serial.toNat ++ le 4 s.snap.version.toNat)
  | .time =>
    wordsOf (le 8 s.cycleEnd ++ le 2 (s.cycleEnd / 2 ^ 64) ++ le 2 (if s.tb.sessionValid then s.tb.session.toNat else 0) ++
      le 2 s.timeState)
  | .configuration => wordsOf (s.decodedWords.flatMap (le 4) ++ le 4 s.strap.statusWord)
  | .status =>
    let f := s.snap.fw
    wordsOf (le 4 f.flags.toNat ++ le 4 f.chanState.toNat ++ le 4 f.driftMask.toNat ++ le 4 s.chain.refusals.toNat ++
      le 2 f.heldFaults.toNat ++ [f.lastFault, 0] ++ le 2 f.die.toNat ++ le 2 f.cth.toNat ++ le 2 f.eraseTime.toNat ++
      [f.spares, f.drawers])
  | .pps => wordsOf (le 8 s.tb.ppsOffset.toNat)
  | .phase => wordsOf s.phaseReport
  | .count => wordsOf s.countGroup
  | .output =>
    wordsOf (le 2 (s.outWord 0) ++ le 2 (s.outWord 1) ++ le 4 (s.ao.outs.get 0).code.toNat ++
      le 4 (s.ao.outs.get 1).code.toNat)
  | .result n =>
    let st := s.stat.get n
    if s.enabled n then
      wordsOf (le 8 st.primary.toNat ++
        le 2 (boolNat st.primaryValid + 2 * boolNat st.summarised + 4 * boolNat st.sampled))
    else wordsOf (le 10 0)

/-! ### Latching (R443 to R447) -/

def State.modSnap (s : State) (f : Snap → Snap) : State := { s with snap := f s.snap }

/-- The latch of a group. -/
def State.latchOf (s : State) (g : Group) : Option Latch := s.snap.latches.find? fun l => l.g == g

/-- A group is released (R444). -/
def State.releaseGroup (s : State) (g : Group) : State :=
  s.modSnap fun p => { p with latches := p.latches.filter fun l => l.g != g }

/-- Every group is released and SD floats (R450). -/
def Snap.releaseAll (p : Snap) : Snap := { p with latches := [], sd := .hiz, selectedTo := 0 }

/-- A group read of a captured word. -/
def Latch.word (l : Latch) (w : Nat) : BitVec 16 := l.words.getD ((groupWords l.g).idxOf w) 0

/-- Every word has been read since the latch (R444, R445). -/
def Latch.allRead (l : Latch) : Bool := (groupWords l.g).all fun w => l.readLow.contains w && l.readHigh.contains w

/-- A read of a word, or of one of its bytes, counts (R445). -/
def Latch.count (l : Latch) (w : Nat) (low high : Bool) : Latch :=
  { l with readLow := if low then w :: l.readLow.erase w else l.readLow
           readHigh := if high then w :: l.readHigh.erase w else l.readHigh }

/-- A latched group not presented for the longest release time has been released (R444). -/
def State.purge (s : State) (g : Group) : State :=
  match s.latchOf g with
  | some l => if l.lastAt + 2050 * Config.ns < s.clock then s.releaseGroup g else s
  | none => s

/-- The group latches if it is not latched; the latch keeps what stood at the end of the cycle before (R443). -/
def State.latchGroup (s : State) (g : Group) : State :=
  match s.latchOf g with
  | some _ => s
  | none =>
    let l : Latch := { g := g, words := s.cycleBefore.groupNow g, readLow := [], readHigh := [], lastAt := s.clock }
    s.modSnap fun p => { p with latches := p.latches ++ [l] }

/-- What SD carries of a word (R430, R431). -/
def State.drives (s : State) (sa : BitVec 9) (w : BitVec 16) : Sd :=
  if s.strap.sbyte then .byte (if sa.getLsbD 0 then w.extractLsb' 8 8 else w.extractLsb' 0 8) else .word w

/-- The presentation of a word of a group: `fin` is its end. -/
def State.presentGroup (s : State) (g : Group) (sa : BitVec 9) (w : Nat) (latches counts : Bool) (fin : Nat) : State :=
  let t := s.purge g
  let t := if latches then t.latchGroup g else t
  match t.latchOf g with
  | some l =>
    let low := !(s.strap.sbyte && sa.getLsbD 0)
    let high := !s.strap.sbyte || sa.getLsbD 0
    let l' := { (if counts then l.count w low high else l) with lastAt := fin }
    let u := t.modSnap fun p => { p with sd := s.drives sa (l.word w) }
    if l'.allRead then u.releaseGroup g
    else u.modSnap fun p => { p with latches := p.latches.map fun x => if x.g == g then l' else x }
  | none => t

/-- What the balls SD carry now: high impedance at every time that SCS_N and SOE_N are not both low (R428). -/
def State.sdNow (s : State) : Sd := if s.clock < s.snap.selectedTo then s.snap.sd else .hiz

/-- The SD valid maximum in ps: 12 ns, with 0.08 ns more for each pF above 30 pF, up to 60 pF; above that there is none (R440,
R642). -/
def Snap.validAfter (p : Snap) : Option Nat :=
  if p.load ≤ 30 then some 12000 else if p.load ≤ 60 then some (12000 + 80 * (p.load - 30)) else none

/-- SD carries the word for certain after this presentation (R440, R642). -/
def Snap.valid (p : Snap) (hold : Nat) : Bool := match p.validAfter with | some t => decide (t ≤ hold) | none => false

/-- SNAPSHOT_PRESENTATION (R428, R430, R431, R433, R440, R443 to R446): an address presented for `hold` ps, with SCS_N and
SOE_N low for that time. Up to 2 ns it never latches, from 4 ns on it always does, and only one of 12 ns or more counts as
a read; whether one between 2 and 4 ns latches, and the word on SD in one that ends before the SD valid maximum, are free
values (log 4). -/
def State.presentation (s : State) (sa : BitVec 9) (hold : Nat) : State :=
  if !s.snap.up then s.modSnap fun p => { p with sd := .hiz, selectedTo := 0 }
  else
    let fin := s.clock + 4 * hold
    let s := s.modSnap fun p => { p with selectedTo := fin }
    let w := sa.toNat / 2
    let a := if hold ≤ 2000 then (false, s) else if hold < 4000 then s.drawBit else (true, s)
    let t := match groupOf w with
      | some g => if hold ≤ 2000 then a.2 else a.2.presentGroup g sa w a.1 (decide (12000 ≤ hold)) fin
      | none => a.2.modSnap fun p => { p with sd := s.drives sa 0 }
    if s.snap.valid hold then t
    else
      let d := t.drawNat
      d.2.modSnap fun p => { p with sd := s.drives sa (BitVec.ofNat 16 d.1) }

def execSnapshotPresentation (dt : Nat) (sa : BitVec 9) (hold : Nat) (s : State) : Out :=
  .next ((advance dt s).presentation sa hold)

/-- SNAPSHOT_GROUP_TIMEOUT (R444): no word of the group presented for the release time. -/
def State.groupTimeout (s : State) (g : Group) : State :=
  match s.latchOf g with
  | some l => if l.lastAt + 2000 * Config.ns ≤ s.clock then s.releaseGroup g else s
  | none => s

def execSnapshotGroupTimeout (dt : Nat) (g : Group) (s : State) : Out := .next ((advance dt s).groupTimeout g)

end Sys2Proof.Machine
end

