-- ==== Sys2Proof/Machine/FlashOps.lean ====
section
/-! DEFINITION. Flash operations, compaction, row counters, recovery and retirement (chapter 16), with the meanings of their
commands. -/

namespace Sys2Proof.Machine
open Sys2Proof

/-! ### Operations (R520 to R523, R545) -/

/-- The physical sector an operation works on. -/
def FlashKind.sector : FlashKind → Nat
  | .erase p => p
  | .program a _ => a / 4096

/-- No operation may touch this sector by the firmware's hand: the firmware area and the reserved one (R517). -/
def barred (p : Nat) : Bool := decide (p < 0x180) || decide (0x3CB < p)

/-- The sector lies in the drawer area. -/
def State.inDrawer (s : State) (p : Nat) : Bool := areaOf (s.original p) == some 1

/-- An operation may work on this sector: neither out of the firmware's reach, nor in a read-only drawer area, nor retired
(R517, R543, R546). -/
def State.mayUse (s : State) (p : Nat) : Bool := !barred p && !(s.inDrawer p && s.readOnly) && !s.retired p

/-- The firmware may start an operation on this sector now (R520, R565). -/
def State.mayOperate (s : State) (op : HeavyOp) (p : Nat) : Bool := s.mayWork op && s.mayUse p

/-- An operation starts: the core stalls (R521), and firmware requests are withdrawn (R674). -/
def State.startOp (s : State) (kind : FlashKind) (journal : Option Nat) : State :=
  let o : FlashOp :=
    { kind := kind, service := false, journal := journal, startedAt := s.clock, used := 0, done := 0, retries := 0,
      running := true }
  State.withdrawLeave { s with flash := { s.flash with op := some o } }

/-- A journal sector is reclaimed by an erase journaled in the sector before it, with every entry in it complete (R526). -/
def State.reclaims (s : State) (p : Nat) : Bool :=
  let next := (s.flash.jnext / 256 + 1) % 4
  p == s.phys (0x1C0 + next) && !(List.range 256).any fun i => s.journalOpen (256 * next + i)

/-- FLASH_ERASE (R520, R521, R524 to R526): an erase in the drawer, journal, row counter and retirement table sectors is
journaled first, that of a journal sector in the sector before it. -/
def State.flashErase (s : State) (p : Nat) : State :=
  if s.mayOperate .flashErase p then
    match areaOf (s.original p) with
    | some area =>
      if (if area == 2 then !s.reclaims p else !s.journalReady) then s
      else
        let w := journalEntry 1 area p 0 0 0
        let b := if area == 2 then (s.flash.jnext, s.journalPut w) else s.journalBegin w
        b.2.startOp (.erase p) (some b.1)
    | none => s.startOp (.erase p) none
  else s

def execFlashErase (dt : Nat) (sector : Fin 1024) (s : State) : Out := .next ((advance dt s).flashErase sector.val)

/-- The sectors a program of `len` bytes from an address on works on. -/
def sectorsOf (a len : Nat) : List Nat := (List.range ((a + len - 1) / 4096 + 1 - a / 4096)).map (a / 4096 + ·)

/-- The words from an address on are erased, as each must be before it is programmed (R518). -/
def State.wordsErased (s : State) (a len : Nat) : Bool := (s.flashGets a len).all (· == 0xFF) && !s.badIn a len

/-- A program is one cell of a tally sector, or whole erased words over at most 16 pages (R518, R520). -/
def State.programShape (s : State) (a len : Nat) : Bool :=
  if s.isTally (a / 4096) then len == 1
  else a % 8 == 0 && len % 8 == 0 && decide (0 < len) && decide ((a % 256 + len + 255) / 256 ≤ 16) &&
    s.wordsErased a len && !(sectorsOf a len).any s.isTally

/-- FLASH_PROGRAM (R518, R520, R521, R543): every sector it works on is one it may use. -/
def State.flashProgramStart (s : State) (a : Nat) (data : List Byte) : State :=
  if s.mayOperate .flashProgram (a / 4096) && (sectorsOf a data.length).all (fun p => s.mayUse p && !s.erasing p) && s.programShape a data.length then
    s.startOp (.program a data) none
  else s

def execFlashProgram (dt : Nat) (addr : BitVec 22) (data : List Byte) (s : State) : Out :=
  .next ((advance dt s).flashProgramStart addr.toNat data)

/-- LEAVE held for the operation in progress is released. -/
def State.releaseOp (s : State) : State :=
  ((s.releaseFor .flashErase).releaseFor .flashProgram).releaseFor .service

/-- What an operation leaves in the array when it ends, also where its last attempt did not verify (R518, R545). -/
def State.landOp (s : State) (o : FlashOp) (verified : Bool) : State :=
  match o.kind with
  | .erase p => if verified then s.flashEraseSector p else s.spoilErase p
  | .program a data =>
    if verified then s.flashProgram (a + o.done) (data.drop o.done)
    else s.spoilProgram (a + o.done) (data.drop o.done)

/-- An erase that has ended is reported (R545, R549). Verified, it completes its journal entry; where LEAVE is no longer
held, or in brace, the complete mark is left to a program of its own (R520, R523, R524). -/
def State.noteErase (s : State) (o : FlashOp) (verified : Bool) (took : Nat) : State :=
  match o.kind with
  | .erase p =>
    let t := s.noteTook p took
    match o.journal with
    | some i => if verified && s.leave.holding.isSome && !s.power.brace then t.journalComplete i else t
    | none => t
  | .program _ _ => s

/-- What a stall of the core by this operation delays (R30, R589): the watchdog, and the drift check of the second in which it
began, as far as that second is over and the check is not. A stall by the service engine there is none: the core is halted. -/
def State.stallCost (s : State) (o : FlashOp) : State :=
  if o.service then s
  else
    let p := s.strap
    let began := p.secondOf o.startedAt
    let left := if p.driftSec = began then p.driftDone else 0
    let late := p.latched && decide (began < p.secondOf s.clock) && decide (left < 23)
    { s with core := { s.core with dogAt := s.core.dogAt + (s.clock - o.startedAt) }
             strap := { p with driftOwed := if late then some (p.driftOwed.getD left) else p.driftOwed } }

/-- An owed halt takes effect once the firmware's operation has ended, which brace may have suspended first (R593, chapter 20,
*Halt, update and restart*). -/
def State.landHalt (s : State) : State :=
  if s.core.haltOwed && s.flash.op.isNone then
    State.dropHold { s with core := { s.core with halted := true, haltOwed := false } }
  else s

/-- The stall ends: an owed halt takes effect, scheduler commands issued in it land, requests begin again (R30, R523, R593,
R669, R674). -/
def State.endStall (s : State) (o : FlashOp) : State := ((s.stallCost o).landHalt.withdrawLeave).landOwed.resumeLeave

/-- A retry goes on where a sector cannot be retired (R548). -/
def State.keepsRetrying (s : State) (p : Nat) : Bool :=
  match areaOf (s.original p) with
  | some a => a != 1 && s.spares == 0
  | none => false

/-- Fault 0x74 wherever its condition holds (R545, R547, R550). -/
def State.checkSpares (s : State) : State :=
  if s.spares ≤ 4 ∨ 508 ≤ s.retirements then s.raise 0x74 0xFF (BitVec.ofNat 32 s.spares) (BitVec.ofNat 32 s.retirements)
  else s

/-- FLASH_OPERATION_END (R518, R520, R521, R545, R548, R549): an attempt that did not verify is repeated with fault 0x72;
otherwise the operation ends, its LEAVE with it. `took` is in 0.1 ms. -/
def State.flashEnd (s : State) (verified : Bool) (took : Nat) : State :=
  match s.flash.op with
  | some o =>
    let p := o.kind.sector
    if !o.running then s
    else if !verified && (decide (o.retries < 2) || s.keepsRetrying p) then
      let n := min 2 (o.retries + 1)
      let again : FlashOp := { o with retries := n }
      let t := State.retryFault { s with flash := { s.flash with op := some again } } p n
      if o.retries < 2 then t
      else t.raise 0x77 0xFF (BitVec.ofNat 32 ((areaOf (s.original p)).getD 0)) (BitVec.ofNat 32 p)
    else
      let t := ((s.landOp o verified).noteErase o verified took).wear p o.retries
      (State.releaseOp { t with flash := { t.flash with op := none } }).checkSpares.endStall o
  | none => s

def execFlashOperationEnd (dt : Nat) (verified : Bool) (tookMs10 : Nat) (s : State) : Out :=
  .next ((advance dt s).flashEnd verified tookMs10)

/-- LEAVE hold an erase has used so far (R523). -/
def State.holdUsed (s : State) (o : FlashOp) : Nat :=
  if s.leave.holding.isSome then o.used + (s.clock - o.startedAt) else o.used

/-- ERASE_HOLD_END (R520): after 50 ms of its hold an erase releases LEAVE and goes on. -/
def State.eraseHoldEnd (s : State) : State :=
  match s.flash.op with
  | some o =>
    match o.kind with
    | .erase _ =>
      if o.running && decide (50 * Config.ms ≤ s.holdUsed o) then
        let u : FlashOp := { o with used := 50 * Config.ms }
        State.releaseOp { s with flash := { s.flash with op := some u } }
      else s
    | .program _ _ => s
  | none => s

def execEraseHoldEnd (dt : Nat) (s : State) : Out := .next (advance dt s).eraseHoldEnd

/-- FLASH_ERASE_SUSPEND (R523): in brace a running erase stops at the end of its pulse; stall and LEAVE hold end. -/
def State.eraseSuspend (s : State) : State :=
  match s.flash.op with
  | some o =>
    match o.kind with
    | .erase _ =>
      if o.running && s.power.brace then
        let u : FlashOp := { o with running := false, used := min (s.holdUsed o) (50 * Config.ms) }
        (State.releaseOp { s with flash := { s.flash with op := some u } }).endStall o
      else s
    | .program _ _ => s
  | none => s

def execFlashEraseSuspend (dt : Nat) (s : State) : Out := .next (advance dt s).eraseSuspend

/-- Brace stops a program of several pages after the page it is programming, which of them being open (R523). -/
def State.programStop (s : State) : State :=
  match s.flash.op with
  | some o =>
    match o.kind with
    | .program a data =>
      let d := s.drawNat
      let first := 256 - (a + o.done) % 256
      let upTo := o.done + first + 256 * (d.1 % 16)
      if o.running && decide (upTo < data.length) then
        let t := d.2.flashProgram (a + o.done) ((data.drop o.done).take (upTo - o.done))
        let u : FlashOp := { o with running := false, done := upTo }
        (State.releaseOp { t with flash := { t.flash with op := some u } }).endStall o
      else s
    | .erase _ => s
  | none => s

/-- At brace return a suspended erase past its 50 ms goes on at once; another suspended operation asks for leave again
(R523, R566). -/
def State.resumeOp (s : State) : State :=
  match s.flash.op with
  | some o =>
    if o.running then s
    else
      let op : HeavyOp := if o.service then .service else match o.kind with | .erase _ => .flashErase | .program _ _ => .flashProgram
      let past := match o.kind with | .erase _ => decide (50 * Config.ms ≤ o.used) | .program _ _ => false
      if past then
        let u : FlashOp := { o with running := true, startedAt := s.clock }
        State.withdrawLeave { s with flash := { s.flash with op := some u } }
      else s.requestLeave op
  | none => s

/-- A full reset cuts an operation short (R518, R588): a program has done a free number of words and the next reads
uncorrectable (a tally cell: a free subset of its bits); an erase leaves a sector whose words read uncorrectable, or in a
tally sector, which has no check bits, cells each with a free part of its bits clear. -/
def State.cutOp (s : State) : State :=
  match s.flash.op with
  | some o =>
    let d := s.drawNat
    let t := d.2
    let t := match o.kind with
      | .erase p => t.spoilErase p
      | .program a data =>
        let rest := data.drop o.done
        if !o.running then t
        else if t.isTally (a / 4096) then t.spoilProgram a data
        else
          let n := d.1 % (rest.length / 8 + 1)
          let u := t.flashProgram (a + o.done) (rest.take (8 * n))
          if 8 * n < rest.length then u.markBad [a + o.done + 8 * n] else u
    { t with flash := { t.flash with op := none } }
  | none => s

/-! ### Compaction (R535 to R537) -/

/-- The record is live (R535). -/
def liveRec (rs : List DrawerRec) (r : DrawerRec) : Bool :=
  let force (b : DrawerRec) : Bool := b.belongs rs && inForce rs b.slot b.block == some b
  if r.typ = 3 then rs.any fun b => b.slot == r.slot && b.commit == r.commit && force b
  else force r

/-- The bytes of a record as the array holds them. -/
def State.recBytes (s : State) (r : DrawerRec) : List Byte := s.flashGets r.addr r.len

/-- The logical sectors from `t` to `t + 7`. -/
def eight (t : Nat) : List Nat := (List.range 8).map fun i => (t + i) % 64

/-- One compaction (R536), whole (log 13). -/
def State.compact (s : State) : State :=
  let rs := s.drawerRecs
  let t := s.flash.tail
  let head := 4096 * ((s.flash.head + 4095) / 4096) % 262144
  let d := head / 4096
  let copies := ((eight t).flatMap fun l => rs.filter fun r => r.logical == l && liveRec rs r).map s.recBytes
  let b := State.journalBegin { s with flash := { s.flash with head := head } } (journalEntry 2 1 0 t d 0)
  let c := (b.2.appendRecs copies).journalBegin (journalEntry 3 1 0 t d 0)
  let u := (eight t).foldl (fun u l => u.journaledErase 1 (u.drawerSector l)) c.2
  let u := (u.journalComplete b.1).journalComplete c.1
  { u with flash := { u.flash with tail := (t + 8) % 64 } }

/-- COMPACTION (R536, R543): before a drawer write that needs it, with leave won. -/
def State.compaction (s : State) : State :=
  if s.mayWork .flashProgram && s.journalReady && !s.readOnly && !s.cal.results.isEmpty &&
      s.needsCompaction s.commitLengths && !s.drawersErasing then
    s.compact.releaseFor .flashProgram
  else s

def execCompaction (dt : Nat) (s : State) : Out := .next (advance dt s).compaction

/-! ### Row counters (R538 to R542) -/

/-- ROW_COUNTER_INCREMENT (R540), with leave won, whole (log 13). -/
def State.rowCounterIncrement (s : State) (c : RowId) : State :=
  if s.mayWork .flashProgram && s.rowReady c then (s.rowIncrement c).releaseFor .flashProgram else s

def execRowCounterIncrement (dt : Nat) (c : RowId) (s : State) : Out := .next ((advance dt s).rowCounterIncrement c)

/-! ### Recovery (R543, R544) -/

/-- A field of word 0 of a journal entry (R524). -/
def State.entryField (s : State) (i lo width : Nat) : Nat := ((s.journalWord i 0).getD 0) / 2 ^ lo % 2 ^ width

def State.entryType (s : State) (i : Nat) : Nat := s.entryField i 0 8

/-- The entry concerns the drawer area. -/
def State.entryDrawer (s : State) (i : Nat) : Bool := s.entryField i 8 8 == 1

/-- The entries behind one, up to the newest. -/
def State.entriesAfter (s : State) (i : Nat) : List Nat :=
  (List.range ((s.flash.jnext + 1024 - i - 1) % 1024)).map fun k => (i + 1 + k) % 1024

/-- The entry of a sector moved to a spare, in one copy of the retirement table: programmed into the first free slot
unless the copy holds it already (R546). -/
def State.mapRetired (s : State) (old new p : Nat) : State :=
  if (s.retireCopy p).contains (old, new) then s
  else
    let lo := old + 65536 * new
    let cells := s.secCells p
    match (List.range 512).find? fun k => memGets cells (sectorBase p + 8 * k) 8 == List.replicate 8 0xFF &&
        !s.badIn (sectorBase p + 8 * k) 8 with
    | some k => s.programNow (sectorBase p + 8 * k) (le 4 lo ++ le 4 (0xFFFFFFFF - lo))
    | none => s

/-- Table — Journal recovery: the detail and the physical sector of fault 0x75, and the state once the entry is resolved. -/
def State.recoverEntry (s : State) (i : Nat) : Nat × Nat × State :=
  let typ := s.entryType i
  let sector := s.entryField i 16 10
  if typ = 1 then
    (1, sector, if s.retired sector then s.journalComplete i else (s.eraseNow sector).completeErased i sector)
  else if typ = 4 then
    let new := s.entryField i 44 10
    let t := s.mapRetired sector new (s.phys 0x1CA)
    (4, sector, (t.mapRetired sector new (t.phys 0x1CB)).journalComplete i)
  else
    let tail := s.entryField i 32 6
    let dest := s.entryField i 38 6
    let after := s.entriesAfter i
    match after.find? fun j => s.journalBegan j && s.entryType j == 3 with
    | some j =>
      let done (t : State) (p : Nat) : Bool :=
        (t.entriesAfter j).any fun k =>
          t.journalBegan k && !t.journalOpen k && t.entryType k == 1 && t.entryField k 16 10 == p
      let t := (eight tail).foldl (fun t l =>
        if done t (t.drawerSector l) then t else t.journaledErase 1 (t.drawerSector l)) s
      (3, s.drawerSector tail, (t.journalComplete j).journalComplete i)
    | none =>
      let ls := (((List.range 64).map fun k => (dest + k) % 64).takeWhile fun l => !s.sectorErased (s.drawerSector l))
      let t := ls.foldl (fun t l => t.journaledErase 1 (t.drawerSector l)) s
      (2, s.drawerSector dest, t.journalComplete i)

/-- The next open entry to resolve; drawer entries wait while the drawer area is read-only (R543). An entry "compaction
copied" is resolved with the one that began its compaction. -/
def State.nextOpen (s : State) : Option Nat :=
  s.openEntries.find? fun i => !(s.readOnly && s.entryDrawer i) && s.entryType i != 3

/-- One open entry is resolved, with its fault (R544). -/
def State.recoverOne (s : State) (i : Nat) : State :=
  let r := s.recoverEntry i
  r.2.2.log 0x75 0xFF (BitVec.ofNat 32 r.1) (BitVec.ofNat 32 r.2.1)

/-- Step 2 of R591: the index and the working correction set. -/
def State.restartIndex (s : State) : State :=
  if s.core.reconciled then (if s.cal.work.isSome then s.buildIndex.rebuild else s.buildIndex) else s

/-- JOURNAL_RECOVERY (R544, R584, R591): in the recovery step, and after a core restart that found entries open, the oldest
open entry under its own leave hold; with none open the step goes on, or the restarted firmware builds its index. -/
def State.journalRecovery (s : State) : State :=
  let step := s.core.boot == .recovery && !s.core.recovered
  if s.fwRuns && (step || s.core.recovering) then
    let s := s.checkSpares
    match s.nextOpen with
    | some i =>
      if s.holds .flashErase && !s.power.brace then (s.recoverOne i).releaseFor .flashErase else s
    | none =>
      if step then { s with core := { s.core with recovered := true } }
      else State.restartIndex { s with core := { s.core with recovering := false } }
  else s

def execJournalRecovery (dt : Nat) (s : State) : Out := .next (advance dt s).journalRecovery

/-- Both row counters, reconciled (R541). -/
def State.reconcile (s : State) : State := (s.reconcileRow .session).reconcileRow .commit

/-- The recovery step ends: the drawer index is built and the session commit follows (R534, R583). -/
def State.endRecovery (s : State) : State :=
  let t := s.buildIndex
  { t with core := { t.core with reconciled := true, boot := .commit } }

/-- ROW_COUNTER_RECONCILE (R541): where a step has to act it needs leave. -/
def State.rowReconcile (s : State) : State :=
  if s.fwRuns && s.core.boot == .recovery && s.core.recovered && !s.core.reconciled then
    let t := s.reconcile
    if t.flash.mem = s.flash.mem then t.endRecovery
    else if s.holds .flashProgram && !s.power.brace then (t.releaseFor .flashProgram).endRecovery
    else s
  else s

def execRowCounterReconcile (dt : Nat) (s : State) : Out := .next (advance dt s).rowReconcile

/-! ### Retirement (R545 to R548) -/

/-- The spare a retirement takes: the first not in use. -/
def State.nextSpare (s : State) : Option Nat :=
  let used := s.usedSpares
  ((List.range 512).map (0x1CC + ·)).find? fun p => !used.contains p

/-- Bytes moved within the array: what `f` says of each listed byte of the old sector, at the same offset of the new. -/
def State.moveBytes (s : State) (old new : Nat) (f : Nat → Bool) : State :=
  State.programNow ((s.secCells old).foldl (fun t c =>
    if f c.1 then t.flashProgram (sectorBase new + (c.1 - sectorBase old)) [c.2] else t) s) (sectorBase new) []

/-- The live content of a sector goes to its spare (R546): live drawer records, set tally cells, the current carry record, open
journal entries, the mappings. -/
def State.moveContent (s : State) (old new orig : Nat) : State :=
  if 0x180 ≤ orig ∧ orig ≤ 0x1BF then
    let rs := s.drawerRecs
    let live := rs.filter fun r => decide (r.addr / 4096 = old) && liveRec rs r
    s.moveBytes old new fun a => live.any fun r => decide (r.addr ≤ a) && decide (a < r.addr + r.len)
  else if 0x1C0 ≤ orig ∧ orig ≤ 0x1C3 then
    let opens := s.openEntries.map s.journalAddr
    s.moveBytes old new fun a => opens.any fun j => decide (j ≤ a) && decide (a < j + 16)
  else if orig = 0x1C4 ∨ orig = 0x1C7 then
    s.moveBytes old new fun a => cellSet (memGet (s.secCells old) a)
  else if orig ≤ 0x1C9 then
    match s.currentCarry old with
    | some r => s.programNow (sectorBase new) (carryBytes r.carry r.cleared)
    | none => s
  else s.moveBytes old new fun _ => true

/-- SECTOR_RETIREMENT (R545 to R548), whole (log 13): a worn sector gives its content to a spare; the drawer area keeps its
hands off the last 4 spares, and an area that finds none holds fault 0x77. -/
def State.retire (s : State) (p : Nat) : State :=
  let orig := s.original p
  match areaOf orig with
  | some area =>
    if s.mayWork .flashProgram && s.flash.worn.contains p && s.journalReady && !(area == 1 && s.readOnly) then
      let done (t : State) : State :=
        State.releaseFor { t with flash := { t.flash with worn := t.flash.worn.filter fun q => q != p } } .flashProgram
      match s.nextSpare with
      | some new =>
        let logical := orig - (if area = 1 then 0x180 else if area = 2 then 0x1C0 else 0x1C4)
        let b := s.journalBegin (journalEntry 4 area p logical 0 new)
        let t := if b.2.sectorErased new then b.2 else b.2.eraseNow new
        let t := (t.moveContent p new orig)
        let t := (t.recoverEntry b.1).2.2
        (done (t.log 0x73 0xFF (BitVec.ofNat 32 p) (BitVec.ofNat 32 new))).checkSpares
      | none => done (s.raise 0x77 0xFF (BitVec.ofNat 32 area) (BitVec.ofNat 32 p))
    else s
  | none => s

def execSectorRetirement (dt : Nat) (sector : Fin 1024) (s : State) : Out := .next ((advance dt s).retire sector.val)

end Sys2Proof.Machine
end

