-- ==== Sys2Proof/Machine/Power.lean ====
section
/-! DEFINITION. Brace, standby, the AO domain and the supply faults (chapter 17), with the meanings of their commands. -/

namespace Sys2Proof.Machine
open Sys2Proof

/-! ### Brace (R565 to R568) -/

/-- A scrub burst stopped by brace is asked for again at return (R386, R566). -/
def State.braceScrub (s : State) : State := if s.cab.scrubbing then s.scrubStop.requestLeave .scrub else s

/-- A brace marker. Before the epoch it waits for the epoch, from which it has its session and its time, 0 (R48, R568,
log 30). -/
def State.braceMarker (s : State) (back : Bool) (duration : BitVec 40) : State :=
  if s.tb.epochSet then s.hwMarker (.brace s.tb.time back duration)
  else { s with power := { s.power with early := s.power.early ++ [(back, duration)] } }

/-- BRACE_ENTRY (R565, R566, R568): the marker's part 0, leave and flash as Table — Behaviour in brace gives, and fault
0x81, whose skein waits for the return. -/
def State.braceEntry (s : State) : State :=
  if s.outOfReset && !s.power.brace then
    let t := { s with power := { s.power with brace := true, braceAt := s.clock, braceTime := s.tb.time } }
    let t := (t.braceMarker false 0).occurs 0x81
    let t := t.giveBack.braceScrub.programStop
    State.settleWait (t.modLeave fun l => { l with phase := if l.phase == .window then .deferred else l.phase })
  else s

def execBraceEntry (dt : Nat) (s : State) : Out := .next (advance dt s).braceEntry

/-- BRACE_RETURN (R335, R566 to R568, R578): part 1 with the duration in back-die cycles, saturated, then the skein of
fault 0x81 with the time of entry and the lowest VIN in mV; suspended operations and requests go on. -/
def State.braceReturn (s : State) (lowest : Nat) : State :=
  if s.power.brace then
    let d := s.clock - s.power.braceAt
    let t := { s with power := { s.power with brace := false, returnAt := s.clock } }
    let t := t.braceMarker true (BitVec.ofNat 40 (min (inUnits d Config.cycle) 0xFFFFFFFFFF))
    let t := t.event 0x81 true false s.power.braceTime 0xFF (sat32 lowest) (sat32 (inUnits d Config.us))
    t.resumeOp.resumeLeave
  else s

def execBraceReturn (dt : Nat) (lowestVin : Nat) (s : State) : Out := .next ((advance dt s).braceReturn lowestVin)

/-! ### Standby and the AO domain (R555, R556, R559 to R562) -/

/-- STANDBY_ENTRY (R411, R559, R562): the stream port goes to STANDBY; pin switches open, stages power down. -/
def State.standbyEntry (s : State) : State :=
  if s.outOfReset && !s.power.standby then
    (State.streamStandby { s with power := { s.power with standby := true } }).dropOutputs
  else s

def execStandbyEntry (level : PinLevel) (s : State) : Out :=
  .next ((advance level.dt s).onPin .stbyN false level.width fun t => t.standbyEntry)

/-- STANDBY_EXIT (R411, R561): the port goes to DOWN; the AO domain is powered again where it is wanted. -/
def State.standbyExit (s : State) : State :=
  if s.power.standby then
    let t := State.streamResume { s with power := { s.power with standby := false } }
    if t.cal.startupDone && t.aoWanted && !t.domainHeld 9 then
      State.powered 9 { t with ao := { t.ao with up := true } }
    else t
  else s

def execStandbyExit (level : PinLevel) (s : State) : Out :=
  .next ((advance level.dt s).onPin .stbyN true level.width fun t => t.standbyExit)

/-- AO_DOMAIN_POWER_DOWN (R556, R559): in standby, once both pin switches are open. -/
def State.aoDown (s : State) : State :=
  if s.power.standby && !(OutNo.all.any fun o => (s.ao.outs.get o).st == .driven) then
    { s with ao := { s.ao with up := false } }
  else s

def execAoDomainPowerDown (dt : Nat) (s : State) : Out := .next (advance dt s).aoDown

/-! ### Supply and temperature faults (R578); levels in mV, temperatures in 1/128 °C -/

/-- V33_RANGE_FAULT. -/
def execV33RangeFault (dt : Nat) (v33 vin : Nat) (s : State) : Out :=
  let t := advance dt s
  .next (t.when (t.outOfReset && (decide (v33 < 3100) || decide (3500 < v33)) && decide (6000 ≤ vin)) fun t =>
    t.raise 0x84 0xFF (sat32 v33) (sat32 vin))

/-- V33_RANGE_CLEAR: 1 ms without the condition. -/
def execV33RangeClear (dt : Nat) (s : State) : Out := .next ((advance dt s).clearFault 0x84 0xFF)

/-- VIN_OVERVOLTAGE. -/
def execVinOvervoltage (dt : Nat) (vin : Nat) (s : State) : Out :=
  let t := advance dt s
  .next (t.when (t.outOfReset && decide (28500 < vin)) fun t => t.raise 0x85 0xFF (sat32 vin) 0)

/-- VIN_OVERVOLTAGE_CLEAR: 1 ms at or below 28.0 V. -/
def execVinOvervoltageClear (dt : Nat) (s : State) : Out := .next ((advance dt s).clearFault 0x85 0xFF)

/-- Whole hours since reset release (R578). -/
def State.hours (s : State) : Nat := (s.clock - s.core.releasedAt) / (3600 * Config.sec)

/-- VBAT_CHECK (R578): the firmware's check at start-up, and the one of every whole hour after reset release. -/
def State.vbatCheck (s : State) (vbat : Nat) : State :=
  if s.fwRuns && decide (s.power.vbatDone ≤ s.hours) then
    let t := { s with power := { s.power with vbatDone := s.hours + 1 } }
    if vbat < 1800 then t.log 0x86 0xFF (sat32 vbat) 0 else t
  else s

def execVbatCheck (dt : Nat) (vbat : Nat) (s : State) : Out := .next ((advance dt s).vbatCheck vbat)

/-- The readings have said so since `since`, for 1 s (R578). -/
def State.forOneSecond (s : State) (since : Option Nat) : Bool :=
  match since with | some t => decide (Config.sec ≤ s.clock - t) | none => false

/-- DIE_OVERTEMPERATURE: every reading above 125 °C for 1 s. -/
def execDieOvertemperature (dt : Nat) (s : State) : Out :=
  let t := advance dt s
  .next (t.when (t.outOfReset && t.forOneSecond t.sens.hotFrom) fun t => t.raise 0x87 0xFF (BitVec.ofInt 32 t.sens.die) 0)

/-- DIE_OVERTEMPERATURE_CLEAR: every reading at or below 120 °C for 1 s. -/
def execDieOvertemperatureClear (dt : Nat) (s : State) : Out :=
  let t := advance dt s
  .next (t.when (t.forOneSecond t.sens.coolFrom) fun t => t.clearFault 0x87 0xFF)

end Sys2Proof.Machine
end

