-- ==== Sys2Proof/Machine/Boot.lean ====
section
/-! DEFINITION. Reset, start-up, timebase, core and domain restarts, drift checks and the skeins the firmware closes by the
clock (chapters 02, 03, 18), with the meanings of their commands. -/

namespace Sys2Proof.Machine
open Sys2Proof

/-! ### Full reset (R579 to R582, R588) -/

/-- The start reason a cause is recorded under (R579, R595); a supply reset is told from one in brace by the state, which a
reset asserted earlier in the same cycle has ended. -/
def State.causeCode (s : State) : ResetCause → Byte
  | .powerGood => 0x01
  | .supply => if s.power.brace then 0x02 else 0x01
  | .supplyInBrace => if s.power.brace || s.core.boot == .inReset then 0x02 else 0x01
  | .pin _ => 0x03
  | .restartLimit => 0x04
  | .service => 0x05

/-- The keep domain at an assertion (R63, R580): the count of off ticks starts where a session ends. -/
def State.keepAtReset (s : State) (code : Byte) : Keep :=
  { s.keep with
    cause := code, assertedAt := s.clock, assertedTo := s.cycleFrom (s.cycle + 1)
    offTicks := if s.tb.epochSet then 0 else s.keep.offTicks
    lost := if s.tb.epochSet then false else s.keep.lost
    counting := true }

/-- What a full reset leaves of the leave logic: LEAVE released, the line as last recognised (R575). -/
def State.leaveAtReset (s : State) : Leave :=
  if s.drivesLeave then { Leave.reset with idle := true, roseAt := s.clock }
  else { Leave.reset with idle := s.leave.idle, roseAt := s.leave.roseAt, fellAt := s.leave.fellAt }

/-- The clock value up to which a cause that has a time of its own holds the reset: 100 µs for 0x04 and 0x05 (R579). -/
def State.holdOf (s : State) (code : Byte) : Nat :=
  if code = 0x04 ∨ code = 0x05 then s.clock + 100 * Config.us else s.clock

/-- A full reset is asserted (R55, R321, R580, R582, R588, R598): every domain but keep loses power. A cause that arises in a
reset is recorded only in the cycle of its assertion, the lowest code of them; the reset lasts as long as any of them. -/
def State.fullReset (s : State) (cause : ResetCause) : State :=
  let code := s.causeCode cause
  if s.core.boot == .inReset then
    let t := { s with core := { s.core with heldTo := max s.core.heldTo (s.holdOf code) } }
    if s.clock < s.keep.assertedTo ∧ code < s.keep.cause then { t with keep := { s.keep with cause := code } }
    else t
  else
    let t := s.cutOp
    { State.reset with
      clock := t.clock, free := t.free, pending := t.pending
      keep := s.keepAtReset code
      core := { Core.reset with heldTo := s.holdOf code }
      leave := s.leaveAtReset
      snap := { Snap.reset with load := s.snap.load }
      flash := { t.flash with erases := [], head := 0, tail := 0, jnext := 0, worn := [] }
      svc := { Service.reset with fuse := if s.svc.fuse = .driving then .disturbed else s.svc.fuse } }

/-- A reset cause stands: RESET_N must have been low for long enough (R97, R579). -/
def State.resetBy (s : State) (cause : ResetCause) : State :=
  match cause with
  | .pin low => s.onPin .resetN false low fun t => t.fullReset cause
  | _ => s.fullReset cause

/-- RESET_ASSERT (R579, R580). -/
def execResetAssert (dt : Nat) (cause : ResetCause) (s : State) : Out := .next ((advance dt s).resetBy cause)

/-! ### The firmware image (R629) -/

/-- The image length of the header. -/
def State.imageLen (s : State) : Nat := s.flashNat 4 4

/-- Constant and length of the header are right. -/
def State.headerOk (s : State) : Bool :=
  s.flashNat 0 4 == 0x4D49434C && decide (0x10 ≤ s.imageLen) && decide (s.imageLen ≤ 0x17C000)

/-- The CRC the check computes, 0 with a wrong constant or length. -/
def State.imageCrc (s : State) : BitVec 32 := if s.headerOk then crc32 (s.flashGets 0x10 (s.imageLen - 0x10)) else 0

/-- The image check: an uncorrectable word in the image fails it. -/
def State.imageOk (s : State) : Bool := s.headerOk && !s.badIn 0 s.imageLen && s.imageCrc.toNat == s.flashNat 0x0C 4

/-! ### Start-up (R583 to R587) -/

/-- The fuse as it is sensed at reset release (R632). -/
def senseFuse (f : Fuse) (sense : FuseSense) : Fuse :=
  if f = .blown then .blown else match sense with | .intact => .intact | .between => .blown | .blown => .blown

/-- The watchdog's 2 s (R589). -/
def dogTime : Nat := 2 * Config.sec

/-- The release qualification of every cause that has a time of its own has run (R579, R582). -/
def State.releaseDue (s : State) : Bool := decide (s.core.heldTo ≤ s.clock)

/-- RESET_RELEASE (R582, R601, R629, R632): step 1 begins; a failed image check holds the core with fault 0xF1. -/
def State.resetRelease (s : State) (sense : FuseSense) : State :=
  if s.core.boot == .inReset && s.releaseDue then
    let ok := s.imageOk
    let t := { s with
      core := { s.core with boot := if ok then .straps else .held, releasedAt := s.clock,
                              dogAt := s.clock + dogTime }
      cab := { s.cab with scrubAt := s.clock }
      svc := { s.svc with fuse := senseFuse s.svc.fuse sense, verified := ok } }
    if ok then t else t.raise 0xF1 0xFF 0 0
  else s

def execResetRelease (dt : Nat) (sense : FuseSense) (s : State) : Out := .next ((advance dt s).resetRelease sense)

/-- The strap image of a read (R92 to R96, R98). -/
def strapImage (r : StrapRead) (at_ : Nat) : Strap :=
  let failed := strapReadFailed r
  let pin (i : Nat) : PinImage := pinImage failed i (pick r.pass1 i) (pick r.pass2 i)
  { latched := true, pins := (List.range 22).map pin, sbyte := r.sbyte, failed := failed, at_ := at_, driftSec := 0, driftDone := 0,
    driftOwed := none, drift := List.replicate 23 { prev := none, inDrift := false } }

/-- Faults of a strap read: 0x93 alone, or 0x91 for each ambiguous pin (R94). -/
def State.strapFaults (s : State) : State :=
  if s.strap.failed then s.raise 0x93 0xFF 0 0
  else s.strap.pins.zipIdx.foldl (fun t p =>
    if p.1.amb then t.raise 0x91 (BitVec.ofNat 8 p.2) (p.1.reading.setWidth 32) 0 else t) s

/-- An enabled channel as the strap latch leaves it: absent, counting from 0, its threshold set (R112, R149, R160). -/
def State.startChannel (s : State) (n : Chan) : State :=
  if s.enabled n then
    s.modChan n fun c =>
      { c with st := .absentDown, count := 0, dac := if s.autoLevel then 0 else dacCode (s.fixedThreshold n) 1 }
  else s

/-- STRAP_LATCH (R85, R86, R89, R90, R149, R438, R450, R555, R583): the end of step 1. -/
def State.strapLatch (s : State) (r : StrapRead) : State :=
  if s.core.boot == .straps then
    let t := { s with strap := strapImage r s.clock }
    let t := (t.eachChan fun n t => t.startChannel n).strapFaults
    { t with
      core := { t.core with boot := .recovery }
      snap := { t.snap with up := true, version := BitVec.ofNat 32 (t.flashNat 8 4) }
      port := { t.port with st := if t.streamOff then .off else if t.power.standby then .standby else .down
                            pausedFrom := .down }
      fol := { t.fol with st := if t.hasPhase then 1 else 0 }
      flash := { t.flash with jnext := t.findJournalNext } }
  else s

def execStrapLatch (dt : Nat) (r : StrapRead) (s : State) : Out := .next ((advance dt s).strapLatch r)

/-- The session row counter as a start takes it: the larger of flash and valid keep copy (R58). -/
def State.lastSession (s : State) : Nat :=
  let f := s.rowValue .session
  if s.keep.valid then max f s.keep.copy else f

/-- SESSION_COMMIT (R57, R58, R75, R583): under leave, step 3; step 4 arms the tasks and enables the PLL. -/
def State.sessionCommit (s : State) : State :=
  if s.core.boot == .commit && s.mayWork .flashProgram && s.rowReady .session then
    let v := s.lastSession
    let t := State.rowAdvance .session (v + 1 - s.rowValue .session) s
    let t := { t with
      keep := { t.keep with copy := v + 1, valid := true }
      tb := { t.tb with
        session := BitVec.ofNat 16 (v + 1), sessionValid := true, pllOn := true, refinAt := s.clock
        start := { StartRecord.reset with
          newSession := BitVec.ofNat 16 (v + 1), prevSession := BitVec.ofNat 16 v,
          keepLost := !s.keep.valid || s.keep.lost } }
      core := { t.core with boot := .pll } }
    let t := (t.releaseFor .flashProgram).armStartup
    if s.keep.valid then t else t.log 0x26 0xFF 0 0
  else s

def execSessionCommit (dt : Nat) (s : State) : Out := .next (advance dt s).sessionCommit

/-! ### PLL and REFIN (R39 to R44, R75) -/

/-- PLL_LOCK (R39, R48): start-up goes on to the epoch; faults 0x20 and 0x22 clear. -/
def State.pllLock (s : State) : State :=
  if s.core.boot == .pll && s.tb.pllOn then
    let t := { s with
      tb := { s.tb with locked := true, lockAt := s.clock, refin := true }
      core := { s.core with boot := .epoch } }
    (t.clearFault 0x20 0xFF).clearFault 0x22 0xFF
  else s

def execPllLock (dt : Nat) (s : State) : Out := .next (advance dt s).pllLock

/-- REFIN_ACTIVITY_CHANGE (R75): both counts restart; a held fault whose condition ends clears. -/
def State.refinChange (s : State) (active : Bool) : State :=
  if s.tb.refin = active then s
  else
    let t := { s with tb := { s.tb with refin := active, refinAt := if s.core.boot = Boot.pll then s.clock else s.tb.refinAt } }
    if active then t.clearFault 0x20 0xFF else t.clearFault 0x22 0xFF

def execRefinActivityChange (dt : Nat) (active : Bool) (s : State) : Out := .next ((advance dt s).refinChange active)

/-- REFIN_ACTIVITY_TIMEOUT (R75): no activity for 100 ms at the PLL step. -/
def execRefinActivityTimeout (dt : Nat) (s : State) : Out :=
  let t := advance dt s
  .next (t.when (t.core.boot == .pll && !t.tb.refin && decide (100 * Config.ms ≤ t.clock - t.tb.refinAt)) fun t =>
    t.raise 0x20 0xFF 0 0)

/-- PLL_LOCK_TIMEOUT (R75): REFIN active and not locked within 5 ms. -/
def execPllLockTimeout (dt : Nat) (s : State) : Out :=
  let t := advance dt s
  .next (t.when (t.core.boot == .pll && t.tb.refin && decide (5 * Config.ms ≤ t.clock - t.tb.refinAt)) fun t =>
    t.raise 0x22 0xFF 0 0)

/-- PLL_UNLOCK (R42, R75, R505): holdover, fault 0x21, and no run goes on. An unlock before the epoch takes start-up back to
the PLL step (R41). -/
def State.pllUnlock (s : State) : State :=
  if !s.tb.locked then s
  else if s.tb.epochSet then
    let t := { s with
      tb := { s.tb with locked := false, holdover := true, holdEntry := s.tb.time, holdExit := 0 }
      cal := { s.cal with passed := false } }
    let t := ((t.flagGates fun g => { g with holdover := true }).raise 0x21 0xFF 0 0).abandonRun
    (t.dropRequest .fullRun).releaseFor .fullRun
  else if s.core.boot == .epoch then
    { s with tb := { s.tb with locked := false, refinAt := s.clock }, core := { s.core with boot := .pll } }
  else s

def execPllUnlock (dt : Nat) (s : State) : Out := .next (advance dt s).pllUnlock

/-- PLL_RELOCK (R44): the time counter goes on without a step; a rejoin run that waited for the lock begins (R486). -/
def State.pllRelock (s : State) : State :=
  if s.tb.epochSet && s.tb.holdover then
    (State.clearFault { s with tb := { s.tb with locked := true, holdover := false, holdExit := s.tb.time } } 0x21
      0xFF).resumeJoin
  else s

def execPllRelock (dt : Nat) (s : State) : Out := .next (advance dt s).pllRelock

/-! ### The epoch (R48 to R54, R583, R586) -/

/-- The session start record of a start after reset (R62, R66, R581). -/
def State.startRecord (s : State) (source : BitVec 2) : StartRecord :=
  let r := s.tb.start
  { r with
    reason := if r.keepLost then 0x01 else s.keep.cause
    source := source
    offTicks := if r.keepLost then 0 else s.keep.offTicks }

/-- The epoch on a channel: the 10 s of fault 0x11 run, and the first interval opens (R164, R259). -/
def State.chanAtEpoch (s : State) (n : Chan) : State :=
  let c := s.countBy n s.clock
  (s.modChan n fun ch => { ch with missingAt := s.clock }).modStat n fun st =>
    { st with boundCount := c, boundAt := 0, gated := false, span := some (s.newGate n 0 c false) }

/-- Step 6 of start-up ends once the start status, the echo and the pre-epoch fault skeins have closed, which carry time 0: the
channel step begins with the channels that are qualified then (R179, R583, R586). -/
def State.stepSix (s : State) : State :=
  if s.core.boot == .skeins && s.pack.echoDone && s.pack.ctlQueue.isEmpty && s.faults.events.all (fun e => e.time != 0) then
    State.settleBoot { s with
      chan := s.chan.map fun c => { c with startJoin := c.st == .qualified }
      core := { s.core with boot := .chans } }
  else s

/-- The epoch is set at a clock value, up to which time passes where it lies ahead (R48 to R51, R63); step 6
begins with the start status and the echo (R62, R350, R583). -/
def State.setEpoch (s : State) (source : BitVec 2) (epoch : Nat) : State :=
  let s := advance (epoch - s.clock) s
  let t := { s with
    tb := { s.tb with
      epochSet := true, time := BitVec.ofNat 64 (s.clock - epoch), era := 0, wrapped := false, epochClock := epoch
      start := s.startRecord source
      originId := BitVec.ofNat 4 s.unitId, originSession := s.tb.session, ppsCount := 0 }
    keep := { s.keep with counting := false, lost := false }
    fol := { s.fol with unlockedAt := epoch }
    core := { s.core with boot := .skeins } }
  let t := t.eachChan fun n t => t.chanAtEpoch n
  let t := t.write typeStatus (t.statusBody 0 epoch true) false
  let t := t.power.early.foldl (fun t m => t.hwMarker (.brace 0 m.1 m.2)) t
  State.stepSix { t.write typeEcho t.echoBody false with power := { t.power with early := [] } }

/-- The first coarse boundary of the locked PLL at or after a clock value (R48). -/
def State.boundaryFrom (s : State) (c : Nat) : Nat :=
  c + (Config.pllPhase s.tb.lockAt + Config.coarse * c - c) % Config.coarse

/-- EPOCH_SET (R48, R52): with PPS off, at the first coarse boundary after 1 ms of lock. -/
def State.epochFree (s : State) : State :=
  if s.core.boot == .epoch && !s.tb.epochSet && s.tb.locked && s.ppsUse == 0 &&
      decide (Config.ms ≤ s.clock - s.tb.lockAt) then s.setEpoch 0 (s.boundaryFrom (s.tb.lockAt + Config.ms))
  else s

def execEpochSet (dt : Nat) (s : State) : Out := .next (advance dt s).epochFree

/-- 2.5 s in qps (R51). -/
def epochWait : Nat := 2500 * Config.ms

/-- EPOCH_PPS_TIMEOUT (R51): no edge within 2.5 s of lock; the epoch is the first coarse boundary from there on. -/
def State.epochTimeout (s : State) : State :=
  if s.core.boot == .epoch && !s.tb.epochSet && s.tb.locked && s.ppsUse != 0 &&
      decide (epochWait ≤ s.clock - s.tb.lockAt) then
    (s.log 0x23 0xFF 0 0).setEpoch 3 (s.boundaryFrom (s.tb.lockAt + epochWait))
  else s

def execEpochPpsTimeout (dt : Nat) (s : State) : Out := .next (advance dt s).epochTimeout

/-- The offset of an instant from the nearest whole second (R53); of two as near either (log 16). -/
def ppsOffsetOf (full : Nat) : Int := (full : Int) - (Config.sec : Int) * roundDiv full Config.sec

/-- The offset of a captured edge is kept, and one beyond 1 µs is a fault (R53, R75). -/
def State.ppsNote (s : State) (d : Int) : State :=
  let t := { s with tb := { s.tb with ppsOffset := BitVec.ofInt 64 d, lastPps := some s.clock, gapSaid := false } }
  if 4000000 < d.natAbs then t.log 0x24 0xFF 0 0 else t

/-- The check of an edge (R53, R75). -/
def State.ppsCheck (s : State) : State := s.ppsNote (ppsOffsetOf s.coarseNow)

/-- The edge opens a tether second; it switches an armed adoption and drops one not armed by then (R605, R614). -/
def State.tetherSecond (s : State) : State :=
  if s.tethered then
    { s with tether := { s.tether with
        openedAt := some s.clock, lowest := none, sent := false, checked := false, kept := none
        edgeAt := if s.tether.armed.isSome then some s.clock else s.tether.edgeAt } }
  else s

/-- The epoch's error within its bound: ±0.8 ns after a rise time of up to 5 ns, ±2.5 ns up to 20 ns, and none given for a
slower edge (R50, R644). -/
def ppsWithin (rise : Nat) (err : Int) : Int :=
  if rise ≤ 5000 then clipInt (-3200) 3200 err else if rise ≤ 20000 then clipInt (-10000) 10000 err else err

/-- The epoch an edge sets lies within R50's bound of it: where, is a free value (R50, R644, log 61). -/
def State.ppsEpoch (s : State) : Nat :=
  ((s.clock : Int) + ppsWithin (Config.ppsRise s.clock) (Config.ppsError s.clock)).toNat

/-- An edge with the epoch set (R53, R54, R605). -/
def State.ppsLater (s : State) : State :=
  let t := { s with tb := { s.tb with ppsCount := s.tb.ppsCount + 1 } }
  (if s.ppsUse = 2 then t.ppsCheck else t).tetherSecond

/-- PPS_EDGE (R49 to R51, R53, R54, R605): the first edge after lock is the epoch, its own offset 0, unless it comes more
than 2.5 s after the lock. -/
def State.ppsEdge (s : State) : State :=
  if s.ppsUse == 0 || !s.strap.latched then s
  else if s.tb.epochSet then s.ppsLater
  else if s.core.boot == .epoch && s.tb.locked then
    if epochWait < s.clock - s.tb.lockAt then s.epochTimeout.ppsLater
    else
      let t := s.setEpoch 1 s.ppsEpoch
      (if s.ppsUse = 2 then t.ppsNote 0 else t).tetherSecond
  else s

def execPpsEdge (dt : Nat) (s : State) : Out := .next (advance dt s).ppsEdge

/-- PPS_GAP_TIMEOUT (R54). -/
def State.ppsGap (s : State) : State :=
  match s.tb.lastPps with
  | some e =>
    if s.ppsUse == 2 && !s.tb.gapSaid && decide (3 * Config.sec < 2 * (s.clock - e)) then
      State.log { s with tb := { s.tb with gapSaid := true } } 0x25 0xFF 0 0
    else s
  | none => s

def execPpsGapTimeout (dt : Nat) (s : State) : Out := .next (advance dt s).ppsGap

/-- TIME_COUNTER_WRAP (R68): time passes up to the wrap. -/
def execTimeCounterWrap (s : State) : Out :=
  .next (if s.tb.epochSet then advance (2 ^ 64 - s.tb.time.toNat) s else s)

/-! ### The keep domain (R63 to R66) -/

/-- KEEP_TICK (R63, R64). -/
def State.keepTick (s : State) : State :=
  let k := s.keep
  if k.counting then
    { s with keep := { k with offTicks := if k.offTicks = 0xFFFFFFFFFF then k.offTicks else k.offTicks + 1 } }
  else s

def execKeepTick (dt : Nat) (s : State) : Out := .next (advance dt s).keepTick

/-- KEEP_DOMAIN_VBAT_LOSS (R66): with VIN absent the unit is in reset. -/
def State.keepLoss (s : State) : State :=
  if s.core.boot == .inReset then { s with keep := { s.keep with valid := false, lost := true, offTicks := 0 } } else s

def execKeepDomainVbatLoss (dt : Nat) (s : State) : Out := .next (advance dt s).keepLoss

/-! ### Core restart (R589 to R593) -/

/-- Core restarts of the last 60 s. -/
def State.recentRestarts (s : State) : List Nat := s.core.restarts.filter fun r => decide (s.clock - r < 60 * Config.sec)

/-- A core restart begins; the third within 60 s is a full reset instead (R590, R592). -/
def State.beginRestart (s : State) (pc : Option (BitVec 32)) : State :=
  let recent := s.recentRestarts
  if 2 ≤ recent.length then s.fullReset .restartLimit
  else
    let t := { s with core := { s.core with restarting := some s.clock, restartPc := pc, restarts := s.clock :: recent } }
    t.dropHold.withdrawLeave

/-- WATCHDOG_EXPIRY (R589): the watchdog counts while the core runs. When the firmware services it is the firmware's own work, so
an expiry is left to the command, but none comes before 2 s of counting (log 72). -/
def execWatchdogExpiry (dt : Nat) (pc : BitVec 32) (s : State) : Out :=
  let t := advance dt s
  .next (t.when (t.fwRuns && decide (t.core.dogAt ≤ t.clock)) fun t => t.beginRestart (some pc))

/-- FIRMWARE_FETCH_ERROR (R593, R601): the word reads uncorrectable from then on. -/
def State.fetchError (s : State) (sector offset : Nat) : State :=
  if s.fwRuns then
    let t := s.markBad [8 * ((4096 * sector + offset) / 8)]
    (t.log 0xF3 0xFF (BitVec.ofNat 32 sector) (BitVec.ofNat 32 offset)).beginRestart none
  else s

def execFirmwareFetchError (dt : Nat) (sector offset : Nat) (s : State) : Out :=
  .next ((advance dt s).fetchError sector offset)

/-- Steps 1 and 2 of R591: open entries are resolved by JOURNAL_RECOVERY, each under a leave hold of its own, for which leave is
asked; with none open the index is built at once. A restart within the recovery step finds that step still to do (log 41). -/
def State.restartRecovery (s : State) : State :=
  if !s.core.recovered then s
  else if s.nextOpen.isSome then State.requestLeave { s with core := { s.core with recovering := true } } .flashErase
  else s.restartIndex

/-- Step 3 for a joining channel: to state 2 with fault 0x16. -/
def State.restartJoin (s : State) (n : Chan) : State :=
  if (s.chan.get n).st == .joining then
    let t := (s.goAbsentUp n).gapMarkers n true s.cycleNow
    ((t.releaseFor (.join n)).releaseFor (.startupPower n)).log 0x16 (BitVec.ofNat 8 n.val) 0 0
  else s

/-- Step 3: suspensions end; a full run cut off is asked for again. -/
def State.restartRun (s : State) : State :=
  let full := match s.cal.run with | some r => if r.rejoin.isNone then some r.trigger else none | none => none
  let t := { s with cal := { s.cal with run := none, checking := none, joinPassed := false, joinWaits := none } }
  let t := match full with
    | some g =>
      (State.endSuspension { t with cal := { t.cal with pending := some (t.cal.pending.getD g), passed := false } } s.cycleNow).releaseFor .fullRun
    | none => t
  (t.eachChan fun n t => t.restartJoin n).settleBoot

/-- Step 4 and what a restart loses: written control skeins but for those of raises and clears, markers not yet placed, results
that wait for no flash operation (steps 4 and 6 of R591). The start status and echo of a session that has not closed its echo
are the firmware's next work and stay. -/
def State.restartLosses (s : State) : State :=
  { s with
    pack := { s.pack with ctlQueue :=
      if s.pack.echoDone then s.pack.ctlQueue.filter fun c => c.typ == typeFault else s.pack.ctlQueue }
    chain := { s.chain with fwWait := [] }
    sched := { s.sched with owed := [] }
    cal := { s.cal with results := if s.readOnly then [] else s.cal.results.filter fun r => !r.abandoned }
    port := { s.port with introOwed := false, introClosed := s.port.introClosed && !(s.port.aligning && s.introWaits) }
    strap := { s.strap with driftOwed := none, drift := s.strap.drift.map fun d => { d with prev := none } } }

/-- Step 5: an output that was establishing goes to state 7. -/
def State.restartOutput (s : State) (o : OutNo) : State :=
  let a := s.ao.outs.get o
  if a.st == .leaving || a.st == .powering || a.st == .breaking || a.st == .ready then
    ((s.modOut o fun a => { a with st := .faulted, faultAt := s.clock, wait := 1 }).dropRequest (.stagePower o)).releaseFor
      (.stagePower o)
  else s

/-- The steps of R591 but the last. -/
def State.restartSteps (s : State) : State :=
  let t := { s with core := { s.core with restarting := none, dogAt := s.clock + dogTime } }
  let t := t.restartLosses.restartRecovery.restartRun
  (t.eachOut fun o t => t.restartOutput o).resumeLeave

/-- CORE_RESTART (R591): the restarted firmware resumes; fault 0xF2 after a watchdog expiry. -/
def State.coreRestart (s : State) : State :=
  if s.core.restarting.isSome && !s.core.halted then
    let t := s.restartSteps
    match s.core.restartPc with
    | some pc =>
      State.log { t with core := { t.core with restartPc := none } } 0xF2 0xFF pc (BitVec.ofNat 32 s.recentRestarts.length)
    | none => t
  else s

def execCoreRestart (dt : Nat) (s : State) : Out := .next (advance dt s).coreRestart

/-! ### Domain resets (R594, R595) -/

/-- The domain is powered. -/
def State.domainUp (s : State) (dom : Nat) : Bool :=
  if dom < 8 then (s.chan.get (Fin.ofNat 8 dom)).up
  else if dom = 8 then s.port.up
  else if dom = 9 then s.ao.up
  else s.snap.up

/-- A joining channel gives its join up at once (R594). A rejoin run ended so closes no calibration report, for which Table —
Calibration report has no outcome code (R352, log 69). -/
def State.dropJoin (s : State) (n : Chan) : State :=
  let rej := match s.cal.run with | some r => r.rejoin == some n | none => false
  let t := if rej then { s with cal := { s.cal with run := none } } else s
  let t := ((t.releaseFor (.join n)).releaseFor (.startupPower n)).gapMarkers n true s.cycleNow
  ((t.goAbsentUp n).log 0x16 (BitVec.ofNat 8 n.val) 0 0).settleJoin.settleBoot

/-- Table — Domain resets, at the fault. -/
def State.takeDown (s : State) (dom : Nat) : State :=
  if dom < 8 then
    let n : Chan := Fin.ofNat 8 dom
    let c := s.chan.get n
    let t := if (c.st == .present || c.st == .suspended) && c.loss.isNone then s.loseChannel n
             else if c.st == .joining then s.dropJoin n else s
    t.modChan n fun c => { c with up := false }
  else if dom = 8 then s.streamDown .down
  else if dom = 9 then
    let t := s.dropOutputs
    { t with ao := { t.ao with up := false } }
  else s.modSnap fun p => { p.releaseAll with up := false }

/-- DOMAIN_POWER_FAULT (R594, R595). -/
def State.domainFault (s : State) (dom : Nat) : State :=
  if s.outOfReset && s.domainUp dom then
    let n := min 3 (s.power.fails.getD dom 0 + 1)
    let t := { s with power := { s.power with
      fails := s.power.fails.set dom n
      downAt := (dom, s.clock) :: s.power.downAt.filter fun d => d.1 != dom } }
    (t.raiseAgain 0xF4 (BitVec.ofNat 8 dom) (BitVec.ofNat 32 n) 0).takeDown dom
  else s

def execDomainPowerFault (dt : Nat) (dom : Fin 11) (s : State) : Out := .next ((advance dt s).domainFault dom.val)

/-- Table — Domain resets, at power-up again. The stream domain waits for a discovery (R424), the AO domain for the end of
standby. -/
def State.bringUp (s : State) (dom : Nat) : State :=
  if dom < 8 then
    let n : Chan := Fin.ofNat 8 dom
    let t := s.modChan n fun c => { c with up := true }
    if (s.chan.get n).st == .absentDown then State.powered dom (t.goAbsentUp n) else State.powered dom t
  else if dom = 8 then s
  else if dom = 9 then
    if s.power.standby then s else State.powered dom { s with ao := { s.ao with up := true } }
  else State.powered dom (s.modSnap fun p => { p with up := true })

/-- DOMAIN_RESTORE (R594, R595): 10 ms after the fault; a domain at its third failure in a row stays down. -/
def State.domainRestore (s : State) (dom : Nat) : State :=
  match s.power.downAt.find? fun d => d.1 == dom with
  | some d =>
    if decide (10 * Config.ms ≤ s.clock - d.2) && decide (s.power.fails.getD dom 0 < 3) then
      State.bringUp { s with power := { s.power with downAt := s.power.downAt.filter fun d => d.1 != dom } } dom
    else s
  | none => s

def execDomainRestore (dt : Nat) (dom : Fin 11) (s : State) : Out := .next ((advance dt s).domainRestore dom.val)

/-- DOMAIN_FAULT_CLEAR (R595): powered for 1 s without a further fault. -/
def State.domainClear (s : State) (dom : Nat) : State :=
  match s.power.upAt.find? fun d => d.1 == dom with
  | some d =>
    if s.domainUp dom && decide (Config.sec ≤ s.clock - d.2) then
      State.clearFault { s with power := { s.power with fails := s.power.fails.set dom 0 } } 0xF4 (BitVec.ofNat 8 dom)
    else s
  | none => s

def execDomainFaultClear (dt : Nat) (dom : Fin 11) (s : State) : Out := .next ((advance dt s).domainClear dom.val)

/-! ### Drift checks (R99 to R105) -/

/-- The latched and the observed state byte of a drift read (R100, R336). The SBYTE reading is its level. -/
def State.driftStates (s : State) (pin reading : Nat) : Byte × Byte :=
  if pin = 22 then (BitVec.ofNat 8 (boolNat s.strap.sbyte), BitVec.ofNat 8 (boolNat (reading != 0)))
  else
    let latched : Byte := match s.strap.pins[pin]? with
      | some i => if i.amb then 0x10 else i.raw.setWidth 8
      | none => 0
    let seen : Byte := match decodeReading reading with | some c => BitVec.ofNat 8 c | none => 0x10
    (latched, seen)

/-- The drift check reads each pin once in a whole second counted from the strap latch, in pin index order and SBYTE last (R99):
what the read of a pin now makes of the count, none where its turn has been. A read that a stall has carried past its second
comes beside those of the second now (R30, log 73). -/
def Strap.driftTurn (p : Strap) (clock pin : Nat) : Option Strap :=
  let sec := p.secondOf clock
  if (match p.driftOwed with | some n => decide (n ≤ pin) | none => false) then
    some { p with driftOwed := if pin < 22 then some (pin + 1) else none }
  else if (if p.driftSec = sec then p.driftDone else 0) ≤ pin then
    some { p with driftSec := sec, driftDone := pin + 1, driftOwed := none }
  else none

/-- DRIFT_CHECK_READ (R99 to R105): a read in brace or in a calibration run is skipped, and its turn is over. Before the epoch
an entry has no time to carry, so it forms no marker (log 30). The reading of a marker for SBYTE, which has a level alone,
is that level as the command gives it (log 59). -/
def State.driftRead (s : State) (pin reading : Nat) : State :=
  match s.strap.drift[pin]?, s.strap.driftTurn s.clock pin with
  | some d, some p =>
    if !s.fwRuns || !s.strap.latched then s
    else if s.power.brace || s.cal.run.isSome then { s with strap := p }
    else
      let (latched, seen) := s.driftStates pin reading
      let off := seen != latched
      let turn := d.prev == some off && off != d.inDrift
      let d' : DriftPin := { prev := some off, inDrift := if turn then off else d.inDrift }
      let t := { s with strap := { p with drift := p.drift.set pin d' } }
      if turn then
        let m := Stitch.drift s.tb.time (sat16 reading) (BitVec.ofNat 8 pin) (if off then 1 else 2) latched seen
        let t := if s.tb.epochSet then t.fwMarker m else t
        (if off then t.log 0x92 (BitVec.ofNat 8 pin) 0 0 else t).writeFw
      else t
  | _, _ => s

def execDriftCheckRead (dt : Nat) (pin : Fin 23) (reading : Nat) (s : State) : Out :=
  .next ((advance dt s).driftRead pin.val reading)

/-! ### Skeins the firmware closes by the clock (R347, R354, R586, R667) -/

/-- STATUS_SKEIN_TIMER (R347): a whole multiple of 10 s of session time lies in this cycle. -/
def State.statusTimer (s : State) : State :=
  match s.gridInstant (10 * Config.sec) with
  | some (k, inst) =>
    if s.tb.epochSet && decide (0 < k) then s.write typeStatus (s.statusBody (BitVec.ofNat 64 inst) (s.clockOf inst) false) false else s
  | none => s

def execStatusSkeinTimer (dt : Nat) (s : State) : Out := .next (advance dt s).statusTimer

/-- CONTROL_SKEIN_CLOSE (R302, R317): in step 6 of start-up the last of its skeins ends the step. -/
def execControlSkeinClose (dt : Nat) (s : State) : Out := .next (advance dt s).closeNextCtl.stepSix

/-- FAULT_SKEIN_CLOSE (R354, R586): the oldest raise, clear or log whose skein is open, after the session's echo and as soon
as the control buffer is free. -/
def State.closeFault (s : State) : State :=
  match s.faults.events with
  | e :: rest =>
    if s.fwRuns && s.pack.echoDone && s.pack.ctlQueue.isEmpty && s.ctlFree then
      (State.control { s with faults := { s.faults with events := rest } } typeFault e.bytes false).stepSix.writeFw
    else s
  | [] => s

def execFaultSkeinClose (dt : Nat) (s : State) : Out := .next (advance dt s).closeFault

/-- LOG_PERIOD_EXPIRY (R667): a period is per channel only for 0x13. -/
def execLogPeriodExpiry (dt : Nat) (code : Byte) (ch : Chan) (s : State) : Out :=
  let t := advance dt s
  .next (t.when t.outOfReset fun t => t.endPeriod code (if code = 0x13 then ch.val else 0))

end Sys2Proof.Machine
end

