-- ==== Sys2Proof/Machine/Tether.lean ====
section
/-! DEFINITION. The tether (chapter 19): announcement frames, the lead, adoption, with the meanings of its commands. -/

namespace Sys2Proof.Machine
open Sys2Proof

/-! ### The frame (R607 to R611) -/

/-- One bit through the CRC-8 register (R608). -/
def crc8Bit (c : Byte) : Byte := if c.msb then (c <<< 1) ^^^ 0x07#8 else c <<< 1

def crc8Byte (c b : Byte) : Byte :=
  crc8Bit (crc8Bit (crc8Bit (crc8Bit (crc8Bit (crc8Bit (crc8Bit (crc8Bit (c ^^^ b))))))))

/-- The CRC-8 of R608. -/
def crc8 (bs : List Byte) : Byte := bs.foldl crc8Byte 0

/-- ERA of a number of seconds (R610). -/
def eraOfSeconds (n : Nat) : Nat := Config.sec * n / 2 ^ 64

/-- An announcement frame (R607). -/
def frameBytes (lead origin : Nat) (session : BitVec 16) (seconds : Nat) : List Byte :=
  let b := [0xA5] ++ le 1 (lead + 8 * origin) ++ le 2 session.toNat ++ le 2 (eraOfSeconds seconds) ++ le 5 seconds
  b ++ [crc8 b]

/-- SECONDS for the tether second that an edge at full time `f` opened (R610). -/
def secondsAfter (f : Nat) : Nat := (roundDiv f Config.sec).toNat + 1

/-- The fields of twelve bytes. -/
def frameOf (b : List Byte) (second : Nat) : Frame :=
  let n := leNat b
  { lead := BitVec.ofNat 3 (n / 2 ^ 8), origin := BitVec.ofNat 3 (n / 2 ^ 11), originSession := BitVec.ofNat 16 (n / 2 ^ 16),
    era := BitVec.ofNat 16 (n / 2 ^ 32), seconds := BitVec.ofNat 40 (n / 2 ^ 48), second := second }

/-- The bytes a receiver reads from the line, none at a Manchester violation (R19, R606). -/
def frameRead : FrameIn → Option (List Byte)
  | .levels l => bytesOfLevels l
  | .violation => none

/-- Why a frame that begins in a slot is rejected (R611, R619); none where it is valid. -/
def frameReason (slot : Option (Fin 8)) (f : FrameIn) : Option Nat :=
  match slot, frameRead f with
  | none, _ => some 5
  | some _, none => some 1
  | some i, some b =>
    let fr := frameOf b 0
    if b.headD 0 ≠ 0xA5 ∨ crc8 (b.take 11) ≠ b.getD 11 0 then some 2
    else if fr.lead.toNat ≠ i.val then some 3
    else if fr.era.toNat ≠ eraOfSeconds fr.seconds.toNat then some 4
    else none

/-! ### The tether second (R605, R612, R613) -/

def State.modTether (s : State) (f : Tether → Tether) : State := { s with tether := f s.tether }

/-- The PPS edge of this second is the start-up epoch or one of the two after it (R612, R613). -/
def State.quiet (s : State) : Bool := decide (s.tb.ppsCount < 3)

/-- TETHER is stuck or the unit's ID is another's (R612, R614, R619). -/
def State.idByte (s : State) : Byte := BitVec.ofNat 8 s.unitId

/-- R612, but for the frames heard in this second. -/
def State.mayLead (s : State) : Bool :=
  s.tethered && s.tb.epochSet && !s.quiet && (s.tb.start.source == 1 || s.tb.start.source == 2) && !s.tb.holdover &&
    !s.faultActive 0xA3 0xFF && !s.faultActive 0xA4 s.idByte

/-- The unit's own slot number. -/
def State.ownSlot (s : State) : Fin 8 := Fin.ofNat 8 s.unitId

/-- A valid frame stands in a slot of this second (R612, R618). -/
def Tether.heard (t : Tether) (i : Fin 8) : Tether :=
  { t with lowest := some (match t.lowest with | some j => min i j | none => i) }

/-- Fault 0xA4 (R619); a recurrence restarts its 10 s. -/
def State.clash (s : State) (detail : Nat) : State :=
  (s.modTether fun t => { t with clashAt := s.clock }).raise 0xA4 s.idByte (BitVec.ofNat 32 detail) 0

/-- The frame the unit sends in this second (R607, R609, R610). -/
def State.ownFrame (s : State) (edge : Nat) : List Byte :=
  frameBytes s.unitId (s.tb.originId.toNat % 8) s.tb.originSession (secondsAfter (s.full - (s.clock - edge)))

/-- From the PPS edge of a tether second to the start of a slot (R605). -/
def slotStart (i : Nat) : Nat := 100 * Config.ms + 1250 * Config.us * i

/-- TETHER_SLOT (R605, R610, R612, R619): the unit's own slot begins in this cycle; a collision aborts its frame. -/
def State.tetherSlot (s : State) (collision : Bool) : State :=
  match s.tether.openedAt with
  | some e =>
    let at_ := slotStart s.unitId
    let lower := match s.tether.lowest with | some j => decide (j.val < s.unitId) | none => false
    if s.mayLead && !lower && !s.tether.sent && decide (at_ ≤ s.clock - e) && decide (s.clock - e < at_ + Config.cycle) then
      let t := s.modTether fun t => { t with sent := true }
      if collision then (t.modTether fun t => { t with line := [] }).clash 2 else t.modTether fun t => { t.heard s.ownSlot with line := frameLevels (s.ownFrame e) }
    else s
  | none => s

/-- The level the unit puts on TETHER, high being the released one: its frame's, two levels a bit cell of 10 µs from the start of
its slot, and released at every other time (R605, R606). -/
def State.tetherLevel (s : State) : Bool :=
  match s.tether.openedAt with
  | some e =>
    let at_ := e + slotStart s.unitId
    if s.tether.sent && decide (at_ ≤ s.clock) then s.tether.line.getD ((s.clock - at_) / (5 * Config.us)) true else true
  | none => true

def execTetherSlot (dt : Nat) (collision : Bool) (s : State) : Out := .next ((advance dt s).tetherSlot collision)

/-- The frame's origin differs from the unit's own (R613). -/
def State.foreign (s : State) (f : Frame) : Bool :=
  !(f.origin.toNat == s.tb.originId.toNat && f.originSession == s.tb.originSession)

/-- The cases of R613 for a frame in slot `i`, `first` if no lower slot of the second held one. -/
def State.adopts (s : State) (i : Fin 8) (first : Bool) : Bool :=
  decide (i.val < s.unitId) || (first && (s.quiet || s.tb.start.source == 3))

/-- A valid frame: the second's lowest slot, the clash of IDs, and the frame kept for the firmware. -/
def State.validFrame (s : State) (i : Fin 8) (f : Frame) : State :=
  let first := match s.tether.lowest with | some j => decide (i ≤ j) | none => true
  let t := s.modTether fun t => t.heard i
  let t := if i.val = s.unitId ∧ !s.tether.sent then t.clash 1 else t
  if s.tb.epochSet && s.foreign f && s.adopts i first && s.tether.kept.isNone then
    t.modTether fun t => { t with kept := some f }
  else t

/-- The slot in which a frame that began `began` qps ago began: within ±20 µs of its start (R611). -/
def State.slotBegun (s : State) (began : Nat) : Option (Fin 8) :=
  s.tether.openedAt.bind fun e => (List.finRange 8).find? fun i =>
    decide (e + slotStart i.val ≤ s.clock - began + 20 * Config.us) &&
      decide (s.clock - began ≤ e + slotStart i.val + 20 * Config.us)

/-- TETHER_FRAME_RECEIVED (R611, R613, R619). -/
def State.frameReceived (s : State) (began : Nat) (f : FrameIn) : State :=
  let slot := s.slotBegun began
  match frameReason slot f, slot, frameRead f with
  | none, some i, some b => s.validFrame i (frameOf b (s.tether.openedAt.getD 0))
  | r, _, _ =>
    let subj : Byte := match slot with | some i => BitVec.ofNat 8 i.val | none => 0xFF
    s.logLimited 0xA2 0 1 subj (BitVec.ofNat 32 (r.getD 0))

def execTetherFrameReceived (dt : Nat) (began : Nat) (f : FrameIn) (s : State) : Out :=
  let t := advance dt s
  .next (t.when (t.tethered && t.tb.epochSet) fun t => t.frameReceived began f)

/-! ### Adoption (R613 to R617) -/

/-- ADOPTION_ARM (R614): firmware work, not in a calibration suspension nor with TETHER stuck, nor before the number an
earlier adoption took is in flash (R59, R60). -/
def State.adoptionArm (s : State) : State :=
  match s.tether.kept with
  | some f =>
    if s.fwRuns && s.cal.run.isNone && s.tb.epochSet && s.foreign f && !s.faultActive 0xA3 0xFF && !s.tb.commitOwed then
      s.modTether fun t => { t with kept := none, armed := some f }
    else s
  | none => s

def execAdoptionArm (dt : Nat) (s : State) : Out := .next (advance dt s).adoptionArm

/-- The switch instant of an edge captured at a clock value, as a clock value: the start of the first back-die cycle that
begins at or after the coarse boundary of the capture; and `d` from that boundary to it (R615). -/
def State.switchOf (s : State) (edge : Nat) : Nat × Nat :=
  let c := s.clockOf (Config.coarse * (s.fullAt edge / Config.coarse))
  let k := s.cycleAt c
  let w := if s.cycleFrom k = c then c else s.cycleFrom (k + 1)
  (w, w - c)

/-- The time counter and era of a frame's scale at the switch instant (R615). -/
def switchTime (f : Frame) (d : Nat) : BitVec 64 := BitVec.ofNat 64 (Config.sec * f.seconds.toNat + d)

/-- An instant of the old scale in the new one. -/
def shiftTime (old new t : Nat) : Nat := new + t - old

/-- A channel at the switch: its gate ends with flag bit 5, its histories start again, its tick grid re-anchors, its
expiries count from 0; count, yarn and state go on, and so does the last edge, from which the next one's gap is
tested (R61, R168, R200, R259, R617, log 55). `old` and `new` are the switch instant's full
times, `w` its clock value. -/
def State.adoptChan (s : State) (n : Chan) (old new w : Nat) : State :=
  let t := if s.enabled n then s.closeInterval n old (s.countBy n w) true else s
  let t := (t.cutSamples n).modStat n fun st =>
    { st with summarised := false }
  t.modChan n fun ch =>
    { ch with
      lastTick := ch.lastTick.map (shiftTime old new), tickAt := shiftTime old new ch.tickAt, presentAt := new
      expired := 0 }

/-- The session start record of an adoption (R62, R617). -/
def State.adoptRecord (s : State) (f : Frame) (session : BitVec 16) (old new w : Nat) : StartRecord :=
  let c (n : Chan) : BitVec 48 := s.countBy n w
  { newSession := session, prevSession := s.tb.session, reason := 0x10, source := 2, keepLost := false, offTicks := 0,
    originId := f.origin.setWidth 4, originSession := f.originSession, leadId := f.lead.setWidth 4,
    swOldTime := BitVec.ofNat 64 old, swOldEra := BitVec.ofNat 16 (old / 2 ^ 64), swNewTime := BitVec.ofNat 64 new,
    swNewEra := BitVec.ofNat 16 (new / 2 ^ 64), swCounts := ⟨c 0, c 1, c 2, c 3, c 4, c 5, c 6, c 7⟩ }

/-- The new session's timebase at the switch instant (R59, R615). -/
def State.adoptTimebase (s : State) (f : Frame) (old new w d : Nat) : Timebase :=
  let session := BitVec.ofNat 16 (s.keep.copy + 1)
  { s.tb with
    oldSession := s.tb.session, oldEra := s.tb.era, oldTime := s.tb.time, oldWrapped := s.tb.wrapped
    time := switchTime f d, era := f.era, wrapped := false, session := session, commitOwed := true
    start := s.adoptRecord f session old new w, originId := f.origin.setWidth 4, originSession := f.originSession
    holdEntry := if s.tb.holdover then BitVec.ofNat 64 (shiftTime old new s.tb.holdEntry.toNat) else 0, holdExit := 0 }

/-- The packer at the switch: numbers start again, and control skeins carry the old session up to the new start status
(R318, R320, R370). -/
def State.adoptPacker (s : State) : State :=
  { s with pack := { s.pack with
      scale := s.pack.scale + 1, oldClosed := s.pack.closed, closed := 0
      oldSeq := s.pack.seq, seq := 0, oldEchoDone := s.pack.echoDone, echoDone := false, ctlOld := true } }

/-- The markers of the drop runs closed at the switch are the firmware's first work, also after a stall (R370). -/
def State.adoptMarkers (s : State) : State :=
  (List.range s.cab.runsClosed.length).foldl (fun t _ => t.takeRun) s

/-- What counts by the session starts again (R249, R295, R348, R353, R414). -/
def State.adoptCounts (s : State) : State :=
  { s with
    faults := { s.faults with seen := [] }
    chain := { s.chain with refusals := 0 }
    fol := { s.fol with coasts := 0, losses := 0 }
    cal := { s.cal with report := none, lastEndTime := 0, lastDie := 0 } }

/-- The start status of the switch instant and the echo (R617). -/
def State.adoptSkeins (s : State) (w : Nat) : State :=
  let t := s.write typeStatus (s.statusBody s.tb.start.swNewTime w true) false
  t.write typeEcho t.echoBody false

/-- The old session's intervals end at the switch instant and the next open, one number on (R259, R617). -/
def State.adoptIntervals (s : State) (old new w : Nat) : State :=
  let t := s.eachChan fun n t => t.adoptChan n old new w
  let t := { t with eng := { t.eng with interval := t.eng.interval + 1 } }
  t.eachChan fun n t => t.openInterval n ((s.stat.get n).gate.isSome && s.enabled n) new (s.countBy n w)

/-- The block at the switch instant: the timebase, the intervals, the packer, the counts and the first skeins of the session
(R615, R617). -/
def State.switchTo (s : State) (f : Frame) (w d : Nat) : State :=
  let gone := s.clock - w
  let old := s.full - gone
  let new := fullOf f.era (switchTime f d)
  let t := { s with
    tb := (s.adoptTimebase f old new w d).move gone
    keep := { s.keep with copy := s.keep.copy + 1 }
    tether := { s.tether with armed := none, edgeAt := none } }
  (((((t.adoptIntervals old new w).closeDropRun .raw).closeDropRun .shelf).adoptPacker.adoptMarkers).adoptCounts).adoptSkeins w

/-- EPOCH_ADOPTION (R59, R615, R617): the switch instant of an armed adoption has come, in timebase holdover too (R42,
log 33). -/
def State.epochAdoption (s : State) : State :=
  match s.tether.armed, s.tether.edgeAt with
  | some f, some e =>
    let (w, d) := s.switchOf e
    if decide (w ≤ s.clock) && s.tb.epochSet && !s.tb.commitOwed then s.switchTo f w d else s
  | _, _ => s

def execEpochAdoption (dt : Nat) (s : State) : Out := .next (advance dt s).epochAdoption

/-- ADOPTION_SESSION_COMMIT (R59): the adopted number goes to flash at the next leave the unit wins. -/
def State.adoptionCommit (s : State) : State :=
  if s.tb.commitOwed && s.mayWork .flashProgram && s.rowReady .session then
    let t := State.rowAdvance .session (s.keep.copy - s.rowValue .session) s
    State.releaseFor { t with tb := { t.tb with commitOwed := false } } .flashProgram
  else s

def execAdoptionSessionCommit (dt : Nat) (s : State) : Out := .next (advance dt s).adoptionCommit

/-! ### Loss of the lead and faults (R618, R619) -/

/-- The lead of the second before the last two is lost: both stood higher, or neither held a frame, whatever stood before
them (R618, log 34). -/
def leadLost (h0 h1 : Option (Fin 8)) (before : Option (Option (Fin 8))) : Bool :=
  match h0, h1, before with
  | some a, some b, some (some p) => decide (p < a) && decide (p < b)
  | none, none, _ => true
  | _, _, _ => false

/-- A slot as fault 0xA1 names it. -/
def slotByte (i : Option (Fin 8)) : Byte := match i with | some j => BitVec.ofNat 8 j.val | none => 0xFF

/-- TETHER_LEAD_CHECK (R618): the end of slot 7. -/
def State.leadCheck (s : State) : State :=
  match s.tether.openedAt with
  | some e =>
    if s.tethered && s.tb.epochSet && !s.tether.checked && decide (110 * Config.ms ≤ s.clock - e) then
      let h := s.tether.lowest
      let t := s.modTether fun t => { t with checked := true, history := remember 3 h t.history }
      match s.tether.history with
      | h1 :: rest =>
        if leadLost h h1 rest.head? then
          t.log 0xA1 (slotByte (rest.head?.join)) ((slotByte h).setWidth 32) 0
        else t
      | [] => t
    else s
  | none => s

def execTetherLeadCheck (dt : Nat) (s : State) : Out := .next (advance dt s).leadCheck

/-- TETHER_STUCK (R619): low for 100 µs. -/
def execTetherStuck (dt : Nat) (s : State) : Out :=
  let t := advance dt s
  .next (t.when (t.strap.latched && t.tethered) fun t => t.raise 0xA3 0xFF 0 0)

/-- TETHER_STUCK_CLEAR (R619). -/
def execTetherStuckClear (dt : Nat) (s : State) : Out := .next ((advance dt s).clearFault 0xA3 0xFF)

/-- TETHER_ID_CLASH_CLEAR (R619): 10 s without a recurrence. -/
def execTetherIdClashClear (dt : Nat) (s : State) : Out :=
  let t := advance dt s
  .next (t.when (decide (10 * Config.sec ≤ t.clock - t.tether.clashAt)) fun t => t.clearFault 0xA4 t.idByte)

end Sys2Proof.Machine
end

