-- ==== Sys2Proof/Machine/Service.lean ====
section
/-! DEFINITION. The service port and its fuse (chapter 20), with the meanings of its commands. -/

namespace Sys2Proof.Machine
open Sys2Proof

def State.modSvc (s : State) (f : Service → Service) : State := { s with svc := f s.svc }

/-! ### Frames (R621 to R625, R631, R633) -/

/-- Status byte, response and CRC-8 go out on SVC_IO (R622). -/
def State.reply (s : State) (status : Byte) (resp : List Byte) : State :=
  s.modSvc fun v => { v with answer := status :: resp ++ [crc8 (status :: resp)] }

/-- A service flash operation waits, runs or is suspended (R627). -/
def State.svcBusy (s : State) : Bool :=
  s.svc.waiting.isSome || (match s.flash.op with | some o => o.service | none => false)

/-- The bits of bytes as SVC_IO carries them: bit 0 first (R621). -/
def svcBits (bs : List Byte) : List Bool := bs.flatMap fun b => (List.range 8).map b.getLsbD

/-- SVC_IO at the rising edges of SVC_CK in a frame: the start byte 0x7E, the request and its CRC, 8 clocks in which the host has
released the line, which the pull-up holds high, and the bytes the unit drives (R621, R622). -/
def svcLine (req : List Byte) (crc : Byte) (answer : List Byte) : List Bool :=
  svcBits (0x7E :: req ++ [crc]) ++ List.replicate 8 true ++ svcBits answer

/-- A frame arrives (R622 to R624, R631, R633): with the fuse blown nothing happens; while BLOW acts every frame is busy; a
wrong CRC, a busy flash engine and a condition that does not hold answer without a change. -/
def State.frame (s : State) (bytes : List Byte) (crc : Byte) (busy allowed : Bool) (act : State → State) : State :=
  if !s.outOfReset then s
  else
    let t := match s.svc.fuse with
      | .blown => s.modSvc fun v => { v with answer := [] }
      | .disturbed => s.modSvc fun v => { v with answer := [] }
      | .driving => s.reply 0x02 []
      | .intact =>
        if crc8 bytes ≠ crc then s.reply 0x04 []
        else if busy then s.reply 0x02 []
        else if allowed then act s
        else s.reply 0x03 []
    t.modSvc fun v => { v with wire := svcLine bytes crc v.answer }

/-- The IDENT state byte (R625). -/
def State.svcState (s : State) : Nat :=
  boolNat (s.svc.fuse == .intact) + 2 * boolNat s.core.halted + 4 * boolNat s.svc.verified + 8 * boolNat s.svc.opened +
    16 * boolNat s.svcBusy

/-- The firmware version as the snapshot identity group holds it; before the strap latch, as the header has it. -/
def State.svcVersion (s : State) : Nat := if s.strap.latched then s.snap.version.toNat else s.flashNat 8 4

/-- IDENT. -/
def State.ident (s : State) : State :=
  s.reply 0x01 (le 8 Config.serial.toNat ++ le 4 s.svcVersion ++ le 1 s.svcState ++ [0, 0, 0])

def execIdent (dt : Nat) (crc : Byte) (s : State) : Out := .next ((advance dt s).frame [0x01] crc false true State.ident)

/-- OPEN. -/
def execOpen (dt : Nat) (arg : BitVec 32) (crc : Byte) (s : State) : Out :=
  .next ((advance dt s).frame (0x02 :: le 4 arg.toNat) crc false (arg == Config.serial.setWidth 32) fun t =>
    (t.modSvc fun v => { v with opened := true }).reply 0x01 [])

/-- The bytes READ returns; a word that reads uncorrectable gives free bytes (R518, log 4). -/
def State.svcRead (s : State) (a n : Nat) : State :=
  let byte (i : Nat) : Byte :=
    if s.badIn ((a + i) / 8 * 8) 8 then Config.freeByte (s.free + i) else memGet s.flash.mem (a + i)
  State.reply { s with free := s.free + n } 0x01 ((List.range n).map byte)

/-- READ; an address past the array is refused (log 31). -/
def execRead (dt : Nat) (addr : BitVec 32) (len : Byte) (crc : Byte) (s : State) : Out :=
  let t := advance dt s
  let a := addr.toNat
  let n := len.toNat
  .next (t.frame (0x03 :: le 4 a ++ [len]) crc t.svcBusy
    (t.svc.opened && decide (1 ≤ n) && decide (n ≤ 128) && decide (a + n ≤ 4194304)) fun t => t.svcRead a n)

/-! ### Halt, resume, reset (R593, R626) -/

/-- HALT: a flash operation of the firmware ends first. -/
def State.halt (s : State) : State :=
  let fw := match s.flash.op with | some o => !o.service | none => false
  let t := if s.core.halted then s else s.modSvc fun v => { v with changed := false }
  let t := { t with core := { t.core with halted := t.core.halted || !fw, haltOwed := t.core.haltOwed || fw } }
  ((if fw then t else t.dropHold).withdrawLeave).reply 0x01 []

def execHalt (dt : Nat) (crc : Byte) (s : State) : Out :=
  let t := advance dt s
  .next (t.frame [0x10] crc false t.svc.opened State.halt)

/-- RESUME: a core restart, which logs no fault 0xF2 and does not count toward R592. -/
def State.resume (s : State) : State :=
  State.reply { s with core := { s.core with
    halted := false, restarting := some (s.core.restarting.getD s.clock), restartPc := none } } 0x01 []

def execResume (dt : Nat) (crc : Byte) (s : State) : Out :=
  let t := advance dt s
  .next (t.frame [0x11] crc false (t.svc.opened && t.core.halted && !t.svc.changed) State.resume)

/-- RESET: the answer goes out, then the full reset of start reason 0x05. -/
def execReset (dt : Nat) (crc : Byte) (s : State) : Out :=
  let t := advance dt s
  .next (t.frame [0x12] crc false t.svc.opened fun t => (t.fullReset .service).reply 0x01 [])

/-! ### Update (R624, R627 to R629) -/

/-- ERASE or PROGRAM is accepted: the engine asks for leave. -/
def State.svcStart (s : State) (k : FlashKind) : State :=
  ((s.modSvc fun v => { v with waiting := some k, verified := false, changed := true }).requestLeave .service).reply 0x01 []

/-- ERASE. -/
def execErase (dt : Nat) (sector : BitVec 16) (crc : Byte) (s : State) : Out :=
  let t := advance dt s
  .next (t.frame (0x20 :: le 2 sector.toNat) crc t.svcBusy
    (t.svc.opened && t.core.halted && decide (sector.toNat ≤ 0x17B)) fun t => t.svcStart (.erase sector.toNat))

/-- PROGRAM. -/
def execProgram (dt : Nat) (addr : BitVec 32) (data : List Byte) (crc : Byte) (s : State) : Out :=
  let t := advance dt s
  let a := addr.toNat
  .next (t.frame (0x21 :: le 4 a ++ data) crc t.svcBusy
    (t.svc.opened && t.core.halted && decide (a % 256 = 0) && decide (a < 0x17C000)) fun t => t.svcStart (.program a data))

/-- VERIFY: the CRC is over what the array reads, so a free value where a word of the image is uncorrectable. -/
def State.verify (s : State) : State :=
  let ok := s.imageOk
  let t := s.modSvc fun v => { v with verified := ok }
  if s.headerOk && s.badIn 0x10 (s.imageLen - 0x10) then
    let d := t.drawNat
    d.2.reply 0x01 (le 4 d.1)
  else t.reply 0x01 (le 4 s.imageCrc.toNat)

def execVerify (dt : Nat) (crc : Byte) (s : State) : Out :=
  let t := advance dt s
  .next (t.frame [0x22] crc t.svcBusy t.svc.opened State.verify)

/-! ### The fuse (R631) -/

/-- BLOW. -/
def execBlow (dt : Nat) (arg : Byte) (crc : Byte) (s : State) : Out :=
  let t := advance dt s
  .next (t.frame [0x30, arg] crc false (t.svc.opened && t.svc.verified && !t.power.brace && arg == 0xB1) fun t =>
    (t.modSvc fun v => { v with fuse := .driving, blowAt := t.clock }).reply 0x01 [])

/-- FUSE_BLOW_DONE: the 2 ms have run. -/
def execFuseBlowDone (dt : Nat) (s : State) : Out :=
  let t := advance dt s
  .next (t.when (t.svc.fuse == .driving && decide (2 * Config.ms ≤ t.clock - t.svc.blowAt)) fun t =>
    t.modSvc fun v => { v with fuse := .blown })

/-! ### Frames without an effect (R621, R623) -/

/-- SERVICE_UNKNOWN_OPCODE: the ten opcodes of Table — Service commands are none (R623, R624). -/
def execServiceUnknownOpcode (dt : Nat) (opcode : Byte) (s : State) : Out :=
  let t := advance dt s
  .next (if knownOpcode opcode then t else t.frame [opcode] (crc8 [opcode]) false true fun t => t.reply 0x05 [])

/-- SERVICE_FRAME_ABORT: the frame is discarded. A frame that has not ended has changed nothing yet: it acts with its last bit
(R621, R622). -/
def execServiceFrameAbort (dt : Nat) (s : State) : Out := .next (advance dt s)

end Sys2Proof.Machine
end

