-- ==== Sys2Proof/Machine/Dispatch.lean ====
section
/-! DEFINITION. The commands' dispatch: one arm per constructor of `Instr`, one meaning each. -/

namespace Sys2Proof.Machine
open Sys2Proof

def exec (i : Instr) (s : State) : Host.Outcome State Fault Refusal :=
  match i with
  | .activeEdge dt ch bin pulse => Sys2Proof.Machine.execActiveEdge dt ch bin pulse s
  | .timeTick dt slot => Sys2Proof.Machine.execTimeTick dt slot s
  | .angleTick dt => Sys2Proof.Machine.execAngleTick dt s
  | .outputUpdate dt => Sys2Proof.Machine.execOutputUpdate dt s
  | .mergeMove dt flip => Sys2Proof.Machine.execMergeMove dt flip s
  | .dropRunClose dt ch => Sys2Proof.Machine.execDropRunClose dt ch s
  | .markerEntry dt flip => Sys2Proof.Machine.execMarkerEntry dt flip s
  | .firmwareMarkerPlace dt => Sys2Proof.Machine.execFirmwareMarkerPlace dt s
  | .queueReset dt => Sys2Proof.Machine.execQueueReset dt s
  | .packerTakeItem dt flip => Sys2Proof.Machine.execPackerTakeItem dt flip s
  | .closeTimerExpiry dt => Sys2Proof.Machine.execCloseTimerExpiry dt s
  | .packerTakeResult dt => Sys2Proof.Machine.execPackerTakeResult dt s
  | .controlSkeinClose dt => Sys2Proof.Machine.execControlSkeinClose dt s
  | .summaryBoundary dt => Sys2Proof.Machine.execSummaryBoundary dt s
  | .summaryComplete dt => Sys2Proof.Machine.execSummaryComplete dt s
  | .timeCounterWrap => Sys2Proof.Machine.execTimeCounterWrap s
  | .keepTick dt => Sys2Proof.Machine.execKeepTick dt s
  | .resetAssert dt cause => Sys2Proof.Machine.execResetAssert dt cause s
  | .resetRelease dt sense => Sys2Proof.Machine.execResetRelease dt sense s
  | .strapLatch dt r => Sys2Proof.Machine.execStrapLatch dt r s
  | .journalRecovery dt => Sys2Proof.Machine.execJournalRecovery dt s
  | .rowCounterReconcile dt => Sys2Proof.Machine.execRowCounterReconcile dt s
  | .sessionCommit dt => Sys2Proof.Machine.execSessionCommit dt s
  | .pllLock dt => Sys2Proof.Machine.execPllLock dt s
  | .refinActivityTimeout dt => Sys2Proof.Machine.execRefinActivityTimeout dt s
  | .pllLockTimeout dt => Sys2Proof.Machine.execPllLockTimeout dt s
  | .epochSet dt => Sys2Proof.Machine.execEpochSet dt s
  | .epochPpsTimeout dt => Sys2Proof.Machine.execEpochPpsTimeout dt s
  | .ppsEdge dt => Sys2Proof.Machine.execPpsEdge dt s
  | .ppsGapTimeout dt => Sys2Proof.Machine.execPpsGapTimeout dt s
  | .pllUnlock dt => Sys2Proof.Machine.execPllUnlock dt s
  | .pllRelock dt => Sys2Proof.Machine.execPllRelock dt s
  | .channelStartupJoin dt ch => Sys2Proof.Machine.execChannelStartupJoin dt ch s
  | .startupRunAbandon dt => Sys2Proof.Machine.execStartupRunAbandon dt s
  | .watchdogExpiry dt pc => Sys2Proof.Machine.execWatchdogExpiry dt pc s
  | .coreRestart dt => Sys2Proof.Machine.execCoreRestart dt s
  | .firmwareFetchError dt sector offset => Sys2Proof.Machine.execFirmwareFetchError dt sector offset s
  | .domainPowerFault dt dom => Sys2Proof.Machine.execDomainPowerFault dt dom s
  | .domainRestore dt dom => Sys2Proof.Machine.execDomainRestore dt dom s
  | .domainFaultClear dt dom => Sys2Proof.Machine.execDomainFaultClear dt dom s
  | .driftCheckRead dt pin reading => Sys2Proof.Machine.execDriftCheckRead dt pin reading s
  | .channelLoss dt ch cause => Sys2Proof.Machine.execChannelLoss dt ch cause s
  | .lossHandling dt ch => Sys2Proof.Machine.execLossHandling dt ch s
  | .channelIdleTimeout dt ch => Sys2Proof.Machine.execChannelIdleTimeout dt ch s
  | .channelDomainPowerDown dt ch => Sys2Proof.Machine.execChannelDomainPowerDown dt ch s
  | .probeAbsentTimeout dt ch => Sys2Proof.Machine.execProbeAbsentTimeout dt ch s
  | .swingOverload dt ch => Sys2Proof.Machine.execSwingOverload dt ch s
  | .swingOverloadClear dt ch => Sys2Proof.Machine.execSwingOverloadClear dt ch s
  | .autoLevelUpdate dt ch pos neg => Sys2Proof.Machine.execAutoLevelUpdate dt ch pos neg s
  | .peakReport dt ch pos neg => Sys2Proof.Machine.execPeakReport dt ch pos neg s
  | .joinStart dt ch => Sys2Proof.Machine.execJoinStart dt ch s
  | .channelDomainReady dt ch => Sys2Proof.Machine.execChannelDomainReady dt ch s
  | .rejoinRunEnd dt ch m temp => Sys2Proof.Machine.execRejoinRunEnd dt ch m temp s
  | .workingSetRebuild dt => Sys2Proof.Machine.execWorkingSetRebuild dt s
  | .dieTemperatureRead dt t => Sys2Proof.Machine.execDieTemperatureRead dt t s
  | .cthRead dt t => Sys2Proof.Machine.execCthRead dt t s
  | .referenceEvent dt lowTime => Sys2Proof.Machine.execReferenceEvent dt lowTime s
  | .quadratureStep dt q => Sys2Proof.Machine.execQuadratureStep dt q s
  | .referenceEventTimeout dt => Sys2Proof.Machine.execReferenceEventTimeout dt s
  | .phaseLoss dt => Sys2Proof.Machine.execPhaseLoss dt s
  | .phaseLockTimeout dt => Sys2Proof.Machine.execPhaseLockTimeout dt s
  | .referenceSpacingFault dt => Sys2Proof.Machine.execReferenceSpacingFault dt s
  | .referenceSpacingClear dt => Sys2Proof.Machine.execReferenceSpacingClear dt s
  | .sineAmplitudeFault dt => Sys2Proof.Machine.execSineAmplitudeFault dt s
  | .sineAmplitudeClear dt => Sys2Proof.Machine.execSineAmplitudeClear dt s
  | .taskArm dt slot t => Sys2Proof.Machine.execTaskArm dt slot t s
  | .taskChange dt slot t => Sys2Proof.Machine.execTaskChange dt slot t s
  | .taskCancel dt slot => Sys2Proof.Machine.execTaskCancel dt slot s
  | .skeinTakeUp dt flip => Sys2Proof.Machine.execSkeinTakeUp dt flip s
  | .droppedSkeinMarker dt => Sys2Proof.Machine.execDroppedSkeinMarker dt s
  | .refreshBurst dt => Sys2Proof.Machine.execRefreshBurst dt s
  | .refreshBurstEnd dt => Sys2Proof.Machine.execRefreshBurstEnd dt s
  | .scrubRequest dt => Sys2Proof.Machine.execScrubRequest dt s
  | .scrubBurst dt corrected bad flip => Sys2Proof.Machine.execScrubBurst dt corrected bad flip s
  | .storeReset dt st => Sys2Proof.Machine.execStoreReset dt st s
  | .flushRequest dt => Sys2Proof.Machine.execFlushRequest dt s
  | .flush dt => Sys2Proof.Machine.execFlush dt s
  | .hostrdyHigh dt => Sys2Proof.Machine.execHostrdyHigh dt s
  | .hostrdyLow dt => Sys2Proof.Machine.execHostrdyLow dt s
  | .discovery dt => Sys2Proof.Machine.execDiscovery dt s
  | .introductionClose dt => Sys2Proof.Machine.execIntroductionClose dt s
  | .alignmentDone dt => Sys2Proof.Machine.execAlignmentDone dt s
  | .skeinTransmitStart dt corrected uncorrectable => Sys2Proof.Machine.execSkeinTransmitStart dt corrected uncorrectable s
  | .transmissionComplete dt flip => Sys2Proof.Machine.execTransmissionComplete dt flip s
  | .partnerLoss dt => Sys2Proof.Machine.execPartnerLoss dt s
  | .streamShortCircuit dt lane => Sys2Proof.Machine.execStreamShortCircuit dt lane s
  | .statusSkeinTimer dt => Sys2Proof.Machine.execStatusSkeinTimer dt s
  | .faultSkeinClose dt => Sys2Proof.Machine.execFaultSkeinClose dt s
  | .logPeriodExpiry dt code ch => Sys2Proof.Machine.execLogPeriodExpiry dt code ch s
  | .snapshotPresentation dt sa hold => Sys2Proof.Machine.execSnapshotPresentation dt sa hold s
  | .snapshotGroupTimeout dt g => Sys2Proof.Machine.execSnapshotGroupTimeout dt g s
  | .outputEstablish dt o => Sys2Proof.Machine.execOutputEstablish dt o s
  | .outputStageReady dt o vpos vneg => Sys2Proof.Machine.execOutputStageReady dt o vpos vneg s
  | .breakBeforeMakeExpiry dt o => Sys2Proof.Machine.execBreakBeforeMakeExpiry dt o s
  | .readBack dt o measured => Sys2Proof.Machine.execReadBack dt o measured s
  | .outputHeadroomFault dt o sensed vpin => Sys2Proof.Machine.execOutputHeadroomFault dt o sensed vpin s
  | .outputOvercurrent dt o => Sys2Proof.Machine.execOutputOvercurrent dt o s
  | .outputRailFault dt o vpos vneg => Sys2Proof.Machine.execOutputRailFault dt o vpos vneg s
  | .outputOvertemperature dt o t => Sys2Proof.Machine.execOutputOvertemperature dt o t s
  | .outputRetry dt o => Sys2Proof.Machine.execOutputRetry dt o s
  | .outputFaultClear dt o => Sys2Proof.Machine.execOutputFaultClear dt o s
  | .calRequest dt => Sys2Proof.Machine.execCalRequest dt s
  | .temperatureTriggerEval dt mean => Sys2Proof.Machine.execTemperatureTriggerEval dt mean s
  | .precheckStart dt => Sys2Proof.Machine.execPrecheckStart dt s
  | .precheckResult dt ohms => Sys2Proof.Machine.execPrecheckResult dt ohms s
  | .fullRunStart dt => Sys2Proof.Machine.execFullRunStart dt s
  | .fullRunEnd dt m => Sys2Proof.Machine.execFullRunEnd dt m s
  | .drawerCommit dt => Sys2Proof.Machine.execDrawerCommit dt s
  | .compaction dt => Sys2Proof.Machine.execCompaction dt s
  | .rowCounterIncrement dt c => Sys2Proof.Machine.execRowCounterIncrement dt c s
  | .flashErase dt sector => Sys2Proof.Machine.execFlashErase dt sector s
  | .flashProgram dt addr data => Sys2Proof.Machine.execFlashProgram dt addr data s
  | .flashOperationEnd dt verified tookMs10 => Sys2Proof.Machine.execFlashOperationEnd dt verified tookMs10 s
  | .sectorRetirement dt sector => Sys2Proof.Machine.execSectorRetirement dt sector s
  | .braceEntry dt => Sys2Proof.Machine.execBraceEntry dt s
  | .braceReturn dt lowestVin => Sys2Proof.Machine.execBraceReturn dt lowestVin s
  | .standbyEntry dt => Sys2Proof.Machine.execStandbyEntry dt s
  | .standbyExit dt => Sys2Proof.Machine.execStandbyExit dt s
  | .aoDomainPowerDown dt => Sys2Proof.Machine.execAoDomainPowerDown dt s
  | .leaveRequest dt op => Sys2Proof.Machine.execLeaveRequest dt op s
  | .leaveLineChange dt level => Sys2Proof.Machine.execLeaveLineChange dt level s
  | .leaveWindowExpiry dt => Sys2Proof.Machine.execLeaveWindowExpiry dt s
  | .leaveRequestWithdrawal dt => Sys2Proof.Machine.execLeaveRequestWithdrawal dt s
  | .leaveStarvation dt => Sys2Proof.Machine.execLeaveStarvation dt s
  | .leaveStuck dt => Sys2Proof.Machine.execLeaveStuck dt s
  | .leaveStuckClear dt => Sys2Proof.Machine.execLeaveStuckClear dt s
  | .v33RangeFault dt v33 vin => Sys2Proof.Machine.execV33RangeFault dt v33 vin s
  | .v33RangeClear dt => Sys2Proof.Machine.execV33RangeClear dt s
  | .vinOvervoltage dt vin => Sys2Proof.Machine.execVinOvervoltage dt vin s
  | .vinOvervoltageClear dt => Sys2Proof.Machine.execVinOvervoltageClear dt s
  | .vbatCheck dt vbat => Sys2Proof.Machine.execVbatCheck dt vbat s
  | .dieOvertemperature dt => Sys2Proof.Machine.execDieOvertemperature dt s
  | .dieOvertemperatureClear dt => Sys2Proof.Machine.execDieOvertemperatureClear dt s
  | .tetherSlot dt collision => Sys2Proof.Machine.execTetherSlot dt collision s
  | .tetherFrameReceived dt began f => Sys2Proof.Machine.execTetherFrameReceived dt began f s
  | .adoptionArm dt => Sys2Proof.Machine.execAdoptionArm dt s
  | .epochAdoption dt => Sys2Proof.Machine.execEpochAdoption dt s
  | .adoptionSessionCommit dt => Sys2Proof.Machine.execAdoptionSessionCommit dt s
  | .tetherLeadCheck dt => Sys2Proof.Machine.execTetherLeadCheck dt s
  | .tetherStuck dt => Sys2Proof.Machine.execTetherStuck dt s
  | .tetherStuckClear dt => Sys2Proof.Machine.execTetherStuckClear dt s
  | .tetherIdClashClear dt => Sys2Proof.Machine.execTetherIdClashClear dt s
  | .ident dt crc => Sys2Proof.Machine.execIdent dt crc s
  | .openPort dt arg crc => Sys2Proof.Machine.execOpen dt arg crc s
  | .read dt addr len crc => Sys2Proof.Machine.execRead dt addr len crc s
  | .halt dt crc => Sys2Proof.Machine.execHalt dt crc s
  | .resume dt crc => Sys2Proof.Machine.execResume dt crc s
  | .reset dt crc => Sys2Proof.Machine.execReset dt crc s
  | .erase dt sector crc => Sys2Proof.Machine.execErase dt sector crc s
  | .program dt addr data crc => Sys2Proof.Machine.execProgram dt addr data crc s
  | .verify dt crc => Sys2Proof.Machine.execVerify dt crc s
  | .blow dt arg crc => Sys2Proof.Machine.execBlow dt arg crc s
  | .fuseBlowDone dt => Sys2Proof.Machine.execFuseBlowDone dt s
  | .serviceUnknownOpcode dt opcode => Sys2Proof.Machine.execServiceUnknownOpcode dt opcode s
  | .serviceFrameAbort dt => Sys2Proof.Machine.execServiceFrameAbort dt s
  | .refinActivityChange dt active => Sys2Proof.Machine.execRefinActivityChange dt active s
  | .keepDomainVbatLoss dt => Sys2Proof.Machine.execKeepDomainVbatLoss dt s
  | .leaveHoldoffEnd dt => Sys2Proof.Machine.execLeaveHoldoffEnd dt s
  | .eraseHoldEnd dt => Sys2Proof.Machine.execEraseHoldEnd dt s
  | .flashEraseSuspend dt => Sys2Proof.Machine.execFlashEraseSuspend dt s
  | .scrubBurstEnd dt => Sys2Proof.Machine.execScrubBurstEnd dt s

end Sys2Proof.Machine
end

