-- ==== Sys2Proof/Safety.lean ====
section
/-! DEFINITION. What holds of every state a run of the block passes through, in the terms the statements use: no structure
outgrows the room the manual gives it, and the flash array is held in its one canonical form. -/

namespace Sys2Proof.Machine
open Sys2Proof

/-- The merge has four entries for each channel (R211); a threshold DAC code has 12 bits, signed (chapter 05, *The threshold*). -/
def Channel.Fits (c : Channel) : Prop := c.merge.length ≤ 4 ∧ -2048 ≤ c.dac ∧ c.dac ≤ 2047

/-- The chain stitch has 64 stages (R287), the marker buffer eight entries (R296). -/
def Chain.Fits (c : Chain) : Prop := c.items.length ≤ 64 ∧ c.buffer.length ≤ 8

/-- The result queue has sixteen places (R315). -/
def Engine.Fits (e : Engine) : Prop := e.queue.length ≤ 16

/-- The scheduler has sixteen slots (R237). -/
def Sched.Fits (q : Sched) : Prop := q.slots.length = 16

/-- A retry wait lies from 1 s to 64 s (R479). -/
def Output.Fits (a : Output) : Prop := 1 ≤ a.wait ∧ a.wait ≤ 64

/-- Nothing holds more than the manual gives it room for. -/
structure State.Fits (s : State) : Prop where
  chan : ∀ n : Chan, (s.chan.get n).Fits
  chain : s.chain.Fits
  eng : s.eng.Fits
  sched : s.sched.Fits
  out : ∀ o : OutNo, (s.ao.outs.get o).Fits

/-! ### Frames -/

/-- What a frame speaks of: each part of the state, and the pieces of a part that a promise of the manual names on their
own. -/
inductive Part where
  | clock
  | free
  | pending
  /-- the timebase, the epoch, PPS and REFIN -/
  | tb
  /-- time counter, era and wrap mark -/
  | time
  /-- session number with its valid mark -/
  | session
  | keep
  | strap
  /-- the channels -/
  | chan
  /-- the eight event counters -/
  | counts
  /-- the eight yarn IDs -/
  | yarns
  | stat
  | eng
  | chain
  | pack
  | sched
  | fol
  | cab
  | port
  | snap
  | ao
  | cal
  /-- the flash with the operation in progress -/
  | flash
  /-- the bytes of the flash array -/
  | mem
  | power
  | leave
  | core
  | faults
  | tether
  /-- the service port -/
  | svc
  /-- the service port fuse -/
  | fuse
  | sens
  /-- what the snapshot map shows of the cycle before -/
  | seen
deriving DecidableEq, Repr

/-- Two states agree on a part. -/
def Part.agree (p : Part) (s t : State) : Prop :=
  match p with
  | .clock => t.clock = s.clock
  | .free => t.free = s.free
  | .pending => t.pending = s.pending
  | .tb => t.tb = s.tb
  | .time => t.tb.time = s.tb.time ∧ t.tb.era = s.tb.era ∧ t.tb.wrapped = s.tb.wrapped
  | .session => t.tb.session = s.tb.session ∧ t.tb.sessionValid = s.tb.sessionValid
  | .keep => t.keep = s.keep
  | .strap => t.strap = s.strap
  | .chan => t.chan = s.chan
  | .counts => ∀ n : Chan, (t.chan.get n).count = (s.chan.get n).count
  | .yarns => ∀ n : Chan, (t.chan.get n).yarn = (s.chan.get n).yarn
  | .stat => t.stat = s.stat
  | .eng => t.eng = s.eng
  | .chain => t.chain = s.chain
  | .pack => t.pack = s.pack
  | .sched => t.sched = s.sched
  | .fol => t.fol = s.fol
  | .cab => t.cab = s.cab
  | .port => t.port = s.port
  | .snap => t.snap = s.snap
  | .ao => t.ao = s.ao
  | .cal => t.cal = s.cal
  | .flash => t.flash = s.flash
  | .mem => t.flash.mem = s.flash.mem
  | .power => t.power = s.power
  | .leave => t.leave = s.leave
  | .core => t.core = s.core
  | .faults => t.faults = s.faults
  | .tether => t.tether = s.tether
  | .svc => t.svc = s.svc
  | .fuse => t.svc.fuse = s.svc.fuse
  | .sens => t.sens = s.sens
  | .seen => t.seen = s.seen

/-- `t` differs from `s` in these parts at most. -/
def Same (ps : List Part) (s t : State) : Prop := ∀ p : Part, ps.contains p = false → p.agree s t

/-! ### Commands -/

end Sys2Proof.Machine

namespace Sys2Proof

/-- The time that passes before the command has its effect, in qps (log 3). -/
def Instr.dt : Instr → Nat
  | .timeCounterWrap => 0
  | .activeEdge dt .. | .timeTick dt .. | .angleTick dt | .outputUpdate dt | .mergeMove dt .. | .dropRunClose dt ..
  | .markerEntry dt .. | .firmwareMarkerPlace dt | .queueReset dt | .packerTakeItem dt .. | .closeTimerExpiry dt
  | .packerTakeResult dt | .controlSkeinClose dt | .summaryBoundary dt | .summaryComplete dt | .keepTick dt
  | .resetAssert dt .. | .resetRelease dt .. | .strapLatch dt .. | .journalRecovery dt | .rowCounterReconcile dt
  | .sessionCommit dt | .pllLock dt | .refinActivityTimeout dt | .pllLockTimeout dt | .epochSet dt
  | .epochPpsTimeout dt | .ppsEdge dt | .ppsGapTimeout dt | .pllUnlock dt | .pllRelock dt
  | .channelStartupJoin dt .. | .startupRunAbandon dt | .watchdogExpiry dt .. | .coreRestart dt
  | .firmwareFetchError dt .. | .domainPowerFault dt .. | .domainRestore dt .. | .domainFaultClear dt ..
  | .driftCheckRead dt .. | .channelLoss dt .. | .lossHandling dt .. | .channelIdleTimeout dt ..
  | .channelDomainPowerDown dt .. | .probeAbsentTimeout dt .. | .swingOverload dt .. | .swingOverloadClear dt ..
  | .autoLevelUpdate dt .. | .peakReport dt .. | .joinStart dt .. | .channelDomainReady dt .. | .rejoinRunEnd dt ..
  | .workingSetRebuild dt | .dieTemperatureRead dt .. | .cthRead dt .. | .referenceEvent dt ..
  | .quadratureStep dt .. | .referenceEventTimeout dt | .phaseLoss dt | .phaseLockTimeout dt
  | .referenceSpacingFault dt | .referenceSpacingClear dt | .sineAmplitudeFault dt | .sineAmplitudeClear dt
  | .taskArm dt .. | .taskChange dt .. | .taskCancel dt .. | .skeinTakeUp dt .. | .droppedSkeinMarker dt
  | .refreshBurst dt | .refreshBurstEnd dt | .scrubRequest dt | .scrubBurst dt .. | .storeReset dt ..
  | .flush dt | .discovery dt
  | .introductionClose dt | .alignmentDone dt | .skeinTransmitStart dt .. | .transmissionComplete dt ..
  | .partnerLoss dt | .streamShortCircuit dt .. | .statusSkeinTimer dt | .faultSkeinClose dt
  | .logPeriodExpiry dt .. | .snapshotPresentation dt .. | .snapshotGroupTimeout dt .. | .outputEstablish dt ..
  | .outputStageReady dt .. | .breakBeforeMakeExpiry dt .. | .readBack dt .. | .outputHeadroomFault dt ..
  | .outputOvercurrent dt .. | .outputRailFault dt .. | .outputOvertemperature dt .. | .outputRetry dt ..
  | .outputFaultClear dt .. | .temperatureTriggerEval dt .. | .precheckStart dt
  | .precheckResult dt .. | .fullRunStart dt | .fullRunEnd dt .. | .drawerCommit dt | .compaction dt
  | .rowCounterIncrement dt .. | .flashErase dt .. | .flashProgram dt .. | .flashOperationEnd dt ..
  | .sectorRetirement dt .. | .braceEntry dt | .braceReturn dt ..
  | .aoDomainPowerDown dt | .leaveRequest dt .. | .leaveLineChange dt .. | .leaveWindowExpiry dt
  | .leaveRequestWithdrawal dt | .leaveStarvation dt | .leaveStuck dt | .leaveStuckClear dt | .v33RangeFault dt ..
  | .v33RangeClear dt | .vinOvervoltage dt .. | .vinOvervoltageClear dt | .vbatCheck dt .. | .dieOvertemperature dt
  | .dieOvertemperatureClear dt | .tetherSlot dt .. | .tetherFrameReceived dt .. | .adoptionArm dt
  | .epochAdoption dt | .adoptionSessionCommit dt | .tetherLeadCheck dt | .tetherStuck dt | .tetherStuckClear dt
  | .tetherIdClashClear dt | .ident dt .. | .openPort dt .. | .read dt .. | .halt dt .. | .resume dt ..
  | .reset dt .. | .erase dt .. | .program dt .. | .verify dt .. | .blow dt .. | .fuseBlowDone dt
  | .serviceUnknownOpcode dt .. | .serviceFrameAbort dt | .refinActivityChange dt .. | .keepDomainVbatLoss dt
  | .leaveHoldoffEnd dt | .eraseHoldEnd dt | .flashEraseSuspend dt | .scrubBurstEnd dt => dt
  | .flushRequest l | .hostrdyHigh l | .hostrdyLow l | .calRequest l | .standbyEntry l | .standbyExit l => l.dt

/-- The commands that can end in a full reset (R579, R592, R626). -/
def Instr.canReset : Instr → Bool
  | .resetAssert .. => true
  | .watchdogExpiry .. => true
  | .firmwareFetchError .. => true
  | .reset .. => true
  | _ => false

/-- The commands that carry a frame of the service port, with this passing of time (R621). -/
def Instr.isFrame (i : Instr) (dt : Nat) : Bool :=
  match i with
  | .ident d _ | .openPort d _ _ | .read d _ _ _ | .halt d _ | .resume d _ | .reset d _ | .erase d _ _ | .program d _ _ _
  | .verify d _ | .blow d _ _ | .serviceUnknownOpcode d _ => d == dt
  | _ => false

end Sys2Proof

namespace Sys2Proof.Machine

/-- The parts of the state a command may write, beyond the passing of time. -/
def touches : Instr → List Part
  | .activeEdge .. => [.free, .chan, .counts, .cal, .leave, .core, .faults]
  | .timeTick .. | .angleTick _ => [.free, .chan, .sched]
  | .outputUpdate _ => [.free, .sched, .ao]
  | .mergeMove .. | .markerEntry .. => [.chan, .chain]
  | .dropRunClose .. | .autoLevelUpdate .. => [.chan, .faults]
  | .firmwareMarkerPlace _ => [.chain]
  | .queueReset _ => [.chain, .faults]
  | .packerTakeItem .. | .closeTimerExpiry _ => [.chain, .pack]
  | .packerTakeResult _ => [.eng, .pack]
  | .controlSkeinClose _ => [.chan, .pack, .port, .cal, .core]
  | .summaryBoundary _ => [.free, .stat, .eng]
  | .summaryComplete _ => [.stat, .eng, .ao, .faults]
  | .timeCounterWrap =>
    [.clock, .tb, .time, .chan, .stat, .eng, .chain, .sched, .fol, .ao, .cal, .leave, .faults, .seen]
  | .keepTick _ | .keepDomainVbatLoss _ => [.keep]
  | .resetAssert .. | .watchdogExpiry .. | .firmwareFetchError .. | .reset ..
    => [.free, .tb, .time, .session, .keep, .strap, .chan, .counts, .yarns, .stat, .eng, .chain, .pack, .sched,
        .fol, .cab, .port, .snap, .ao, .cal, .flash, .mem, .power, .leave, .core, .faults, .tether, .svc, .fuse,
        .sens, .seen]
  | .resetRelease .. => [.cab, .core, .faults, .svc, .fuse]
  | .strapLatch .. => [.strap, .chan, .counts, .fol, .port, .snap, .flash, .core, .faults]
  | .journalRecovery _ => [.free, .ao, .cal, .flash, .mem, .leave, .core, .faults]
  | .rowCounterReconcile _ => [.free, .flash, .mem, .leave, .core, .faults]
  | .sessionCommit _ => [.free, .tb, .session, .keep, .sched, .flash, .mem, .leave, .core, .faults]
  | .pllLock _ => [.tb, .core, .faults]
  | .refinActivityTimeout _ | .pllLockTimeout _ | .probeAbsentTimeout .. | .swingOverload ..
  | .swingOverloadClear .. | .phaseLockTimeout _ | .referenceSpacingFault _ | .referenceSpacingClear _
  | .logPeriodExpiry .. | .leaveStuck _ | .leaveStuckClear _ | .v33RangeFault .. | .v33RangeClear _
  | .vinOvervoltage .. | .vinOvervoltageClear _ | .dieOvertemperature _ | .dieOvertemperatureClear _
  | .tetherStuck _ | .tetherStuckClear _ | .tetherIdClashClear _ => [.faults]
  | .epochSet _ | .epochPpsTimeout _
    => [.clock, .tb, .time, .keep, .chan, .stat, .eng, .chain, .pack, .sched, .fol, .ao, .cal, .power, .leave,
        .core, .faults, .seen]
  | .ppsEdge _
    => [.clock, .tb, .time, .keep, .chan, .stat, .eng, .chain, .pack, .sched, .fol, .ao, .cal, .power, .leave,
        .core, .faults, .tether, .seen]
  | .ppsGapTimeout _ | .refinActivityChange .. => [.tb, .faults]
  | .pllUnlock _ => [.free, .tb, .chan, .yarns, .stat, .chain, .sched, .ao, .cal, .leave, .core, .faults]
  | .pllRelock _ => [.tb, .chan, .cal, .faults]
  | .channelStartupJoin .. | .channelIdleTimeout .. | .channelDomainPowerDown .. | .peakReport .. => [.chan]
  | .startupRunAbandon _ => [.chan, .yarns, .stat, .chain, .ao, .cal, .core, .faults]
  | .coreRestart _ => [.strap, .chan, .chain, .pack, .sched, .port, .ao, .cal, .flash, .leave, .core, .faults]
  | .domainPowerFault .. => [.chan, .stat, .eng, .chain, .port, .snap, .ao, .cal, .power, .leave, .core, .faults]
  | .domainRestore .. => [.chan, .snap, .ao, .power]
  | .domainFaultClear .. | .vbatCheck .. => [.power, .faults]
  | .driftCheckRead .. => [.strap, .chain, .snap, .faults]
  | .channelLoss .. => [.chan, .stat, .eng]
  | .lossHandling .. => [.chan, .chain, .snap, .faults]
  | .joinStart .. => [.chan, .cal]
  | .channelDomainReady .. => [.chan, .sched, .cal, .leave, .core]
  | .rejoinRunEnd .. => [.chan, .yarns, .stat, .chain, .ao, .cal, .leave, .faults]
  | .workingSetRebuild _ => [.ao, .cal]
  | .dieTemperatureRead .. => [.cab, .snap, .ao, .cal, .faults, .sens]
  | .cthRead .. => [.snap, .sens]
  | .referenceEvent .. => [.chain, .sched, .fol, .faults]
  | .quadratureStep .. => [.sched, .fol, .faults]
  | .referenceEventTimeout _ => [.fol]
  | .phaseLoss _ => [.stat, .chain, .sched, .fol, .faults]
  | .sineAmplitudeFault _ | .sineAmplitudeClear _ => [.fol, .faults]
  | .taskArm .. | .taskChange .. | .taskCancel .. => [.sched]
  | .skeinTakeUp .. => [.pack, .cab]
  | .droppedSkeinMarker _ => [.pack, .cab, .faults]
  | .refreshBurst _ | .refreshBurstEnd _ => [.cab]
  | .scrubRequest _ | .leaveRequest .. | .leaveRequestWithdrawal _ | .leaveHoldoffEnd _ => [.leave]
  | .scrubBurst .. | .skeinTransmitStart .. => [.cab, .port, .faults]
  | .storeReset .. => [.free, .chain, .cab, .port, .faults]
  | .flushRequest _ => [.free, .cab]
  | .flush _ => [.chain, .cab, .port]
  | .hostrdyHigh _ => [.port]
  | .hostrdyLow _ => [.chain, .cab, .port, .faults]
  | .discovery _ => [.port, .power]
  | .introductionClose _ => [.pack, .port]
  | .alignmentDone _ => [.port, .faults]
  | .transmissionComplete .. => [.free, .cab, .port]
  | .partnerLoss _ | .streamShortCircuit .. => [.chain, .port, .faults]
  | .statusSkeinTimer _ => [.pack]
  | .faultSkeinClose _ => [.chan, .pack, .snap, .cal, .core, .faults]
  | .snapshotPresentation .. => [.free, .snap]
  | .snapshotGroupTimeout .. => [.snap]
  | .outputEstablish .. | .outputStageReady .. | .readBack .. | .outputHeadroomFault .. | .outputOvercurrent ..
  | .outputRailFault .. | .outputOvertemperature .. | .outputRetry .. => [.ao, .leave, .faults]
  | .breakBeforeMakeExpiry .. | .aoDomainPowerDown _ => [.ao]
  | .outputFaultClear .. => [.ao, .faults]
  | .calRequest _ => [.free, .cal]
  | .temperatureTriggerEval .. | .precheckStart _ => [.cal]
  | .precheckResult .. => [.cal, .leave, .faults]
  | .fullRunStart _ => [.chan, .stat, .cal]
  | .fullRunEnd .. => [.chan, .yarns, .stat, .chain, .ao, .cal, .leave, .core, .faults]
  | .drawerCommit _ => [.free, .pack, .cal, .flash, .mem, .leave, .faults]
  | .compaction _ | .rowCounterIncrement .. | .flashErase .. | .sectorRetirement ..
    => [.free, .flash, .mem, .leave, .faults]
  | .flashProgram .. | .eraseHoldEnd _ => [.flash, .leave]
  | .flashOperationEnd .. => [.free, .strap, .chan, .sched, .flash, .mem, .leave, .core, .faults]
  | .braceEntry _ => [.free, .strap, .chan, .chain, .sched, .cab, .flash, .mem, .power, .leave, .core, .faults]
  | .braceReturn .. => [.chain, .flash, .power, .leave, .faults]
  | .standbyEntry _ => [.free, .chain, .port, .ao, .power, .leave, .faults]
  | .standbyExit _ => [.free, .port, .ao, .power]
  | .leaveLineChange .. => [.free, .leave]
  | .leaveWindowExpiry _ => [.chan, .flash, .leave, .faults, .svc]
  | .leaveStarvation _ => [.leave, .faults]
  | .tetherSlot .. | .tetherFrameReceived .. | .tetherLeadCheck _ => [.faults, .tether]
  | .adoptionArm _ => [.tether]
  | .epochAdoption _
    => [.tb, .time, .session, .keep, .chan, .stat, .eng, .chain, .pack, .fol, .cab, .cal, .faults, .tether]
  | .adoptionSessionCommit _ => [.free, .tb, .flash, .mem, .leave, .faults]
  | .ident .. | .openPort .. | .serviceUnknownOpcode .. => [.svc]
  | .read .. | .verify .. => [.free, .svc]
  | .halt .. => [.chan, .leave, .core, .svc]
  | .resume .. => [.core, .svc]
  | .erase .. | .program .. => [.leave, .svc]
  | .blow .. | .fuseBlowDone _ => [.svc, .fuse]
  | .serviceFrameAbort _ => []
  | .flashEraseSuspend _ => [.strap, .chan, .sched, .flash, .leave, .core]
  | .scrubBurstEnd _ => [.cab, .leave]

/-- The command runs: its answer is a next state that differs from `u` in these parts at most, and `P` holds of it. -/
def Does (i : Instr) (s u : State) (ps : List Part) (P : State → Prop) : Prop :=
  ∃ t : State, exec i s = .next t ∧ Same ps u t ∧ P t

/-- No channel but `n` has changed. -/
def OnlyChan (n : Chan) (s t : State) : Prop := ∀ m : Chan, m ≠ n → t.chan.get m = s.chan.get m

/-- What R201 allows as the count of channel `n` at an instant: edges 400 ps or more after it are out, edges more than 400 ps before
it are in, and how many of the others are in is open. -/
def CountAt (u : State) (n : Chan) (inst : Nat) (c : BitVec 48) : Prop :=
  let late := (u.chan.get n).edgesFrom (u.clockOf inst + 1600)
  ∃ k : Nat, k ≤ (u.chan.get n).edgesFrom (u.clockOf inst - 1600) - late ∧
    c = (u.chan.get n).count - BitVec.ofNat 48 (late + k)

/-- A stitch of an instant has formed on channel `n` (R25, R204, R671, R672): it sets out behind those ahead of it, for the
statistics engine and the merge, where it arrives 126.3 ns to 159.8 ns after the instant's clock value `from_`, never before the
one ahead of it. -/
def FlightFormed (u t : State) (n : Chan) (isEdge : Bool) (full : Nat) (slots : List (Fin 16)) (from_ : Nat) (f : Flight) : Prop :=
  (t.chan.get n).flights = (u.chan.get n).flights ++ [f] ∧ (t.chan.get n).formed = (u.chan.get n).formed + 1 ∧
    f.stamp.isEdge = isEdge ∧ f.stamp.full = full ∧ f.stamp.session = u.tb.session ∧
    f.stamp.yarn = (u.chan.get n).yarn ∧ f.slots = slots ∧ f.no = (u.chan.get n).formed ∧ f.taken = false ∧
    from_ + 505200 ≤ f.at_ ∧ ((u.chan.get n).flights = [] → f.at_ ≤ from_ + 639200) ∧
    ∀ g : Flight, (u.chan.get n).flights.getLast? = some g → g.at_ ≤ f.at_

/-- What a tick of instant `inst` does to a channel (R195, R196, R199 to R201, R204): outside state 5 nothing; within 40 ns of
the tick taken before it is not taken; taken, it is pending, and one that was still pending has expired: then, where no tick
stamp has formed since the last edge stamp and the entry into state 5, and the channel has a block to be corrected by (R32), a
tick stamp forms, with the instant as its time and the count R201 allows. No tick counts an event. -/
def TickFell (u t : State) (n : Chan) (inst : Nat) (slot : Fin 16) : Prop :=
  let a := u.chan.get n
  let b := t.chan.get n
  b.count = a.count ∧
    (a.st ≠ .present ∨ inst ≤ a.presentAt → b = a) ∧
    (a.st = .present → a.presentAt < inst →
      (∀ l : Nat, a.lastTick = some l → l ≠ inst → inst < l + 160000 → b = a) ∧
      ((∀ l : Nat, a.lastTick = some l → l ≠ inst ∧ l + 160000 ≤ inst) →
        b.pending = true ∧ b.tickAt = inst ∧ b.lastTick = some inst ∧ b.tickSlots = [slot] ∧
          b.expired = (if a.pending then a.expired + 1 else a.expired) ∧
          (a.pending = true ∧ a.tickStamped = false ∧ (u.workChan n).isSome = true →
            b.tickStamped = true ∧
              ∃ f : Flight, FlightFormed u t n false inst [slot] (u.clockOf inst) f ∧ CountAt u n inst f.stamp.count ∧
                f.captureAt = u.clockOf inst) ∧
          (a.pending = false ∨ a.tickStamped = true ∨ u.workChan n = none →
            b.flights = a.flights ∧ b.formed = a.formed ∧ b.tickStamped = a.tickStamped)) ∧
      (a.lastTick = some inst →
        b.pending = a.pending ∧ b.tickAt = a.tickAt ∧ b.expired = a.expired ∧ b.flights = a.flights))

/-- The chain stitch with one more hardware marker at its marker input: in the buffer at once where it has room and none waits
ahead, and waiting otherwise (R296, R297). -/
def Chain.offered (c : Chain) (i : Item) : Chain :=
  if c.hwWait = [] ∧ c.buffer.length < 8 then { c with buffer := c.buffer ++ [i] } else { c with hwWait := c.hwWait ++ [i] }

/-! ### Faults, as the table of chapter 18 and R353, R354, R596 have them -/

/-- One more occurrence of a code, the most recent one, with its event. -/
def Faults.logged (f : Faults) (code : Byte) (time : BitVec 64) (subj : Byte) (a b : BitVec 32) : Faults :=
  { f with
    events := f.events ++ [{ code := code, raised := true, held := false, time := time, subject := subj, detailA := a,
                             detailB := b, occ := f.count code + 1 }]
    last := code
    seen := (code, f.count code + 1) :: f.seen.filter fun p => p.1 != code }

/-- A held fault becomes active, with its event; one that is active already stays as it is. -/
def Faults.raised (f : Faults) (code : Byte) (time : BitVec 64) (subj : Byte) (a b : BitVec 32) : Faults :=
  if f.active.contains (code, subj) then f
  else
    { active := f.active ++ [(code, subj)]
      events := f.events ++ [{ code := code, raised := true, held := true, time := time, subject := subj, detailA := a,
                               detailB := b, occ := f.count code + 1 }]
      last := code
      seen := (code, f.count code + 1) :: f.seen.filter fun p => p.1 != code
      periods := f.periods
      details := f.details ++ [((code, subj), a, b)] }

/-- A held fault that is active clears, with its event, which repeats the details it was raised with. -/
def Faults.cleared (f : Faults) (code : Byte) (time : BitVec 64) (subj : Byte) : Faults :=
  if f.active.contains (code, subj) then
    { f with
      active := f.active.filter fun p => p != (code, subj)
      details := f.details.filter fun d => d.1 != (code, subj)
      events := f.events ++ [{ code := code, raised := false, held := true, time := time, subject := subj,
                               detailA := (f.detailsOf code subj).1, detailB := (f.detailsOf code subj).2,
                               occ := f.count code }] }
  else f

end Sys2Proof.Machine
end

