-- ==== Sys2Proof/Certificates/Slice0/Obligations.lean ====
section
/-! DEFINITION. The statements about the block, from the numbered rules of the manual. A command's effect is stated over
`u`, the state once the time before the command has passed. -/

open Sys2Proof Sys2Proof.Machine

/-- A step of the block takes the command at the front of the queue and runs it with the queue's rest. -/
def Obligations.StepRunsFront : Prop :=
  ∀ (c : Instr) (rest : List Instr) (s : State),
    step { s with pending := c :: rest } = exec c { s with pending := rest }

/-- On an empty queue one back-die cycle of 3.2 ns passes (the model's choice, log 2): the clock moves and, once the epoch
is set, the time counter, and no command is taken. With no stitch on its way and nothing waiting for the next cycle
that is all, and what the cycle before left is there for the latches (R443). -/
def Obligations.IdleStepPassesTime : Prop :=
  (∀ s : State, s.pending = [] →
    ∃ t : State, step s = .next t ∧
      Same [.clock, .tb, .time, .chan, .stat, .eng, .chain, .sched, .fol, .ao, .cal, .leave, .faults, .seen] s t ∧
      t.clock = s.clock + 12800 ∧
      t.tb = (if s.tb.epochSet then
          { s.tb with
            time := s.tb.time + 12800
            era := if 2 ^ 64 ≤ s.tb.time.toNat + 12800 then s.tb.era + 1 else s.tb.era
            wrapped := s.tb.wrapped || decide (2 ^ 64 ≤ s.tb.time.toNat + 12800) }
        else s.tb)) ∧
  (∀ s : State, s.pending = [] → s.sched.late = [] → (∀ n : Chan, (s.chan.get n).flights = []) →
    ∃ t : State, step s = .next t ∧ Same [.clock, .tb, .time, .seen] s t ∧ t.seen = s.show)

/-- The machine right after reset: held in the reset of cause 0x01, every store and queue empty, no fault active, no
command waiting, the flash array in its canonical form and no structure beyond its room. -/
def Obligations.ResetState : Prop :=
  State.reset.core.boot = .inReset ∧ State.reset.keep.cause = 0x01 ∧ State.reset.pending = [] ∧
    State.reset.cab.raw.held = [] ∧ State.reset.cab.shelf.held = [] ∧ State.reset.cab.intro = [] ∧
    State.reset.chain.items = [] ∧ State.reset.faults.active = [] ∧ State.reset.tb.epochSet = false ∧
    State.reset.tb.time = 0 ∧ State.reset.tb.era = 0 ∧ (∀ n : Chan, (State.reset.chan.get n).count = 0) ∧
    State.reset.flash.wf = true ∧ State.reset.Fits

/-- Every step keeps the flash array in its canonical form: addresses rising, inside the 4 MiB array, no erased byte
listed. -/
def Obligations.StepKeepsFlashForm : Prop :=
  ∀ s t : State, s.flash.wf = true → step s = .next t → t.flash.wf = true

/-- Every step keeps every structure within the room the manual gives it: the merge's 4 entries a channel, the 64 stages
of the chain stitch, the 8 entries of the marker buffer, the 16 results, the 16 slots, the 12-bit DAC code, the retry
wait of 1 s to 64 s. -/
def Obligations.StepKeepsRoom : Prop :=
  ∀ s t : State, s.Fits → step s = .next t → t.Fits

/-- No command stops the machine: each answers a next state, which leaves the queue as it was and the clock no earlier
than `dt` on. -/
def Obligations.EveryCommandAnswers : Prop :=
  ∀ (i : Instr) (s : State), ∃ t : State, exec i s = .next t ∧ t.pending = s.pending ∧ s.clock + i.dt ≤ t.clock

/-- What each command may write, over all 161: beyond the passing of time it changes the parts of `touches` at most. A
command whose parts leave out `.mem` changes no byte of the flash array, one whose parts leave out `.counts` no event
counter. -/
def Obligations.CommandFrames : Prop :=
  ∀ (i : Instr) (s t : State), exec i s = .next t → Same (touches i) (advance i.dt s) t

/-- R52: within one session the epoch never moves, whatever command comes; the time counter moves by the time that has
passed and by nothing else. -/
def Obligations.EpochNeverMoves : Prop :=
  ∀ (i : Instr) (s t : State), exec i s = .next t → s.tb.epochSet = true → i.canReset = false →
    (∀ dt, i ≠ .epochAdoption dt) →
    t.tb.epochSet = true ∧ t.tb.epochClock = s.tb.epochClock ∧
      t.tb.time = s.tb.time + BitVec.ofNat 64 (t.clock - s.clock) ∧
      t.tb.era = s.tb.era + BitVec.ofNat 16 ((s.tb.time.toNat + (t.clock - s.clock)) / 2 ^ 64)

/-- R61: an epoch adoption resets no event counter; a strap latch, which every start after reset makes, sets that of every
enabled channel to 0. -/
def Obligations.CountersOutliveAdoption : Prop :=
  (∀ (dt : Nat) (s t : State) (n : Chan), exec (.epochAdoption dt) s = .next t →
    (t.chan.get n).count = (s.chan.get n).count) ∧
  (∀ (dt : Nat) (s : State) (r : StrapRead), s.core.boot = .straps →
    ∃ t : State, exec (.strapLatch dt r) s = .next t ∧ ∀ n : Chan, t.enabled n = true → (t.chan.get n).count = 0)

/-- R104: no command but a strap latch and a full reset changes the strap image or an applied code. -/
def Obligations.StrapImageHolds : Prop :=
  ∀ (i : Instr) (s t : State), exec i s = .next t → i.canReset = false → (∀ dt r, i ≠ .strapLatch dt r) →
    t.strap.pins = s.strap.pins ∧ t.strap.sbyte = s.strap.sbyte ∧ t.strap.failed = s.strap.failed ∧
      ∀ pin : Nat, t.code pin = s.code pin

/-- R628: once an ERASE or PROGRAM has been accepted in a halt, no command but RESET and an asserted reset ends it. -/
def Obligations.ChangedHaltHolds : Prop :=
  ∀ (i : Instr) (s t : State), exec i s = .next t → s.core.halted = true → s.svc.changed = true →
    (∀ dt c, i ≠ .resetAssert dt c) → (∀ dt c, i ≠ .reset dt c) →
    t.core.halted = true ∧ t.svc.changed = true

/-- ACTIVE_EDGE: an edge whose pulse is not too narrow counts on a powered front part, and touches no other channel; with
the front part down it does nothing (R20, R149, R154, R175). The first eligible edge after a pending tick is stamped,
where the working set holds the channel's block: its stitch sets out with the count that includes the edge and the
instant of R190, to be captured at the coarse boundary behind it (R21, R22, R190, R197, R204). A channel without a
block forms none (R32). A stitch on its way arrives as time passes (R25, R35, R204, R211, R212, R334, R671, R672):
captured with the angle and the angle state that the follower shows in the back-die cycle of its capture once that
cycle is over, it takes a place in its channel's merge, or is refused where the four are taken, and goes on to the
mirror, where it can be read 12.8 ns to 16 ns later, so 139.1 ns to 175.8 ns after its instant in all. Said for a
stitch of the present yarn with no other on its way. -/
def Obligations.ActiveEdgeCounts : Prop :=
  (∀ (dt pulse : Nat) (pos neg : Int) (s u : State) (n : Chan) (bin : Byte), u = advance dt s →
     (u.frontOn n = false → exec (.activeEdge dt n bin ⟨pulse, pos, neg⟩) s = .next u) ∧
     (u.frontOn n = true → 300 ≤ pulse →
       Does (.activeEdge dt n bin ⟨pulse, pos, neg⟩) s u (touches (.activeEdge dt n bin ⟨pulse, pos, neg⟩)) fun t =>
         (t.chan.get n).count = (u.chan.get n).count + 1 ∧ (t.chan.get n).lastEdge = some u.clock ∧
         (t.chan.get n).intervals =
           (match (u.chan.get n).lastEdge with
             | some e => ((u.clock - e) :: (u.chan.get n).intervals).take 64
             | none => (u.chan.get n).intervals) ∧
         OnlyChan n u t) ∧
     (u.frontOn n = true → 300 ≤ pulse → (u.chan.get n).st = .present → u.workChan n = none →
       Does (.activeEdge dt n bin ⟨pulse, pos, neg⟩) s u [.chan, .counts] fun t => OnlyChan n u t ∧
         (t.chan.get n).formed = (u.chan.get n).formed ∧ (t.chan.get n).flights = (u.chan.get n).flights ∧
           (t.chan.get n).pending = (u.chan.get n).pending) ∧
     (∀ b : ChanBlock, u.frontOn n = true → 300 ≤ pulse → (u.chan.get n).st = .present →
       (u.chan.get n).pending = true → u.workChan n = some b → (u.chan.get n).tickAt ≤ u.edgeTime n b bin →
       (∀ b : Nat, (u.chan.get n).stampedAt = some b → b + 160000 ≤ u.clock) →
       Does (.activeEdge dt n bin ⟨pulse, pos, neg⟩) s u [.chan, .counts] fun t => OnlyChan n u t ∧
         (t.chan.get n).pending = false ∧ (t.chan.get n).tickStamped = false ∧ (t.chan.get n).stampedAt = some u.clock ∧
           ∃ f : Flight,
             FlightFormed u t n true (u.edgeTime n b bin) (u.chan.get n).tickSlots u.clock f ∧
               f.stamp.count = (u.chan.get n).count + 1 ∧ f.stamp.tick = (u.chan.get n).tickAt ∧
               f.captureAt = u.captureAt n b)) ∧
  (∀ (dt : Nat) (s : State) (n : Chan) (f : Flight) (st : Stitch), s.sched.late = [] →
     (s.chan.get n).flights = [f] → (∀ m : Chan, m ≠ n → (s.chan.get m).flights = []) → f.taken = false →
     s.cycleAt f.captureAt < s.cycleAt (s.clock + dt) → s.cycle < s.cycleAt (s.clock + dt) → f.at_ ≤ s.clock + dt →
     f.stamp.session = s.tb.session → f.stamp.yarn = (s.chan.get n).yarn →
     st = (if f.stamp.isEdge then
         .edge n s.fol.st (BitVec.ofNat 64 f.stamp.full) (f.stamp.count.setWidth 40) (s.angleIn (s.cycleAt f.captureAt))
       else
         .tick n s.fol.st (BitVec.ofNat 64 f.stamp.full) (f.stamp.count.setWidth 40) (s.angleIn (s.cycleAt f.captureAt))) →
     ∃ t : State, t = advance dt s ∧ (t.chan.get n).flights = [] ∧ OnlyChan n s t ∧
       (∃ v : Nat, (t.chan.get n).mirrorNext.getLast? = some (v, st) ∧ f.at_ + 51200 ≤ v ∧
         ((s.chan.get n).mirrorNext = [] → v ≤ f.at_ + 64000)) ∧
       ((s.chan.get n).merge.length < 4 →
         (t.chan.get n).merge =
             (s.chan.get n).merge ++ [{ item := { st := st, session := f.stamp.session, full := f.stamp.full }, no := f.no }] ∧
           t.chain = s.chain) ∧
       (4 ≤ (s.chan.get n).merge.length →
         (t.chan.get n).merge = (s.chan.get n).merge ∧ t.chain.refusals = s.chain.refusals + 1 ∧
           (t.chan.get n).run.map (·.refused) = some (((s.chan.get n).run.map (·.refused)).getD 0 + 1)))

/-- R169, ACTIVE_EDGE on a channel in state 1 or 2: the 64th consecutive stable edge qualifies it, an edge that is not
stable restarts the count. -/
def Obligations.StableEdgesQualify : Prop :=
  ∀ (dt pulse : Nat) (pos neg : Int) (s u : State) (n : Chan) (bin : Byte), u = advance dt s → u.frontOn n = true →
    300 ≤ pulse → (u.chan.get n).st = .absentDown ∨ (u.chan.get n).st = .absentUp →
    Does (.activeEdge dt n bin ⟨pulse, pos, neg⟩) s u [.chan, .counts] fun t =>
      (u.stableEdge n false pos neg = true → (u.chan.get n).stable + 1 < 64 →
        (t.chan.get n).st = (u.chan.get n).st ∧ (t.chan.get n).stable = (u.chan.get n).stable + 1) ∧
      (u.stableEdge n false pos neg = true → 64 ≤ (u.chan.get n).stable + 1 → (t.chan.get n).st = .qualified) ∧
      (u.stableEdge n false pos neg = false → (t.chan.get n).st = (u.chan.get n).st ∧ (t.chan.get n).stable = 0)

/-- TIME_TICK and ANGLE_TICK: what the tick does to every channel, the tick stamp an expiry forms among it (R195, R196,
R198 to R201, R204, R206, R238, R241). The slot has issued in this cycle, which closes it to commands for the rest of
it (the model's choice, log 32). -/
def Obligations.TicksFall : Prop :=
  (∀ (dt p k inst : Nat) (s u : State) (slot : Fin 16) (outs : Bool), u = advance dt s → u.tb.epochSet = true →
    u.slotTask slot = some (.time p true outs) → u.slotActive slot = true → u.cancelledNow slot = false →
    u.gridInstant p = some (k, inst) →
    Does (.timeTick dt slot) s u (touches (.timeTick dt slot)) fun t =>
      (∀ n : Chan, TickFell u t n inst slot) ∧ t.issued slot = true) ∧
  (∀ (dt : Nat) (s u : State) (perTurn outs : Bool), u = advance dt s → u.tb.epochSet = true →
    u.slotTask 0 = some (.angle perTurn true outs) → u.angleActive = true → u.cancelledNow 0 = false →
    u.crossedForward (u.tickWidth perTurn) = true →
    Does (.angleTick dt) s u (touches (.angleTick dt)) fun t =>
      (∀ n : Chan, TickFell u t n u.cycleNow 0) ∧ t.issued 0 = true)

/-- The merge offers the oldest stitch of the present session, of equal times the lower channel's (R211, R666).
MERGE_MOVE: the offered stitch enters the chain stitch while it holds at most 62 items and is refused above; it is
offered again where a marker goes first or a move is not due (R211, R288 to R292, R295). -/
def Obligations.MergeMoves : Prop :=
  (∀ (s : State) (room : Bool) (n : Chan) (e : MergeEntry), room = decide (s.chain.items.length ≤ 62) →
     s.mergePick = some (n, e) →
     (∀ (m : Chan) (d : MergeEntry), (s.chan.get m).movable room s.cycle = some d → d.item.session = s.tb.session) →
     (s.chan.get n).movable room s.cycle = some e ∧
       ∀ (m : Chan) (d : MergeEntry), (s.chan.get m).movable room s.cycle = some d →
         e.item.full < d.item.full ∨ (e.item.full = d.item.full ∧ n ≤ m)) ∧
  (∀ (dt : Nat) (flip : BitVec 7) (s u : State), u = advance dt s →
     (u.mergePick = none ∨ u.mergeRate = false ∨ u.mergeDeferred = true ∨ u.entryFree = false →
       exec (.mergeMove dt flip) s = .next u) ∧
     (∀ (n : Chan) (e : MergeEntry), u.mergePick = some (n, e) → u.mergeRate = true → u.mergeDeferred = false →
       u.entryFree = true →
       Does (.mergeMove dt flip) s u [.chan, .chain] fun t =>
         OnlyChan n u t ∧ (t.chan.get n).merge = (u.chan.get n).merge.tail ∧
         t.chain.moves = (u.cycle :: u.chain.moves).take 8 ∧
         (u.chain.items.length ≤ 62 →
           t.chain.items = u.chain.items ++ [e.item] ∧ t.chain.entryA = u.chain.entryA + 1 ∧
             t.chain.refusals = u.chain.refusals ∧ (t.chan.get n).run = (u.chan.get n).run) ∧
         (62 < u.chain.items.length →
           t.chain.items = u.chain.items ∧ t.chain.refusals = u.chain.refusals + 1 ∧
             (t.chan.get n).run.map (·.refused) = some (((u.chan.get n).run.map (·.refused)).getD 0 + 1))))

/-- MARKER_ENTRY and FIRMWARE_MARKER_PLACE: the marker input's order, its room, and the three entries it keeps free from
the firmware (R289, R296, R297). The entry a marker leaves free is taken up at once, and while the core does not run
only by what goes up to a yarn start marker that waits: the model's choice (log 23). Which stitches a gap marker waits
for (`gapOffered`, by the run's first and last refusal) is its choice too (log 10). DROP_RUN_CLOSE and QUEUE_RESET:
the gap marker that tells a drop run and its count under fault 0x30, and the emptied chain stitch that holds its queue
reset marker alone, with fault 0x31 (R292, R293, R299, R300, R322). The marker's register keeps the formation numbers
of the run's first and latest refused stitches, which say what goes before it: the model's choice (log 10). -/
def Obligations.MarkersEnterAndTell : Prop :=
  ((∀ (dt : Nat) (flip : BitVec 7) (s u : State), u = advance dt s → u.entryFree = true →
     u.chain.items.length ≤ 63 →
     (∀ (i : Item) (rest : List Item), u.chain.resets = i :: rest →
       Does (.markerEntry dt flip) s u [.chain] fun t =>
         t.chain.items = u.chain.items ++ [i] ∧ t.chain.resets = rest ∧ t.chain.buffer = u.chain.buffer) ∧
     (∀ (n : Chan) (g : GapReg), u.chain.resets = [] → (u.chan.get n).gapOffered u.cycle = true →
       (u.chan.get n).gapReg = some g → (∀ m : Chan, m < n → (u.chan.get m).gapOffered u.cycle = false) →
       Does (.markerEntry dt flip) s u [.chan, .chain] fun t =>
         t.chain.items = u.chain.items ++ [g.item] ∧ t.chan.get n = { u.chan.get n with gapReg := none } ∧
           OnlyChan n u t ∧ t.chain.buffer = u.chain.buffer) ∧
     (∀ (i : Item) (rest : List Item), u.chain.resets = [] → (∀ m : Chan, (u.chan.get m).gapOffered u.cycle = false) →
       u.chain.buffer = i :: rest →
       Does (.markerEntry dt flip) s u [.chain] fun t =>
         t.chain.items = u.chain.items ++ [i] ∧
           (rest.length < 8 → ∀ b : List Item, b = rest ++ u.chain.hwWait.take 1 →
             t.chain.hwWait = u.chain.hwWait.drop 1 ∧
               t.chain.buffer = b ++ u.chain.fwWait.take (min (if u.fwRuns then u.chain.fwWait.length else u.chain.yarnAhead)
                 (6 - b.length))))) ∧
   (∀ (dt : Nat) (flip : BitVec 7) (s u : State), u = advance dt s → 63 < u.chain.items.length →
     exec (.markerEntry dt flip) s = .next u) ∧
   (∀ (dt : Nat) (s u : State) (i : Item) (rest : List Item), u = advance dt s → u.chain.fwWait = i :: rest →
     u.fwRuns = true →
     exec (.firmwareMarkerPlace dt) s = .next
       (if u.chain.buffer.length ≤ 5 then
         { u with chain := { u.chain with buffer := u.chain.buffer ++ [i], fwWait := rest } }
       else u))) ∧
  ((∀ (dt : Nat) (s v : State) (n : Chan) (r : DropRun), v = advance dt s → (v.chan.get n).run = some r →
     v.itemsBefore ≤ 62 → (v.chan.get n).mergeBefore v.cycle < 4 → (v.chan.get n).refusedAt ≠ some v.cycle →
     (v.chan.get n).gapReg = none →
     Does (.dropRunClose dt n) s v [.chan, .faults] fun t =>
       t.chan.get n = { v.chan.get n with
         run := none
         gapReg := some { item := { st := .gap n r.time r.count (sat16 r.refused), session := r.session, full := v.full }
                          lowNo := r.lowNo, highNo := r.highNo, since := v.cycle } } ∧
       OnlyChan n v t ∧ t.faults.active = v.faults.active ∧
       (v.faults.period 0x30 0 = none →
         t.faults.events = (v.faults.logged 0x30 v.tb.time 1 (sat32 r.refused) 0).events)) ∧
   (∀ (dt : Nat) (s u : State) (time : BitVec 64), u = advance dt s → u.chain.mismatch = some time →
     Does (.queueReset dt) s u [.chain, .faults] fun t =>
       (∃ mask : Byte, t.chain.items =
         [{ st := .queueReset time (sat16 (u.chain.items.filter fun i => !i.st.isMarker).length)
              (sat16 (u.chain.items.filter fun i => i.st.isMarker).length) mask
            session := u.tb.session, full := u.full }] ∧
         ∀ n : Chan, mask.getLsbD n.val = u.chain.items.any fun i => !i.st.isMarker && i.st.chan == n) ∧
       t.chain.entryA = 1 ∧ t.chain.entryB = 1 ∧ t.chain.exitA = 0 ∧ t.chain.exitB = 0 ∧ t.chain.mismatch = none ∧
       t.chain.buffer = u.chain.buffer ∧ t.faults = u.faults.logged 0x31 u.tb.time 1 0 0))

/-- PACKER_TAKE_ITEM: the head item joins the open raw skein, opens one, or closes the open one first (R301 to R304, R310
to R312). That the record of a cycle whose skein the timer closed before it still joins the next one in that cycle is
the model's choice (log 32). PACKER_TAKE_RESULT: the oldest result joins its summary skein, which the end-of-summary
mark closes with reason 6; a raw item goes first. A skein opened while head stitches of the summary are kept is its
continuation and repeats them (R302, R315, R346). CLOSE_TIMER_EXPIRY and CONTROL_SKEIN_CLOSE: an open raw skein whose
timer has run closes with reason 1, and the oldest written control skein closes with reason 7 once no raw item or
result goes before it, each taking the next number of the session; of skeins that close in one cycle the raw one has
the lower number (R302, R312, R313, R317 to R319). Where a record that can be taken in the timer's cycle closes the
skein too, its condition stands first in the table (R312); that the command then takes a brace marker itself is the
model's choice (log 32), and so is it that control skeins wait in the order they were written in (log 12). -/
def Obligations.PackerWorks : Prop :=
  (∀ (dt : Nat) (flip : BitVec 7) (s u : State) (i : Item) (rest : List Item), u = advance dt s →
     u.chain.items = i :: rest →
     (u.readSide = false ∨ u.rawBuffer = false ∨ u.chain.mismatch.isSome = true ∨
         (rest = [] ∧ u.chain.entered = some u.cycle) →
       exec (.packerTakeItem dt flip) s = .next u) ∧
     (u.readSide = true → u.rawBuffer = true → u.chain.mismatch = none → u.headFalls = false → i.st.isBrace = false →
       (u.pack.rawOpen = none →
         Does (.packerTakeItem dt flip) s u [.chain, .pack] fun t =>
           t.chain.items = rest ∧ t.chain.exitA = u.chain.exitA + 1 ∧
             t.pack.takenAt = some u.cycle ∧
             t.pack.rawOpen.map (fun o => (o.session, o.era, o.recs, o.firstAt)) =
               some (i.session, u.itemEra i, [i.st], u.clock)) ∧
       (∀ o : RawOpen, u.pack.rawOpen = some o → u.closeReason o i = none → o.recs ≠ [] →
         Does (.packerTakeItem dt flip) s u [.chain, .pack] fun t =>
           t.chain.items = rest ∧ t.pack.released = u.pack.released ∧
             t.pack.rawOpen.map (fun o => (o.session, o.era, o.recs, o.firstAt)) =
               some (o.session, o.era, o.recs ++ [i.st], o.firstAt)) ∧
       (∀ (o : RawOpen) (r : BitVec 3), u.pack.rawOpen = some o → u.closeReason o i = some r →
         u.pack.closedCount Skein.isRaw = 0 → o.session = u.tb.session → u.pack.echoDone = true →
         (∀ q ∈ u.pack.released, q.inCycle ≠ u.cycle) →
         Does (.packerTakeItem dt flip) s u [.chain, .pack] fun t =>
           t.chain.items = rest ∧ t.pack.seq = u.pack.seq + 1 ∧
             t.pack.rawOpen.map (fun o => (o.session, o.recs)) = some (i.session, [i.st]) ∧
             (∃ k : Skein, t.pack.released = u.pack.released ++ [k] ∧ k.seq = u.pack.seq ∧ k.reason = r ∧
               k.session = o.session ∧ k.era = o.era ∧ k.body.records = o.recs)))) ∧
  (∀ (dt : Nat) (s u : State) (r : Result) (rest : List Result), u = advance dt s → u.eng.queue = r :: rest →
     (u.readSide = false ∨ u.sumBuffer = false ∨ u.rawWaits = true → exec (.packerTakeResult dt) s = .next u) ∧
     (u.readSide = true → u.sumBuffer = true → u.rawWaits = false → u.pack.sumOpen = none →
       Does (.packerTakeResult dt) s u [.eng, .pack] fun t =>
         t.eng.queue ++ t.eng.outgoing = rest ++ u.eng.outgoing ∧ t.pack.takenAt = some u.cycle ∧
         (r.last = false →
           t.pack.sumOpen = some { ch := r.ch, yarn := r.yarn, session := r.session, era := r.era, recs := u.pack.heads ++ [r.st],
                                   cont := !u.pack.heads.isEmpty } ∧ t.pack.released = u.pack.released) ∧
         (r.last = true → r.session = u.tb.session → u.pack.echoDone = true →
           (∀ q ∈ u.pack.released, q.inCycle ≠ u.cycle) →
           t.pack.sumOpen = none ∧ t.pack.heads = [] ∧ t.pack.seq = u.pack.seq + 1 ∧
             ∃ k : Skein, t.pack.released = u.pack.released ++ [k] ∧ k.typ = typeSummary ∧ k.seq = u.pack.seq ∧
               k.reason = 6 ∧ k.tsh = r.yarn ∧ k.cont = (!u.pack.heads.isEmpty) ∧
               k.body = .results (u.pack.heads ++ [r.st])))) ∧
  ((∀ (dt : Nat) (s u : State) (o : RawOpen), u = advance dt s → u.pack.rawOpen = some o →
     (u.clock - o.firstAt < u.closeTimerQps → exec (.closeTimerExpiry dt) s = .next u) ∧
     (∀ r : BitVec 3, u.closeTimerQps ≤ u.clock - o.firstAt → o.recs ≠ [] → o.session = u.tb.session → u.pack.echoDone = true →
       (∀ q ∈ u.pack.released, q.inCycle ≠ u.cycle) →
       ((u.takeable = false ∨ u.chain.items = []) ∧ r = 1 ∨
         ∃ (i : Item) (rest : List Item), u.takeable = true ∧ u.chain.items = i :: rest ∧
           (u.closeReason o i = some r ∨ u.closeReason o i = none ∧ i.st.isBrace = false ∧ r = 1)) →
       Does (.closeTimerExpiry dt) s u [.pack] fun t =>
         t.pack.rawOpen = none ∧ t.pack.seq = u.pack.seq + 1 ∧
           ∃ k : Skein, t.pack.released = u.pack.released ++ [k] ∧ k.seq = u.pack.seq ∧ k.reason = r ∧
             k.body.records = o.recs) ∧
     (∀ (i : Item) (rest : List Item), u.closeTimerQps ≤ u.clock - o.firstAt → o.recs ≠ [] → o.session = u.tb.session →
       u.pack.echoDone = true → (∀ q ∈ u.pack.released, q.inCycle ≠ u.cycle) → u.takeable = true →
       u.chain.items = i :: rest → u.closeReason o i = none → i.st.isBrace = true →
       Does (.closeTimerExpiry dt) s u [.chain, .pack] fun t =>
         t.chain.items = rest ∧ t.pack.rawOpen = none ∧ t.pack.seq = u.pack.seq + 1 ∧
           ∃ k : Skein, t.pack.released = u.pack.released ++ [k] ∧ k.seq = u.pack.seq ∧ k.reason = 5 ∧
             k.body.records = o.recs ++ [i.st]) ∧
     (∀ (l : List Skein) (q : Skein), u.closeTimerQps ≤ u.clock - o.firstAt → o.recs ≠ [] → o.session = u.tb.session →
       u.takeable = false → u.pack.echoDone = true → u.pack.released = l ++ [q] → q.inCycle = u.cycle →
       q.session = u.tb.session → 0 < q.rank → (∀ p ∈ l, p.inCycle ≠ u.cycle) →
       Does (.closeTimerExpiry dt) s u [.pack] fun t =>
         ∃ k : Skein, t.pack.released = l ++ [k, { q with seq := q.seq + 1, closeNo := q.closeNo + 1 }] ∧
           k.seq = u.pack.seq - 1 ∧ k.reason = 1)) ∧
   (∀ (dt : Nat) (s u : State) (c : Ctl) (rest : List Ctl), u = advance dt s → u.core.boot ≠ .skeins →
     u.pack.ctlQueue = c :: rest →
     (u.fwRuns = false ∨ u.ctlFree = false ∨ u.readIdle = false → exec (.controlSkeinClose dt) s = .next u) ∧
     (u.fwRuns = true → u.ctlFree = true → u.readIdle = true → u.pack.ctlOld = false → c.typ ≠ typeEcho → c.typ ≠ typeSummary →
       c.typ ≠ typeLive → c.typ ≠ typeBacklog →
       Does (.controlSkeinClose dt) s u [.pack, .port] fun t =>
         t.pack.ctlQueue = rest ∧ t.pack.seq = u.pack.seq + 1 ∧
           ∃ k : Skein, t.pack.released = u.pack.released ++ [k] ∧ k.typ = c.typ ∧ k.seq = u.pack.seq ∧ k.reason = 7 ∧
             k.session = u.tb.session ∧ k.body = .bytes c.body)))

/-- SUMMARY_BOUNDARY: at the boundary instant the interval ends on every enabled channel: an open gate ends there and the
next one opens, a channel without a gate leaves a no-yarn head (R259 to R262). SUMMARY_COMPLETE: the next ended gate's
results follow what the result queue holds, the last with the end-of-summary mark, and the queue takes them as far as
its sixteen places go (R280 to R283, R315, R316). -/
def Obligations.SummariesForm : Prop :=
  (∀ (dt k inst : Nat) (s u : State), u = advance dt s → u.gridInstant u.intervalQps = some (k, inst) →
     u.tb.epochSet = true → 0 < k → (u.stat.get 0).boundAt < inst →
     Does (.summaryBoundary dt) s u [.free, .stat, .eng] fun t =>
       t.eng.interval = u.eng.interval + 1 ∧
       ∀ n : Chan, u.enabled n = true →
         (t.stat.get n).boundAt = inst ∧
         (∀ g : Gate, (u.stat.get n).gate = some g →
           (∃ e ∈ t.eng.ended, e.ch = g.ch ∧ e.start = g.start ∧ e.fin = inst ∧ e.interval = g.interval) ∧
           (∃ h : Gate, (t.stat.get n).gate = some h ∧ h.ch = n ∧ h.start = inst ∧ h.interval = u.eng.interval + 1)) ∧
         ((u.stat.get n).gate = none → (u.stat.get n).gated = false →
           (t.stat.get n).gate = none ∧ ∃ e ∈ t.eng.ended, e.ch = n ∧ e.noYarn = true ∧ e.fin = inst)) ∧
  (∀ (dt : Nat) (s u : State) (g : Gate), u = advance dt s → u.eng.outgoing = [] → u.eng.next = some g →
     u.eng.queue.length ≤ 16 →
     Does (.summaryComplete dt) s u [.stat, .eng, .ao, .faults] fun t =>
       t.eng.queue ++ t.eng.outgoing = u.eng.queue ++ u.results g ∧ t.eng.queue.length ≤ 16 ∧
         (t.eng.outgoing = [] ∨ t.eng.queue.length = 16) ∧ t.eng.ended = u.eng.ended.erase g ∧
         (t.stat.get g.ch).summarised = true ∧
         ((u.results g).map (·.last)).getLast? = some true ∧ (∀ r ∈ u.results g, r.ch = g.ch ∧ r.yarn = g.yarn))

/-- R68: at the wrap the time counter passes to 0 and the era goes up by one, from 0xFFFF to 0x0000; with no stitch on its
way and nothing waiting for the next cycle that is all that the time up to it brings. -/
def Obligations.TimeCounterWraps : Prop :=
  ∀ s : State, s.tb.epochSet = true →
    Does .timeCounterWrap s s (touches .timeCounterWrap) fun t =>
      t.clock = s.clock + (2 ^ 64 - s.tb.time.toNat) ∧
      t.tb = { s.tb with time := 0, era := if s.tb.era = 0xFFFF then 0 else BitVec.ofNat 16 (s.tb.era.toNat + 1)
                         wrapped := true } ∧
      (s.sched.late = [] → (∀ n : Chan, (s.chan.get n).flights = []) → Same [.clock, .tb, .time, .seen] s t)

/-- R64, KEEP_TICK: the off-tick counter stops at its highest value; it counts in a break between sessions only. -/
def Obligations.KeepTicksSaturate : Prop :=
  ∀ (dt : Nat) (s u : State), u = advance dt s →
    exec (.keepTick dt) s = .next { u with keep := { u.keep with
      offTicks :=
        if u.keep.counting = true ∧ u.keep.offTicks.toNat < 0xFFFFFFFFFF then BitVec.ofNat 40 (u.keep.offTicks.toNat + 1)
        else u.keep.offTicks } }

/-- KEEP_DOMAIN_VBAT_LOSS: in reset the copy is no longer valid and the count says that the domain was lost (R57, R66). -/
def Obligations.KeepDomainLoses : Prop :=
  ∀ (dt : Nat) (s u : State), u = advance dt s →
    (u.core.boot = .inReset → exec (.keepDomainVbatLoss dt) s = .next
      { u with keep := { u.keep with valid := false, lost := true, offTicks := 0 } }) ∧
    (u.core.boot ≠ .inReset → exec (.keepDomainVbatLoss dt) s = .next u)

/-- R361 and R580, RESET_ASSERT: an asserted reset empties the three stores and records its cause in the keep domain; of
two causes in one cycle the lowest code stands, and one that arises later in the reset is not recorded. Every part
that loses power stands as after reset. RESET_N is recognised from 1 µs low on (R97). -/
def Obligations.FullResetAsserts : Prop :=
  ∀ (dt held : Nat) (s u : State) (c : ResetCause) (code : Byte), u = advance dt s →
    (∀ low, c = .pin low → 1000000 ≤ low) → held = (if code = 0x04 ∨ code = 0x05 then u.clock + 400000000 else u.clock) →
    code = (match c with
      | .supply => if u.power.brace then 0x02 else 0x01
      | .supplyInBrace => if u.power.brace = true ∨ u.core.boot = .inReset then 0x02 else 0x01
      | .powerGood => 0x01
      | .pin _ => 0x03
      | .restartLimit => 0x04
      | .service => 0x05) →
    (u.core.boot ≠ .inReset →
      Does (.resetAssert dt c) s u (touches (.resetAssert dt c)) fun t =>
        t.cab = .reset ∧ t.keep.cause = code ∧ t.keep.assertedAt = u.clock ∧
          t.keep.assertedTo = u.cycleFrom (u.cycle + 1) ∧ t.keep.counting = true ∧
          t.keep.copy = u.keep.copy ∧ t.keep.valid = u.keep.valid ∧ t.core = { Core.reset with heldTo := held } ∧ t.tb = .reset ∧
          t.strap = .reset ∧ t.chan = .const .reset ∧ t.stat = .const .reset ∧ t.eng = .reset ∧ t.chain = .reset ∧
          t.pack = .reset ∧ t.sched = .reset ∧ t.fol = .reset ∧ t.port = .reset ∧ t.snap = { Snap.reset with load := u.snap.load } ∧ t.ao = .reset ∧
          t.cal = .reset ∧ t.power = .reset ∧ t.faults = .reset ∧ t.tether = .reset ∧ t.sens = .reset ∧
          t.seen = State.reset.seen ∧
          t.leave.holding = none ∧ t.leave.reqs = [] ∧ t.svc.opened = false ∧ t.svc.verified = false ∧
          t.flash.op = none ∧ (u.flash.op = none → t.flash.mem = u.flash.mem ∧ t.flash.bad = u.flash.bad)) ∧
    (u.core.boot = .inReset →
      exec (.resetAssert dt c) s = .next
        (if u.clock < u.keep.assertedTo ∧ code < u.keep.cause then
          { u with keep := { u.keep with cause := code }, core := { u.core with heldTo := max u.core.heldTo held } }
        else { u with core := { u.core with heldTo := max u.core.heldTo held } }))

/-- R592, WATCHDOG_EXPIRY and FIRMWARE_FETCH_ERROR: the third core restart within 60 s becomes a full reset with start
reason 0x04. An expiry within 2 s of the firmware's start has no effect (R589; where its count stands later is the
model's choice, log 72). -/
def Obligations.ThirdRestartResets : Prop :=
  ∀ (s u : State) (dt : Nat), u = advance dt s → u.fwRuns = true →
    2 ≤ (u.core.restarts.filter fun r => decide (u.clock - r < 240000000000000)).length →
    (∀ pc : BitVec 32, u.core.dogAt ≤ u.clock → Does (.watchdogExpiry dt pc) s u (touches (.watchdogExpiry dt pc)) fun t =>
      t.core.boot = .inReset ∧ t.keep.cause = 0x04) ∧
    (∀ pc : BitVec 32, u.clock < u.core.dogAt → exec (.watchdogExpiry dt pc) s = .next u) ∧
    (∀ sector offset : Nat, Does (.firmwareFetchError dt sector offset) s u (touches (.firmwareFetchError dt 0 0)) fun t =>
      t.core.boot = .inReset ∧ t.keep.cause = 0x04)

/-- RESET_RELEASE: start-up begins, or the core stays held with fault 0xF1 where the image check fails; in the 100 µs of a
reset of cause 0x04 or 0x05 nothing happens; a fuse that does not read intact counts as blown (R579, R582, R601, R629,
R632). The model's choices: what the image check covers (log 36), and that the scrub's minute and the watchdog's 2 s
run from here (logs 20 and 72). JOURNAL_RECOVERY and ROW_COUNTER_RECONCILE: with no entry open the recovery goes on;
an open one is resolved as Table — Journal recovery has it, with fault 0x75; the row counters are reconciled, and the
session commit follows (R541, R544, R584). That the whole of one resolution, and of the reconciliation, falls in one
hold of LEAVE is the model's choice (log 39). SESSION_COMMIT: the new session number is one more than the larger of
the flash value and a valid keep copy; fault 0x26 tells an invalid copy, and the PLL is enabled (R57, R58, R583). That
the whole commit falls in one hold of LEAVE is the model's choice (log 39). -/
def Obligations.StartUpRuns : Prop :=
  (∀ (dt : Nat) (s u : State) (sense : FuseSense), u = advance dt s → u.core.boot = .inReset →
     (u.clock < u.core.heldTo →
       exec (.resetRelease dt sense) s = .next u) ∧
     (u.core.heldTo ≤ u.clock →
       exec (.resetRelease dt sense) s = .next { u with
         core := { u.core with
           boot := if u.imageOk then .straps else .held, releasedAt := u.clock, dogAt := u.clock + 8000000000000 }
         cab := { u.cab with scrubAt := u.clock }
         svc := { u.svc with
           verified := u.imageOk
           fuse := if u.svc.fuse ≠ .blown ∧ sense = .intact then .intact else .blown }
         faults := if u.imageOk then u.faults else u.faults.raised 0xF1 u.tb.time 0xFF 0 0 })) ∧
  ((∀ (dt : Nat) (s u : State), u = advance dt s → u.fwRuns = true → u.core.boot = .recovery →
     u.core.recovered = false → 4 < u.spares → u.retirements < 508 →
     (u.nextOpen = none → exec (.journalRecovery dt) s = .next { u with core := { u.core with recovered := true } }) ∧
     (∀ i : Nat, u.nextOpen = some i →
       (u.leave.holding ≠ some .flashErase ∨ u.power.brace = true → exec (.journalRecovery dt) s = .next u) ∧
       (∀ r : Nat × Nat × State, r = u.recoverEntry i → u.leave.holding = some .flashErase → u.power.brace = false →
         Does (.journalRecovery dt) s u [.free, .flash, .mem, .leave, .faults] fun t =>
           t.leave.holding = none ∧ t.flash.mem = r.2.2.flash.mem ∧
             t.faults = r.2.2.faults.logged 0x75 u.tb.time 0xFF (BitVec.ofNat 32 r.1) (BitVec.ofNat 32 r.2.1) ∧
             (u.entryType i = 1 → r.1 = 1 ∧ r.2.1 = (u.journalWord i 0).getD 0 / 65536 % 1024) ∧
             (u.entryType i = 4 → r.1 = 4 ∧ r.2.1 = (u.journalWord i 0).getD 0 / 65536 % 1024) ∧
             (u.entryType i ≠ 1 → u.entryType i ≠ 4 → r.1 = 2 ∨ r.1 = 3)))) ∧
   (∀ (dt : Nat) (s u : State), u = advance dt s → u.fwRuns = true → u.core.boot = .recovery →
     u.core.recovered = true → u.core.reconciled = false →
     (u.reconcile.flash.mem = u.flash.mem ∨ u.leave.holding = some .flashProgram ∧ u.power.brace = false →
       Does (.rowCounterReconcile dt) s u [.free, .flash, .mem, .leave, .core, .faults] fun t =>
         t.core.reconciled = true ∧ t.core.boot = .commit ∧ t.flash.mem = u.reconcile.flash.mem ∧
           (u.reconcile.flash.mem ≠ u.flash.mem → t.leave.holding = none)) ∧
     (u.reconcile.flash.mem ≠ u.flash.mem → u.leave.holding ≠ some .flashProgram ∨ u.power.brace = true →
       exec (.rowCounterReconcile dt) s = .next u))) ∧
  (∀ (dt v : Nat) (s u : State), u = advance dt s → u.fwRuns = true → u.core.boot = .commit →
     u.leave.holding = some .flashProgram → u.power.brace = false → u.flash.op = none → u.core.recovering = false →
     u.rowReady .session = true →
     v = (if u.keep.valid then max (u.rowValue .session) u.keep.copy else u.rowValue .session) →
     Does (.sessionCommit dt) s u (touches (.sessionCommit dt)) fun t =>
       t.tb.session = BitVec.ofNat 16 (v + 1) ∧ t.tb.sessionValid = true ∧ t.keep.copy = v + 1 ∧ t.keep.valid = true ∧
         t.tb.start.newSession = BitVec.ofNat 16 (v + 1) ∧ t.tb.start.prevSession = BitVec.ofNat 16 v ∧
         t.tb.pllOn = true ∧ t.core.boot = .pll ∧ t.leave.holding = none ∧
         ∀ r : State, r = State.rowAdvance .session (v + 1 - u.rowValue .session) u → t.flash.mem = r.flash.mem ∧
           t.faults = (if u.keep.valid then r.faults else r.faults.logged 0x26 u.tb.time 0xFF 0 0))

/-- R78: a reading decodes to the code whose band holds it, and to none where no band does. -/
def Obligations.ReadingsDecode : Prop :=
  ∀ (r c : Nat), decodeReading r = some c ↔
    (c = 15 ∧ 48000 ≤ r) ∨ ∃ lo hi : Nat,
      [(0, 199), (920, 1080), (1380, 1620), (1886, 2214), (2521, 2959), (3284, 3856), (4269, 5011), (5557, 6523),
        (7240, 8500), (9384, 11016), (12236, 14364), (16008, 18792), (20792, 24408), (27692, 32508),
        (36984, 43416)][c]? = some (lo, hi) ∧ lo ≤ r ∧ r ≤ hi

/-- R93, R92's first sentence, STRAP_LATCH: an ambiguous pin takes its safe-default code, a failed read gives every pin
its own, and any other pin takes the code both passes read; enabled channels stand absent and the recovery step
follows. A failed read raises fault 0x93 alone, and otherwise each ambiguous pin raises fault 0x91 with its reading
(R94). -/
def Obligations.StrapsLatch : Prop :=
  ∀ (dt : Nat) (s u : State) (r : StrapRead), u = advance dt s → u.core.boot = .straps →
    Does (.strapLatch dt r) s u (touches (.strapLatch dt r)) fun t =>
      t.strap.latched = true ∧ t.strap.pins.length = 22 ∧ t.strap.failed = strapReadFailed r ∧
      t.strap.sbyte = r.sbyte ∧ t.core.boot = .recovery ∧ t.snap.up = true ∧
      (∀ (i : Nat) (p : PinImage), t.strap.pins[i]? = some p →
        t.code i = p.applied.toNat ∧
        (strapReadFailed r = true → p.amb = true ∧ p.applied = safeCode i ∧ p.raw = 0) ∧
        (strapReadFailed r = false →
          (∀ c : Nat, decodeReading (pick r.pass1 i) = some c → decodeReading (pick r.pass2 i) = some c →
            p.amb = false ∧ p.applied = BitVec.ofNat 4 c ∧ p.raw = BitVec.ofNat 4 c) ∧
          (decodeReading (pick r.pass1 i) = none ∨ decodeReading (pick r.pass1 i) ≠ decodeReading (pick r.pass2 i) →
            p.amb = true ∧ p.applied = safeCode i))) ∧
      (∀ n : Chan, (t.enabled n = true → (t.chan.get n).st = .absentDown ∧ (t.chan.get n).count = 0) ∧
        (t.enabled n = false → t.chan.get n = u.chan.get n)) ∧
      (strapReadFailed r = true → t.faults = u.faults.raised 0x93 u.tb.time 0xFF 0 0) ∧
      (strapReadFailed r = false →
        t.faults = (t.strap.pins.zipIdx.filter fun p => p.1.amb).foldl
          (fun f p => f.raised 0x91 u.tb.time (BitVec.ofNat 8 p.2) (p.1.reading.setWidth 32) 0) u.faults)

/-- PLL_LOCK, REFIN_ACTIVITY_TIMEOUT, PLL_LOCK_TIMEOUT and REFIN_ACTIVITY_CHANGE: the PLL step of start-up and its two
faults (R39, R48, R75). PLL_UNLOCK after the epoch: timebase holdover with fault 0x21; the time counter, the epoch,
the session, the era and the event counters stay (R42, R75). With a run in progress that run is abandoned with fault
0x62 and reported (R505, R506), its temperature the mean of the readings of its suspension, or the reading in force
where none fell in it (R494; the latter the model's choice, log 50). That start-up goes back to the PLL step where the
lock is lost before the epoch is its choice too (log 43). -/
def Obligations.PllStepRunsAndHoldsOver : Prop :=
  (∀ (dt : Nat) (s u : State), u = advance dt s →
     (u.core.boot = .pll → u.tb.pllOn = true →
       exec (.pllLock dt) s = .next { u with
         tb := { u.tb with locked := true, lockAt := u.clock, refin := true }
         core := { u.core with boot := .epoch }
         faults := (u.faults.cleared 0x20 u.tb.time 0xFF).cleared 0x22 u.tb.time 0xFF }) ∧
     (u.core.boot = .pll →
       exec (.refinActivityTimeout dt) s = .next
         (if u.tb.refin = false ∧ 400000000000 ≤ u.clock - u.tb.refinAt then
           { u with faults := u.faults.raised 0x20 u.tb.time 0xFF 0 0 }
         else u)) ∧
     (u.core.boot = .pll →
       exec (.pllLockTimeout dt) s = .next
         (if u.tb.refin = true ∧ 20000000000 ≤ u.clock - u.tb.refinAt then
           { u with faults := u.faults.raised 0x22 u.tb.time 0xFF 0 0 }
         else u)) ∧
     (∀ active : Bool, exec (.refinActivityChange dt active) s = .next
       (if u.tb.refin = active then u
       else { u with
         tb := { u.tb with refin := active, refinAt := if u.core.boot = .pll then u.clock else u.tb.refinAt }
         faults := u.faults.cleared (if active then 0x20 else 0x22) u.tb.time 0xFF })) ∧
     (u.core.boot ≠ .pll →
       exec (.pllLock dt) s = .next u ∧ exec (.refinActivityTimeout dt) s = .next u ∧
         exec (.pllLockTimeout dt) s = .next u)) ∧
  ((∀ (dt : Nat) (s u : State), u = advance dt s → u.tb.locked = true → u.tb.epochSet = true →
     Does (.pllUnlock dt) s u (touches (.pllUnlock dt)) fun t =>
       t.tb = { u.tb with locked := false, holdover := true, holdEntry := u.tb.time, holdExit := 0 } ∧
         (∀ n : Chan, (t.chan.get n).count = (u.chan.get n).count) ∧ t.cal.run = none ∧ t.cal.passed = false ∧
         (u.cal.run = none → t.chan = u.chan ∧ t.faults = u.faults.raised 0x21 u.tb.time 0xFF 0 0) ∧
         (∀ r : Run, u.cal.run = some r →
           t.cal.results.map (fun x => (x.abandoned, x.rejoin)) =
             u.cal.results.map (fun x => (x.abandoned, x.rejoin)) ++ [(true, r.rejoin)] ∧
           (t.cal.results.getLast?).map (·.temp) =
             some (if r.dieN = 0 then u.sens.die else roundDiv r.dieSum r.dieN))) ∧
   (∀ (dt : Nat) (s u : State), u = advance dt s → u.tb.locked = true → u.tb.epochSet = false → u.core.boot = .epoch →
     exec (.pllUnlock dt) s = .next
       { u with tb := { u.tb with locked := false, refinAt := u.clock }, core := { u.core with boot := .pll } }))

/-- R44, PLL_RELOCK: holdover ends at relock, and the time counter goes on without a reset or a step. A rejoin run that
waited for the lock begins (R486). -/
def Obligations.PllRelocks : Prop :=
  ∀ (dt : Nat) (s u : State), u = advance dt s → u.tb.epochSet = true → u.tb.holdover = true →
    (Does (.pllRelock dt) s u [.tb, .chan, .cal, .faults] fun t =>
      t.tb = { u.tb with locked := true, holdover := false, holdExit := u.tb.time } ∧
        t.faults = u.faults.cleared 0x21 u.tb.time 0xFF ∧ (u.cal.joinWaits = none → t.chan = u.chan ∧ t.cal = u.cal)) ∧
    (∀ n : Chan, u.cal.joinWaits = some n → u.fwRuns = true → u.leave.holding = some (.join n) →
      (u.chan.get n).st = .joining → u.cal.run = none →
      Does (.pllRelock dt) s u [.tb, .chan, .cal, .faults] fun t =>
        OnlyChan n u t ∧ (t.chan.get n).susp.isSome = true ∧
          t.cal.run.map (fun r => (r.rejoin, r.trigger, r.startClock)) = some (some n, .join, u.clock))

/-- EPOCH_SET and EPOCH_PPS_TIMEOUT: the epoch is the first coarse boundary 1 ms after lock with PPS off, and 2.5 s after
it with fault 0x23 where no edge came; time passes up to it, and the time counter counts from 0 there (R48, R51, R63).
How the coarse boundaries lie to the lock (`pllPhase`) is a free value: the model's choice (log 63). PPS_EDGE and
PPS_GAP_TIMEOUT: the edge that sets the epoch within ±0.8 ns of itself (±2.5 ns where it rises in more than 5 ns), or
comes more than 2.5 s after lock and finds it set with fault 0x23; the check of later ones with fault 0x24 above 1 µs,
which step nothing, and the gap of more than 1.5 s with fault 0x25 (R49 to R54, R644). How fast the edge rises and
where within its bound the epoch falls are free values, and the epoch is reached within the edge's own step: the
model's choices (log 61). Step 6 of start-up (R62, R320, R350, R354, R583, R586): at the epoch the start status closes
and the echo waits for the control buffer behind it; then the echo, and after it the pre-epoch fault skeins, which
carry time 0; with the last of them the channel step begins with the channels qualified then, or is over at once where
there is none. -/
def Obligations.EpochsAndPpsEdges : Prop :=
  (∀ (dt : Nat) (s u : State), u = advance dt s → u.core.boot = .epoch → u.tb.epochSet = false → u.tb.locked = true →
     (u.ppsUse = 0 → 4000000000 ≤ u.clock - u.tb.lockAt →
       Does (.epochSet dt) s u (touches (.epochSet dt)) fun t =>
         t.tb.epochSet = true ∧ t.tb.epochClock = u.boundaryFrom (u.tb.lockAt + 4000000000) ∧
           t.clock = max u.clock t.tb.epochClock ∧ t.tb.time = BitVec.ofNat 64 (t.clock - t.tb.epochClock) ∧
           t.tb.era = 0 ∧ t.tb.start.source = 0 ∧ t.keep.counting = false ∧ t.tb.session = u.tb.session ∧
           t.tb.originSession = u.tb.session ∧ ∀ n : Chan, (t.chan.get n).count = (u.chan.get n).count) ∧
     (u.ppsUse ≠ 0 → 10000000000000 ≤ u.clock - u.tb.lockAt →
       Does (.epochPpsTimeout dt) s u (touches (.epochPpsTimeout dt)) fun t =>
         t.tb.epochSet = true ∧ t.tb.epochClock = u.boundaryFrom (u.tb.lockAt + 10000000000000) ∧
           t.clock = max u.clock t.tb.epochClock ∧ t.tb.time = BitVec.ofNat 64 (t.clock - t.tb.epochClock) ∧
           t.tb.era = 0 ∧ t.tb.start.source = 3 ∧ t.keep.counting = false ∧
           (u.sched.late = [] → (∀ n : Chan, (u.chan.get n).flights = []) → t.faults = u.faults.logged 0x23 u.tb.time 0xFF 0 0)) ∧
     (∀ c : Nat, c ≤ u.boundaryFrom c ∧ u.boundaryFrom c < c + 1600 ∧
       u.boundaryFrom c % 1600 = Config.pllPhase u.tb.lockAt % 1600)) ∧
  ((∀ (dt : Nat) (s u : State), u = advance dt s → u.ppsUse ≠ 0 → u.strap.latched = true → u.tb.epochSet = false →
     u.core.boot = .epoch → u.tb.locked = true →
     (u.clock - u.tb.lockAt ≤ 10000000000000 →
       Does (.ppsEdge dt) s u (touches (.ppsEdge dt)) fun t =>
         t.tb.epochSet = true ∧
           (∃ err : Int, t.tb.epochClock = ((u.clock : Int) + err).toNat ∧
             (err.natAbs ≤ 3200 ∨ (5000 < Config.ppsRise u.clock ∧ err.natAbs ≤ 10000) ∨ 20000 < Config.ppsRise u.clock)) ∧
           t.clock = max u.clock t.tb.epochClock ∧ t.tb.time = BitVec.ofNat 64 (t.clock - t.tb.epochClock) ∧
           t.tb.era = 0 ∧ t.tb.start.source = 1 ∧ (u.ppsUse = 2 → t.tb.ppsOffset = 0) ∧
           (u.sched.late = [] → (∀ n : Chan, (u.chan.get n).flights = []) → t.faults = u.faults)) ∧
     (10000000000000 < u.clock - u.tb.lockAt →
       Does (.ppsEdge dt) s u (touches (.ppsEdge dt)) fun t =>
         t.tb.epochSet = true ∧ t.tb.epochClock = u.boundaryFrom (u.tb.lockAt + 10000000000000) ∧ t.tb.start.source = 3 ∧
           (u.sched.late = [] → (∀ n : Chan, (u.chan.get n).flights = []) → t.faults.count 0x23 = u.faults.count 0x23 + 1))) ∧
   (∀ (dt : Nat) (s u : State), u = advance dt s → u.ppsUse = 2 → u.strap.latched = true → u.tb.epochSet = true →
     Does (.ppsEdge dt) s u [.tb, .faults, .tether] fun t =>
       t.tb = { u.tb with
         ppsCount := u.tb.ppsCount + 1, lastPps := some u.clock, gapSaid := false
         ppsOffset := BitVec.ofInt 64 (ppsOffsetOf (1600 * (u.full / 1600))) } ∧
       t.faults = (if 4000000 < (ppsOffsetOf (1600 * (u.full / 1600))).natAbs then
           u.faults.logged 0x24 u.tb.time 0xFF 0 0
         else u.faults)) ∧
   (∀ (dt e : Nat) (s u : State), u = advance dt s → u.tb.lastPps = some e → u.ppsUse = 2 → u.tb.gapSaid = false →
     exec (.ppsGapTimeout dt) s = .next
       (if 6000000000000 < u.clock - e then
         { u with tb := { u.tb with gapSaid := true }, faults := u.faults.logged 0x25 u.tb.time 0xFF 0 0 }
       else u))) ∧
  ((∀ (dt : Nat) (s u : State), u = advance dt s → u.core.boot = .epoch → u.tb.epochSet = false → u.tb.locked = true →
     u.ppsUse = 0 → 4000000000 ≤ u.clock - u.tb.lockAt → u.sched.late = [] → (∀ n : Chan, (u.chan.get n).flights = []) →
     u.fwRuns = true → u.chain.items = [] → u.eng.queue = [] → u.pack.takenAt = none → u.pack.ctlQueue = [] →
     u.pack.ctlOld = false → u.pack.released = [] → u.pack.echoDone = false →
     Does (.epochSet dt) s u (touches (.epochSet dt)) fun t =>
       t.core.boot = .skeins ∧ t.faults = u.faults ∧ t.pack.seq = u.pack.seq + 1 ∧
         (∃ k : Skein, t.pack.released = [k] ∧ k.typ = typeStatus ∧ k.seq = u.pack.seq ∧ k.session = u.tb.session ∧ k.reason = 7 ∧
           k.intro = false) ∧
         (∃ c : Ctl, t.pack.ctlQueue = [c] ∧ c.typ = typeEcho ∧ c.intro = false)) ∧
   (∀ (dt : Nat) (s u : State) (c : Ctl), u = advance dt s → u.core.boot = .skeins → u.fwRuns = true → u.ctlFree = true →
     u.readIdle = true → u.pack.ctlOld = false → u.pack.ctlQueue = [c] → c.typ = typeEcho → c.intro = false →
     Does (.controlSkeinClose dt) s u (touches (.controlSkeinClose dt)) fun t =>
       t.pack.echoDone = true ∧ t.pack.ctlQueue = [] ∧ t.faults = u.faults ∧
         ((∃ e ∈ u.faults.events, e.time = 0) → t.core.boot = .skeins) ∧
         ((∀ e ∈ u.faults.events, e.time ≠ 0) →
           (∀ n : Chan, (t.chan.get n).startJoin = ((u.chan.get n).st == .qualified)) ∧
             (t.core.boot = .chans ∨ t.core.boot = .calib ∧ t.cal.pending = some .startup) ∧
             ((∀ n : Chan, (u.chan.get n).st ≠ .qualified) → (∀ n : Chan, u.leave.holding ≠ some (.startupPower n)) →
               t.core.boot = .calib))) ∧
   (∀ (dt : Nat) (s u : State) (e : FaultEvent) (rest : List FaultEvent), u = advance dt s → u.core.boot = .skeins →
     u.fwRuns = true → u.ctlFree = true → u.readIdle = true → u.pack.ctlOld = false → u.pack.ctlQueue = [] →
     u.pack.echoDone = true → u.faults.events = e :: rest →
     Does (.faultSkeinClose dt) s u (touches (.faultSkeinClose dt)) fun t =>
       t.faults = { u.faults with events := rest } ∧ t.pack.seq = u.pack.seq + 1 ∧
         (∃ k : Skein, t.pack.released = u.pack.released ++ [k] ∧ k.typ = typeFault ∧ k.seq = u.pack.seq ∧
           k.body = .bytes e.bytes) ∧
         ((∃ e ∈ rest, e.time = 0) → t.core.boot = .skeins) ∧ ((∀ e ∈ rest, e.time ≠ 0) → t.core.boot ≠ .skeins)))

/-- R185: a join on one channel changes no other channel: not its state, its yarn, its ticks, or the stamps it has formed. -/
def Obligations.JoinsTouchOneChannel : Prop :=
  ∀ (dt : Nat) (s t : State) (n : Chan) (m : ChanMeas) (temp : Int) (i : Instr),
    i = .joinStart dt n ∨ i = .channelDomainReady dt n ∨ i = .rejoinRunEnd dt n m temp ∨ i = .channelStartupJoin dt n →
    exec i s = .next t → OnlyChan n (advance i.dt s) t

/-- CHANNEL_STARTUP_JOIN, JOIN_START and CHANNEL_DOMAIN_READY: a channel that entered state 4 with its hold has its domain
powered where it is down; its rejoin run begins once the domain is up and the PLL is locked, and in the cycle after
the domain has settled (R170, R171, R179, R486, R504). REJOIN_RUN_END: LEAVE is released and the channel starts its
next yarn in state 5; one that did not stay stable goes to state 2 with fault 0x16 (R170, R174, R181 to R184, R504). -/
def Obligations.JoinsRun : Prop :=
  ((∀ (dt : Nat) (s u : State) (n : Chan), u = advance dt s → u.fwRuns = true → (u.chan.get n).st = .joining →
     (u.core.boot = .chans → u.leave.holding = some (.startupPower n) → (u.chan.get n).startJoin = true →
       (u.chan.get n).settling = false → u.domainHeld n.val = false →
       exec (.channelStartupJoin dt n) s = .next { u with
         chan := u.chan.set n { u.chan.get n with up := true, settling := true } }) ∧
     (u.leave.holding = some (.join n) → u.cal.run = none → u.cal.joinWaits ≠ some n → (u.chan.get n).settling = false →
       u.domainHeld n.val = false →
       ((u.chan.get n).up = false →
         exec (.joinStart dt n) s = .next { u with
           chan := u.chan.set n { u.chan.get n with up := true, settling := true } }) ∧
       ((u.chan.get n).up = true → u.tb.locked = true →
         Does (.joinStart dt n) s u [.chan, .cal] fun t =>
           (t.chan.get n).st = .joining ∧ (t.chan.get n).susp.isSome = true ∧ OnlyChan n u t ∧
             t.cal.run.map (fun r => (r.rejoin, r.trigger, r.startClock)) = some (some n, .join, u.clock)) ∧
       ((u.chan.get n).up = true → u.tb.locked = false →
         exec (.joinStart dt n) s = .next { u with cal := { u.cal with joinWaits := some n } })) ∧
     (u.leave.holding ≠ some (.join n) → exec (.joinStart dt n) s = .next u) ∧
     ((u.chan.get n).settling = true → u.sched.late = [] →
       (u.leave.holding = some (.startupPower n) →
         Does (.channelDomainReady dt n) s u [.chan, .leave, .core, .cal] fun t =>
           t.leave.holding = none ∧ (t.chan.get n).settling = false ∧ OnlyChan n u t) ∧
       (u.leave.holding = some (.join n) → u.cal.run = none →
         exec (.channelDomainReady dt n) s = .next { u with sched := { u.sched with late := [.rejoin n] } })) ∧
     ((u.chan.get n).settling = false → exec (.channelDomainReady dt n) s = .next u)) ∧
   (∀ (dt : Nat) (s : State) (n : Chan), s.sched.late = [.rejoin n] → (∀ m : Chan, (s.chan.get m).flights = []) →
     s.toNext ≤ dt → s.fwRuns = true → s.leave.holding = some (.join n) → (s.chan.get n).st = .joining → s.cal.run = none →
     s.tb.locked = true →
     ∃ t : State, t = advance dt s ∧ t.sched.late = [] ∧ OnlyChan n s t ∧ (t.chan.get n).settling = false ∧
       (t.chan.get n).susp.isSome = true ∧
       t.cal.run.map (fun r => (r.rejoin, r.trigger, r.startClock)) = some (some n, .join, s.cycleFrom (s.cycle + 1)))) ∧
  (∀ (dt : Nat) (s u : State) (n : Chan) (m : ChanMeas) (temp : Int) (r : Run), u = advance dt s → u.fwRuns = true →
     u.cal.run = some r → r.rejoin = some n → u.leave.holding = some (.join n) →
     Does (.rejoinRunEnd dt n m temp) s u (touches (.rejoinRunEnd dt n m temp)) fun t =>
       t.leave.holding = none ∧ t.cal.run = none ∧ t.cal.lastDie = temp ∧ t.cal.bank = !u.cal.bank ∧
         t.cal.results.length = u.cal.results.length + 1 ∧ (t.chan.get n).count = (u.chan.get n).count ∧
         (64 ≤ (u.chan.get n).stable →
           (t.chan.get n).st = .present ∧ (t.chan.get n).yarn = (u.chan.get n).yarn + 1 ∧
             (t.chan.get n).pending = false ∧ t.faultActive 0x11 (BitVec.ofNat 8 n.val) = false ∧
             ∃ i ∈ t.chain.buffer ++ t.chain.fwWait, i.st = .yarnStart n (BitVec.ofNat 64 u.cycleNow)
               ((u.countBy n (u.clockOf u.cycleNow)).setWidth 40) ((u.chan.get n).yarn + 1)) ∧
         ((u.chan.get n).stable < 64 →
           (t.chan.get n).st = .absentUp ∧ (t.chan.get n).yarn = (u.chan.get n).yarn ∧ t.faults.last = 0x16))

/-- R176, CHANNEL_LOSS: in the cycle of detection the pending tick is cleared and stamping stops, whether or not the core
runs; what the firmware will report is kept. -/
def Obligations.LossStopsStamping : Prop :=
  ∀ (dt : Nat) (s u : State) (n : Chan) (cause : LossCause), u = advance dt s → (u.chan.get n).loss = none →
    (u.chan.get n).st = .present ∨ (u.chan.get n).st = .suspended →
    cause = .swing ∨ (∃ e : Nat, (u.chan.get n).lastEdge = some e ∧
      max 40000000 (min 40000000000000 (4 * (u.chan.get n).intervals.foldl max 0)) < u.clock - e) →
    Does (.channelLoss dt n cause) s u [.chan, .stat, .eng] fun t =>
      OnlyChan n u t ∧ (t.chan.get n).pending = false ∧ (t.chan.get n).st ≠ .present ∧
        ((u.chan.get n).st = .present → (t.chan.get n).st = .absentUp ∧ (t.chan.get n).absentAt = u.clock) ∧
        (t.chan.get n).count = (u.chan.get n).count ∧ (t.chan.get n).yarn = (u.chan.get n).yarn ∧
        (t.stat.get n).gate = none ∧ (t.stat.get n).cur = none ∧
        (t.chan.get n).loss.map (fun r => (r.full, r.session)) = some (u.cycleNow, u.tb.session)

/-- LOSS_HANDLING, CHANNEL_IDLE_TIMEOUT and CHANNEL_DOMAIN_POWER_DOWN: the yarn end marker and fault 0x12 with the instant
of detection; state 1 after 10 s in state 2; the domain goes down with nothing of the channel on its way (R177, R178,
R182, R556). PROBE_ABSENT_TIMEOUT, SWING_OVERLOAD and its clear: faults 0x11 and 0x14 (R164, R186). -/
def Obligations.LossesAndInputFaults : Prop :=
  ((∀ (dt : Nat) (s u : State) (n : Chan) (r : LossRec), u = advance dt s → (u.chan.get n).loss = some r →
     u.fwRuns = true → (u.chan.get n).st ≠ .suspended →
     Does (.lossHandling dt n) s u [.chan, .chain, .snap, .faults] fun t =>
       OnlyChan n u t ∧ t.chan.get n = { u.chan.get n with loss := none } ∧
         t.chain = Chain.place { u.chain with fwWait := u.chain.fwWait ++
           [{ st := .yarnEnd n r.time (r.count.setWidth 40) (u.chan.get n).yarn, session := r.session, full := r.full }] } ∧
         t.faults = u.faults.logged 0x12 r.time (BitVec.ofNat 8 n.val) 0 0) ∧
   (∀ (dt : Nat) (s u : State) (n : Chan), u = advance dt s → (u.chan.get n).st = .absentUp →
     (u.clock - (u.chan.get n).absentAt < 40000000000000 → exec (.channelIdleTimeout dt n) s = .next u) ∧
     (40000000000000 ≤ u.clock - (u.chan.get n).absentAt →
       exec (.channelIdleTimeout dt n) s = .next { u with
         chan := u.chan.set n { u.chan.get n with st := .absentDown, up := (u.chan.get n).up && u.inPath n } })) ∧
   (∀ (dt : Nat) (s u : State) (n : Chan), u = advance dt s → (u.chan.get n).up = true →
     (u.chan.get n).st = .absentDown ∨ (u.chan.get n).st = .disabled →
     exec (.channelDomainPowerDown dt n) s = .next (if u.inPath n then u
       else { u with chan := u.chan.set n { u.chan.get n with up := false } }))) ∧
  (∀ (dt : Nat) (s u : State) (n : Chan) (subj : Byte), u = advance dt s → subj = BitVec.ofNat 8 n.val →
     (u.tb.epochSet = true → u.declared n = true → (u.chan.get n).st ≠ .present → (u.chan.get n).st ≠ .suspended →
       exec (.probeAbsentTimeout dt n) s = .next
         (if 40000000000000 ≤ u.clock - (u.chan.get n).missingAt then
           { u with faults := u.faults.raised 0x11 u.tb.time subj 0 0 }
         else u)) ∧
     (u.frontOn n = true →
       exec (.swingOverload dt n) s = .next { u with faults := u.faults.raised 0x14 u.tb.time subj 0 0 }) ∧
     exec (.swingOverloadClear dt n) s = .next { u with faults := u.faults.cleared 0x14 u.tb.time subj })

/-- AUTO_LEVEL_UPDATE and PEAK_REPORT: once the peaks have held 50 mV the DAC code moves toward the midpoint of the peaks,
kept within ±1.25 V, by the difference or by 16 steps where it is more; a midpoint that comes to lie beyond that range
logs fault 0x15, and none is logged while it stays there. On the 1 ms grid the reported peaks are referred to the
probe tip (R158, R160, R161, R163). WORKING_SET_REBUILD, DIE_TEMPERATURE_READ and CTH_READ: a rebuild at 0.1 °C from
the last one swaps the banks, with the bank in use kept to the end of the cycle; extended refresh begins above 95 °C
and ends below 92 °C; a CTH reading outside its range, and one without a thermistor, is reported as none (R192, R193,
R381, R648, R649). -/
def Obligations.MeasurementsAct : Prop :=
  (∀ (dt : Nat) (s u : State) (n : Chan) (pos neg : Int), u = advance dt s →
     (u.frontOn n = true → u.autoLevel = true →
       ∀ (on clips : Bool) (target : Int), on = ((u.chan.get n).levelled || decide (50000 ≤ pos - neg)) →
       clips = (on && decide (2500000 < (pos + neg).natAbs)) →
       target = max (-2048) (min 2047 (roundDiv (max (-2500000) (min 2500000 (pos + neg)) * 4096) 5000000)) →
       exec (.autoLevelUpdate dt n pos neg) s = .next { u with
         chan := u.chan.set n { u.chan.get n with
           peakPos := pos, peakNeg := neg, levelled := on, clipped := clips
           dac := if on then (u.chan.get n).dac + max (-16) (min 16 (target - (u.chan.get n).dac)) else (u.chan.get n).dac }
         faults := if clips = true ∧ (u.chan.get n).clipped = false then
             u.faults.logged 0x15 u.tb.time (BitVec.ofNat 8 n.val) 0 0
           else u.faults }) ∧
     (u.frontOn n = false ∨ u.autoLevel = false → exec (.autoLevelUpdate dt n pos neg) s = .next u) ∧
     (u.frontOn n = false → exec (.peakReport dt n pos neg) s = .next u) ∧
     (u.frontOn n = true →
       exec (.peakReport dt n pos neg) s = .next
         (if (u.clock - u.strap.at_) % 4000000000 < 12800 then
           { u with chan := u.chan.set n { u.chan.get n with
             peakPos := pos, peakNeg := neg
             repPos := max (-32768) (min 32767 (roundDiv (pos * u.attenuation n) 1000))
             repNeg := max (-32768) (min 32767 (roundDiv (neg * u.attenuation n) 1000)) } }
         else u))) ∧
  (∀ (dt : Nat) (s u : State), u = advance dt s →
     (u.fwRuns = true → u.cal.work.isSome = true → u.calSets ≠ [] →
       (10 * (u.sens.die - u.cal.builtAt).natAbs < 128 → exec (.workingSetRebuild dt) s = .next u) ∧
       (128 ≤ 10 * (u.sens.die - u.cal.builtAt).natAbs →
         Does (.workingSetRebuild dt) s u [.ao, .cal] fun t =>
           t.cal = { u.cal with
             work := some (workingSet u.sens.die u.calSets), builtAt := u.sens.die, bank := !u.cal.bank
             other := u.bankNow, swapAt := u.cycle + 1 } ∧
           t.bankNow = u.bankNow ∧ ∀ o : OutNo, (t.ao.outs.get o).code = (u.ao.outs.get o).code)) ∧
     (∀ temp : Int, u.outOfReset = true → u.strap.latched = true →
       Does (.dieTemperatureRead dt temp) s u [.cab, .snap, .ao, .cal, .faults, .sens] fun t =>
         t.sens = { u.sens with
           die := temp, hotFrom := if 16000 < temp then some (u.sens.hotFrom.getD u.clock) else none
           coolFrom := if temp ≤ 15360 then some (u.sens.coolFrom.getD u.clock) else none } ∧
           t.cab = { u.cab with extRefresh :=
             if 12160 < temp then true else if temp < 11776 then false else u.cab.extRefresh }) ∧
     (∀ temp : Int, u.fwRuns = true → u.strap.latched = true →
       Does (.cthRead dt temp) s u [.snap, .sens] fun t =>
         t.sens = { u.sens with
           cth := if u.ntc = true ∧ -7040 ≤ temp ∧ temp ≤ 19200 then some temp else none } ∧
         (u.ntc = false ∨ temp < -7040 ∨ 19200 < temp → t.sens.cthField = 0x8000 ∧ t.snap.fw.cth = 0x8000)))

/-- WATCHDOG_EXPIRY, FIRMWARE_FETCH_ERROR and CORE_RESTART: a restart below the limit of R592, what it logs, LEAVE given
back for what has not begun, and the firmware that resumes after it: fault skeins not yet closed and results not yet
committed stay, and open journal entries are recovered under LEAVE (R589 to R591, R593, R601). That no expiry comes
before 2 s of counting is log 72, what a restart keeps and the recovery it asks for are log 41 and 39: the model's
choices. DOMAIN_POWER_FAULT, DOMAIN_RESTORE and DOMAIN_FAULT_CLEAR: fault 0xF4 with the failure count at each failure,
the domain down at once with what Table — Domain resets says of its channel, its outputs, the stream port or the
snapshot port, up again after 10 ms unless it is the third failure, and the clear after 1 s (R594, R595, R601). That a
rejoin run ended so closes no calibration report is log 69, the model's choice. -/
def Obligations.CoreAndDomainsRestart : Prop :=
  ((∀ (dt : Nat) (s u : State), u = advance dt s → u.fwRuns = true →
     (∀ pc : BitVec 32, u.clock < u.core.dogAt → exec (.watchdogExpiry dt pc) s = .next u) ∧
     ((u.core.restarts.filter fun r => decide (u.clock - r < 240000000000000)).length < 2 →
       (∀ pc : BitVec 32, u.core.dogAt ≤ u.clock → Does (.watchdogExpiry dt pc) s u [.chan, .leave, .core] fun t =>
         t.core = { u.core with
           restarting := some u.clock, restartPc := some pc
           restarts := u.clock :: u.core.restarts.filter fun r => decide (u.clock - r < 240000000000000) } ∧
         t.fwRuns = false ∧
         (∀ n : Chan, t.chan.get n = u.chan.get n ∨
           (u.holds (.join n) = true ∨ u.holds (.startupPower n) = true) ∧
             t.chan.get n = { u.chan.get n with st := .qualified }) ∧
         (∀ op : HeavyOp, t.leave.holding = some op → u.leave.holding = some op ∧
           (op = .service ∨ op = .scrub ∨
             ∃ n : Chan, (op = .join n ∨ op = .startupPower n) ∧ (u.chan.get n).settling = true))) ∧
       (∀ sector offset : Nat, Does (.firmwareFetchError dt sector offset) s u [.chan, .flash, .leave, .core, .faults] fun t =>
         t.core.restarting = some u.clock ∧ t.flash.mem = u.flash.mem ∧
           t.flash.bad.contains (8 * ((4096 * sector + offset) / 8)) = true ∧
           t.faults = u.faults.logged 0xF3 u.tb.time 0xFF (BitVec.ofNat 32 sector) (BitVec.ofNat 32 offset)))) ∧
   (∀ (dt : Nat) (s u : State) (begun : Nat), u = advance dt s → u.core.restarting = some begun →
     (u.core.halted = true → exec (.coreRestart dt) s = .next u) ∧
     (u.core.halted = false →
       Does (.coreRestart dt) s u (touches (.coreRestart dt)) fun t =>
         t.core.restarting = none ∧ t.cal.run = none ∧ t.leave.withdrawn = false ∧
           (∀ n : Chan, (t.chan.get n).st ≠ .joining ∧ (t.chan.get n).count = (u.chan.get n).count) ∧
           t.pack.ctlQueue = (if u.pack.echoDone then u.pack.ctlQueue.filter fun c => c.typ == typeFault
             else u.pack.ctlQueue) ∧
           t.cal.results = (if u.readOnly then [] else u.cal.results.filter fun r => !r.abandoned) ∧
           t.cab.runsClosed = u.cab.runsClosed ∧
           (u.core.recovered = true → u.nextOpen.isSome = true →
             t.core.recovering = true ∧
               (t.leave.reqs.contains .flashErase = true ∨ t.leave.holding = some .flashErase)) ∧
           (∀ pc : BitVec 32, u.core.restartPc = some pc →
             t.faults.last = 0xF2 ∧ t.core.restartPc = none ∧
               t.faults.events.getLast?.map (fun e => (e.code, e.held, e.detailA)) = some (0xF2, false, pc))))) ∧
  (∀ (dt : Nat) (s u : State) (dom : Fin 11), u = advance dt s →
     (u.outOfReset = true → u.domainUp dom.val = true → u.power.fails.length = 11 →
       Does (.domainPowerFault dt dom) s u (touches (.domainPowerFault dt dom)) fun t =>
         t.domainUp dom.val = false ∧ t.domainHeld dom.val = true ∧
           t.power.fails[dom.val]? = some (min 3 (u.power.fails.getD dom.val 0 + 1)) ∧
           t.faultActive 0xF4 (BitVec.ofNat 8 dom.val) = true ∧
           (∃ more : List FaultEvent, t.faults.events = u.faults.events ++
             ({ code := 0xF4, raised := true, held := true, time := u.tb.time, subject := BitVec.ofNat 8 dom.val,
                detailA := BitVec.ofNat 32 (min 3 (u.power.fails.getD dom.val 0 + 1)), detailB := 0,
                occ := u.faults.count 0xF4 + 1 } :: more)) ∧
           (∀ n : Chan, n.val = dom.val → OnlyChan n u t ∧
             (t.chan.get n).yarn = (u.chan.get n).yarn ∧ (t.chan.get n).count = (u.chan.get n).count ∧
             ((u.chan.get n).st = .present → (u.chan.get n).loss = none →
               (t.chan.get n).st = .absentUp ∧ (t.chan.get n).loss.isSome = true) ∧
             ((u.chan.get n).st = .suspended → (u.chan.get n).loss = none →
               (t.chan.get n).st = .suspended ∧ (t.chan.get n).loss.isSome = true) ∧
             ((u.chan.get n).st = .joining →
               (t.chan.get n).st = .absentUp ∧ t.faults.last = 0x16 ∧ t.cal.report = u.cal.report ∧
                 (∀ r : Run, t.cal.run = some r → r.rejoin ≠ some n)) ∧
             ((u.chan.get n).st ≠ .present → (u.chan.get n).st ≠ .suspended → (u.chan.get n).st ≠ .joining →
               t.chan.get n = { u.chan.get n with up := false })) ∧
           (8 ≤ dom.val → t.chan = u.chan) ∧
           (dom = 8 → t.port.st = .down ∧ t.port.tx = none ∧ t.port.aligned = false ∧ t.port.introClosed = false) ∧
           (dom = 9 → ∀ o : OutNo,
             (t.ao.outs.get o).st = (if (u.ao.outs.get o).st = .faulted then .faulted else .idle) ∧
               (t.ao.outs.get o).code = (u.ao.outs.get o).code) ∧
           (dom = 10 → t.snap.latches = [] ∧ t.snap.sd = .hiz)) ∧
     (∀ at_ : Nat, u.power.downAt.find? (fun d => d.1 == dom.val) = some (dom.val, at_) →
       (u.clock - at_ < 40000000000 ∨ 3 ≤ u.power.fails.getD dom.val 0 → exec (.domainRestore dt dom) s = .next u) ∧
       (40000000000 ≤ u.clock - at_ → u.power.fails.getD dom.val 0 < 3 →
         Does (.domainRestore dt dom) s u [.chan, .snap, .ao, .power] fun t =>
           t.domainHeld dom.val = false ∧
             (dom ≠ 8 → (dom = 9 → u.power.standby = false) → t.domainUp dom.val = true))) ∧
     (∀ at_ : Nat, u.power.upAt.find? (fun d => d.1 == dom.val) = some (dom.val, at_) → u.domainUp dom.val = true →
       exec (.domainFaultClear dt dom) s = .next
         (if 4000000000000 ≤ u.clock - at_ then
           { u with power := { u.power with fails := u.power.fails.set dom.val 0 }
                    faults := u.faults.cleared 0xF4 u.tb.time (BitVec.ofNat 8 dom.val) }
         else u)))

/-- DRIFT_CHECK_READ: a pin enters or leaves drift at the second read in a row that says so; the entry logs fault 0x92 and
either forms a marker after the epoch; a pin has one turn in a second counted from the strap latch, in index order,
and brace and a calibration run skip the read, whose turn is over (R99 to R103, R105). The reading of a marker for
SBYTE is its level (log 59), no marker forms before the epoch (log 30), and a check that a stall has carried past its
second comes beside the next one's (log 73): the model's choices. -/
def Obligations.DriftReads : Prop :=
  ∀ (dt reading : Nat) (s u : State) (pin : Fin 23) (d : DriftPin) (off : Bool), u = advance dt s →
    u.strap.drift[pin.val]? = some d →
    off = ((u.driftStates pin.val reading).2 != (u.driftStates pin.val reading).1) →
    (u.fwRuns = false ∨ u.strap.latched = false ∨
        u.strap.driftOwed = none ∧ u.strap.driftSec = (u.clock - u.strap.at_) / 4000000000000 ∧
          pin.val < u.strap.driftDone →
      exec (.driftCheckRead dt pin reading) s = .next u) ∧
    (∀ turn : Strap, u.fwRuns = true → u.strap.latched = true →
      (∃ first : Nat, u.strap.driftOwed = some first ∧ first ≤ pin.val ∧
          turn = { u.strap with driftOwed := if pin.val < 22 then some (pin.val + 1) else none }) ∨
        u.strap.driftOwed = none ∧
          (u.strap.driftSec = (u.clock - u.strap.at_) / 4000000000000 → u.strap.driftDone ≤ pin.val) ∧
          turn = { u.strap with
            driftSec := (u.clock - u.strap.at_) / 4000000000000, driftDone := pin.val + 1 } →
      (u.power.brace = true ∨ u.cal.run.isSome = true →
        exec (.driftCheckRead dt pin reading) s = .next { u with strap := turn }) ∧
      (u.power.brace = false → u.cal.run = none → d.prev ≠ some off ∨ off = d.inDrift →
        exec (.driftCheckRead dt pin reading) s = .next { u with strap := { turn with
          drift := u.strap.drift.set pin.val { prev := some off, inDrift := d.inDrift } } }) ∧
      (u.power.brace = false → u.cal.run = none → d.prev = some off → off ≠ d.inDrift →
        Does (.driftCheckRead dt pin reading) s u [.strap, .chain, .snap, .faults] fun t =>
          t.strap = { turn with drift := u.strap.drift.set pin.val { prev := some off, inDrift := off } } ∧
            t.faults = (if off then u.faults.logged 0x92 u.tb.time (BitVec.ofNat 8 pin.val) 0 0 else u.faults) ∧
            (u.tb.epochSet = true → ((t.chain.buffer ++ t.chain.fwWait).map (·.st)).getLast? =
              some (.drift u.tb.time (sat16 reading) (BitVec.ofNat 8 pin.val) (if off then 1 else 2)
                (u.driftStates pin.val reading).1 (u.driftStates pin.val reading).2))))

/-- REFERENCE_EVENT of a tachometer or sine follower: a good event corrects the accumulator, a bad one in lock begins a
coast, and of two good ones in a row the second returns to lock; of eight good ones in a row while not locked the
eighth locks, with its marker (R223 to R225, R228 to R230, R232, R233, R249). That a failing pulse leaves no pulse of
a new acquisition (log 56), what an event outside ±64 counts does while coasting (log 58), the marker's time (log 65),
and an event after slot 0's angle tick of its cycle waiting for the next (log 32) are the model's choices.
QUADRATURE_STEP, REFERENCE_EVENT_TIMEOUT and PHASE_LOSS: steps count up and down, a late event begins a coast, and a
coast that has run its length ends in state 1 with fault 0x28 and its marker (R222, R228, R229, R231 to R233, R240).
That a predicted event that does not come breaks no run while coasting (log 57), the marker's time and the rounding of
its interval (logs 65 and 16), and a step after slot 0's angle tick of its cycle waiting for the next (log 32) are the
model's choices. The follower's fault commands: 0x29 after 10 s without lock, 0x2B for events too close, 0x2D for a
sine too weak, and their clears (R250). -/
def Obligations.FollowerWorks : Prop :=
  (∀ (dt low : Nat) (s u : State) (p : PulseEvent), u = advance dt s → u.tb.epochSet = true → 2 ≤ u.phaseType →
     u.phaseType ≤ 3 → p = u.pulseEvent low →
     (u.angleIssued = true → exec (.referenceEvent dt low) s = .next { u with sched := { u.sched with
       late := u.sched.late ++ [.event low] } }) ∧
     (u.angleIssued = false →
     (u.fol.st = 2 → p.err.natAbs ≤ 1024 → 2 * (u.clock - u.fol.goodAt) ≤ 3 * u.fol.period → u.fol.weak = false →
       goodInterval p.interval = true →
       Does (.referenceEvent dt low) s u [.fol] fun t =>
         t.fol.st = 2 ∧ t.fol.phase = BitVec.ofNat 32 (p.angle * 65536) ∧ t.fol.phaseAt = u.clock ∧
           t.fol.goodAt = u.clock ∧ t.fol.lockedPeriod = t.fol.period ∧ t.fol.coasts = u.fol.coasts) ∧
     (u.fol.st = 2 → 1024 < p.err.natAbs ∨ 3 * u.fol.period < 2 * (u.clock - u.fol.goodAt) ∨ u.fol.weak = true ∨
         goodInterval p.interval = false →
       Does (.referenceEvent dt low) s u [.fol] fun t =>
         t.fol = { u.markFol.fol with st := 3, goodRun := 0, events := [u.clock] }) ∧
     (u.fol.st = 3 → u.fol.goodRun = 1 → p.err.natAbs ≤ 64 → u.fol.weak = false →
       goodInterval p.interval = true →
       Does (.referenceEvent dt low) s u [.fol] fun t =>
         t.fol.st = 2 ∧ t.fol.phase = BitVec.ofNat 32 (p.angle * 65536) ∧ t.fol.goodAt = u.clock ∧
           t.fol.coasts.toNat = min 65535 (u.fol.coasts.toNat + 1)) ∧
     (u.fol.st = 1 → u.fol.acquired = 7 → goodInterval p.interval = true → u.fol.weak = false → p.err.natAbs ≤ 64 →
       Does (.referenceEvent dt low) s u [.chain, .sched, .fol, .faults] fun t =>
         t.fol.st = 2 ∧ t.fol.goodAt = u.clock ∧ t.sched = { u.sched with switched := some u.cycle } ∧
           t.chain = u.chain.offered { st := .phase u.tb.time 0 2 (BitVec.ofNat 2 u.phaseType)
                                       session := u.tb.session, full := u.full } ∧
           t.faults = u.faults.cleared 0x29 u.tb.time 0xFF) ∧
     (u.fol.st = 1 → u.fol.weak = true ∨ (∃ d : Nat, p.interval = some d ∧ d < 800000000) →
       Does (.referenceEvent dt low) s u [.fol] fun t => t.fol.st = 1 ∧ t.fol.acquired = 0)) ∧
     (∀ d : Nat, goodInterval (some d) = true ↔ 800000000 ≤ d ∧ d ≤ 4000000000000)) ∧
  ((∀ (dt : Nat) (s u : State), u = advance dt s → u.tb.epochSet = true → u.phaseType = 1 →
     (∀ q : QuadStep, u.angleIssued = true → exec (.quadratureStep dt q) s = .next { u with sched := { u.sched with
       late := u.sched.late ++ [.step q] } }) ∧
     (∀ forward : Bool, u.angleIssued = false → exec (.quadratureStep dt (if forward then .forward else .reverse)) s = .next { u with
       fol := { u.markFol.fol with
         quarter := u.fol.quarter + (if forward then 1 else -1)
         sinceIndex := u.fol.sinceIndex + (if forward then 1 else -1)
         stepsSinceGood := u.fol.stepsSinceGood + 1, stepPeriod := u.clock - u.fol.stepAt, stepAt := u.clock
         stepForward := forward } }) ∧
     (u.fol.st = 2 → u.angleIssued = false → Does (.quadratureStep dt .illegal) s u [.fol, .faults] fun t =>
       t.fol = { u.markFol.fol with st := 3, goodRun := 0 } ∧
         (u.faults.period 0x2C 0 = none → t.faults.events = (u.faults.logged 0x2C u.tb.time 0xFF 1 0).events))) ∧
   (∀ (dt : Nat) (s u : State), u = advance dt s → u.phaseType = 2 ∨ u.phaseType = 3 → u.fol.st = 2 →
     exec (.referenceEventTimeout dt) s = .next
       (if 3 * u.fol.period ≤ 2 * (u.clock - u.fol.goodAt) then
         { u with fol := { u.markFol.fol with st := 3, goodRun := 0 } }
       else u)) ∧
   (∀ (dt : Nat) (s u : State), u = advance dt s → u.phaseType = 2 ∨ u.phaseType = 3 → u.fol.st = 3 →
     2 ^ u.coastLog2 * u.fol.lockedPeriod ≤ u.clock - u.fol.goodAt →
     Does (.phaseLoss dt) s u [.stat, .chain, .sched, .fol, .faults] fun t =>
       t.fol.st = 1 ∧ t.fol.acquired = 0 ∧ t.fol.losses.toNat = min 65535 (u.fol.losses.toNat + 1) ∧
         t.fol.unlockedAt = u.clock ∧ t.sched = { u.sched with switched := some u.cycle } ∧
         t.chain = u.chain.offered { st := .phase u.tb.time
                                             (BitVec.ofNat 40 (min (inUnits (u.clock - u.fol.goodAt) 4000000) 0xFFFFFFFFFF)) 1
                                             (BitVec.ofNat 2 u.phaseType)
                                     session := u.tb.session, full := u.full } ∧
         t.faults = u.faults.logged 0x28 u.tb.time 0xFF 0 0 ∧
         (∀ (n : Chan) (g : Gate), (t.stat.get n).gate = some g → g.phaseLoss = true))) ∧
  (∀ (dt : Nat) (s u : State), u = advance dt s →
     (u.tb.epochSet = true → u.hasPhase = true → u.fol.st = 1 →
       exec (.phaseLockTimeout dt) s = .next
         (if 40000000000000 ≤ u.clock - u.fol.unlockedAt then { u with faults := u.faults.raised 0x29 u.tb.time 0xFF 0 0 }
         else u)) ∧
     (u.outOfReset = true → u.phaseType = 2 ∨ u.phaseType = 3 →
       exec (.referenceSpacingFault dt) s = .next { u with faults := u.faults.raised 0x2B u.tb.time 0xFF 0 0 }) ∧
     exec (.referenceSpacingClear dt) s = .next { u with faults := u.faults.cleared 0x2B u.tb.time 0xFF } ∧
     (u.outOfReset = true → u.phaseType = 3 →
       exec (.sineAmplitudeFault dt) s = .next { u with
         fol := { u.fol with weak := true }, faults := u.faults.raised 0x2D u.tb.time 0xFF 0 0 }) ∧
     exec (.sineAmplitudeClear dt) s = .next { u with
       fol := { u.fol with weak := false }, faults := u.faults.cleared 0x2D u.tb.time 0xFF })

/-- TASK_ARM, TASK_CHANGE and TASK_CANCEL: an armed task issues from the cycle after it lands on, a cancel empties the
slot, and a task armed and cancelled in one cycle is never active, whichever came first (R28, R243 to R245, R669,
R670). What the firmware commands in a stall waits for its end (R30); a command after the slot has issued in its cycle
waits for the next, which is the model's choice (log 32). -/
def Obligations.TasksArmAndCancel : Prop :=
  ∀ (dt : Nat) (s u : State) (slot : Fin 16) (k : Task), u = advance dt s → u.sched.slots.length = 16 →
    (∀ i : Instr, i = .taskArm dt slot k ∨ i = .taskChange dt slot k →
      (u.fwRuns = false → exec i s = .next
        (if u.stalled then { u with sched := { u.sched with owed := u.sched.owed ++ [(slot, some k)] } } else u)) ∧
      (u.fwRuns = true → u.slotClosed slot = true → exec i s = .next { u with sched := { u.sched with
        late := u.sched.late ++ [.slot slot (some k)] } }) ∧
      (u.fwRuns = true → u.slotClosed slot = false → u.cancelledNow slot = true → exec i s = .next u) ∧
      (u.fwRuns = true → u.slotClosed slot = false → u.cancelledNow slot = false →
        Does i s u [.sched] fun t =>
          (t.slot slot).map (fun o => (o.task, o.after)) = some (k, u.cycle) ∧
            (∀ j : Fin 16, j ≠ slot → t.slot j = u.slot j) ∧ t.slotTask slot = u.slotTask slot)) ∧
    (u.fwRuns = false → exec (.taskCancel dt slot) s = .next
      (if u.stalled then { u with sched := { u.sched with owed := u.sched.owed ++ [(slot, none)] } } else u)) ∧
    (u.fwRuns = true → u.slotClosed slot = true → exec (.taskCancel dt slot) s = .next { u with sched := { u.sched with
      late := u.sched.late ++ [.slot slot none] } }) ∧
    (u.fwRuns = true → u.slotClosed slot = false → Does (.taskCancel dt slot) s u [.sched] fun t =>
      t.slot slot = none ∧ t.slotTask slot = none ∧ (∀ j : Fin 16, j ≠ slot → t.slot j = u.slot j) ∧
        t.cancelledNow slot = true ∧ (advance 0 t = t → exec (.taskArm 0 slot k) t = .next t)) ∧
    (u.slotClosed slot = true ↔ u.issued slot = true ∨
      slot = 0 ∧ u.issued 3 = true ∧ ∃ (o : Slot) (d : Nat), u.slot 3 = some o ∧ o.task = .divider d)

/-- R362, R363, R365 and R366, SKEIN_TAKE_UP: a store accepts a skein when its free bytes suffice, with 65,536 more for a
summary or status skein on the shelf, and drops it otherwise; no skein held makes room for a newer one. Without a
partner a status skein with no start record, whose time is no whole multiple of 600 s, is thinned; none is taken up in
a refresh burst. -/
def Obligations.StoresTakeSkeins : Prop :=
  ∀ (dt : Nat) (flip : BitVec 26) (s u : State) (k : Skein) (rest : List Skein), u = advance dt s →
    u.pack.released = k :: rest →
    (u.cab.burst = true ∨ k.intro = false ∧ (u.store k.home).mismatch.isSome = true →
      exec (.skeinTakeUp dt flip) s = .next u) ∧
    (u.cab.burst = false → k.intro = true → exec (.skeinTakeUp dt flip) s = .next { u with
      pack := { u.pack with released := rest }, cab := { u.cab with intro := u.cab.intro ++ [k] } }) ∧
    (∀ b : List Byte, u.cab.burst = false → k.intro = false → (u.store k.home).mismatch = none → k.body = .bytes b →
      k.typ = typeStatus → u.partner = false → (leNat ((b.drop 8).take 4)).testBit 0 = false →
      fullOf k.era (BitVec.ofNat 64 (leNat (b.take 8))) % 2400000000000000 ≠ 0 →
      exec (.skeinTakeUp dt flip) s = .next { u with
        pack := { u.pack with released := rest }, cab := { u.cab with thinned := u.cab.thinned + 1 } }) ∧
    (k.typ ≠ typeStatus ∨ u.partner = true ∨ (∃ b : List Byte, k.body = .bytes b ∧
        ((leNat ((b.drop 8).take 4)).testBit 0 = true ∨
          fullOf k.era (BitVec.ofNat 64 (leNat (b.take 8))) % 2400000000000000 = 0)) → u.thins k = false) ∧
    k.home = (if k.typ = typeLive ∨ k.typ = typeBacklog then .raw else .shelf) ∧
    (u.cab.burst = false → k.intro = false → u.thins k = false → (u.store k.home).mismatch = none →
      Does (.skeinTakeUp dt flip) s u [.pack, .cab] fun t =>
      t.pack = { u.pack with released := rest } ∧
      ((u.store k.home).bytes + k.size + (if k.typ = typeSummary ∨ k.typ = typeStatus then 65536 else 0) ≤
          u.capacity k.home →
        (t.store k.home).held = (u.store k.home).held ++ [k] ∧
          (t.store k.home).bytes = (u.store k.home).bytes + k.size ∧
          (t.store k.home).dropped = (u.store k.home).dropped) ∧
      (u.capacity k.home <
          (u.store k.home).bytes + k.size + (if k.typ = typeSummary ∨ k.typ = typeStatus then 65536 else 0) →
        (t.store k.home).held = (u.store k.home).held ∧ (t.store k.home).bytes = (u.store k.home).bytes ∧
          (t.store k.home).dropped = (u.store k.home).dropped + 1) ∧
      (∀ st : StoreId, st ≠ k.home → t.store st = u.store st))

/-- DROPPED_SKEIN_MARKER, REFRESH_BURST and REFRESH_BURST_END: the marker skein of a closed drop run, and the bursts of
extended refresh, at most one in any 32 ms (R369, R381). SCRUB_REQUEST, SCRUB_BURST and SCRUB_BURST_END: the request
64 s after the last burst while a store holds a skein, the burst under its hold, the skein with an uncorrectable word
discarded with fault 0x36, and LEAVE released at the end (R382 to R385). STORE_RESET: the store is emptied, fault 0x32
or 0x33 counts what went, a queue reset marker waits at the marker input with the instant of detection, and a scrub
burst in progress reads nothing of the store; the other store is untouched (R384, R388, R389). -/
def Obligations.StoresAreKept : Prop :=
  ((∀ (dt : Nat) (s u : State) (st : StoreId) (r : StoreRun) (rest : List (StoreId × StoreRun)), u = advance dt s →
     u.cab.runsClosed = (st, r) :: rest → u.fwRuns = true → u.pack.ctlQueue = [] → u.ctlFree = true →
     u.readIdle = true → u.pack.ctlOld = false →
     Does (.droppedSkeinMarker dt) s u [.pack, .cab, .faults] fun t =>
       t.cab = { u.cab with runsClosed := rest } ∧
         ∃ k : Skein, t.pack.released = u.pack.released ++ [k] ∧ k.typ = typeFault ∧
           k.body.content = FaultEvent.bytes
             { code := if st = .raw then 0x34 else 0x35, raised := true, held := false, time := r.time
               subject := if st = .raw then 2 else 3, detailA := r.firstSeq, detailB := sat32 r.n
               occ := u.faults.count (if st = .raw then 0x34 else 0x35) + 1 }) ∧
   (∀ (dt : Nat) (s u : State), u = advance dt s →
     (u.cab.extRefresh = true → u.cab.burst = false →
       (∀ t0 : Nat, u.cab.burstAt = some t0 → 128000000000 ≤ u.clock - t0) →
       exec (.refreshBurst dt) s = .next { u with cab := { u.cab with burst := true, burstAt := some u.clock } }) ∧
     (u.cab.extRefresh = false ∨ (∃ t0 : Nat, u.cab.burstAt = some t0 ∧ u.clock - t0 < 128000000000) →
       exec (.refreshBurst dt) s = .next u) ∧
     exec (.refreshBurstEnd dt) s = .next { u with cab := { u.cab with burst := false } })) ∧
  (∀ (dt : Nat) (s u : State), u = advance dt s → u.fwRuns = true →
     (u.cab.scrubbing = false → u.cab.raw.held ≠ [] ∨ u.cab.shelf.held ≠ [] → u.leave.holding = none →
       u.leave.reqs.contains .scrub = false →
       (256000000000000 ≤ u.clock - u.cab.scrubAt →
         Does (.scrubRequest dt) s u [.leave] fun t => t.leave.reqs = u.leave.reqs ++ [.scrub]) ∧
       (u.clock - u.cab.scrubAt < 256000000000000 → exec (.scrubRequest dt) s = .next u)) ∧
     (u.leave.holding = some .scrub → u.cab.scrubbing = false →
       (∀ (corrected : Nat) (bad : List Nat) (flip : BitVec 26), u.cab.burst = true ∨ u.power.brace = true →
         exec (.scrubBurst dt corrected bad flip) s = .next u) ∧
       (∀ (corrected : Nat) (flip : BitVec 26), u.cab.burst = false → u.power.brace = false →
         (∀ st : StoreId, (u.store st).sound (u.capacity st) = true) →
         Does (.scrubBurst dt corrected [] flip) s u [.cab, .faults] fun t =>
           t.cab = { u.cab with
             scrubbing := true, scrubLeft := 4194304, corrected := u.cab.corrected + BitVec.ofNat 32 corrected }) ∧
       (∀ (k : Skein) (rest : List Skein) (flip : BitVec 26), u.cab.burst = false → u.power.brace = false →
         u.cab.raw.held = k :: rest → 0 < u.scrubReads 0 →
         Does (.scrubBurst dt 0 [0] flip) s u [.cab, .port, .faults] fun t =>
           t.cab.raw.held = rest ∧ t.cab.shelf.held = u.cab.shelf.held ∧
             t.cab.scrubbing = true ∧ t.cab.scrubLeft = 4194304 - u.scrubReads 0 ∧
             t.cab.eccLost.toNat = min 65535 (u.cab.eccLost.toNat + 1) ∧
             t.faults = u.faults.logged 0x36 u.tb.time 2 k.seq (k.session.setWidth 32))) ∧
     (u.leave.holding = some .scrub → u.cab.scrubbing = true →
       Does (.scrubBurstEnd dt) s u [.cab, .leave] fun t =>
         t.cab.scrubbing = false ∧ t.cab.scrubAt = u.clock ∧ t.leave.holding = none ∧
           ∀ p : Nat, p = u.scrubFrom + u.cab.scrubLeft →
             (t.cab.scrubIn, t.cab.scrubPos) =
               (if p < u.cab.raw.heldBytes then (.raw, p)
               else if p < u.scrubTotal then (.shelf, p - u.cab.raw.heldBytes)
               else (.raw, 0)))) ∧
  (∀ (dt : Nat) (s u : State) (st : StoreId) (time : BitVec 64), u = advance dt s → (u.store st).mismatch = some time →
     Does (.storeReset dt st) s u [.free, .chain, .cab, .port, .faults] fun t =>
       t.store st = { Store.reset with dropped := (u.store st).dropped } ∧
         (∀ o : StoreId, o ≠ st → t.store o = u.store o) ∧ t.cab.intro = u.cab.intro ∧
         t.cab.scrubLeft ≤ u.cab.scrubLeft ∧
         (st = .raw → u.cab.scrubIn = .raw → t.cab.scrubLeft =
           u.cab.scrubLeft - (min u.cab.raw.heldBytes (u.cab.scrubPos + u.cab.scrubLeft) - u.cab.scrubPos)) ∧
         (∀ x : Tx, u.port.tx = some x → t.port.tx = if x.src = .store st then none else some x) ∧
         t.chain = { u.chain with resets := u.chain.resets ++
           [{ st := .storeReset time (sat32 (u.store st).held.length) st, session := u.tb.session, full := u.full }] } ∧
         t.faults = u.faults.logged (if st = .raw then 0x32 else 0x33) u.tb.time (if st = .raw then 2 else 3)
           (sat32 (u.store st).held.length) 0)

/-- R393, FLUSH_REQUEST: an edge after a flush has been requested and before its flush instant forms no second flush. The
pin is recognised from 1 µs low on, and ignored below 200 ns (R97). -/
def Obligations.FlushRequestsJoin : Prop :=
  ∀ (dt low : Nat) (s u : State), u = advance dt s → u.tb.epochSet = true →
    (1000000 ≤ low → exec (.flushRequest ⟨dt, low⟩) s = .next { u with cab := { u.cab with flushing := true } }) ∧
    (low < 200000 → exec (.flushRequest ⟨dt, low⟩) s = .next u) ∧
    (1000000 ≤ low → u.cab.flushing = true → exec (.flushRequest ⟨dt, low⟩) s = .next u)

/-- FLUSH: with no transmission in progress everything held in both stores is discarded and one flush marker tells the
number; the introduction store, the packer and the items of the chain stitch are not affected (R390 to R392). -/
def Obligations.FlushesDiscard : Prop :=
  ∀ (dt : Nat) (s u : State), u = advance dt s → u.cab.flushing = true →
    (u.port.tx.isSome = true → exec (.flush dt) s = .next u) ∧
    (u.port.tx = none →
      Does (.flush dt) s u [.chain, .cab, .port] fun t =>
        t.cab.raw.held = [] ∧ t.cab.shelf.held = [] ∧ t.cab.raw.bytes = 0 ∧ t.cab.shelf.bytes = 0 ∧
          t.cab.flushing = false ∧ t.cab.intro = u.cab.intro ∧ t.cab.raw.dropped = u.cab.raw.dropped ∧
          (∀ e : Ended, u.port.ended = some e → t.port.ended = some { e with flushed := true }) ∧
          t.chain = u.chain.offered
            { st := .flush u.tb.time (sat32 (u.cab.raw.held.length + u.cab.shelf.held.length))
                (!u.cab.raw.held.isEmpty) (!u.cab.shelf.held.isEmpty)
              session := u.tb.session, full := u.full })

/-- HOSTRDY_HIGH, HOSTRDY_LOW and DISCOVERY: a low of 1 µs pauses every powered-up state and cuts a skein in flight off,
which stays held with its repeat marker and fault 0x42, and so does one whose last column leaves in the cycle of the
low, of a store or of the introduction; a high of 1 ms returns to the state the pause came from; a level that HOSTRDY
has already changes nothing; a discovery powers the domain up into ALIGN, its lanes at negative running disparity
(R399, R407 to R410, R419 to R422, R424). The `disparity` of a lane rests on the code tables of log 53, the model's
choice. PARTNER_LOSS and STREAM_SHORT_CIRCUIT: after 10 s of a low HOSTRDY the port goes to DOWN with its domain and
fault 0x41; a driver at its limit takes it there with fault 0x43 and the lane (R412, R427). -/
def Obligations.PortFollowsItsHost : Prop :=
  (∀ (dt hi low : Nat) (s u : State), u = advance dt s → u.outOfReset = true →
     (hi < 1000000000 → exec (.hostrdyHigh ⟨dt, hi⟩) s = .next u) ∧ (low < 1000000 → exec (.hostrdyLow ⟨dt, low⟩) s = .next u) ∧
     (1000000000 ≤ hi → u.port.host = true → exec (.hostrdyHigh ⟨dt, hi⟩) s = .next u) ∧
     (1000000 ≤ low → u.port.host = false → exec (.hostrdyLow ⟨dt, low⟩) s = .next u) ∧
     (1000000000 ≤ hi → u.port.host = false → u.port.st = .paused → u.port.pausedFrom = .align →
       exec (.hostrdyHigh ⟨dt, hi⟩) s = .next { u with port := { u.port with
         host := true, shorted := false
         st := if u.port.aligned = true ∧ u.port.introClosed = true ∧ u.introWaits = false then .introducing
               else .align } }) ∧
     (1000000000 ≤ hi → u.port.host = false → u.port.st = .paused → u.port.pausedFrom = .introducing ∨ u.port.pausedFrom = .drain →
       exec (.hostrdyHigh ⟨dt, hi⟩) s = .next { u with port := { u.port with
         host := true, shorted := false, st := u.port.pausedFrom
         last := if u.port.pausedFrom = .drain then none else u.port.last } }) ∧
     (1000000000 ≤ hi → u.port.host = false → u.port.st ≠ .paused →
       exec (.hostrdyHigh ⟨dt, hi⟩) s = .next { u with port := { u.port with host := true, shorted := false } }) ∧
     (1000000 ≤ low → u.port.host = true → u.port.st = .align ∨ u.port.st = .introducing ∨ u.port.st = .drain →
       (∀ e : Ended, u.port.ended = some e → e.cycle ≠ u.cycle) →
       (u.port.tx = none →
         exec (.hostrdyLow ⟨dt, low⟩) s = .next { u with port := { u.port with
           host := false, lowAt := u.clock, prompt := false, st := .paused, pausedFrom := u.port.st } }) ∧
       (∀ x : Tx, u.port.tx = some x → x.lowSeen = false → x.gone = false →
         Does (.hostrdyLow ⟨dt, low⟩) s u [.chain, .port, .faults] fun t =>
           t.port.st = .paused ∧ t.port.pausedFrom = u.port.st ∧ t.port.tx = some { x with lowSeen := true } ∧
             t.port.cut.contains (x.src, x.skein.session, x.skein.seq) = true ∧
             t.chain = u.chain.offered
               { st := .again u.tb.time x.skein.seq x.skein.session, session := u.tb.session, full := u.full } ∧
             t.faults = u.faults.logged 0x42 u.tb.time 0xFF x.skein.seq (x.skein.session.setWidth 32))) ∧
     (∀ e : Ended, 1000000 ≤ low → u.port.host = true → u.port.ended = some e → e.cycle = u.cycle → u.port.tx = none →
       e.st = .introducing ∨ e.st = .drain → e.tx.gone = false → e.tx.lowSeen = false →
       Does (.hostrdyLow ⟨dt, low⟩) s u [.chain, .cab, .port, .faults] fun t =>
         t.port.st = .paused ∧ t.port.pausedFrom = e.st ∧ t.port.tx = none ∧ t.port.pkt = u.port.pkt - 1 ∧
           t.faults.last = 0x42 ∧
           (∀ st : StoreId, e.tx.src = .store st → e.flushed = false →
             t.port.cut.contains (e.tx.src, e.tx.skein.session, e.tx.skein.seq) = true ∧
               (t.store st).held = e.tx.skein :: (u.store st).held) ∧
           (∀ st : StoreId, e.tx.src = .store st → e.flushed = true →
             (t.store st).held = (u.store st).held ∧ ∀ c : Src × BitVec 16 × BitVec 32, t.port.cut.contains c = true →
               c.1 = .intro) ∧
           (e.tx.src = .intro →
             t.port.cut.contains (.intro, e.tx.skein.session, e.tx.skein.seq) = true ∧
               t.cab.intro = e.tx.skein :: u.cab.intro)) ∧
     (u.fwRuns = true → u.port.st = .down → u.port.host = true → u.port.shorted = false → u.pack.echoDone = true →
       u.power.standby = false → u.streamOff = false → u.domainHeld 8 = false →
       Does (.discovery dt) s u [.port, .power] fun t =>
         t.port = { u.port with
           st := .align, up := true, aligned := false, introClosed := false, introOwed := false
           disparity := [false, false, false, false], idleMin := 2048, prompt := false })) ∧
  ((∀ (dt : Nat) (s u : State), u = advance dt s → u.fwRuns = true → u.port.st = .paused → u.port.host = false →
     (u.clock - u.port.lowAt < 40000000000000 → exec (.partnerLoss dt) s = .next u) ∧
     (40000000000000 ≤ u.clock - u.port.lowAt → u.port.tx = none →
       exec (.partnerLoss dt) s = .next { u with
         port := { u.port with
           st := .down, up := false, aligned := false, introClosed := false, introOwed := false, prompt := false
           ended := none }
         faults := u.faults.logged 0x41 u.tb.time 0xFF
           (sat32 (u.cab.raw.held.length + u.cab.shelf.held.length))
           (sat32 ((u.cab.raw.heldBytes + u.cab.shelf.heldBytes + 1023) / 1024)) })) ∧
   (∀ (dt : Nat) (s u : State) (lane : Fin 5), u = advance dt s → u.port.up = true → u.port.tx = none →
     exec (.streamShortCircuit dt lane) s = .next { u with
       port := { u.port with
         st := .down, up := false, aligned := false, introClosed := false, introOwed := false, prompt := false
         ended := none, shorted := true }
       faults := u.faults.raised 0x43 u.tb.time 0xFF (BitVec.ofNat 32 lane.val) 0 }))

/-- INTRODUCTION_CLOSE and ALIGNMENT_DONE: the firmware gathers the introduction in ALIGN, its echo first; the columns
sent and fault 0x43 cleared, the port goes on once the introduction has closed (R402, R408, R414, R427). That fault
0x43 clears there, and that the descriptor waits for the skeins before it, are the model's choices (log 45).
SKEIN_TRANSMIT_START: from the cabinet the choice of the drain order goes out, with the repeat flag where it was cut
off, the lanes' running disparity turned by the idle columns before it, 2 or more, and 8 at most where it was already
held; one found uncorrectable is discarded with fault 0x36 instead (R376, R385, R402, R403, R417, R421). How many idle
columns come is a free value (log 53). The choice of the drain order: the older skein by close order, or shelf and raw
ring in turn, the shelf first after entry into DRAIN; a cut-off skein goes before either (R417, R421).
TRANSMISSION_COMPLETE: a complete transmission frees its skein and gives one PKT pulse, 18 ns to 25 ns long, within 40
ns; one cut off stays held and gives none, the running disparity following its code groups, whose tables are the
model's choice (log 53; R373, R399, R419, R423). -/
def Obligations.PortSends : Prop :=
  (∀ (dt : Nat) (s u : State), u = advance dt s → u.port.up = true → u.port.st = .align →
     (u.fwRuns = true → u.port.introClosed = false → u.port.introOwed = false → u.introHeld = false →
       u.pack.ctlQueue = [] → u.ctlFree = true → u.readIdle = true → u.pack.ctlOld = false →
       Does (.introductionClose dt) s u [.pack, .port] fun t =>
         t.port.st = .align ∧
         (∃ k : Skein, t.pack.released = u.pack.released ++ [k] ∧ k.intro = true ∧ k.typ = typeEcho ∧
           k.body = .bytes u.echoBody) ∧
         (u.cal.report = none → t.port.introClosed = true ∧ t.pack.ctlQueue.map (·.typ) = [typeIntro]) ∧
         (u.cal.report.isSome = true → t.port.introOwed = true ∧ t.pack.ctlQueue.map (·.typ) = [typeReport])) ∧
     (u.port.introClosed = true → u.introWaits = false →
       exec (.alignmentDone dt) s = .next { u with
         port := { u.port with aligned := true, st := .introducing }
         faults := u.faults.cleared 0x43 u.tb.time 0xFF }) ∧
     (u.port.introClosed = false →
       exec (.alignmentDone dt) s = .next { u with
         port := { u.port with aligned := true }, faults := u.faults.cleared 0x43 u.tb.time 0xFF })) ∧
  (∀ (dt : Nat) (s u : State) (st : StoreId) (k : Skein), u = advance dt s → u.port.up = true → u.port.host = true →
     u.port.tx = none → u.port.st = .drain → u.cab.burst = false → u.cab.flushing = false →
     u.drainChoice = some (st, k) → (u.store st).mismatch = none →
     (∀ (n : Nat) (b : Bool), u.clock < u.port.freeAt → exec (.skeinTransmitStart dt n b) s = .next u) ∧
     (u.port.freeAt ≤ u.clock → (u.store st).sound (u.capacity st) = true →
       Does (.skeinTransmitStart dt 0 false) s u [.port] fun t =>
         t.port = { u.port with
           tx := some { src := .store st, skein := k, again := u.port.cut.contains (.store st, k.session, k.seq)
                        lowSeen := false, gone := false }
           last := some st
           disparity := idled u.idleColumns u.port.disparity }) ∧
     (u.port.freeAt ≤ u.clock →
       Does (.skeinTransmitStart dt 0 true) s u [.cab, .port, .faults] fun t =>
         t.port.tx = none ∧ t.port.last = some st ∧ t.cab.eccLost.toNat = min 65535 (u.cab.eccLost.toNat + 1) ∧
           (u.store st).held = k :: (t.store st).held ∧
           t.faults = u.faults.logged 0x36 u.tb.time (if st = .raw then 2 else 3) k.seq (k.session.setWidth 32)) ∧
     (u.port.idleMin = 2 → 2 ≤ u.idleColumns ∧ (u.port.prompt = true → u.idleColumns ≤ 8))) ∧
  (∀ (s : State) (a b : Skein) (ra rb : List Skein), s.cab.raw.held = a :: ra → s.cab.shelf.held = b :: rb →
     (s.port.cut = [] → s.interleaved = false → a.closeNo ≠ b.closeNo →
       s.drainChoice = some (if a.closeNo < b.closeNo then (.raw, a) else (.shelf, b))) ∧
     (s.port.cut = [] → s.interleaved = true →
       s.drainChoice = some (if s.port.last = some .shelf then (.raw, a) else (.shelf, b))) ∧
     (∀ (se : BitVec 16) (q : BitVec 32), s.port.cut = [(.store .raw, se, q)] → s.drainChoice = some (.raw, a)) ∧
     (∀ (se : BitVec 16) (q : BitVec 32), s.port.cut = [(.store .shelf, se, q)] → s.drainChoice = some (.shelf, b))) ∧
  (∀ (dt : Nat) (flip : BitVec 26) (s u : State) (x : Tx), u = advance dt s → u.port.tx = some x →
     (x.lowSeen = true →
       exec (.transmissionComplete dt flip) s = .next { u with port := { u.port with
         tx := none, freeAt := u.clock + 2 * u.columnTime, idleMin := 2
         disparity := u.carried (x.skein.wire x.again) u.port.disparity } }) ∧
     (x.lowSeen = false →
       Does (.transmissionComplete dt flip) s u [.free, .cab, .port] fun t =>
         t.port.tx = none ∧ t.port.pkt = u.port.pkt + 1 ∧ u.clock ≤ t.port.pktFrom ∧
           t.port.pktFrom ≤ u.clock + 160000 ∧ t.port.pktFrom + 72000 ≤ t.port.pktTo ∧
           t.port.pktTo ≤ t.port.pktFrom + 100000 ∧
           (∀ (st : StoreId) (rest : List Skein), x.src = .store st → x.gone = false →
             (u.store st).held = x.skein :: rest →
             (t.store st).held = rest ∧ (∀ o : StoreId, o ≠ st → t.store o = u.store o) ∧ t.cab.intro = u.cab.intro) ∧
           (∀ st : StoreId, x.src = .store st → x.gone = true → t.cab = u.cab) ∧
           (x.src = .intro →
             t.cab.intro = u.cab.intro.drop 1 ∧ t.cab.raw = u.cab.raw ∧ t.cab.shelf = u.cab.shelf)))

/-- STATUS_SKEIN_TIMER, FAULT_SKEIN_CLOSE and LOG_PERIOD_EXPIRY: the status skein of every whole 10 s of session time, the
fault skein of the oldest raise or clear, and the end of a rate-limited code's period (R347, R353, R354, R667). -/
def Obligations.FirmwareSkeinsClose : Prop :=
  (∀ (dt k inst : Nat) (s u : State), u = advance dt s → u.tb.epochSet = true →
    u.gridInstant 40000000000000 = some (k, inst) → 0 < k → u.fwRuns = true → u.pack.ctlQueue = [] →
    u.ctlFree = true → u.readIdle = true → u.pack.ctlOld = false →
    Does (.statusSkeinTimer dt) s u [.pack] fun t =>
      ∃ q : Skein, t.pack.released = u.pack.released ++ [q] ∧ q.typ = typeStatus ∧ q.session = u.tb.session ∧
        q.body = .bytes (u.statusBody (BitVec.ofNat 64 inst) (u.clockOf inst) false)) ∧
  (∀ (dt : Nat) (s u : State) (e : FaultEvent) (rest : List FaultEvent), u = advance dt s →
    u.faults.events = e :: rest →
    (u.fwRuns = false ∨ u.pack.echoDone = false ∨ u.ctlFree = false ∨ u.pack.ctlQueue ≠ [] →
      exec (.faultSkeinClose dt) s = .next u) ∧
    (u.fwRuns = true → u.pack.echoDone = true → u.pack.ctlQueue = [] → u.ctlFree = true → u.core.boot ≠ .skeins →
      Does (.faultSkeinClose dt) s u [.pack, .snap, .faults] fun t =>
        t.faults = { u.faults with events := rest } ∧
          (u.readIdle = true → u.pack.ctlOld = false →
            ∃ q : Skein, t.pack.released = u.pack.released ++ [q] ∧ q.typ = typeFault ∧ q.body = .bytes e.bytes) ∧
          (u.readIdle = false → t.pack.released = u.pack.released ∧
            t.pack.ctlQueue.map (fun c => (c.typ, c.body)) = [(typeFault, e.bytes)]))) ∧
  (∀ (dt : Nat) (s u : State) (code : Byte) (ch : Chan) (p : LogPeriod), u = advance dt s → u.outOfReset = true →
    u.faults.period code (if code = 0x13 then ch.val else 0) = some p →
    logPeriod code ≤ u.clock - p.since →
    Does (.logPeriodExpiry dt code ch) s u [.faults] fun t =>
      t.faults.active = u.faults.active ∧
        (p.acc = 0 → t.faults.events = u.faults.events ∧
          t.faults.period code (if code = 0x13 then ch.val else 0) = none) ∧
        (p.acc ≠ 0 → t.faults.last = code ∧
          t.faults.events.map (fun e => (e.code, e.time, e.subject, e.detailA, e.detailB)) =
            u.faults.events.map (fun e => (e.code, e.time, e.subject, e.detailA, e.detailB)) ++
              [(code, p.firstTime, p.subject, sat32 p.acc, p.detailB)] ∧
          (t.faults.period code (if code = 0x13 then ch.val else 0)).map (fun q => (q.acc, q.since)) =
            some (0, u.clock)))

/-- SNAPSHOT_PRESENTATION and SNAPSHOT_GROUP_TIMEOUT: a presented word of a group that is not latched is the group's word
as the cycle before left it, and latches the group; one of a group already latched is the word captured then, however
much has changed since; reading every word releases the group, in 8-bit mode every byte, which SA0 chooses; a reserved
address reads 0; a presentation of up to 2 ns latches nothing and one of 4 ns or more always does; a powered-down port
floats, and so does SD once the presentation is over; a group is released by its timeout (R428, R430, R431, R433,
R440, R443 to R445, R450, R642). -/
def Obligations.SnapshotsLatch : Prop :=
  ∀ (dt : Nat) (s u : State) (sa : BitVec 9) (hold : Nat) (low high : Bool) (out : BitVec 16 → Sd), u = advance dt s →
    low = (!u.strap.sbyte || !sa.getLsbD 0) → high = (!u.strap.sbyte || sa.getLsbD 0) →
    (∀ x : BitVec 16, out x = (if u.strap.sbyte = true then
      .byte (if sa.getLsbD 0 = true then x.extractLsb' 8 8 else x.extractLsb' 0 8) else .word x)) →
    (u.snap.up = false →
      exec (.snapshotPresentation dt sa hold) s = .next { u with snap := { u.snap with sd := .hiz, selectedTo := 0 } }) ∧
    (u.snap.up = true → u.snap.load ≤ 60 → 12000 + 80 * (u.snap.load - 30) ≤ hold →
      (∀ (g : Group) (i : Nat), groupOf (sa.toNat / 2) = some g → (groupWords g)[i]? = some (sa.toNat / 2) →
        (u.snap.latches.find? (fun l => l.g == g) = none →
          Does (.snapshotPresentation dt sa hold) s u [.snap] fun t =>
            t.snap.sd = out ((u.cycleBefore.groupNow g).getD i 0) ∧ t.sdNow = t.snap.sd ∧
              t.snap.latches = u.snap.latches ++
                [{ g := g, words := u.cycleBefore.groupNow g, readLow := if low then [sa.toNat / 2] else []
                   readHigh := if high then [sa.toNat / 2] else [], lastAt := u.clock + 4 * hold }]) ∧
        (∀ l : Latch, u.snap.latches.find? (fun l => l.g == g) = some l → u.clock ≤ l.lastAt + 8200000 →
          Does (.snapshotPresentation dt sa hold) s u [.snap] fun t =>
            t.snap.sd = out (l.words.getD i 0) ∧
              ((∀ x ∈ groupWords g, (low = true ∧ x = sa.toNat / 2 ∨ l.readLow.contains x = true) ∧
                  (high = true ∧ x = sa.toNat / 2 ∨ l.readHigh.contains x = true)) →
                t.snap.latches = u.snap.latches.filter fun x => x.g != g) ∧
              ((∃ x ∈ groupWords g, ¬((low = true ∧ x = sa.toNat / 2 ∨ l.readLow.contains x = true) ∧
                  (high = true ∧ x = sa.toNat / 2 ∨ l.readHigh.contains x = true))) →
                t.snap.latches = u.snap.latches.map fun x => if x.g == g then
                  { l with
                    readLow := if low then (sa.toNat / 2) :: l.readLow.erase (sa.toNat / 2) else l.readLow
                    readHigh := if high then (sa.toNat / 2) :: l.readHigh.erase (sa.toNat / 2) else l.readHigh
                    lastAt := u.clock + 4 * hold } else x))) ∧
      (groupOf (sa.toNat / 2) = none →
        exec (.snapshotPresentation dt sa hold) s = .next
          { u with snap := { u.snap with sd := out 0, selectedTo := u.clock + 4 * hold } })) ∧
    (u.snap.up = true → hold ≤ 2000 →
      Does (.snapshotPresentation dt sa hold) s u [.free, .snap] fun t => t.snap.latches = u.snap.latches) ∧
    (∀ g : Group, u.snap.up = true → 4000 ≤ hold → groupOf (sa.toNat / 2) = some g →
      u.snap.latches.find? (fun l => l.g == g) = none →
      Does (.snapshotPresentation dt sa hold) s u [.free, .snap] fun t =>
        (t.snap.latches.find? fun l => l.g == g).map (·.words) = some (u.cycleBefore.groupNow g)) ∧
    (u.snap.selectedTo ≤ u.clock → u.sdNow = .hiz) ∧
    (∀ (g : Group) (l : Latch), u.snap.latches.find? (fun l => l.g == g) = some l →
      exec (.snapshotGroupTimeout dt g) s = .next
        (if l.lastAt + 8000000 ≤ u.clock then
          { u with snap := { u.snap with latches := u.snap.latches.filter fun l => l.g != g } }
        else u))

/-- OUTPUT_UPDATE: a driven output takes the code of its source value, or its previous code again where none has formed;
one that is ready connects; in brace both keep their code. The values formed before the update's cycle are used up
(R463, R464, R469). READ_BACK: a valid read-back within 0.5 % of span ends the run of mismatches, one outside
lengthens it, and the third in a row raises fault 0x51; an invalid one does nothing (R473, R474). -/
def Obligations.OutputsUpdateAndReadBack : Prop :=
  (∀ (dt at_ : Nat) (i : Fin 16) (s u : State), u = advance dt s → u.tb.epochSet = true → u.updateDue = some (i, at_) →
     Does (.outputUpdate dt) s u [.free, .sched, .ao] fun t =>
       t.sched = { (u.issue i).sched with updatedAt := some at_ } ∧
       ∀ o : OutNo,
         (t.ao.outs.get o).last = (u.ao.outs.get o).latest u.cycle ∧
         (u.power.brace = true → t.ao.outs.get o = (u.ao.outs.get o).consume u.cycle) ∧
         ((u.ao.outs.get o).st ≠ .driven → (u.ao.outs.get o).st ≠ .ready →
           t.ao.outs.get o = (u.ao.outs.get o).consume u.cycle) ∧
         (u.power.brace = false → (u.ao.outs.get o).st = .driven → (t.ao.outs.get o).st = .driven ∧
           (u.updateValue o false = none → (t.ao.outs.get o).code = (u.ao.outs.get o).code) ∧
           (∀ x q : Rat, u.updateValue o false = some x → u.aoSource o ≠ .dieTemp → u.deviation o x = some q →
             (t.ao.outs.get o).code = (clipCode (131072 * (1 + q))).1) ∧
           (∀ x : Rat, u.updateValue o false = some x → u.aoSource o = .dieTemp →
             (t.ao.outs.get o).code = (clipCode ((x + 40) / 165 * 262144)).1)) ∧
         (u.power.brace = false → (u.ao.outs.get o).st = .ready →
           (t.ao.outs.get o).st = .driven ∧ (t.ao.outs.get o).connectedAt = u.clock ∧
           (∀ x q : Rat, (u.ao.outs.get o).latest u.cycle = some x → u.aoSource o ≠ .dieTemp →
             u.deviation o x = some q → (t.ao.outs.get o).code = (clipCode (131072 * (1 + q))).1))) ∧
  (∀ (dt : Nat) (s u : State) (o : OutNo) (measured : Int) (off : Bool), u = advance dt s →
     off = decide (((spanHigh (u.aoSpan o) - spanLow (u.aoSpan o) : Int) : Rat) / 200 <
       |(measured : Rat) - u.level o (u.ao.outs.get o).code|) →
     (u.clock - (u.ao.outs.get o).codeAt < 80000000 ∨ u.power.brace = true ∨ u.cal.run.isSome = true ∨
         (u.ao.outs.get o).st ≠ .driven →
       exec (.readBack dt o measured) s = .next u) ∧
     (80000000 ≤ u.clock - (u.ao.outs.get o).codeAt → u.power.brace = false →
       40000000000 ≤ u.clock - u.power.returnAt → u.cal.run = none → (u.ao.outs.get o).st = .driven →
       (off = false ∨ (u.ao.outs.get o).mismatches < 2 →
         exec (.readBack dt o measured) s = .next { u with
           ao := { u.ao with outs := u.ao.outs.set o { u.ao.outs.get o with
             readAt := u.clock, mismatches := if off then (u.ao.outs.get o).mismatches + 1 else 0 } } }) ∧
       (off = true → 2 ≤ (u.ao.outs.get o).mismatches →
         Does (.readBack dt o measured) s u [.ao, .leave, .faults] fun t =>
           (t.ao.outs.get o).st = .faulted ∧
             (t.ao.outs.get o).code = ((u.ao.outs.get o).unwritten u.cycle).code ∧
             t.faults = u.faults.raised 0x51 u.tb.time (BitVec.ofNat 8 o.val)
               (BitVec.ofInt 32 (roundRat (u.level o (u.ao.outs.get o).code))) (BitVec.ofInt 32 measured))))

/-- OUTPUT_ESTABLISH, OUTPUT_STAGE_READY and BREAK_BEFORE_MAKE_EXPIRY: the steps from an enabled output to one that waits
for its connecting update: leave for a current stage, the rail check for a voltage stage, the 50 µs between (R468 to
R470, R477, R481). OUTPUT_RETRY and OUTPUT_FAULT_CLEAR: the retry begins the establishment again after its wait; 1 s
of driving clears the faults 0x51 to 0x56 and returns the wait to 1 s (R479, R480). -/
def Obligations.OutputsAreEstablished : Prop :=
  (∀ (dt : Nat) (s u : State) (o : OutNo), u = advance dt s →
     (u.fwRuns = true → (u.ao.outs.get o).st = .idle → u.almostEnabled o = true →
       (u.cal.trims = true → u.aoCurrent o = false →
         exec (.outputEstablish dt o) s = .next { u with
           ao := { u.ao with outs := u.ao.outs.set o { u.ao.outs.get o with st := .powering } } }) ∧
       (u.cal.trims = true → u.aoCurrent o = true →
         Does (.outputEstablish dt o) s u [.ao, .leave] fun t =>
           t.ao = { u.ao with outs := u.ao.outs.set o { u.ao.outs.get o with st := .leaving } } ∧
             (t.leave.reqs.contains (.stagePower o) = true ∨ t.leave.holding = some (.stagePower o))) ∧
       (u.cal.trims = false → u.faultActive 0x65 0xFF = true →
         exec (.outputEstablish dt o) s = .next { u with
           faults := u.faults.raised 0x57 u.tb.time (BitVec.ofNat 8 o.val) 0 0 })) ∧
     (∀ vpos vneg : Int, u.fwRuns = true →
       (u.aoCurrent o = true → (u.ao.outs.get o).st = .leaving → u.leave.holding = some (.stagePower o) →
         Does (.outputStageReady dt o vpos vneg) s u [.ao, .leave] fun t =>
           t.leave.holding = none ∧ t.ao = { u.ao with outs := u.ao.outs.set o { u.ao.outs.get o with
             st := .breaking, breakUntil := u.clock + 200000000 } }) ∧
       (u.aoCurrent o = false → (u.ao.outs.get o).st = .powering → u.railsMeet o vpos vneg = true →
         exec (.outputStageReady dt o vpos vneg) s = .next { u with
           ao := { u.ao with outs := u.ao.outs.set o { u.ao.outs.get o with
             st := .breaking, breakUntil := u.clock + 200000000 } } }) ∧
       (u.aoCurrent o = false → (u.ao.outs.get o).st = .powering → u.railsMeet o vpos vneg = false →
         Does (.outputStageReady dt o vpos vneg) s u [.ao, .leave, .faults] fun t =>
           (t.ao.outs.get o).st = .faulted ∧ t.faults = u.faults.raised 0x55 u.tb.time (BitVec.ofNat 8 o.val)
             (BitVec.ofInt 32 vpos) (BitVec.ofInt 32 vneg))) ∧
     ((u.ao.outs.get o).st = .breaking →
       exec (.breakBeforeMakeExpiry dt o) s = .next
         (if (u.ao.outs.get o).breakUntil ≤ u.clock then
           { u with ao := { u.ao with outs := u.ao.outs.set o { u.ao.outs.get o with st := .ready } } }
         else u))) ∧
  (∀ (dt : Nat) (s u : State) (o : OutNo), u = advance dt s →
     (u.fwRuns = true → (u.ao.outs.get o).st = .faulted →
       (u.clock - (u.ao.outs.get o).faultAt < (u.ao.outs.get o).wait * 4000000000000 →
         exec (.outputRetry dt o) s = .next u) ∧
       ((u.ao.outs.get o).wait * 4000000000000 ≤ u.clock - (u.ao.outs.get o).faultAt → u.aoCurrent o = false →
         u.almostEnabled o = true → u.cal.trims = true →
         Does (.outputRetry dt o) s u [.ao] fun t =>
           t.ao = { u.ao with outs := u.ao.outs.set o { u.ao.outs.get o with st := .powering } })) ∧
     ((u.ao.outs.get o).st = .driven →
       (u.clock - (u.ao.outs.get o).connectedAt < 4000000000000 → exec (.outputFaultClear dt o) s = .next u) ∧
       (4000000000000 ≤ u.clock - (u.ao.outs.get o).connectedAt →
         Does (.outputFaultClear dt o) s u [.ao, .faults] fun t =>
           t.ao = { u.ao with outs := u.ao.outs.set o { u.ao.outs.get o with wait := 1 } } ∧ t.outFaulty o = false ∧
             (∀ c p : Byte, p ≠ BitVec.ofNat 8 o.val → t.faultActive c p = u.faultActive c p))))

/-- OUTPUT_HEADROOM_FAULT, OUTPUT_OVERCURRENT, OUTPUT_RAIL_FAULT and OUTPUT_OVERTEMPERATURE: the fault, the output in
state 7 with its code word kept, an update of the same cycle undone, its retry wait, and the other output left
unchanged (R475 to R479). -/
def Obligations.OutputFaults : Prop :=
  ∀ (dt : Nat) (s u : State) (o : OutNo) (i : Instr) (code : Byte) (a b : BitVec 32) (kept : BitVec 18),
    u = advance dt s → kept = ((u.ao.outs.get o).unwritten u.cycle).code →
    (i = .outputOvercurrent dt o ∧ u.aoCurrent o = false ∧ (u.ao.outs.get o).st = .driven ∧ code = 0x54 ∧
        a = kept.setWidth 32 ∧ b = 0) ∨
    (∃ vpos vneg : Int, i = .outputRailFault dt o vpos vneg ∧ u.aoCurrent o = false ∧
        (u.ao.outs.get o).st = .driven ∧ u.railsMeet o vpos vneg = false ∧ code = 0x55 ∧
        a = BitVec.ofInt 32 vpos ∧ b = BitVec.ofInt 32 vneg) ∨
    (∃ temp : Int, i = .outputOvertemperature dt o temp ∧ 19200 < temp ∧ code = 0x56 ∧ a = BitVec.ofInt 32 temp ∧
        b = 0 ∧ u.stagePowered o = true) ∨
    (∃ sensed vpin : Nat, i = .outputHeadroomFault dt o sensed vpin ∧ u.aoCurrent o = true ∧
        (u.ao.outs.get o).st = .driven ∧ u.power.brace = false ∧ 40000000000 ≤ u.clock - u.power.returnAt ∧
        (500000 : Rat) ≤ u.level o kept ∧
        code = (if (2 * sensed : Rat) < u.level o kept then 0x52 else 0x53) ∧
        a = BitVec.ofInt 32 (roundRat (u.level o kept)) ∧ b = sat32 vpin) →
    Does i s u [.ao, .leave, .faults] fun t =>
      t.faults = u.faults.raised code u.tb.time (BitVec.ofNat 8 o.val) a b ∧ (t.ao.outs.get o).st = .faulted ∧
        (t.ao.outs.get o).code = kept ∧ (t.ao.outs.get o).faultAt = u.clock ∧
        (t.ao.outs.get o).centre = (u.ao.outs.get o).centre ∧
        (t.ao.outs.get o).wait = (if u.outFaulty o = true ∧ ((u.ao.outs.get o).st ≠ .driven ∨
            u.clock - (u.ao.outs.get o).connectedAt < 4000000000000) then
          min 64 (2 * (u.ao.outs.get o).wait) else 1) ∧
        (∀ p : OutNo, p ≠ o → t.ao.outs.get p = u.ao.outs.get p)

/-- R36 and R496, CAL_REQUEST, with TEMPERATURE_TRIGGER_EVAL: a request that arrives while a run is pending makes no
second one and keeps the first trigger; a pulse below 200 ns is ignored; a temperature trigger, also one in a stall,
acts beyond the delta, outside a full run and 10 s after the last one (R30, R36, R97, R493 to R496). -/
def Obligations.RunRequestsMerge : Prop :=
  ∀ (dt low : Nat) (s u : State), u = advance dt s → u.outOfReset = true →
    (u.tb.epochSet = true → 1000000 ≤ low →
      exec (.calRequest ⟨dt, low⟩) s = .next { u with cal := { u.cal with pending := some (u.cal.pending.getD .calPin) } } ∧
      (u.cal.pending.isSome = true → exec (.calRequest ⟨dt, low⟩) s = .next u)) ∧
    (low < 200000 → exec (.calRequest ⟨dt, low⟩) s = .next u) ∧
    (u.tb.epochSet = false → 1000000 ≤ low → exec (.calRequest ⟨dt, low⟩) s = .next u) ∧
    (∀ (mean last : Int) (d : Nat), u.fwRuns = true ∨ u.stalled = true → u.delta128 = some d →
      u.cal.lastTemp = some last →
      ((d : Int) < (mean - last).natAbs → (∀ r : Run, u.cal.run = some r → r.rejoin.isSome = true) →
        (∀ e : Nat, u.cal.lastEnd = some e → 40000000000000 ≤ u.clock - e) →
        exec (.temperatureTriggerEval dt mean) s = .next
          { u with cal := { u.cal with pending := some (u.cal.pending.getD .temperature) } }) ∧
      ((mean - last).natAbs ≤ (d : Int) ∨ (∃ r : Run, u.cal.run = some r ∧ r.rejoin = none) ∨
          (∃ e : Nat, u.cal.lastEnd = some e ∧ u.clock - e < 40000000000000) →
        exec (.temperatureTriggerEval dt mean) s = .next u))

/-- PRECHECK_START and PRECHECK_RESULT: from the calibration step on a check takes 2.0 ms; a reading from 9.80 to 10.20 kΩ
passes and clears fault 0x61; with a run pending it asks for leave, else a waiting join may ask; one outside raises
it, keeps the request, and the check repeats after 1 s. A later run waits for the reports of those before it (R486 to
R488, R496, R583). That a join waits for a pre-check of its own before it asks is the model's choice (log 25).
STARTUP_RUN_ABANDON: without a pass in the first second of the calibration step; with no stored drawer fault 0x65 is
held and the run is asked for again, with one the unit is ready and the yarns of the start-up channels begin; in both
the AO domain is powered where it is wanted (R507, R508, R555, R585). That an edge that was not stable ends no join of
the channel step is the model's choice (log 60). -/
def Obligations.RunsAreChecked : Prop :=
  (∀ (dt : Nat) (s u : State), u = advance dt s → u.fwRuns = true →
     (u.core.boot ≠ .calib → u.core.boot ≠ .ready → exec (.precheckStart dt) s = .next u) ∧
     (u.cal.checking = none → u.cal.run = none → u.core.boot = .calib ∨ u.core.boot = .ready →
       (u.cal.pending.isSome = true ∧ u.cal.passed = false ∧ u.reportWaits = false ∨
         u.cal.pending = none ∧ (u.cal.failedAt.isSome = true ∨ u.joinAhead = true) →
         ((∀ t0 : Nat, u.cal.failedAt = some t0 → 4000000000000 ≤ u.clock - t0) →
           exec (.precheckStart dt) s = .next { u with cal := { u.cal with checking := some u.clock } }) ∧
         ((∃ t0 : Nat, u.cal.failedAt = some t0 ∧ u.clock - t0 < 4000000000000) →
           exec (.precheckStart dt) s = .next u)) ∧
       (u.cal.pending.isSome = true → u.reportWaits = true → exec (.precheckStart dt) s = .next u)) ∧
     (∀ (ohms t0 : Nat), u.cal.checking = some t0 → u.clock - t0 < 8000000000 →
       exec (.precheckResult dt ohms) s = .next u) ∧
     (∀ (ohms t0 : Nat), u.cal.checking = some t0 → 8000000000 ≤ u.clock - t0 →
       (9800 ≤ ohms → ohms ≤ 10200 → u.cal.pending.isSome = true →
         Does (.precheckResult dt ohms) s u [.cal, .leave, .faults] fun t =>
           t.cal = { u.cal with checking := none, failedAt := none, passed := true } ∧
             t.faults = u.faults.cleared 0x61 u.tb.time 0xFF ∧
             (t.leave.reqs.contains .fullRun = true ∨ t.leave.holding = some .fullRun)) ∧
       (9800 ≤ ohms → ohms ≤ 10200 → u.cal.pending = none →
         exec (.precheckResult dt ohms) s = .next { u with
           cal := { u.cal with checking := none, failedAt := none, passed := false,
                                 joinPassed := u.cal.joinPassed || u.joinAhead }
           faults := u.faults.cleared 0x61 u.tb.time 0xFF }) ∧
       (ohms < 9800 ∨ 10200 < ohms →
         exec (.precheckResult dt ohms) s = .next { u with
           cal := { u.cal with checking := none, failedAt := some t0 }
           faults := u.faults.raised 0x61 u.tb.time 0xFF (sat32 ohms) 0 }))) ∧
  (∀ (dt : Nat) (s u : State), u = advance dt s → u.fwRuns = true → u.core.boot = .calib →
     u.cal.startupDone = false → u.cal.run = none → u.cal.passed = false →
     (u.clock - u.cal.stepAt < 4000000000000 → exec (.startupRunAbandon dt) s = .next u) ∧
     (4000000000000 ≤ u.clock - u.cal.stepAt →
       (u.drawers = [] → exec (.startupRunAbandon dt) s = .next { u with
         cal := { u.cal with startupDone := true, pending := some .startup }
         ao := { u.ao with up := u.ao.up || (u.aoWanted && !u.power.standby && !u.domainHeld 9) }
         faults := u.faults.raised 0x65 u.tb.time 0xFF 0 0 }) ∧
       (u.drawers ≠ [] → Does (.startupRunAbandon dt) s u (touches (.startupRunAbandon dt)) fun t =>
         t.core.boot = .ready ∧ t.cal.trims = true ∧ t.cal.startupDone = true ∧ t.cal.pending = none ∧
           ∀ n : Chan, (u.chan.get n).startJoin = true → (u.chan.get n).st = .joining →
             (t.chan.get n).st = .present ∧ (t.chan.get n).yarn = (u.chan.get n).yarn + 1)))

/-- FULL_RUN_START and FULL_RUN_END: under leave, with the pre-check passed and the PLL locked, every channel in state 5
is suspended with its count captured; at the end those not lost return to state 5 in their yarn, each with the two
parts of its calibration gap marker, in ascending order, LEAVE is released, the corrections are in use and the result
waits to be settled (R33, R337, R338, R486, R498, R501, R506, R583). DRAWER_COMMIT and COMPACTION: the oldest result
is settled: reported alone where it was abandoned, kept as the session drawer where the drawer area is read-only, and
written with LEAVE released otherwise, once the log has room; a compaction copies the live records of the eight
sectors at the tail to the head, from a sector boundary on, and moves the tail past those eight (R502, R511, R530,
R535, R536, R543). That each is whole under one hold of leave for a flash program is the model's choice (logs 13 and
39). -/
def Obligations.FullRunsSuspendAndSettle : Prop :=
  ((∀ (dt : Nat) (s u : State) (trig : Trigger), u = advance dt s → u.fwRuns = true → u.cal.pending = some trig →
     u.leave.holding = some .fullRun → u.tb.locked = true → u.cal.passed = true → u.cal.run = none →
     u.core.boot = .calib ∨ u.core.boot = .ready →
     Does (.fullRunStart dt) s u [.chan, .stat, .cal] fun t =>
       t.cal.pending = none ∧ t.cal.passed = false ∧
         t.cal.run.map (fun r => (r.rejoin, r.trigger, r.startClock)) = some (none, trig, u.clock) ∧
         ∀ n : Chan, (t.chan.get n).count = (u.chan.get n).count ∧ (t.chan.get n).yarn = (u.chan.get n).yarn ∧
           ((u.chan.get n).st = .present → (t.chan.get n).st = .suspended ∧ (t.chan.get n).pending = false ∧
             (t.chan.get n).susp = some (u.cycleNow, u.countBy n (u.clockOf u.cycleNow))) ∧
           ((u.chan.get n).st ≠ .present → t.chan.get n = u.chan.get n)) ∧
   (∀ (dt : Nat) (s u : State) (m : FullMeas) (r : Run), u = advance dt s → u.fwRuns = true → u.cal.run = some r →
     r.rejoin = none → u.leave.holding = some .fullRun →
     Does (.fullRunEnd dt m) s u (touches (.fullRunEnd dt m)) fun t =>
       t.leave.holding = none ∧ t.cal.run = none ∧ t.cal.trims = true ∧ t.cal.lastTemp = some m.temp ∧
         t.cal.lastEnd = some u.clock ∧ t.cal.lastDie = m.temp ∧ t.cal.lastRref = m.rref ∧ t.cal.bank = !u.cal.bank ∧
         t.cal.results.map (fun x => (x.rejoin, x.trigger, x.rref, x.abandoned)) =
           u.cal.results.map (fun x => (x.rejoin, x.trigger, x.rref, x.abandoned)) ++
             [(none, r.trigger, m.rref, false)] ∧
         (u.core.boot = .calib → t.core.boot = .ready) ∧ t.faultActive 0x65 0xFF = false ∧
         (∃ more : List Item, t.chain.buffer ++ t.chain.fwWait = u.chain.buffer ++ u.chain.fwWait ++
           (Chan.all.flatMap fun n =>
             match (u.chan.get n).susp with
             | some (inst, c) =>
               [{ st := .calGap n (BitVec.ofNat 64 inst) (c.setWidth 40) false false
                  session := u.tb.session, full := inst },
                { st := .calGap n (BitVec.ofNat 64 u.cycleNow) ((u.countBy n (u.clockOf u.cycleNow)).setWidth 40) true false
                  session := u.tb.session, full := u.cycleNow }]
             | none => []) ++ more) ∧
         ∀ n : Chan, (t.chan.get n).count = (u.chan.get n).count ∧
           ((u.chan.get n).st = .suspended → (u.chan.get n).startJoin = false →
             (t.chan.get n).yarn = (u.chan.get n).yarn ∧
             ((u.chan.get n).loss = none → (t.chan.get n).st = .present) ∧
             ((u.chan.get n).loss.isSome = true → (t.chan.get n).st = .absentUp)) ∧
           ((u.chan.get n).st = .joining → (u.chan.get n).startJoin = true →
             (t.chan.get n).st = .present ∧ (t.chan.get n).yarn = (u.chan.get n).yarn + 1))) ∧
  (∀ (dt slot : Nat) (s u : State) (r : RunResult) (prev : Option CalSet), u = advance dt s → u.fwRuns = true →
     u.nextCommit = some (r, slot, prev) →
     (u.gapOnTheWay = true → exec (.drawerCommit dt) s = .next u) ∧
     (u.gapOnTheWay = false →
       (r.abandoned = true → Does (.drawerCommit dt) s u [.pack, .cal] fun t =>
         t.cal = { u.cal with results := u.cal.results.tail, report := some (r.report 3 0xFF none) }) ∧
       (r.abandoned = false → u.readOnly = true → Does (.drawerCommit dt) s u [.pack, .cal] fun t =>
         t.cal.sessionDrawer = some r.set ∧ t.cal.results = u.cal.results.tail) ∧
       (r.abandoned = false → u.readOnly = false → u.leave.holding = some .flashProgram → u.flash.op = none →
         u.power.brace = false → u.drawersErasing = false →
         (u.needsCompaction u.commitLengths = false →
           Does (.drawerCommit dt) s u [.free, .pack, .cal, .flash, .mem, .leave, .faults] fun t =>
             t.leave.holding = none ∧ t.cal.results = u.cal.results.tail ∧
               t.cal.report = some (r.report 0 slot prev)) ∧
         (u.needsCompaction u.commitLengths = true → exec (.drawerCommit dt) s = .next u ∧
           (u.core.recovering = false → u.journalReady = true →
             Does (.compaction dt) s u [.free, .flash, .mem, .leave, .faults] fun t =>
               t.leave.holding = none ∧ t.flash.tail = (u.flash.tail + 8) % 64 ∧
                 t.flash.head = (placeAll (4096 * ((u.flash.head + 4095) / 4096) % 262144)
                   ((eight u.flash.tail).flatMap fun l =>
                     (u.drawerRecs.filter fun r => r.logical == l && liveRec u.drawerRecs r).map (·.len))).1)))))

/-- FLASH_ERASE and FLASH_PROGRAM: an operation starts under its own hold and stalls the core; outside the firmware's
reach, in brace, without the hold, on a retired sector, on a journal sector that is not the one to reclaim, or over
words that are not erased it does not (R517, R518, R520, R521, R526, R543, R546). That the firmware's operations wait
while a core restart's open entries are unresolved is the model's choice (log 39). FLASH_OPERATION_END: an erase
leaves its sector reading erased and a program clears bits in the bytes it names, both with LEAVE released and no
other byte changed; the watchdog has not counted in the stall; an attempt that did not verify is repeated under fault
0x72, and a last one leaves its sector to be retired; fault 0x74 stands where spares run out (R30, R518, R520, R521,
R545, R549, R589). The drift check a stall has carried past its second is kept by log 73, and the watchdog's 2 s by
log 72, the model's choices. ERASE_HOLD_END, FLASH_ERASE_SUSPEND and SECTOR_RETIREMENT: an erase gives LEAVE back
after 50 ms and goes on; brace suspends it and ends the stall; a worn sector gives way to a spare, and with no spare
left holds fault 0x77 (R520, R523, R545 to R548). That a retirement is whole, under one hold of leave for a flash
program, is the model's choice (logs 13 and 39). ROW_COUNTER_INCREMENT: short of a carry one byte of the tally sector
goes to 0 and no other byte of the array changes; LEAVE is released (R540). That the whole increment falls in one hold
is the model's choice (log 39). -/
def Obligations.FlashOperationsWork : Prop :=
  (∀ (dt : Nat) (s u : State), u = advance dt s →
     (∀ sector : Fin 1024,
       (u.leave.holding ≠ some .flashErase ∨ u.power.brace = true ∨ sector.val < 0x180 ∨ 0x3CB < sector.val ∨
           u.flash.op.isSome = true ∨ u.fwRuns = false ∨ u.core.recovering = true ∨ u.retired sector.val = true ∨
           areaOf (u.original sector.val) = some 2 ∧ u.reclaims sector.val = false →
         exec (.flashErase dt sector) s = .next u) ∧
       (u.mayOperate .flashErase sector.val = true →
         (areaOf (u.original sector.val) = some 2 → u.reclaims sector.val = true) →
         (∀ area : Nat, areaOf (u.original sector.val) = some area → area ≠ 2 → u.journalReady = true) →
         Does (.flashErase dt sector) s u [.free, .flash, .mem, .leave, .faults] fun t =>
           t.flash.op.map (fun o => (o.kind, o.running, o.startedAt)) = some (.erase sector.val, true, u.clock) ∧
             t.fwRuns = false ∧ t.leave.holding = some .flashErase ∧
             (areaOf (u.original sector.val) = none → t.flash.mem = u.flash.mem))) ∧
     (∀ (addr : BitVec 22) (data : List Byte),
       (u.mayOperate .flashProgram (addr.toNat / 4096) = true →
         (∀ p ∈ sectorsOf addr.toNat data.length, u.mayUse p = true ∧ u.erasing p = false) →
         u.programShape addr.toNat data.length = true →
         Does (.flashProgram dt addr data) s u [.flash, .leave] fun t =>
           t.flash.op.map (fun o => (o.kind, o.running, o.done)) = some (.program addr.toNat data, true, 0) ∧
             t.flash.mem = u.flash.mem ∧ t.fwRuns = false ∧ t.leave.holding = some .flashProgram) ∧
       ((∃ p ∈ sectorsOf addr.toNat data.length, u.mayUse p = false ∨ u.erasing p = true) ∨
           u.programShape addr.toNat data.length = false →
         exec (.flashProgram dt addr data) s = .next u))) ∧
  (∀ (dt took : Nat) (s u : State) (o : FlashOp), u = advance dt s → u.flash.op = some o → o.running = true →
     (∀ sector : Nat, o.kind = .erase sector → o.journal = none → o.retries < 2 →
       u.leave.holding = some .flashErase ∨ u.leave.holding = some .service →
       Does (.flashOperationEnd dt true took) s u [.strap, .sched, .flash, .mem, .leave, .core, .faults] fun t =>
         t.flash.op = none ∧ t.leave.holding = none ∧
           (o.service = false → t.core.dogAt = u.core.dogAt + (u.clock - o.startedAt)) ∧
           (t.strap = u.strap ∨ o.service = false ∧ ∃ first : Nat, t.strap = { u.strap with driftOwed := some first }) ∧ t.flash.erases = (took :: u.flash.erases).take 16 ∧
           (∀ a : Nat, memGet t.flash.mem a = if a / 4096 = sector then 0xFF else memGet u.flash.mem a) ∧
           ∃ f : Faults, f = (if 800 < took then
               u.faults.logged 0x71 u.tb.time 0xFF (BitVec.ofNat 32 sector) (sat32 took)
             else u.faults) ∧
             t.faults = (if t.spares ≤ 4 ∨ 508 ≤ t.retirements then
               f.raised 0x74 u.tb.time 0xFF (BitVec.ofNat 32 t.spares) (BitVec.ofNat 32 t.retirements) else f)) ∧
     (∀ (addr : Nat) (data : List Byte), o.kind = .program addr data → o.done = 0 → u.flash.wf = true →
       addr + data.length ≤ 4194304 → o.retries < 2 →
       u.leave.holding = some .flashProgram ∨ u.leave.holding = some .service →
       Does (.flashOperationEnd dt true took) s u [.strap, .sched, .flash, .mem, .leave, .core, .faults] fun t =>
         t.flash.op = none ∧ t.leave.holding = none ∧
           t.faults = (if t.spares ≤ 4 ∨ 508 ≤ t.retirements then
             u.faults.raised 0x74 u.tb.time 0xFF (BitVec.ofNat 32 t.spares) (BitVec.ofNat 32 t.retirements)
             else u.faults) ∧
           ∀ a : Nat, memGet t.flash.mem a =
             (match data[a - addr]? with
               | some b => if addr ≤ a then memGet u.flash.mem a &&& b else memGet u.flash.mem a
               | none => memGet u.flash.mem a)) ∧
     (o.retries < 2 → exec (.flashOperationEnd dt false took) s = .next { u with
       flash := { u.flash with op := some { o with retries := o.retries + 1 } }
       faults := u.faults.logged 0x72 u.tb.time 0xFF (BitVec.ofNat 32 o.kind.sector) (BitVec.ofNat 32 (o.retries + 1)) }) ∧
     (2 ≤ o.retries → u.keepsRetrying o.kind.sector = false →
       Does (.flashOperationEnd dt false took) s u (touches (.flashOperationEnd dt false took)) fun t =>
         t.flash.op = none ∧ t.core.halted = (u.core.halted || u.core.haltOwed) ∧
           ((areaOf (t.original o.kind.sector)).isSome = true → t.flash.worn.contains o.kind.sector = true))) ∧
  ((∀ (dt sector : Nat) (s u : State) (o : FlashOp), u = advance dt s → u.flash.op = some o → o.running = true →
     o.kind = .erase sector → u.leave.holding = some .flashErase →
     (50 * 4000000000 ≤ o.used + (u.clock - o.startedAt) →
       Does (.eraseHoldEnd dt) s u [.flash, .leave] fun t =>
         t.leave.holding = none ∧ t.flash = { u.flash with op := some { o with used := 200000000000 } }) ∧
     (o.used + (u.clock - o.startedAt) < 50 * 4000000000 → exec (.eraseHoldEnd dt) s = .next u) ∧
     (u.power.brace = false → exec (.flashEraseSuspend dt) s = .next u) ∧
     (u.power.brace = true → Does (.flashEraseSuspend dt) s u [.strap, .sched, .flash, .leave, .core] fun t =>
       t.core.halted = u.core.halted ∧ t.leave.holding = none ∧ t.flash = { u.flash with op := some { o with
         running := false, used := min (o.used + (u.clock - o.startedAt)) 200000000000 } })) ∧
   (∀ (dt area : Nat) (s u : State) (sector : Fin 1024), u = advance dt s → u.fwRuns = true →
     areaOf (u.original sector.val) = some area → u.flash.worn.contains sector.val = true →
     u.leave.holding = some .flashProgram → u.flash.op = none → u.power.brace = false → area ≠ 1 ∨ u.readOnly = false →
     u.core.recovering = false → u.journalReady = true →
     (u.nextSpare = none → Does (.sectorRetirement dt sector) s u [.flash, .leave, .faults] fun t =>
       t.leave.holding = none ∧ t.flash = { u.flash with worn := u.flash.worn.filter fun q => q != sector.val } ∧
         t.faults = u.faults.raised 0x77 u.tb.time 0xFF (BitVec.ofNat 32 area) (BitVec.ofNat 32 sector.val)) ∧
     (∀ new : Nat, u.nextSpare = some new →
       Does (.sectorRetirement dt sector) s u [.free, .flash, .mem, .leave, .faults] fun t =>
         t.leave.holding = none ∧ t.flash.worn.contains sector.val = false ∧ u.usedSpares.contains new = false ∧
           0x1CC ≤ new ∧ new ≤ 0x3CB ∧
           t.faults.events.any (fun e => e.code == 0x73 && e.detailA == BitVec.ofNat 32 sector.val &&
             e.detailB == BitVec.ofNat 32 new) = true))) ∧
  (∀ (dt : Nat) (c : RowId) (s u : State), u = advance dt s →
     (u.leave.holding ≠ some .flashProgram ∨ u.flash.op.isSome = true ∨ u.power.brace = true ∨ u.fwRuns = false ∨
         u.core.recovering = true ∨ u.rowReady c = false →
       exec (.rowCounterIncrement dt c) s = .next u) ∧
     (u.fwRuns = true → u.leave.holding = some .flashProgram → u.flash.op = none → u.power.brace = false →
       u.core.recovering = false → u.rowReady c = true →
       u.flash.wf = true → (u.rowSectors c).1 < 1024 → u.tally (u.rowSectors c).1 + 1 < 4096 →
       Does (.rowCounterIncrement dt c) s u [.free, .flash, .mem, .leave, .faults] fun t =>
         t.leave.holding = none ∧
           ∀ a : Nat, memGet t.flash.mem a =
             if a = 4096 * (u.rowSectors c).1 + u.tally (u.rowSectors c).1 then 0 else memGet u.flash.mem a))

/-- R97 for RESET_N, CAL_N, FLUSH_N and STBY_N: a level that stands for less than the lower limit is ignored; between the
two limits one free bit decides whether the pin acts as at the upper limit. BRACE_ENTRY and BRACE_RETURN: brace with
part 0 of its marker and fault 0x81; its end with part 1, the duration in back-die cycles, saturated, and the fault's
event with the time of entry and the lowest VIN (R335, R565, R566, R568, R578). That before the epoch both parts wait
for it is the model's choice (log 30), and so are the rounding of the duration (log 16) and the order of a brace entry
and a win of LEAVE in one cycle (log 39). R562 with STANDBY_ENTRY, STANDBY_EXIT and AO_DOMAIN_POWER_DOWN: standby
takes the stream port to STANDBY and opens the pin switches, and changes no channel, yarn, tick, stamp, statistic,
store, latch, request or flash operation; the AO domain goes down with its switches open and is powered again at the
end (R411, R555, R556, R559, R561). The supply and temperature faults 0x84 to 0x87, with the measured values as
details, and their clears (R578). -/
def Obligations.BraceAndStandby : Prop :=
  (∀ (dt w : Nat) (s u v : State), u = advance dt s → v = { u with free := u.free + 1 } →
     (w < 100000 → exec (.resetAssert dt (.pin w)) s = .next u) ∧
     (w < 200000 → exec (.calRequest ⟨dt, w⟩) s = .next u ∧ exec (.flushRequest ⟨dt, w⟩) s = .next u ∧
       exec (.standbyEntry ⟨dt, w⟩) s = .next u ∧ exec (.standbyExit ⟨dt, w⟩) s = .next u) ∧
     (100000 ≤ w → w < 1000000 → exec (.resetAssert dt (.pin w)) s =
       if Config.freeBit u.free then .next (v.fullReset (.pin w)) else .next v) ∧
     (200000 ≤ w → w < 1000000 →
       (exec (.calRequest ⟨dt, w⟩) s = if Config.freeBit u.free then
         .next (v.when (v.outOfReset && v.tb.epochSet) fun t => t.requestRun .calPin) else .next v) ∧
       (exec (.flushRequest ⟨dt, w⟩) s = if Config.freeBit u.free then
         .next (v.when v.tb.epochSet fun t => { t with cab := { t.cab with flushing := true } }) else .next v) ∧
       (exec (.standbyEntry ⟨dt, w⟩) s = if Config.freeBit u.free then .next v.standbyEntry else .next v) ∧
       (exec (.standbyExit ⟨dt, w⟩) s = if Config.freeBit u.free then .next v.standbyExit else .next v))) ∧
  (∀ (dt : Nat) (s u : State), u = advance dt s →
     (u.outOfReset = true → u.power.brace = false →
       Does (.braceEntry dt) s u (touches (.braceEntry dt)) fun t =>
         t.power = { u.power with
           brace := true, braceAt := u.clock, braceTime := u.tb.time
           early := if u.tb.epochSet then u.power.early else u.power.early ++ [(false, 0)] } ∧
         t.chain = (if u.tb.epochSet then u.chain.offered
           { st := .brace u.tb.time false 0, session := u.tb.session, full := u.full } else u.chain) ∧
         t.faults = { u.faults with
           last := 0x81
           seen := (0x81, u.faults.count 0x81 + 1) :: u.faults.seen.filter fun p => p.1 != 0x81 } ∧
         t.cab.scrubbing = false ∧ t.leave.phase ≠ .window) ∧
     (u.power.brace = true →
       exec (.braceEntry dt) s = .next u ∧
       ∀ (lowest : Nat) (cycles : BitVec 40),
         cycles = BitVec.ofNat 40 (min (inUnits (u.clock - u.power.braceAt) 12800) 0xFFFFFFFFFF) →
         Does (.braceReturn dt lowest) s u [.chain, .flash, .power, .leave, .faults] fun t =>
           t.power = { u.power with
             brace := false, returnAt := u.clock
             early := if u.tb.epochSet then u.power.early else u.power.early ++ [(true, cycles)] } ∧
           t.flash.mem = u.flash.mem ∧
           t.faults = { u.faults with events := u.faults.events ++
             [{ code := 0x81, raised := true, held := false, time := u.power.braceTime, subject := 0xFF
                detailA := sat32 lowest, detailB := sat32 (inUnits (u.clock - u.power.braceAt) 4000000)
                occ := u.faults.count 0x81 }] } ∧
           t.chain = (if u.tb.epochSet then u.chain.offered
             { st := .brace u.tb.time true cycles, session := u.tb.session, full := u.full } else u.chain)) ∧
     (u.power.brace = false → ∀ lowest : Nat, exec (.braceReturn dt lowest) s = .next u)) ∧
  (∀ (dt w : Nat) (s u : State), u = advance dt s → 1000000 ≤ w →
     (u.outOfReset = true → u.power.standby = false → u.port.st ≠ .off →
       Does (.standbyEntry ⟨dt, w⟩) s u [.chain, .port, .ao, .power, .leave, .faults] fun t =>
         t.power = { u.power with standby := true } ∧ t.port.st = .standby ∧ t.port.up = false ∧ t.port.tx = none ∧
           (u.port.tx = none → t.chain = u.chain ∧ t.faults = u.faults) ∧
           ∀ o : OutNo, (t.ao.outs.get o).st = .faulted ∨ (t.ao.outs.get o).st = .idle) ∧
     (u.power.standby = true →
       (exec (.standbyEntry ⟨dt, w⟩) s = .next u) ∧
       ((∀ o : OutNo, (u.ao.outs.get o).st ≠ .driven) →
         exec (.aoDomainPowerDown dt) s = .next { u with ao := { u.ao with up := false } }) ∧
       Does (.standbyExit ⟨dt, w⟩) s u [.port, .ao, .power] fun t =>
         t.power.standby = false ∧ (u.port.st = .standby → t.port.st = .down) ∧
           (u.cal.startupDone = true → u.aoWanted = true → u.domainHeld 9 = false → t.ao.up = true) ∧
           t.ao.outs = u.ao.outs)) ∧
  (∀ (dt : Nat) (s u : State), u = advance dt s →
     (∀ v33 vin : Nat, u.outOfReset = true → 6000 ≤ vin →
       exec (.v33RangeFault dt v33 vin) s = .next
         (if v33 < 3100 ∨ 3500 < v33 then
           { u with faults := u.faults.raised 0x84 u.tb.time 0xFF (sat32 v33) (sat32 vin) } else u)) ∧
     exec (.v33RangeClear dt) s = .next { u with faults := u.faults.cleared 0x84 u.tb.time 0xFF } ∧
     (∀ vin : Nat, u.outOfReset = true →
       exec (.vinOvervoltage dt vin) s = .next
         (if 28500 < vin then { u with faults := u.faults.raised 0x85 u.tb.time 0xFF (sat32 vin) 0 } else u)) ∧
     exec (.vinOvervoltageClear dt) s = .next { u with faults := u.faults.cleared 0x85 u.tb.time 0xFF } ∧
     (∀ vbat hours : Nat, u.fwRuns = true → hours = (u.clock - u.core.releasedAt) / 14400000000000000 →
       (hours < u.power.vbatDone → exec (.vbatCheck dt vbat) s = .next u) ∧
       (u.power.vbatDone ≤ hours → exec (.vbatCheck dt vbat) s = .next
         { u with
           power := { u.power with vbatDone := hours + 1 }
           faults := if vbat < 1800 then u.faults.logged 0x86 u.tb.time 0xFF (sat32 vbat) 0 else u.faults })) ∧
     (∀ since : Nat, u.outOfReset = true → u.sens.hotFrom = some since →
       exec (.dieOvertemperature dt) s = .next
         (if 4000000000000 ≤ u.clock - since then
           { u with faults := u.faults.raised 0x87 u.tb.time 0xFF (BitVec.ofInt 32 u.sens.die) 0 } else u)) ∧
     (∀ since : Nat, u.sens.coolFrom = some since →
       exec (.dieOvertemperatureClear dt) s = .next
         (if 4000000000000 ≤ u.clock - since then { u with faults := u.faults.cleared 0x87 u.tb.time 0xFF } else u)))

/-- LEAVE_REQUEST, LEAVE_LINE_CHANGE, LEAVE_WINDOW_EXPIRY and LEAVE_HOLDOFF_END: a request joins those waiting; the window
runs from the line's last rising edge, which cannot come while the unit pulls the line low; the unit wins on an idle
line for its first operation in the order of R574, of the channels that wait to join the lowest, which enters state 4,
and fault 0x82 clears; the holdoff over, a waiting request starts, with a call on a line that has been idle for longer
than W (R170, R172, R179, R571 to R574, R576). LEAVE_REQUEST_WITHDRAWAL, LEAVE_STARVATION, LEAVE_STUCK and
LEAVE_STUCK_CLEAR: requests are withdrawn while the core does not run and begin again after; 2 s without a win raise
fault 0x82 with the row of the operation; 100 ms low raise fault 0x83, and 10 µs idle clear it (R576, R577, R674). -/
def Obligations.LeaveIsWon : Prop :=
  (∀ (dt : Nat) (s u : State), u = advance dt s →
     (∀ op : HeavyOp, u.fwRuns = true → u.wants op = true → u.leave.reqs.contains op = false →
       u.leave.holding ≠ some op →
       Does (.leaveRequest dt op) s u [.leave] fun t => t.leave.reqs = u.leave.reqs ++ [op]) ∧
     (∀ w : Nat, 400000 ≤ w →
       (u.leave.idle = false → u.leave.holding = none → u.leave.callTo ≤ u.clock →
         exec (.leaveLineChange dt ⟨true, w⟩) s = .next { u with leave := { u.leave with
           idle := true, roseAt := u.clock } }) ∧
       (u.leave.idle = true ∨ u.leave.holding.isSome = true ∨ u.clock < u.leave.callTo →
         exec (.leaveLineChange dt ⟨true, w⟩) s = .next u) ∧
       exec (.leaveLineChange dt ⟨false, w⟩) s = .next { u with leave := { u.leave with
         idle := false, fellAt := if u.leave.idle then u.clock else u.leave.fellAt } }) ∧
     (∀ (high : Bool) (w : Nat), w ≤ 200000 → exec (.leaveLineChange dt ⟨high, w⟩) s = .next u) ∧
     (u.winner = none → exec (.leaveWindowExpiry dt) s = .next u) ∧
     (∀ op : HeavyOp, u.winner = some op → u.leave.phase = .window → u.leave.idle = true →
       u.leave.holding = none → u.power.brace = false →
       (u.clock < u.leave.roseAt + 4000000 * (10 + 5 * u.unitId) → exec (.leaveWindowExpiry dt) s = .next u) ∧
       (u.leave.roseAt + 4000000 * (10 + 5 * u.unitId) ≤ u.clock →
         Does (.leaveWindowExpiry dt) s u [.chan, .flash, .leave, .faults, .svc] fun t =>
           t.leave.holding = some op ∧ t.leave.idle = false ∧ t.leave.starved = false ∧ t.leave.heldAt = u.clock ∧
             t.leave.reqs = u.leave.reqs.erase op ∧ t.faults = u.faults.cleared 0x82 u.tb.time 0xFF ∧
             t.flash.mem = u.flash.mem ∧
             (∀ r ∈ u.liveReqs, u.canWin r = true → HeavyOp_rank op ≤ HeavyOp_rank r) ∧
             (∀ n m : Chan, op = .join n → u.canWin (.join m) = true → n ≤ m) ∧
             (∀ n m : Chan, op = .startupPower n → u.canWin (.startupPower m) = true → n ≤ m) ∧
             (∀ n : Chan, t.chan.get n = (if op = .join n ∨ op = .startupPower n then
               { u.chan.get n with st := .joining, stable := 64 } else u.chan.get n)))) ∧
     (∀ released : Nat, u.leave.releasedAt = some released → u.leave.phase = .deferred →
       u.leave.holding = none → u.power.brace = false → u.liveReqs ≠ [] →
       (u.clock < released + 400000000 → exec (.leaveHoldoffEnd dt) s = .next u) ∧
       (released + 400000000 ≤ u.clock → Does (.leaveHoldoffEnd dt) s u [.leave] fun t =>
         t.leave.phase = .window ∧ t.leave.reqs = u.leave.reqs ∧
           (u.leave.idle = true → 4000000 * (10 + 5 * u.unitId) < u.clock - u.leave.roseAt →
             t.leave.idle = false ∧ t.leave.fellAt = u.clock ∧ t.leave.callTo = u.clock + 4000000)))) ∧
  (∀ (dt : Nat) (s u : State), u = advance dt s →
     (u.fwRuns = false → Does (.leaveRequestWithdrawal dt) s u [.leave] fun t =>
       t.leave.withdrawn = true ∧ t.leave.reqs = u.leave.reqs ∧ t.leave.holding = u.leave.holding ∧
         (u.leave.holding = none → u.liveReqs = [] → t.leave.phase = .idle)) ∧
     (u.fwRuns = true → u.leave.withdrawn = true → Does (.leaveRequestWithdrawal dt) s u [.leave] fun t =>
       t.leave.withdrawn = false ∧ t.leave.reqs = u.leave.reqs) ∧
     (∀ op : HeavyOp, u.nextReq = some op → u.starving = true →
       exec (.leaveStarvation dt) s = .next
         (if 8000000000000 ≤ u.waitedNow then
           { u with leave := { u.leave with starved := true }
                    faults := u.faults.raised 0x82 u.tb.time 0xFF (BitVec.ofNat 32 (u.heavyRow op)) 0 }
         else u)) ∧
     (u.outOfReset = true → u.leave.idle = false →
       exec (.leaveStuck dt) s = .next
         (if 400000000000 ≤ u.clock - u.leave.fellAt then { u with faults := u.faults.raised 0x83 u.tb.time 0xFF 0 0 }
         else u)) ∧
     (u.leave.idle = true →
       exec (.leaveStuckClear dt) s = .next
         (if 40000000 ≤ u.clock - u.leave.roseAt then { u with faults := u.faults.cleared 0x83 u.tb.time 0xFF } else u)))

/-- TETHER_SLOT and TETHER_FRAME_RECEIVED: the lead sends its frame in its own slot and stands as heard there, a collision
raises fault 0xA4; a valid frame of a lower slot and another origin is kept, a bad one counts under 0xA2, as does one
that did not begin within 20 µs of the start of a slot (R607 to R613, R619, R667). A frame as `frameBytes` builds it
and `frameLevels` puts it on the line, two levels a bit, is read back whole, is valid in the slot of its lead, and
says what it was built from (R19, R606 to R611). TETHER_LEAD_CHECK, TETHER_STUCK, TETHER_STUCK_CLEAR and
TETHER_ID_CLASH_CLEAR: the second without the old lead's slot logs fault 0xA1 at the second such second in a row;
faults 0xA3 and 0xA4 (R618, R619). -/
def Obligations.TetherSpeaks : Prop :=
  ((∀ (dt e : Nat) (s u : State), u = advance dt s → u.tether.openedAt = some e → u.mayLead = true →
     u.tether.lowest = none → u.tether.sent = false →
     400000000000 + 5000000000 * u.unitId ≤ u.clock - e → u.clock - e < 400000012800 + 5000000000 * u.unitId →
     (Does (.tetherSlot dt false) s u [.tether] fun t =>
       t.tether = { u.tether with
         sent := true, lowest := some (Fin.ofNat 8 u.unitId)
         line := frameLevels (frameBytes u.unitId (u.tb.originId.toNat % 8) u.tb.originSession
           (secondsAfter (u.full - (u.clock - e)))) }) ∧
     (Does (.tetherSlot dt true) s u [.faults, .tether] fun t =>
       t.tether = { u.tether with sent := true, line := [], clashAt := u.clock } ∧
         t.faults = u.faults.raised 0xA4 u.tb.time (BitVec.ofNat 8 u.unitId) 2 0)) ∧
   (∀ (dt e began : Nat) (s u : State) (i : Fin 8) (l : List Bool) (b : List Byte), u = advance dt s →
     u.tethered = true → bytesOfLevels l = some b →
     u.tb.epochSet = true → u.tether.openedAt = some e →
     u.slotBegun began = some i →
     (frameReason (some i) (.levels l) = none → i.val < u.unitId → u.foreign (frameOf b e) = true →
       u.tether.kept = none →
       Does (.tetherFrameReceived dt began (.levels l)) s u [.tether] fun t =>
         t.tether = { u.tether with
           kept := some (frameOf b e)
           lowest := some (match u.tether.lowest with | some j => min i j | none => i) }) ∧
     (u.faults.period 0xA2 0 = none → Does (.tetherFrameReceived dt began .violation) s u [.faults] fun t =>
       t.faults.active = u.faults.active ∧
         t.faults.events = (u.faults.logged 0xA2 u.tb.time (BitVec.ofNat 8 i.val) 1 1).events) ∧
     (∀ r : Nat, frameReason (some i) (.levels l) = some r → u.faults.period 0xA2 0 = none →
       Does (.tetherFrameReceived dt began (.levels l)) s u [.faults] fun t =>
         t.faults.active = u.faults.active ∧
         t.faults.events =
           (u.faults.logged 0xA2 u.tb.time (BitVec.ofNat 8 i.val) 1 (BitVec.ofNat 32 r)).events)) ∧
   (∀ (dt began : Nat) (s u : State) (f : FrameIn), u = advance dt s → u.tethered = true → u.tb.epochSet = true →
     u.slotBegun began = none → u.faults.period 0xA2 0 = none →
     Does (.tetherFrameReceived dt began f) s u [.faults] fun t =>
       t.faults.active = u.faults.active ∧ t.faults.events = (u.faults.logged 0xA2 u.tb.time 0xFF 1 5).events) ∧
   (∀ (e began : Nat) (u : State) (i : Fin 8), u.tether.openedAt = some e →
     (u.slotBegun began = some i ↔
       e + 400000000000 + 5000000000 * i.val ≤ u.clock - began + 80000000 ∧
         u.clock - began ≤ e + 400000000000 + 5000000000 * i.val + 80000000))) ∧
  (∀ (lead : Fin 8) (origin seconds second : Nat) (session : BitVec 16), origin < 8 → seconds < 2 ^ 40 →
     eraOfSeconds seconds < 2 ^ 16 →
     (∀ bs : List Byte, bytesOfLevels (frameLevels bs) = some bs) ∧
     frameReason (some lead) (.levels (frameLevels (frameBytes lead.val origin session seconds))) = none ∧
     frameOf (frameBytes lead.val origin session seconds) second =
       { lead := BitVec.ofNat 3 lead.val, origin := BitVec.ofNat 3 origin, originSession := session
         era := BitVec.ofNat 16 (eraOfSeconds seconds), seconds := BitVec.ofNat 40 seconds, second := second }) ∧
  ((∀ (dt e : Nat) (s u : State), u = advance dt s → u.tether.openedAt = some e → u.tethered = true →
     u.tb.epochSet = true → u.tether.checked = false → 440000000000 ≤ u.clock - e →
     (∀ (p a b : Fin 8) (rest : List (Option (Fin 8))), u.tether.lowest = some b →
       u.tether.history = some a :: some p :: rest →
       exec (.tetherLeadCheck dt) s = .next { u with
         tether := { u.tether with checked := true, history := (some b :: u.tether.history).take 3 }
         faults := if p < a ∧ p < b then
             u.faults.logged 0xA1 u.tb.time (BitVec.ofNat 8 p.val) (BitVec.ofNat 32 b.val) 0
           else u.faults }) ∧
     (∀ (h : Option (Option (Fin 8))) (rest : List (Option (Fin 8))), u.tether.lowest = none →
       u.tether.history = none :: rest → h = rest.head? →
       exec (.tetherLeadCheck dt) s = .next { u with
         tether := { u.tether with checked := true, history := (none :: u.tether.history).take 3 }
         faults := u.faults.logged 0xA1 u.tb.time
           (match h with | some (some p) => BitVec.ofNat 8 p.val | _ => 0xFF) 0xFF 0 })) ∧
   (∀ (dt : Nat) (s u : State), u = advance dt s →
     (u.strap.latched = true → u.tethered = true →
       exec (.tetherStuck dt) s = .next { u with faults := u.faults.raised 0xA3 u.tb.time 0xFF 0 0 }) ∧
     exec (.tetherStuckClear dt) s = .next { u with faults := u.faults.cleared 0xA3 u.tb.time 0xFF } ∧
     exec (.tetherIdClashClear dt) s = .next
       (if 40000000000000 ≤ u.clock - u.tether.clashAt then
         { u with faults := u.faults.cleared 0xA4 u.tb.time (BitVec.ofNat 8 u.unitId) } else u)))

/-- ADOPTION_ARM, EPOCH_ADOPTION and ADOPTION_SESSION_COMMIT: a kept frame arms an adoption outside a calibration
suspension and once the last adopted number is in flash; at its switch instant the time counter takes the frame's
scale, the session goes up by one, expiries and refusals count from 0 and the event counters go on; the number is
committed under leave. Each completes whenever these conditions hold, and only then acts (R59 to R61, R200, R295,
R614, R615, R617). That the switch comes in holdover too (log 33), what the channels' histories keep over it (log 55),
and the hold the commit needs (log 39) are the model's choices. -/
def Obligations.AdoptionsSwitch : Prop :=
  (∀ (dt : Nat) (s u : State) (f : Frame), u = advance dt s → u.tether.kept = some f → u.tb.epochSet = true →
    u.foreign f = true → u.faultActive 0xA3 0xFF = false →
    (u.fwRuns = true → u.cal.run = none → u.tb.commitOwed = false →
      exec (.adoptionArm dt) s = .next { u with tether := { u.tether with kept := none, armed := some f } }) ∧
    (u.fwRuns = false ∨ u.cal.run.isSome = true ∨ u.tb.commitOwed = true →
      exec (.adoptionArm dt) s = .next u)) ∧
  (∀ (dt e w d : Nat) (s u : State) (f : Frame), u = advance dt s → u.tether.armed = some f →
    u.tether.edgeAt = some e → u.tb.epochSet = true → (w, d) = u.switchOf e →
    (w ≤ u.clock → u.tb.commitOwed = false →
      exec (.epochAdoption dt) s = .next (u.switchTo f w d) ∧
      Does (.epochAdoption dt) s u (touches (.epochAdoption dt)) fun t =>
        t.tb.time = BitVec.ofNat 64 (4000000000000 * f.seconds.toNat + d) + BitVec.ofNat 64 (u.clock - w) ∧
          t.tb.session = BitVec.ofNat 16 (u.keep.copy + 1) ∧ t.keep.copy = u.keep.copy + 1 ∧
          t.tb.commitOwed = true ∧ t.tb.originSession = f.originSession ∧ t.tb.start.reason = 0x10 ∧
          t.tb.start.prevSession = u.tb.session ∧ t.tether.armed = none ∧ t.chain.refusals = 0 ∧
          ∀ n : Chan, (t.chan.get n).count = (u.chan.get n).count ∧ (t.chan.get n).yarn = (u.chan.get n).yarn ∧
            (t.chan.get n).st = (u.chan.get n).st ∧ (t.chan.get n).expired = 0) ∧
    (u.clock < w ∨ u.tb.commitOwed = true → exec (.epochAdoption dt) s = .next u)) ∧
  (∀ (dt : Nat) (s u : State), u = advance dt s →
    (u.fwRuns = true → u.tb.commitOwed = true → u.leave.holding = some .flashProgram → u.flash.op = none →
      u.power.brace = false → u.core.recovering = false → u.rowReady .session = true →
      Does (.adoptionSessionCommit dt) s u [.free, .tb, .flash, .mem, .leave, .faults] fun t =>
        t.tb = { u.tb with commitOwed := false } ∧ t.leave.holding = none ∧
          (u.keep.copy ≤ u.rowValue .session → t.flash.mem = u.flash.mem)) ∧
    (u.fwRuns = false ∨ u.tb.commitOwed = false ∨ u.leave.holding ≠ some .flashProgram ∨ u.flash.op.isSome = true ∨
        u.power.brace = true ∨ u.core.recovering = true ∨ u.rowReady .session = false →
      exec (.adoptionSessionCommit dt) s = .next u))

/-- R623, every command that carries a frame: one that is not answered with status 0x01 changes nothing in the unit; what
SVC_IO carried of it and of the answer is kept for the line alone. -/
def Obligations.ServiceErrorsChangeNothing : Prop :=
  ∀ (i : Instr) (dt : Nat) (s t u : State), u = advance dt s → i.isFrame dt = true → exec i s = .next t →
    t.svc.answer.head? = some 0x01 ∨ t = u ∨
      (t = { u with svc := { u.svc with answer := [], wire := t.svc.wire } }) ∨
      ∃ st : Byte, (st = 0x02 ∨ st = 0x03 ∨ st = 0x04 ∨ st = 0x05) ∧
        t = { u with svc := { u.svc with answer := [st, crc8 [st]], wire := t.svc.wire } }

/-- R633, every frame with the fuse blown: nothing on SVC_IO, no answer, no effect and no fault; no command brings a blown
fuse back (R631). -/
def Obligations.BlownPortIsDead : Prop :=
  (∀ (i : Instr) (dt : Nat) (s u : State), u = advance dt s → i.isFrame dt = true ∨ i = .serviceFrameAbort dt →
    u.svc.fuse = .blown → ∃ t : State, exec i s = .next t ∧
      t = { u with svc := { u.svc with answer := t.svc.answer, wire := t.svc.wire } } ∧
      (u.outOfReset = true → i.isFrame dt = true → (∀ op : Byte, i = .serviceUnknownOpcode dt op → knownOpcode op = false) →
        t.svc.answer = [] ∧ ∃ (req : List Byte) (crc : Byte), t.svc.wire = svcLine req crc [])) ∧
  (∀ (i : Instr) (s t : State), exec i s = .next t → s.svc.fuse = .blown → t.svc.fuse = .blown)

/-- IDENT, OPEN, READ, VERIFY, SERVICE_UNKNOWN_OPCODE and SERVICE_FRAME_ABORT: what an intact port answers to a good
frame, status 0x01 with its response and CRC-8, or 0x05 to an opcode that is none of the table's; SVC_IO carries the
start byte, the request with its CRC, 8 released clocks and the answer, bit 0 of each byte first; an aborted frame
does nothing (R621 to R625, R629). HALT, RESUME, RESET, ERASE, PROGRAM, BLOW and FUSE_BLOW_DONE: what each does once
its conditions hold (R593, R624, R626 to R628, R631). -/
def Obligations.ServiceWorks : Prop :=
  (∀ (dt : Nat) (s u : State), u = advance dt s → u.outOfReset = true → u.svc.fuse = .intact →
     (Does (.ident dt (crc8 [0x01])) s u [.svc] fun t =>
       ∃ b : List Byte, b.length = 16 ∧ b.take 8 = le 8 Config.serial.toNat ∧
         t.svc = { u.svc with
           answer := 0x01 :: b ++ [crc8 (0x01 :: b)]
           wire := svcLine [0x01] (crc8 [0x01]) (0x01 :: b ++ [crc8 (0x01 :: b)]) }) ∧
     (∀ arg : BitVec 32, arg = Config.serial.setWidth 32 →
       exec (.openPort dt arg (crc8 (0x02 :: le 4 arg.toNat))) s = .next { u with
         svc := { u.svc with
           opened := true, answer := [0x01, crc8 [0x01]]
           wire := svcLine (0x02 :: le 4 arg.toNat) (crc8 (0x02 :: le 4 arg.toNat)) [0x01, crc8 [0x01]] } }) ∧
     (∀ arg : BitVec 32, arg ≠ Config.serial.setWidth 32 →
       exec (.openPort dt arg (crc8 (0x02 :: le 4 arg.toNat))) s = .next { u with
         svc := { u.svc with
           answer := [0x03, crc8 [0x03]]
           wire := svcLine (0x02 :: le 4 arg.toNat) (crc8 (0x02 :: le 4 arg.toNat)) [0x03, crc8 [0x03]] } }) ∧
     (∀ (addr : BitVec 32) (len : Byte), u.svcBusy = false → u.svc.opened = true → 1 ≤ len.toNat → len.toNat ≤ 128 →
       addr.toNat + len.toNat ≤ 4194304 → u.flash.bad = [] →
       Does (.read dt addr len (crc8 (0x03 :: le 4 addr.toNat ++ [len]))) s u [.free, .svc] fun t =>
         ∃ b : List Byte, b = memGets u.flash.mem addr.toNat len.toNat ∧
           t.svc = { u.svc with
             answer := 0x01 :: b ++ [crc8 (0x01 :: b)]
             wire := svcLine (0x03 :: le 4 addr.toNat ++ [len]) (crc8 (0x03 :: le 4 addr.toNat ++ [len]))
               (0x01 :: b ++ [crc8 (0x01 :: b)]) }) ∧
     (u.svcBusy = false → u.svc.opened = true → u.flash.bad = [] →
       exec (.verify dt (crc8 [0x22])) s = .next { u with svc := { u.svc with
         verified := u.imageOk
         answer := 0x01 :: le 4 u.imageCrc.toNat ++ [crc8 (0x01 :: le 4 u.imageCrc.toNat)]
         wire := svcLine [0x22] (crc8 [0x22])
           (0x01 :: le 4 u.imageCrc.toNat ++ [crc8 (0x01 :: le 4 u.imageCrc.toNat)]) } }) ∧
     (∀ opcode : Byte,
       (opcode ∈ [0x01#8, 0x02#8, 0x03#8, 0x10#8, 0x11#8, 0x12#8, 0x20#8, 0x21#8, 0x22#8, 0x30#8] →
         exec (.serviceUnknownOpcode dt opcode) s = .next u) ∧
       (opcode ∉ [0x01#8, 0x02#8, 0x03#8, 0x10#8, 0x11#8, 0x12#8, 0x20#8, 0x21#8, 0x22#8, 0x30#8] →
         exec (.serviceUnknownOpcode dt opcode) s = .next { u with svc := { u.svc with
           answer := [0x05, crc8 [0x05]], wire := svcLine [opcode] (crc8 [opcode]) [0x05, crc8 [0x05]] } })) ∧
     exec (.serviceFrameAbort dt) s = .next u) ∧
  (∀ (dt : Nat) (s u : State), u = advance dt s → u.outOfReset = true →
     (u.svc.fuse = .intact → u.svc.opened = true →
       (∀ o : FlashOp, u.flash.op = some o → o.service = false →
         Does (.halt dt (crc8 [0x10])) s u [.leave, .core, .svc] fun t =>
           t.core = { u.core with haltOwed := true } ∧ t.svc.answer = [0x01, crc8 [0x01]]) ∧
       (u.flash.op = none → Does (.halt dt (crc8 [0x10])) s u [.chan, .leave, .core, .svc] fun t =>
         t.core = { u.core with halted := true } ∧ t.fwRuns = false ∧
           t.svc.changed = (u.core.halted && u.svc.changed) ∧ t.svc.answer = [0x01, crc8 [0x01]]) ∧
       (u.core.halted = true → u.svc.changed = false → exec (.resume dt (crc8 [0x11])) s = .next { u with
         core := { u.core with
           halted := false, restarting := some (u.core.restarting.getD u.clock), restartPc := none }
         svc := { u.svc with
           answer := [0x01, crc8 [0x01]], wire := svcLine [0x11] (crc8 [0x11]) [0x01, crc8 [0x01]] } }) ∧
       (Does (.reset dt (crc8 [0x12])) s u (touches (.reset dt 0)) fun t =>
         t.core = { Core.reset with heldTo := u.clock + 400000000 } ∧ t.keep.cause = 0x05 ∧ t.cab = .reset ∧ t.svc.answer = [0x01, crc8 [0x01]]) ∧
       (u.core.halted = true → u.svcBusy = false → u.leave.reqs.contains .service = false →
         u.leave.holding ≠ some .service →
         (∀ sector : BitVec 16, sector.toNat ≤ 0x17B →
           Does (.erase dt sector (crc8 (0x20 :: le 2 sector.toNat))) s u [.leave, .svc] fun t =>
             t.svc = { u.svc with
               waiting := some (.erase sector.toNat), verified := false, changed := true
               answer := [0x01, crc8 [0x01]]
               wire := svcLine (0x20 :: le 2 sector.toNat) (crc8 (0x20 :: le 2 sector.toNat)) [0x01, crc8 [0x01]] } ∧ t.leave.reqs = u.leave.reqs ++ [.service]) ∧
         (∀ (addr : BitVec 32) (data : List Byte), data.length = 256 → addr.toNat % 256 = 0 → addr.toNat < 0x17C000 →
           Does (.program dt addr data (crc8 (0x21 :: le 4 addr.toNat ++ data))) s u [.leave, .svc] fun t =>
             t.svc = { u.svc with
               waiting := some (.program addr.toNat data), verified := false, changed := true
               answer := [0x01, crc8 [0x01]]
               wire := svcLine (0x21 :: le 4 addr.toNat ++ data) (crc8 (0x21 :: le 4 addr.toNat ++ data))
                 [0x01, crc8 [0x01]] } ∧ t.leave.reqs = u.leave.reqs ++ [.service])) ∧
       (u.svc.verified = true → u.power.brace = false →
         exec (.blow dt 0xB1 (crc8 [0x30, 0xB1])) s = .next { u with svc := { u.svc with
           fuse := .driving, blowAt := u.clock, answer := [0x01, crc8 [0x01]]
           wire := svcLine [0x30, 0xB1] (crc8 [0x30, 0xB1]) [0x01, crc8 [0x01]] } })) ∧
     (u.svc.fuse = .driving →
       exec (.fuseBlowDone dt) s = .next
         (if 8000000000 ≤ u.clock - u.svc.blowAt then { u with svc := { u.svc with fuse := .blown } } else u)))
end

