-- ==== Sys2Proof/Laws/State.lean ====
section
/-! SUPPORT. One lemma for each field under each update, true by `rfl` and tagged `simp`, so that no proof unfolds a record
update; and the eight-channel and two-output families as arrays: what stands where after a write. -/

namespace Sys2Proof.Machine
open Sys2Proof

/-! ### The families -/

@[simp] theorem Per8.get_set_same {α : Type} (p : Per8 α) (n : Chan) (a : α) : (p.set n a).get n = a := by
  revert n; intro n; fin_cases n <;> rfl

theorem Per8.get_set_ne {α : Type} (p : Per8 α) (n m : Chan) (a : α) (h : m ≠ n) : (p.set n a).get m = p.get m := by
  fin_cases n <;> fin_cases m <;> first | rfl | exact absurd rfl h

@[simp] theorem Per8.get_const {α : Type} (a : α) (n : Chan) : (Per8.const a).get n = a := by fin_cases n <;> rfl

@[simp] theorem Per8.get_map {α β : Type} (p : Per8 α) (f : α → β) (n : Chan) : (p.map f).get n = f (p.get n) := by
  fin_cases n <;> rfl

/-- A map that changes no entry changes nothing. -/
theorem Per8.map_same {α : Type} (p : Per8 α) (f : α → α) (h : ∀ n : Chan, f (p.get n) = p.get n) : p.map f = p := by
  obtain ⟨a0, a1, a2, a3, a4, a5, a6, a7⟩ := p
  show Per8.mk _ _ _ _ _ _ _ _ = Per8.mk _ _ _ _ _ _ _ _
  congr 1
  exacts [h 0, h 1, h 2, h 3, h 4, h 5, h 6, h 7]

@[simp] theorem Per8.set_get {α : Type} (p : Per8 α) (n : Chan) : p.set n (p.get n) = p := by fin_cases n <;> rfl

/-- A write that keeps a field of the entry it replaces keeps that field of every entry. -/
theorem Per8.get_set_field {α β : Type} (g : α → β) (p : Per8 α) (n m : Chan) (a : α) (h : g a = g (p.get n)) :
    g ((p.set n a).get m) = g (p.get m) := by
  by_cases e : m = n
  · subst e; simpa using h
  · rw [Per8.get_set_ne p n m a e]

@[simp] theorem Per2.get_set_same {α : Type} (p : Per2 α) (n : OutNo) (a : α) : (p.set n a).get n = a := by
  fin_cases n <;> rfl

theorem Per2.get_set_ne {α : Type} (p : Per2 α) (n m : OutNo) (a : α) (h : m ≠ n) : (p.set n a).get m = p.get m := by
  fin_cases n <;> fin_cases m <;> first | rfl | exact absurd rfl h

@[simp] theorem Per2.get_const {α : Type} (a : α) (n : OutNo) : (Per2.const a).get n = a := by fin_cases n <;> rfl

@[simp] theorem State.when_true (s : State) (f : State → State) : s.when true f = f s := rfl

@[simp] theorem State.when_false (s : State) (f : State → State) : s.when false f = s := rfl

/-! ### Fields under updates -/

@[simp] theorem State.modChan_clock (s : State) (c : Chan) (f : Channel → Channel) : (s.modChan c f).clock = s.clock := rfl
@[simp] theorem State.modChan_free (s : State) (c : Chan) (f : Channel → Channel) : (s.modChan c f).free = s.free := rfl
@[simp] theorem State.modChan_pending (s : State) (c : Chan) (f : Channel → Channel) : (s.modChan c f).pending = s.pending := rfl
@[simp] theorem State.modChan_tb (s : State) (c : Chan) (f : Channel → Channel) : (s.modChan c f).tb = s.tb := rfl
@[simp] theorem State.modChan_keep (s : State) (c : Chan) (f : Channel → Channel) : (s.modChan c f).keep = s.keep := rfl
@[simp] theorem State.modChan_strap (s : State) (c : Chan) (f : Channel → Channel) : (s.modChan c f).strap = s.strap := rfl
@[simp] theorem State.modChan_chan (s : State) (c : Chan) (f : Channel → Channel) : (s.modChan c f).chan = s.chan.set c (f (s.chan.get c)) := rfl
@[simp] theorem State.modChan_stat (s : State) (c : Chan) (f : Channel → Channel) : (s.modChan c f).stat = s.stat := rfl
@[simp] theorem State.modChan_eng (s : State) (c : Chan) (f : Channel → Channel) : (s.modChan c f).eng = s.eng := rfl
@[simp] theorem State.modChan_chain (s : State) (c : Chan) (f : Channel → Channel) : (s.modChan c f).chain = s.chain := rfl
@[simp] theorem State.modChan_pack (s : State) (c : Chan) (f : Channel → Channel) : (s.modChan c f).pack = s.pack := rfl
@[simp] theorem State.modChan_sched (s : State) (c : Chan) (f : Channel → Channel) : (s.modChan c f).sched = s.sched := rfl
@[simp] theorem State.modChan_fol (s : State) (c : Chan) (f : Channel → Channel) : (s.modChan c f).fol = s.fol := rfl
@[simp] theorem State.modChan_cab (s : State) (c : Chan) (f : Channel → Channel) : (s.modChan c f).cab = s.cab := rfl
@[simp] theorem State.modChan_port (s : State) (c : Chan) (f : Channel → Channel) : (s.modChan c f).port = s.port := rfl
@[simp] theorem State.modChan_snap (s : State) (c : Chan) (f : Channel → Channel) : (s.modChan c f).snap = s.snap := rfl
@[simp] theorem State.modChan_ao (s : State) (c : Chan) (f : Channel → Channel) : (s.modChan c f).ao = s.ao := rfl
@[simp] theorem State.modChan_cal (s : State) (c : Chan) (f : Channel → Channel) : (s.modChan c f).cal = s.cal := rfl
@[simp] theorem State.modChan_flash (s : State) (c : Chan) (f : Channel → Channel) : (s.modChan c f).flash = s.flash := rfl
@[simp] theorem State.modChan_power (s : State) (c : Chan) (f : Channel → Channel) : (s.modChan c f).power = s.power := rfl
@[simp] theorem State.modChan_leave (s : State) (c : Chan) (f : Channel → Channel) : (s.modChan c f).leave = s.leave := rfl
@[simp] theorem State.modChan_core (s : State) (c : Chan) (f : Channel → Channel) : (s.modChan c f).core = s.core := rfl
@[simp] theorem State.modChan_faults (s : State) (c : Chan) (f : Channel → Channel) : (s.modChan c f).faults = s.faults := rfl
@[simp] theorem State.modChan_tether (s : State) (c : Chan) (f : Channel → Channel) : (s.modChan c f).tether = s.tether := rfl
@[simp] theorem State.modChan_svc (s : State) (c : Chan) (f : Channel → Channel) : (s.modChan c f).svc = s.svc := rfl
@[simp] theorem State.modChan_sens (s : State) (c : Chan) (f : Channel → Channel) : (s.modChan c f).sens = s.sens := rfl
@[simp] theorem State.modChan_seen (s : State) (c : Chan) (f : Channel → Channel) : (s.modChan c f).seen = s.seen := rfl

@[simp] theorem State.modStat_clock (s : State) (c : Chan) (f : Stat → Stat) : (s.modStat c f).clock = s.clock := rfl
@[simp] theorem State.modStat_free (s : State) (c : Chan) (f : Stat → Stat) : (s.modStat c f).free = s.free := rfl
@[simp] theorem State.modStat_pending (s : State) (c : Chan) (f : Stat → Stat) : (s.modStat c f).pending = s.pending := rfl
@[simp] theorem State.modStat_tb (s : State) (c : Chan) (f : Stat → Stat) : (s.modStat c f).tb = s.tb := rfl
@[simp] theorem State.modStat_keep (s : State) (c : Chan) (f : Stat → Stat) : (s.modStat c f).keep = s.keep := rfl
@[simp] theorem State.modStat_strap (s : State) (c : Chan) (f : Stat → Stat) : (s.modStat c f).strap = s.strap := rfl
@[simp] theorem State.modStat_chan (s : State) (c : Chan) (f : Stat → Stat) : (s.modStat c f).chan = s.chan := rfl
@[simp] theorem State.modStat_stat (s : State) (c : Chan) (f : Stat → Stat) : (s.modStat c f).stat = s.stat.set c (f (s.stat.get c)) := rfl
@[simp] theorem State.modStat_eng (s : State) (c : Chan) (f : Stat → Stat) : (s.modStat c f).eng = s.eng := rfl
@[simp] theorem State.modStat_chain (s : State) (c : Chan) (f : Stat → Stat) : (s.modStat c f).chain = s.chain := rfl
@[simp] theorem State.modStat_pack (s : State) (c : Chan) (f : Stat → Stat) : (s.modStat c f).pack = s.pack := rfl
@[simp] theorem State.modStat_sched (s : State) (c : Chan) (f : Stat → Stat) : (s.modStat c f).sched = s.sched := rfl
@[simp] theorem State.modStat_fol (s : State) (c : Chan) (f : Stat → Stat) : (s.modStat c f).fol = s.fol := rfl
@[simp] theorem State.modStat_cab (s : State) (c : Chan) (f : Stat → Stat) : (s.modStat c f).cab = s.cab := rfl
@[simp] theorem State.modStat_port (s : State) (c : Chan) (f : Stat → Stat) : (s.modStat c f).port = s.port := rfl
@[simp] theorem State.modStat_snap (s : State) (c : Chan) (f : Stat → Stat) : (s.modStat c f).snap = s.snap := rfl
@[simp] theorem State.modStat_ao (s : State) (c : Chan) (f : Stat → Stat) : (s.modStat c f).ao = s.ao := rfl
@[simp] theorem State.modStat_cal (s : State) (c : Chan) (f : Stat → Stat) : (s.modStat c f).cal = s.cal := rfl
@[simp] theorem State.modStat_flash (s : State) (c : Chan) (f : Stat → Stat) : (s.modStat c f).flash = s.flash := rfl
@[simp] theorem State.modStat_power (s : State) (c : Chan) (f : Stat → Stat) : (s.modStat c f).power = s.power := rfl
@[simp] theorem State.modStat_leave (s : State) (c : Chan) (f : Stat → Stat) : (s.modStat c f).leave = s.leave := rfl
@[simp] theorem State.modStat_core (s : State) (c : Chan) (f : Stat → Stat) : (s.modStat c f).core = s.core := rfl
@[simp] theorem State.modStat_faults (s : State) (c : Chan) (f : Stat → Stat) : (s.modStat c f).faults = s.faults := rfl
@[simp] theorem State.modStat_tether (s : State) (c : Chan) (f : Stat → Stat) : (s.modStat c f).tether = s.tether := rfl
@[simp] theorem State.modStat_svc (s : State) (c : Chan) (f : Stat → Stat) : (s.modStat c f).svc = s.svc := rfl
@[simp] theorem State.modStat_sens (s : State) (c : Chan) (f : Stat → Stat) : (s.modStat c f).sens = s.sens := rfl
@[simp] theorem State.modStat_seen (s : State) (c : Chan) (f : Stat → Stat) : (s.modStat c f).seen = s.seen := rfl

@[simp] theorem State.modOut_clock (s : State) (o : OutNo) (f : Output → Output) : (s.modOut o f).clock = s.clock := rfl
@[simp] theorem State.modOut_free (s : State) (o : OutNo) (f : Output → Output) : (s.modOut o f).free = s.free := rfl
@[simp] theorem State.modOut_pending (s : State) (o : OutNo) (f : Output → Output) : (s.modOut o f).pending = s.pending := rfl
@[simp] theorem State.modOut_tb (s : State) (o : OutNo) (f : Output → Output) : (s.modOut o f).tb = s.tb := rfl
@[simp] theorem State.modOut_keep (s : State) (o : OutNo) (f : Output → Output) : (s.modOut o f).keep = s.keep := rfl
@[simp] theorem State.modOut_strap (s : State) (o : OutNo) (f : Output → Output) : (s.modOut o f).strap = s.strap := rfl
@[simp] theorem State.modOut_chan (s : State) (o : OutNo) (f : Output → Output) : (s.modOut o f).chan = s.chan := rfl
@[simp] theorem State.modOut_stat (s : State) (o : OutNo) (f : Output → Output) : (s.modOut o f).stat = s.stat := rfl
@[simp] theorem State.modOut_eng (s : State) (o : OutNo) (f : Output → Output) : (s.modOut o f).eng = s.eng := rfl
@[simp] theorem State.modOut_chain (s : State) (o : OutNo) (f : Output → Output) : (s.modOut o f).chain = s.chain := rfl
@[simp] theorem State.modOut_pack (s : State) (o : OutNo) (f : Output → Output) : (s.modOut o f).pack = s.pack := rfl
@[simp] theorem State.modOut_sched (s : State) (o : OutNo) (f : Output → Output) : (s.modOut o f).sched = s.sched := rfl
@[simp] theorem State.modOut_fol (s : State) (o : OutNo) (f : Output → Output) : (s.modOut o f).fol = s.fol := rfl
@[simp] theorem State.modOut_cab (s : State) (o : OutNo) (f : Output → Output) : (s.modOut o f).cab = s.cab := rfl
@[simp] theorem State.modOut_port (s : State) (o : OutNo) (f : Output → Output) : (s.modOut o f).port = s.port := rfl
@[simp] theorem State.modOut_snap (s : State) (o : OutNo) (f : Output → Output) : (s.modOut o f).snap = s.snap := rfl
@[simp] theorem State.modOut_cal (s : State) (o : OutNo) (f : Output → Output) : (s.modOut o f).cal = s.cal := rfl
@[simp] theorem State.modOut_flash (s : State) (o : OutNo) (f : Output → Output) : (s.modOut o f).flash = s.flash := rfl
@[simp] theorem State.modOut_power (s : State) (o : OutNo) (f : Output → Output) : (s.modOut o f).power = s.power := rfl
@[simp] theorem State.modOut_leave (s : State) (o : OutNo) (f : Output → Output) : (s.modOut o f).leave = s.leave := rfl
@[simp] theorem State.modOut_core (s : State) (o : OutNo) (f : Output → Output) : (s.modOut o f).core = s.core := rfl
@[simp] theorem State.modOut_faults (s : State) (o : OutNo) (f : Output → Output) : (s.modOut o f).faults = s.faults := rfl
@[simp] theorem State.modOut_tether (s : State) (o : OutNo) (f : Output → Output) : (s.modOut o f).tether = s.tether := rfl
@[simp] theorem State.modOut_svc (s : State) (o : OutNo) (f : Output → Output) : (s.modOut o f).svc = s.svc := rfl
@[simp] theorem State.modOut_sens (s : State) (o : OutNo) (f : Output → Output) : (s.modOut o f).sens = s.sens := rfl
@[simp] theorem State.modOut_seen (s : State) (o : OutNo) (f : Output → Output) : (s.modOut o f).seen = s.seen := rfl

@[simp] theorem State.modLeave_clock (s : State) (f : Leave → Leave) : (s.modLeave f).clock = s.clock := rfl
@[simp] theorem State.modLeave_free (s : State) (f : Leave → Leave) : (s.modLeave f).free = s.free := rfl
@[simp] theorem State.modLeave_pending (s : State) (f : Leave → Leave) : (s.modLeave f).pending = s.pending := rfl
@[simp] theorem State.modLeave_tb (s : State) (f : Leave → Leave) : (s.modLeave f).tb = s.tb := rfl
@[simp] theorem State.modLeave_keep (s : State) (f : Leave → Leave) : (s.modLeave f).keep = s.keep := rfl
@[simp] theorem State.modLeave_strap (s : State) (f : Leave → Leave) : (s.modLeave f).strap = s.strap := rfl
@[simp] theorem State.modLeave_chan (s : State) (f : Leave → Leave) : (s.modLeave f).chan = s.chan := rfl
@[simp] theorem State.modLeave_stat (s : State) (f : Leave → Leave) : (s.modLeave f).stat = s.stat := rfl
@[simp] theorem State.modLeave_eng (s : State) (f : Leave → Leave) : (s.modLeave f).eng = s.eng := rfl
@[simp] theorem State.modLeave_chain (s : State) (f : Leave → Leave) : (s.modLeave f).chain = s.chain := rfl
@[simp] theorem State.modLeave_pack (s : State) (f : Leave → Leave) : (s.modLeave f).pack = s.pack := rfl
@[simp] theorem State.modLeave_sched (s : State) (f : Leave → Leave) : (s.modLeave f).sched = s.sched := rfl
@[simp] theorem State.modLeave_fol (s : State) (f : Leave → Leave) : (s.modLeave f).fol = s.fol := rfl
@[simp] theorem State.modLeave_cab (s : State) (f : Leave → Leave) : (s.modLeave f).cab = s.cab := rfl
@[simp] theorem State.modLeave_port (s : State) (f : Leave → Leave) : (s.modLeave f).port = s.port := rfl
@[simp] theorem State.modLeave_snap (s : State) (f : Leave → Leave) : (s.modLeave f).snap = s.snap := rfl
@[simp] theorem State.modLeave_ao (s : State) (f : Leave → Leave) : (s.modLeave f).ao = s.ao := rfl
@[simp] theorem State.modLeave_cal (s : State) (f : Leave → Leave) : (s.modLeave f).cal = s.cal := rfl
@[simp] theorem State.modLeave_flash (s : State) (f : Leave → Leave) : (s.modLeave f).flash = s.flash := rfl
@[simp] theorem State.modLeave_power (s : State) (f : Leave → Leave) : (s.modLeave f).power = s.power := rfl
@[simp] theorem State.modLeave_leave (s : State) (f : Leave → Leave) : (s.modLeave f).leave = f s.leave := rfl
@[simp] theorem State.modLeave_core (s : State) (f : Leave → Leave) : (s.modLeave f).core = s.core := rfl
@[simp] theorem State.modLeave_faults (s : State) (f : Leave → Leave) : (s.modLeave f).faults = s.faults := rfl
@[simp] theorem State.modLeave_tether (s : State) (f : Leave → Leave) : (s.modLeave f).tether = s.tether := rfl
@[simp] theorem State.modLeave_svc (s : State) (f : Leave → Leave) : (s.modLeave f).svc = s.svc := rfl
@[simp] theorem State.modLeave_sens (s : State) (f : Leave → Leave) : (s.modLeave f).sens = s.sens := rfl
@[simp] theorem State.modLeave_seen (s : State) (f : Leave → Leave) : (s.modLeave f).seen = s.seen := rfl

@[simp] theorem State.modFol_clock (s : State) (f : Follower → Follower) : (s.modFol f).clock = s.clock := rfl
@[simp] theorem State.modFol_free (s : State) (f : Follower → Follower) : (s.modFol f).free = s.free := rfl
@[simp] theorem State.modFol_pending (s : State) (f : Follower → Follower) : (s.modFol f).pending = s.pending := rfl
@[simp] theorem State.modFol_tb (s : State) (f : Follower → Follower) : (s.modFol f).tb = s.tb := rfl
@[simp] theorem State.modFol_keep (s : State) (f : Follower → Follower) : (s.modFol f).keep = s.keep := rfl
@[simp] theorem State.modFol_strap (s : State) (f : Follower → Follower) : (s.modFol f).strap = s.strap := rfl
@[simp] theorem State.modFol_chan (s : State) (f : Follower → Follower) : (s.modFol f).chan = s.chan := rfl
@[simp] theorem State.modFol_stat (s : State) (f : Follower → Follower) : (s.modFol f).stat = s.stat := rfl
@[simp] theorem State.modFol_eng (s : State) (f : Follower → Follower) : (s.modFol f).eng = s.eng := rfl
@[simp] theorem State.modFol_chain (s : State) (f : Follower → Follower) : (s.modFol f).chain = s.chain := rfl
@[simp] theorem State.modFol_pack (s : State) (f : Follower → Follower) : (s.modFol f).pack = s.pack := rfl
@[simp] theorem State.modFol_sched (s : State) (f : Follower → Follower) : (s.modFol f).sched = s.sched := rfl
@[simp] theorem State.modFol_fol (s : State) (f : Follower → Follower) : (s.modFol f).fol = f s.fol := rfl
@[simp] theorem State.modFol_cab (s : State) (f : Follower → Follower) : (s.modFol f).cab = s.cab := rfl
@[simp] theorem State.modFol_port (s : State) (f : Follower → Follower) : (s.modFol f).port = s.port := rfl
@[simp] theorem State.modFol_snap (s : State) (f : Follower → Follower) : (s.modFol f).snap = s.snap := rfl
@[simp] theorem State.modFol_ao (s : State) (f : Follower → Follower) : (s.modFol f).ao = s.ao := rfl
@[simp] theorem State.modFol_cal (s : State) (f : Follower → Follower) : (s.modFol f).cal = s.cal := rfl
@[simp] theorem State.modFol_flash (s : State) (f : Follower → Follower) : (s.modFol f).flash = s.flash := rfl
@[simp] theorem State.modFol_power (s : State) (f : Follower → Follower) : (s.modFol f).power = s.power := rfl
@[simp] theorem State.modFol_leave (s : State) (f : Follower → Follower) : (s.modFol f).leave = s.leave := rfl
@[simp] theorem State.modFol_core (s : State) (f : Follower → Follower) : (s.modFol f).core = s.core := rfl
@[simp] theorem State.modFol_faults (s : State) (f : Follower → Follower) : (s.modFol f).faults = s.faults := rfl
@[simp] theorem State.modFol_tether (s : State) (f : Follower → Follower) : (s.modFol f).tether = s.tether := rfl
@[simp] theorem State.modFol_svc (s : State) (f : Follower → Follower) : (s.modFol f).svc = s.svc := rfl
@[simp] theorem State.modFol_sens (s : State) (f : Follower → Follower) : (s.modFol f).sens = s.sens := rfl
@[simp] theorem State.modFol_seen (s : State) (f : Follower → Follower) : (s.modFol f).seen = s.seen := rfl

@[simp] theorem State.modPort_clock (s : State) (f : Stream → Stream) : (s.modPort f).clock = s.clock := rfl
@[simp] theorem State.modPort_free (s : State) (f : Stream → Stream) : (s.modPort f).free = s.free := rfl
@[simp] theorem State.modPort_pending (s : State) (f : Stream → Stream) : (s.modPort f).pending = s.pending := rfl
@[simp] theorem State.modPort_tb (s : State) (f : Stream → Stream) : (s.modPort f).tb = s.tb := rfl
@[simp] theorem State.modPort_keep (s : State) (f : Stream → Stream) : (s.modPort f).keep = s.keep := rfl
@[simp] theorem State.modPort_strap (s : State) (f : Stream → Stream) : (s.modPort f).strap = s.strap := rfl
@[simp] theorem State.modPort_chan (s : State) (f : Stream → Stream) : (s.modPort f).chan = s.chan := rfl
@[simp] theorem State.modPort_stat (s : State) (f : Stream → Stream) : (s.modPort f).stat = s.stat := rfl
@[simp] theorem State.modPort_eng (s : State) (f : Stream → Stream) : (s.modPort f).eng = s.eng := rfl
@[simp] theorem State.modPort_chain (s : State) (f : Stream → Stream) : (s.modPort f).chain = s.chain := rfl
@[simp] theorem State.modPort_pack (s : State) (f : Stream → Stream) : (s.modPort f).pack = s.pack := rfl
@[simp] theorem State.modPort_sched (s : State) (f : Stream → Stream) : (s.modPort f).sched = s.sched := rfl
@[simp] theorem State.modPort_fol (s : State) (f : Stream → Stream) : (s.modPort f).fol = s.fol := rfl
@[simp] theorem State.modPort_cab (s : State) (f : Stream → Stream) : (s.modPort f).cab = s.cab := rfl
@[simp] theorem State.modPort_port (s : State) (f : Stream → Stream) : (s.modPort f).port = f s.port := rfl
@[simp] theorem State.modPort_snap (s : State) (f : Stream → Stream) : (s.modPort f).snap = s.snap := rfl
@[simp] theorem State.modPort_ao (s : State) (f : Stream → Stream) : (s.modPort f).ao = s.ao := rfl
@[simp] theorem State.modPort_cal (s : State) (f : Stream → Stream) : (s.modPort f).cal = s.cal := rfl
@[simp] theorem State.modPort_flash (s : State) (f : Stream → Stream) : (s.modPort f).flash = s.flash := rfl
@[simp] theorem State.modPort_power (s : State) (f : Stream → Stream) : (s.modPort f).power = s.power := rfl
@[simp] theorem State.modPort_leave (s : State) (f : Stream → Stream) : (s.modPort f).leave = s.leave := rfl
@[simp] theorem State.modPort_core (s : State) (f : Stream → Stream) : (s.modPort f).core = s.core := rfl
@[simp] theorem State.modPort_faults (s : State) (f : Stream → Stream) : (s.modPort f).faults = s.faults := rfl
@[simp] theorem State.modPort_tether (s : State) (f : Stream → Stream) : (s.modPort f).tether = s.tether := rfl
@[simp] theorem State.modPort_svc (s : State) (f : Stream → Stream) : (s.modPort f).svc = s.svc := rfl
@[simp] theorem State.modPort_sens (s : State) (f : Stream → Stream) : (s.modPort f).sens = s.sens := rfl
@[simp] theorem State.modPort_seen (s : State) (f : Stream → Stream) : (s.modPort f).seen = s.seen := rfl

@[simp] theorem State.modSnap_clock (s : State) (f : Snap → Snap) : (s.modSnap f).clock = s.clock := rfl
@[simp] theorem State.modSnap_free (s : State) (f : Snap → Snap) : (s.modSnap f).free = s.free := rfl
@[simp] theorem State.modSnap_pending (s : State) (f : Snap → Snap) : (s.modSnap f).pending = s.pending := rfl
@[simp] theorem State.modSnap_tb (s : State) (f : Snap → Snap) : (s.modSnap f).tb = s.tb := rfl
@[simp] theorem State.modSnap_keep (s : State) (f : Snap → Snap) : (s.modSnap f).keep = s.keep := rfl
@[simp] theorem State.modSnap_strap (s : State) (f : Snap → Snap) : (s.modSnap f).strap = s.strap := rfl
@[simp] theorem State.modSnap_chan (s : State) (f : Snap → Snap) : (s.modSnap f).chan = s.chan := rfl
@[simp] theorem State.modSnap_stat (s : State) (f : Snap → Snap) : (s.modSnap f).stat = s.stat := rfl
@[simp] theorem State.modSnap_eng (s : State) (f : Snap → Snap) : (s.modSnap f).eng = s.eng := rfl
@[simp] theorem State.modSnap_chain (s : State) (f : Snap → Snap) : (s.modSnap f).chain = s.chain := rfl
@[simp] theorem State.modSnap_pack (s : State) (f : Snap → Snap) : (s.modSnap f).pack = s.pack := rfl
@[simp] theorem State.modSnap_sched (s : State) (f : Snap → Snap) : (s.modSnap f).sched = s.sched := rfl
@[simp] theorem State.modSnap_fol (s : State) (f : Snap → Snap) : (s.modSnap f).fol = s.fol := rfl
@[simp] theorem State.modSnap_cab (s : State) (f : Snap → Snap) : (s.modSnap f).cab = s.cab := rfl
@[simp] theorem State.modSnap_port (s : State) (f : Snap → Snap) : (s.modSnap f).port = s.port := rfl
@[simp] theorem State.modSnap_snap (s : State) (f : Snap → Snap) : (s.modSnap f).snap = f s.snap := rfl
@[simp] theorem State.modSnap_ao (s : State) (f : Snap → Snap) : (s.modSnap f).ao = s.ao := rfl
@[simp] theorem State.modSnap_cal (s : State) (f : Snap → Snap) : (s.modSnap f).cal = s.cal := rfl
@[simp] theorem State.modSnap_flash (s : State) (f : Snap → Snap) : (s.modSnap f).flash = s.flash := rfl
@[simp] theorem State.modSnap_power (s : State) (f : Snap → Snap) : (s.modSnap f).power = s.power := rfl
@[simp] theorem State.modSnap_leave (s : State) (f : Snap → Snap) : (s.modSnap f).leave = s.leave := rfl
@[simp] theorem State.modSnap_core (s : State) (f : Snap → Snap) : (s.modSnap f).core = s.core := rfl
@[simp] theorem State.modSnap_faults (s : State) (f : Snap → Snap) : (s.modSnap f).faults = s.faults := rfl
@[simp] theorem State.modSnap_tether (s : State) (f : Snap → Snap) : (s.modSnap f).tether = s.tether := rfl
@[simp] theorem State.modSnap_svc (s : State) (f : Snap → Snap) : (s.modSnap f).svc = s.svc := rfl
@[simp] theorem State.modSnap_sens (s : State) (f : Snap → Snap) : (s.modSnap f).sens = s.sens := rfl
@[simp] theorem State.modSnap_seen (s : State) (f : Snap → Snap) : (s.modSnap f).seen = s.seen := rfl

@[simp] theorem State.modTether_clock (s : State) (f : Tether → Tether) : (s.modTether f).clock = s.clock := rfl
@[simp] theorem State.modTether_free (s : State) (f : Tether → Tether) : (s.modTether f).free = s.free := rfl
@[simp] theorem State.modTether_pending (s : State) (f : Tether → Tether) : (s.modTether f).pending = s.pending := rfl
@[simp] theorem State.modTether_tb (s : State) (f : Tether → Tether) : (s.modTether f).tb = s.tb := rfl
@[simp] theorem State.modTether_keep (s : State) (f : Tether → Tether) : (s.modTether f).keep = s.keep := rfl
@[simp] theorem State.modTether_strap (s : State) (f : Tether → Tether) : (s.modTether f).strap = s.strap := rfl
@[simp] theorem State.modTether_chan (s : State) (f : Tether → Tether) : (s.modTether f).chan = s.chan := rfl
@[simp] theorem State.modTether_stat (s : State) (f : Tether → Tether) : (s.modTether f).stat = s.stat := rfl
@[simp] theorem State.modTether_eng (s : State) (f : Tether → Tether) : (s.modTether f).eng = s.eng := rfl
@[simp] theorem State.modTether_chain (s : State) (f : Tether → Tether) : (s.modTether f).chain = s.chain := rfl
@[simp] theorem State.modTether_pack (s : State) (f : Tether → Tether) : (s.modTether f).pack = s.pack := rfl
@[simp] theorem State.modTether_sched (s : State) (f : Tether → Tether) : (s.modTether f).sched = s.sched := rfl
@[simp] theorem State.modTether_fol (s : State) (f : Tether → Tether) : (s.modTether f).fol = s.fol := rfl
@[simp] theorem State.modTether_cab (s : State) (f : Tether → Tether) : (s.modTether f).cab = s.cab := rfl
@[simp] theorem State.modTether_port (s : State) (f : Tether → Tether) : (s.modTether f).port = s.port := rfl
@[simp] theorem State.modTether_snap (s : State) (f : Tether → Tether) : (s.modTether f).snap = s.snap := rfl
@[simp] theorem State.modTether_ao (s : State) (f : Tether → Tether) : (s.modTether f).ao = s.ao := rfl
@[simp] theorem State.modTether_cal (s : State) (f : Tether → Tether) : (s.modTether f).cal = s.cal := rfl
@[simp] theorem State.modTether_flash (s : State) (f : Tether → Tether) : (s.modTether f).flash = s.flash := rfl
@[simp] theorem State.modTether_power (s : State) (f : Tether → Tether) : (s.modTether f).power = s.power := rfl
@[simp] theorem State.modTether_leave (s : State) (f : Tether → Tether) : (s.modTether f).leave = s.leave := rfl
@[simp] theorem State.modTether_core (s : State) (f : Tether → Tether) : (s.modTether f).core = s.core := rfl
@[simp] theorem State.modTether_faults (s : State) (f : Tether → Tether) : (s.modTether f).faults = s.faults := rfl
@[simp] theorem State.modTether_tether (s : State) (f : Tether → Tether) : (s.modTether f).tether = f s.tether := rfl
@[simp] theorem State.modTether_svc (s : State) (f : Tether → Tether) : (s.modTether f).svc = s.svc := rfl
@[simp] theorem State.modTether_sens (s : State) (f : Tether → Tether) : (s.modTether f).sens = s.sens := rfl
@[simp] theorem State.modTether_seen (s : State) (f : Tether → Tether) : (s.modTether f).seen = s.seen := rfl

@[simp] theorem State.modSvc_clock (s : State) (f : Service → Service) : (s.modSvc f).clock = s.clock := rfl
@[simp] theorem State.modSvc_free (s : State) (f : Service → Service) : (s.modSvc f).free = s.free := rfl
@[simp] theorem State.modSvc_pending (s : State) (f : Service → Service) : (s.modSvc f).pending = s.pending := rfl
@[simp] theorem State.modSvc_tb (s : State) (f : Service → Service) : (s.modSvc f).tb = s.tb := rfl
@[simp] theorem State.modSvc_keep (s : State) (f : Service → Service) : (s.modSvc f).keep = s.keep := rfl
@[simp] theorem State.modSvc_strap (s : State) (f : Service → Service) : (s.modSvc f).strap = s.strap := rfl
@[simp] theorem State.modSvc_chan (s : State) (f : Service → Service) : (s.modSvc f).chan = s.chan := rfl
@[simp] theorem State.modSvc_stat (s : State) (f : Service → Service) : (s.modSvc f).stat = s.stat := rfl
@[simp] theorem State.modSvc_eng (s : State) (f : Service → Service) : (s.modSvc f).eng = s.eng := rfl
@[simp] theorem State.modSvc_chain (s : State) (f : Service → Service) : (s.modSvc f).chain = s.chain := rfl
@[simp] theorem State.modSvc_pack (s : State) (f : Service → Service) : (s.modSvc f).pack = s.pack := rfl
@[simp] theorem State.modSvc_sched (s : State) (f : Service → Service) : (s.modSvc f).sched = s.sched := rfl
@[simp] theorem State.modSvc_fol (s : State) (f : Service → Service) : (s.modSvc f).fol = s.fol := rfl
@[simp] theorem State.modSvc_cab (s : State) (f : Service → Service) : (s.modSvc f).cab = s.cab := rfl
@[simp] theorem State.modSvc_port (s : State) (f : Service → Service) : (s.modSvc f).port = s.port := rfl
@[simp] theorem State.modSvc_snap (s : State) (f : Service → Service) : (s.modSvc f).snap = s.snap := rfl
@[simp] theorem State.modSvc_ao (s : State) (f : Service → Service) : (s.modSvc f).ao = s.ao := rfl
@[simp] theorem State.modSvc_cal (s : State) (f : Service → Service) : (s.modSvc f).cal = s.cal := rfl
@[simp] theorem State.modSvc_flash (s : State) (f : Service → Service) : (s.modSvc f).flash = s.flash := rfl
@[simp] theorem State.modSvc_power (s : State) (f : Service → Service) : (s.modSvc f).power = s.power := rfl
@[simp] theorem State.modSvc_leave (s : State) (f : Service → Service) : (s.modSvc f).leave = s.leave := rfl
@[simp] theorem State.modSvc_core (s : State) (f : Service → Service) : (s.modSvc f).core = s.core := rfl
@[simp] theorem State.modSvc_faults (s : State) (f : Service → Service) : (s.modSvc f).faults = s.faults := rfl
@[simp] theorem State.modSvc_tether (s : State) (f : Service → Service) : (s.modSvc f).tether = s.tether := rfl
@[simp] theorem State.modSvc_svc (s : State) (f : Service → Service) : (s.modSvc f).svc = f s.svc := rfl
@[simp] theorem State.modSvc_sens (s : State) (f : Service → Service) : (s.modSvc f).sens = s.sens := rfl
@[simp] theorem State.modSvc_seen (s : State) (f : Service → Service) : (s.modSvc f).seen = s.seen := rfl

@[simp] theorem State.pass_clock (dt : Nat) (s : State) : (State.pass dt s).clock = s.clock + dt := rfl
@[simp] theorem State.pass_free (dt : Nat) (s : State) : (State.pass dt s).free = s.free := rfl
@[simp] theorem State.pass_pending (dt : Nat) (s : State) : (State.pass dt s).pending = s.pending := rfl
@[simp] theorem State.pass_tb (dt : Nat) (s : State) : (State.pass dt s).tb = if s.tb.epochSet then s.tb.move dt else s.tb := rfl
@[simp] theorem State.pass_keep (dt : Nat) (s : State) : (State.pass dt s).keep = s.keep := rfl
@[simp] theorem State.pass_strap (dt : Nat) (s : State) : (State.pass dt s).strap = s.strap := rfl
@[simp] theorem State.pass_chan (dt : Nat) (s : State) : (State.pass dt s).chan = s.chan := rfl
@[simp] theorem State.pass_stat (dt : Nat) (s : State) : (State.pass dt s).stat = s.stat := rfl
@[simp] theorem State.pass_eng (dt : Nat) (s : State) : (State.pass dt s).eng = s.eng := rfl
@[simp] theorem State.pass_chain (dt : Nat) (s : State) : (State.pass dt s).chain = s.chain := rfl
@[simp] theorem State.pass_pack (dt : Nat) (s : State) : (State.pass dt s).pack = s.pack := rfl
@[simp] theorem State.pass_sched (dt : Nat) (s : State) : (State.pass dt s).sched = s.sched := rfl
@[simp] theorem State.pass_fol (dt : Nat) (s : State) : (State.pass dt s).fol = s.fol := rfl
@[simp] theorem State.pass_cab (dt : Nat) (s : State) : (State.pass dt s).cab = s.cab := rfl
@[simp] theorem State.pass_port (dt : Nat) (s : State) : (State.pass dt s).port = s.port := rfl
@[simp] theorem State.pass_snap (dt : Nat) (s : State) : (State.pass dt s).snap = s.snap := rfl
@[simp] theorem State.pass_ao (dt : Nat) (s : State) : (State.pass dt s).ao = s.ao := rfl
@[simp] theorem State.pass_cal (dt : Nat) (s : State) : (State.pass dt s).cal = s.cal := rfl
@[simp] theorem State.pass_flash (dt : Nat) (s : State) : (State.pass dt s).flash = s.flash := rfl
@[simp] theorem State.pass_power (dt : Nat) (s : State) : (State.pass dt s).power = s.power := rfl
@[simp] theorem State.pass_leave (dt : Nat) (s : State) : (State.pass dt s).leave = s.leave := rfl
@[simp] theorem State.pass_core (dt : Nat) (s : State) : (State.pass dt s).core = s.core := rfl
@[simp] theorem State.pass_faults (dt : Nat) (s : State) : (State.pass dt s).faults = s.faults := rfl
@[simp] theorem State.pass_tether (dt : Nat) (s : State) : (State.pass dt s).tether = s.tether := rfl
@[simp] theorem State.pass_svc (dt : Nat) (s : State) : (State.pass dt s).svc = s.svc := rfl
@[simp] theorem State.pass_sens (dt : Nat) (s : State) : (State.pass dt s).sens = s.sens := rfl
@[simp] theorem State.pass_seen (dt : Nat) (s : State) : (State.pass dt s).seen = if s.cycle < s.cycleAt (s.clock + dt) then s.show else s.seen := rfl

@[simp] theorem State.flashProgram_clock (s : State) (x : Nat) (bs : List Byte) : (s.flashProgram x bs).clock = s.clock := rfl
@[simp] theorem State.flashProgram_free (s : State) (x : Nat) (bs : List Byte) : (s.flashProgram x bs).free = s.free := rfl
@[simp] theorem State.flashProgram_pending (s : State) (x : Nat) (bs : List Byte) : (s.flashProgram x bs).pending = s.pending := rfl
@[simp] theorem State.flashProgram_tb (s : State) (x : Nat) (bs : List Byte) : (s.flashProgram x bs).tb = s.tb := rfl
@[simp] theorem State.flashProgram_keep (s : State) (x : Nat) (bs : List Byte) : (s.flashProgram x bs).keep = s.keep := rfl
@[simp] theorem State.flashProgram_strap (s : State) (x : Nat) (bs : List Byte) : (s.flashProgram x bs).strap = s.strap := rfl
@[simp] theorem State.flashProgram_chan (s : State) (x : Nat) (bs : List Byte) : (s.flashProgram x bs).chan = s.chan := rfl
@[simp] theorem State.flashProgram_stat (s : State) (x : Nat) (bs : List Byte) : (s.flashProgram x bs).stat = s.stat := rfl
@[simp] theorem State.flashProgram_eng (s : State) (x : Nat) (bs : List Byte) : (s.flashProgram x bs).eng = s.eng := rfl
@[simp] theorem State.flashProgram_chain (s : State) (x : Nat) (bs : List Byte) : (s.flashProgram x bs).chain = s.chain := rfl
@[simp] theorem State.flashProgram_pack (s : State) (x : Nat) (bs : List Byte) : (s.flashProgram x bs).pack = s.pack := rfl
@[simp] theorem State.flashProgram_sched (s : State) (x : Nat) (bs : List Byte) : (s.flashProgram x bs).sched = s.sched := rfl
@[simp] theorem State.flashProgram_fol (s : State) (x : Nat) (bs : List Byte) : (s.flashProgram x bs).fol = s.fol := rfl
@[simp] theorem State.flashProgram_cab (s : State) (x : Nat) (bs : List Byte) : (s.flashProgram x bs).cab = s.cab := rfl
@[simp] theorem State.flashProgram_port (s : State) (x : Nat) (bs : List Byte) : (s.flashProgram x bs).port = s.port := rfl
@[simp] theorem State.flashProgram_snap (s : State) (x : Nat) (bs : List Byte) : (s.flashProgram x bs).snap = s.snap := rfl
@[simp] theorem State.flashProgram_ao (s : State) (x : Nat) (bs : List Byte) : (s.flashProgram x bs).ao = s.ao := rfl
@[simp] theorem State.flashProgram_cal (s : State) (x : Nat) (bs : List Byte) : (s.flashProgram x bs).cal = s.cal := rfl
@[simp] theorem State.flashProgram_power (s : State) (x : Nat) (bs : List Byte) : (s.flashProgram x bs).power = s.power := rfl
@[simp] theorem State.flashProgram_leave (s : State) (x : Nat) (bs : List Byte) : (s.flashProgram x bs).leave = s.leave := rfl
@[simp] theorem State.flashProgram_core (s : State) (x : Nat) (bs : List Byte) : (s.flashProgram x bs).core = s.core := rfl
@[simp] theorem State.flashProgram_faults (s : State) (x : Nat) (bs : List Byte) : (s.flashProgram x bs).faults = s.faults := rfl
@[simp] theorem State.flashProgram_tether (s : State) (x : Nat) (bs : List Byte) : (s.flashProgram x bs).tether = s.tether := rfl
@[simp] theorem State.flashProgram_svc (s : State) (x : Nat) (bs : List Byte) : (s.flashProgram x bs).svc = s.svc := rfl
@[simp] theorem State.flashProgram_sens (s : State) (x : Nat) (bs : List Byte) : (s.flashProgram x bs).sens = s.sens := rfl
@[simp] theorem State.flashProgram_seen (s : State) (x : Nat) (bs : List Byte) : (s.flashProgram x bs).seen = s.seen := rfl

@[simp] theorem State.flashEraseSector_clock (s : State) (p : Nat) : (s.flashEraseSector p).clock = s.clock := rfl
@[simp] theorem State.flashEraseSector_free (s : State) (p : Nat) : (s.flashEraseSector p).free = s.free := rfl
@[simp] theorem State.flashEraseSector_pending (s : State) (p : Nat) : (s.flashEraseSector p).pending = s.pending := rfl
@[simp] theorem State.flashEraseSector_tb (s : State) (p : Nat) : (s.flashEraseSector p).tb = s.tb := rfl
@[simp] theorem State.flashEraseSector_keep (s : State) (p : Nat) : (s.flashEraseSector p).keep = s.keep := rfl
@[simp] theorem State.flashEraseSector_strap (s : State) (p : Nat) : (s.flashEraseSector p).strap = s.strap := rfl
@[simp] theorem State.flashEraseSector_chan (s : State) (p : Nat) : (s.flashEraseSector p).chan = s.chan := rfl
@[simp] theorem State.flashEraseSector_stat (s : State) (p : Nat) : (s.flashEraseSector p).stat = s.stat := rfl
@[simp] theorem State.flashEraseSector_eng (s : State) (p : Nat) : (s.flashEraseSector p).eng = s.eng := rfl
@[simp] theorem State.flashEraseSector_chain (s : State) (p : Nat) : (s.flashEraseSector p).chain = s.chain := rfl
@[simp] theorem State.flashEraseSector_pack (s : State) (p : Nat) : (s.flashEraseSector p).pack = s.pack := rfl
@[simp] theorem State.flashEraseSector_sched (s : State) (p : Nat) : (s.flashEraseSector p).sched = s.sched := rfl
@[simp] theorem State.flashEraseSector_fol (s : State) (p : Nat) : (s.flashEraseSector p).fol = s.fol := rfl
@[simp] theorem State.flashEraseSector_cab (s : State) (p : Nat) : (s.flashEraseSector p).cab = s.cab := rfl
@[simp] theorem State.flashEraseSector_port (s : State) (p : Nat) : (s.flashEraseSector p).port = s.port := rfl
@[simp] theorem State.flashEraseSector_snap (s : State) (p : Nat) : (s.flashEraseSector p).snap = s.snap := rfl
@[simp] theorem State.flashEraseSector_ao (s : State) (p : Nat) : (s.flashEraseSector p).ao = s.ao := rfl
@[simp] theorem State.flashEraseSector_cal (s : State) (p : Nat) : (s.flashEraseSector p).cal = s.cal := rfl
@[simp] theorem State.flashEraseSector_power (s : State) (p : Nat) : (s.flashEraseSector p).power = s.power := rfl
@[simp] theorem State.flashEraseSector_leave (s : State) (p : Nat) : (s.flashEraseSector p).leave = s.leave := rfl
@[simp] theorem State.flashEraseSector_core (s : State) (p : Nat) : (s.flashEraseSector p).core = s.core := rfl
@[simp] theorem State.flashEraseSector_faults (s : State) (p : Nat) : (s.flashEraseSector p).faults = s.faults := rfl
@[simp] theorem State.flashEraseSector_tether (s : State) (p : Nat) : (s.flashEraseSector p).tether = s.tether := rfl
@[simp] theorem State.flashEraseSector_svc (s : State) (p : Nat) : (s.flashEraseSector p).svc = s.svc := rfl
@[simp] theorem State.flashEraseSector_sens (s : State) (p : Nat) : (s.flashEraseSector p).sens = s.sens := rfl
@[simp] theorem State.flashEraseSector_seen (s : State) (p : Nat) : (s.flashEraseSector p).seen = s.seen := rfl

@[simp] theorem State.fwMarkerItem_clock (s : State) (i : Item) : (s.fwMarkerItem i).clock = s.clock := rfl
@[simp] theorem State.fwMarkerItem_free (s : State) (i : Item) : (s.fwMarkerItem i).free = s.free := rfl
@[simp] theorem State.fwMarkerItem_pending (s : State) (i : Item) : (s.fwMarkerItem i).pending = s.pending := rfl
@[simp] theorem State.fwMarkerItem_tb (s : State) (i : Item) : (s.fwMarkerItem i).tb = s.tb := rfl
@[simp] theorem State.fwMarkerItem_keep (s : State) (i : Item) : (s.fwMarkerItem i).keep = s.keep := rfl
@[simp] theorem State.fwMarkerItem_strap (s : State) (i : Item) : (s.fwMarkerItem i).strap = s.strap := rfl
@[simp] theorem State.fwMarkerItem_chan (s : State) (i : Item) : (s.fwMarkerItem i).chan = s.chan := rfl
@[simp] theorem State.fwMarkerItem_stat (s : State) (i : Item) : (s.fwMarkerItem i).stat = s.stat := rfl
@[simp] theorem State.fwMarkerItem_eng (s : State) (i : Item) : (s.fwMarkerItem i).eng = s.eng := rfl
@[simp] theorem State.fwMarkerItem_pack (s : State) (i : Item) : (s.fwMarkerItem i).pack = s.pack := rfl
@[simp] theorem State.fwMarkerItem_sched (s : State) (i : Item) : (s.fwMarkerItem i).sched = s.sched := rfl
@[simp] theorem State.fwMarkerItem_fol (s : State) (i : Item) : (s.fwMarkerItem i).fol = s.fol := rfl
@[simp] theorem State.fwMarkerItem_cab (s : State) (i : Item) : (s.fwMarkerItem i).cab = s.cab := rfl
@[simp] theorem State.fwMarkerItem_port (s : State) (i : Item) : (s.fwMarkerItem i).port = s.port := rfl
@[simp] theorem State.fwMarkerItem_snap (s : State) (i : Item) : (s.fwMarkerItem i).snap = s.snap := rfl
@[simp] theorem State.fwMarkerItem_ao (s : State) (i : Item) : (s.fwMarkerItem i).ao = s.ao := rfl
@[simp] theorem State.fwMarkerItem_cal (s : State) (i : Item) : (s.fwMarkerItem i).cal = s.cal := rfl
@[simp] theorem State.fwMarkerItem_flash (s : State) (i : Item) : (s.fwMarkerItem i).flash = s.flash := rfl
@[simp] theorem State.fwMarkerItem_power (s : State) (i : Item) : (s.fwMarkerItem i).power = s.power := rfl
@[simp] theorem State.fwMarkerItem_leave (s : State) (i : Item) : (s.fwMarkerItem i).leave = s.leave := rfl
@[simp] theorem State.fwMarkerItem_core (s : State) (i : Item) : (s.fwMarkerItem i).core = s.core := rfl
@[simp] theorem State.fwMarkerItem_faults (s : State) (i : Item) : (s.fwMarkerItem i).faults = s.faults := rfl
@[simp] theorem State.fwMarkerItem_tether (s : State) (i : Item) : (s.fwMarkerItem i).tether = s.tether := rfl
@[simp] theorem State.fwMarkerItem_svc (s : State) (i : Item) : (s.fwMarkerItem i).svc = s.svc := rfl
@[simp] theorem State.fwMarkerItem_sens (s : State) (i : Item) : (s.fwMarkerItem i).sens = s.sens := rfl
@[simp] theorem State.fwMarkerItem_seen (s : State) (i : Item) : (s.fwMarkerItem i).seen = s.seen := rfl

@[simp] theorem State.hwMarker_clock (s : State) (st : Stitch) : (s.hwMarker st).clock = s.clock := rfl
@[simp] theorem State.hwMarker_free (s : State) (st : Stitch) : (s.hwMarker st).free = s.free := rfl
@[simp] theorem State.hwMarker_pending (s : State) (st : Stitch) : (s.hwMarker st).pending = s.pending := rfl
@[simp] theorem State.hwMarker_tb (s : State) (st : Stitch) : (s.hwMarker st).tb = s.tb := rfl
@[simp] theorem State.hwMarker_keep (s : State) (st : Stitch) : (s.hwMarker st).keep = s.keep := rfl
@[simp] theorem State.hwMarker_strap (s : State) (st : Stitch) : (s.hwMarker st).strap = s.strap := rfl
@[simp] theorem State.hwMarker_chan (s : State) (st : Stitch) : (s.hwMarker st).chan = s.chan := rfl
@[simp] theorem State.hwMarker_stat (s : State) (st : Stitch) : (s.hwMarker st).stat = s.stat := rfl
@[simp] theorem State.hwMarker_eng (s : State) (st : Stitch) : (s.hwMarker st).eng = s.eng := rfl
@[simp] theorem State.hwMarker_pack (s : State) (st : Stitch) : (s.hwMarker st).pack = s.pack := rfl
@[simp] theorem State.hwMarker_sched (s : State) (st : Stitch) : (s.hwMarker st).sched = s.sched := rfl
@[simp] theorem State.hwMarker_fol (s : State) (st : Stitch) : (s.hwMarker st).fol = s.fol := rfl
@[simp] theorem State.hwMarker_cab (s : State) (st : Stitch) : (s.hwMarker st).cab = s.cab := rfl
@[simp] theorem State.hwMarker_port (s : State) (st : Stitch) : (s.hwMarker st).port = s.port := rfl
@[simp] theorem State.hwMarker_snap (s : State) (st : Stitch) : (s.hwMarker st).snap = s.snap := rfl
@[simp] theorem State.hwMarker_ao (s : State) (st : Stitch) : (s.hwMarker st).ao = s.ao := rfl
@[simp] theorem State.hwMarker_cal (s : State) (st : Stitch) : (s.hwMarker st).cal = s.cal := rfl
@[simp] theorem State.hwMarker_flash (s : State) (st : Stitch) : (s.hwMarker st).flash = s.flash := rfl
@[simp] theorem State.hwMarker_power (s : State) (st : Stitch) : (s.hwMarker st).power = s.power := rfl
@[simp] theorem State.hwMarker_leave (s : State) (st : Stitch) : (s.hwMarker st).leave = s.leave := rfl
@[simp] theorem State.hwMarker_core (s : State) (st : Stitch) : (s.hwMarker st).core = s.core := rfl
@[simp] theorem State.hwMarker_faults (s : State) (st : Stitch) : (s.hwMarker st).faults = s.faults := rfl
@[simp] theorem State.hwMarker_tether (s : State) (st : Stitch) : (s.hwMarker st).tether = s.tether := rfl
@[simp] theorem State.hwMarker_svc (s : State) (st : Stitch) : (s.hwMarker st).svc = s.svc := rfl
@[simp] theorem State.hwMarker_sens (s : State) (st : Stitch) : (s.hwMarker st).sens = s.sens := rfl
@[simp] theorem State.hwMarker_seen (s : State) (st : Stitch) : (s.hwMarker st).seen = s.seen := rfl

@[simp] theorem State.flagGates_clock (s : State) (f : Gate → Gate) : (s.flagGates f).clock = s.clock := rfl
@[simp] theorem State.flagGates_free (s : State) (f : Gate → Gate) : (s.flagGates f).free = s.free := rfl
@[simp] theorem State.flagGates_pending (s : State) (f : Gate → Gate) : (s.flagGates f).pending = s.pending := rfl
@[simp] theorem State.flagGates_tb (s : State) (f : Gate → Gate) : (s.flagGates f).tb = s.tb := rfl
@[simp] theorem State.flagGates_keep (s : State) (f : Gate → Gate) : (s.flagGates f).keep = s.keep := rfl
@[simp] theorem State.flagGates_strap (s : State) (f : Gate → Gate) : (s.flagGates f).strap = s.strap := rfl
@[simp] theorem State.flagGates_chan (s : State) (f : Gate → Gate) : (s.flagGates f).chan = s.chan := rfl
@[simp] theorem State.flagGates_eng (s : State) (f : Gate → Gate) : (s.flagGates f).eng = s.eng := rfl
@[simp] theorem State.flagGates_chain (s : State) (f : Gate → Gate) : (s.flagGates f).chain = s.chain := rfl
@[simp] theorem State.flagGates_pack (s : State) (f : Gate → Gate) : (s.flagGates f).pack = s.pack := rfl
@[simp] theorem State.flagGates_sched (s : State) (f : Gate → Gate) : (s.flagGates f).sched = s.sched := rfl
@[simp] theorem State.flagGates_fol (s : State) (f : Gate → Gate) : (s.flagGates f).fol = s.fol := rfl
@[simp] theorem State.flagGates_cab (s : State) (f : Gate → Gate) : (s.flagGates f).cab = s.cab := rfl
@[simp] theorem State.flagGates_port (s : State) (f : Gate → Gate) : (s.flagGates f).port = s.port := rfl
@[simp] theorem State.flagGates_snap (s : State) (f : Gate → Gate) : (s.flagGates f).snap = s.snap := rfl
@[simp] theorem State.flagGates_ao (s : State) (f : Gate → Gate) : (s.flagGates f).ao = s.ao := rfl
@[simp] theorem State.flagGates_cal (s : State) (f : Gate → Gate) : (s.flagGates f).cal = s.cal := rfl
@[simp] theorem State.flagGates_flash (s : State) (f : Gate → Gate) : (s.flagGates f).flash = s.flash := rfl
@[simp] theorem State.flagGates_power (s : State) (f : Gate → Gate) : (s.flagGates f).power = s.power := rfl
@[simp] theorem State.flagGates_leave (s : State) (f : Gate → Gate) : (s.flagGates f).leave = s.leave := rfl
@[simp] theorem State.flagGates_core (s : State) (f : Gate → Gate) : (s.flagGates f).core = s.core := rfl
@[simp] theorem State.flagGates_faults (s : State) (f : Gate → Gate) : (s.flagGates f).faults = s.faults := rfl
@[simp] theorem State.flagGates_tether (s : State) (f : Gate → Gate) : (s.flagGates f).tether = s.tether := rfl
@[simp] theorem State.flagGates_svc (s : State) (f : Gate → Gate) : (s.flagGates f).svc = s.svc := rfl
@[simp] theorem State.flagGates_sens (s : State) (f : Gate → Gate) : (s.flagGates f).sens = s.sens := rfl
@[simp] theorem State.flagGates_seen (s : State) (f : Gate → Gate) : (s.flagGates f).seen = s.seen := rfl

@[simp] theorem State.occurs_clock (s : State) (code : Byte) : (s.occurs code).clock = s.clock := rfl
@[simp] theorem State.occurs_free (s : State) (code : Byte) : (s.occurs code).free = s.free := rfl
@[simp] theorem State.occurs_pending (s : State) (code : Byte) : (s.occurs code).pending = s.pending := rfl
@[simp] theorem State.occurs_tb (s : State) (code : Byte) : (s.occurs code).tb = s.tb := rfl
@[simp] theorem State.occurs_keep (s : State) (code : Byte) : (s.occurs code).keep = s.keep := rfl
@[simp] theorem State.occurs_strap (s : State) (code : Byte) : (s.occurs code).strap = s.strap := rfl
@[simp] theorem State.occurs_chan (s : State) (code : Byte) : (s.occurs code).chan = s.chan := rfl
@[simp] theorem State.occurs_stat (s : State) (code : Byte) : (s.occurs code).stat = s.stat := rfl
@[simp] theorem State.occurs_eng (s : State) (code : Byte) : (s.occurs code).eng = s.eng := rfl
@[simp] theorem State.occurs_chain (s : State) (code : Byte) : (s.occurs code).chain = s.chain := rfl
@[simp] theorem State.occurs_pack (s : State) (code : Byte) : (s.occurs code).pack = s.pack := rfl
@[simp] theorem State.occurs_sched (s : State) (code : Byte) : (s.occurs code).sched = s.sched := rfl
@[simp] theorem State.occurs_fol (s : State) (code : Byte) : (s.occurs code).fol = s.fol := rfl
@[simp] theorem State.occurs_cab (s : State) (code : Byte) : (s.occurs code).cab = s.cab := rfl
@[simp] theorem State.occurs_port (s : State) (code : Byte) : (s.occurs code).port = s.port := rfl
@[simp] theorem State.occurs_snap (s : State) (code : Byte) : (s.occurs code).snap = s.snap := rfl
@[simp] theorem State.occurs_ao (s : State) (code : Byte) : (s.occurs code).ao = s.ao := rfl
@[simp] theorem State.occurs_cal (s : State) (code : Byte) : (s.occurs code).cal = s.cal := rfl
@[simp] theorem State.occurs_flash (s : State) (code : Byte) : (s.occurs code).flash = s.flash := rfl
@[simp] theorem State.occurs_power (s : State) (code : Byte) : (s.occurs code).power = s.power := rfl
@[simp] theorem State.occurs_leave (s : State) (code : Byte) : (s.occurs code).leave = s.leave := rfl
@[simp] theorem State.occurs_core (s : State) (code : Byte) : (s.occurs code).core = s.core := rfl
@[simp] theorem State.occurs_tether (s : State) (code : Byte) : (s.occurs code).tether = s.tether := rfl
@[simp] theorem State.occurs_svc (s : State) (code : Byte) : (s.occurs code).svc = s.svc := rfl
@[simp] theorem State.occurs_sens (s : State) (code : Byte) : (s.occurs code).sens = s.sens := rfl
@[simp] theorem State.occurs_seen (s : State) (code : Byte) : (s.occurs code).seen = s.seen := rfl

@[simp] theorem State.event_clock (s : State) (code : Byte) (raised held : Bool) (time : BitVec 64) (subj : Byte) (a b : BitVec 32) : (s.event code raised held time subj a b).clock = s.clock := rfl
@[simp] theorem State.event_free (s : State) (code : Byte) (raised held : Bool) (time : BitVec 64) (subj : Byte) (a b : BitVec 32) : (s.event code raised held time subj a b).free = s.free := rfl
@[simp] theorem State.event_pending (s : State) (code : Byte) (raised held : Bool) (time : BitVec 64) (subj : Byte) (a b : BitVec 32) : (s.event code raised held time subj a b).pending = s.pending := rfl
@[simp] theorem State.event_tb (s : State) (code : Byte) (raised held : Bool) (time : BitVec 64) (subj : Byte) (a b : BitVec 32) : (s.event code raised held time subj a b).tb = s.tb := rfl
@[simp] theorem State.event_keep (s : State) (code : Byte) (raised held : Bool) (time : BitVec 64) (subj : Byte) (a b : BitVec 32) : (s.event code raised held time subj a b).keep = s.keep := rfl
@[simp] theorem State.event_strap (s : State) (code : Byte) (raised held : Bool) (time : BitVec 64) (subj : Byte) (a b : BitVec 32) : (s.event code raised held time subj a b).strap = s.strap := rfl
@[simp] theorem State.event_chan (s : State) (code : Byte) (raised held : Bool) (time : BitVec 64) (subj : Byte) (a b : BitVec 32) : (s.event code raised held time subj a b).chan = s.chan := rfl
@[simp] theorem State.event_stat (s : State) (code : Byte) (raised held : Bool) (time : BitVec 64) (subj : Byte) (a b : BitVec 32) : (s.event code raised held time subj a b).stat = s.stat := rfl
@[simp] theorem State.event_eng (s : State) (code : Byte) (raised held : Bool) (time : BitVec 64) (subj : Byte) (a b : BitVec 32) : (s.event code raised held time subj a b).eng = s.eng := rfl
@[simp] theorem State.event_chain (s : State) (code : Byte) (raised held : Bool) (time : BitVec 64) (subj : Byte) (a b : BitVec 32) : (s.event code raised held time subj a b).chain = s.chain := rfl
@[simp] theorem State.event_pack (s : State) (code : Byte) (raised held : Bool) (time : BitVec 64) (subj : Byte) (a b : BitVec 32) : (s.event code raised held time subj a b).pack = s.pack := rfl
@[simp] theorem State.event_sched (s : State) (code : Byte) (raised held : Bool) (time : BitVec 64) (subj : Byte) (a b : BitVec 32) : (s.event code raised held time subj a b).sched = s.sched := rfl
@[simp] theorem State.event_fol (s : State) (code : Byte) (raised held : Bool) (time : BitVec 64) (subj : Byte) (a b : BitVec 32) : (s.event code raised held time subj a b).fol = s.fol := rfl
@[simp] theorem State.event_cab (s : State) (code : Byte) (raised held : Bool) (time : BitVec 64) (subj : Byte) (a b : BitVec 32) : (s.event code raised held time subj a b).cab = s.cab := rfl
@[simp] theorem State.event_port (s : State) (code : Byte) (raised held : Bool) (time : BitVec 64) (subj : Byte) (a b : BitVec 32) : (s.event code raised held time subj a b).port = s.port := rfl
@[simp] theorem State.event_snap (s : State) (code : Byte) (raised held : Bool) (time : BitVec 64) (subj : Byte) (a b : BitVec 32) : (s.event code raised held time subj a b).snap = s.snap := rfl
@[simp] theorem State.event_ao (s : State) (code : Byte) (raised held : Bool) (time : BitVec 64) (subj : Byte) (a b : BitVec 32) : (s.event code raised held time subj a b).ao = s.ao := rfl
@[simp] theorem State.event_cal (s : State) (code : Byte) (raised held : Bool) (time : BitVec 64) (subj : Byte) (a b : BitVec 32) : (s.event code raised held time subj a b).cal = s.cal := rfl
@[simp] theorem State.event_flash (s : State) (code : Byte) (raised held : Bool) (time : BitVec 64) (subj : Byte) (a b : BitVec 32) : (s.event code raised held time subj a b).flash = s.flash := rfl
@[simp] theorem State.event_power (s : State) (code : Byte) (raised held : Bool) (time : BitVec 64) (subj : Byte) (a b : BitVec 32) : (s.event code raised held time subj a b).power = s.power := rfl
@[simp] theorem State.event_leave (s : State) (code : Byte) (raised held : Bool) (time : BitVec 64) (subj : Byte) (a b : BitVec 32) : (s.event code raised held time subj a b).leave = s.leave := rfl
@[simp] theorem State.event_core (s : State) (code : Byte) (raised held : Bool) (time : BitVec 64) (subj : Byte) (a b : BitVec 32) : (s.event code raised held time subj a b).core = s.core := rfl
@[simp] theorem State.event_tether (s : State) (code : Byte) (raised held : Bool) (time : BitVec 64) (subj : Byte) (a b : BitVec 32) : (s.event code raised held time subj a b).tether = s.tether := rfl
@[simp] theorem State.event_svc (s : State) (code : Byte) (raised held : Bool) (time : BitVec 64) (subj : Byte) (a b : BitVec 32) : (s.event code raised held time subj a b).svc = s.svc := rfl
@[simp] theorem State.event_sens (s : State) (code : Byte) (raised held : Bool) (time : BitVec 64) (subj : Byte) (a b : BitVec 32) : (s.event code raised held time subj a b).sens = s.sens := rfl
@[simp] theorem State.event_seen (s : State) (code : Byte) (raised held : Bool) (time : BitVec 64) (subj : Byte) (a b : BitVec 32) : (s.event code raised held time subj a b).seen = s.seen := rfl

@[simp] theorem State.logAt_clock (s : State) (code : Byte) (time : BitVec 64) (subj : Byte) (a b : BitVec 32) : (s.logAt code time subj a b).clock = s.clock := rfl
@[simp] theorem State.logAt_free (s : State) (code : Byte) (time : BitVec 64) (subj : Byte) (a b : BitVec 32) : (s.logAt code time subj a b).free = s.free := rfl
@[simp] theorem State.logAt_pending (s : State) (code : Byte) (time : BitVec 64) (subj : Byte) (a b : BitVec 32) : (s.logAt code time subj a b).pending = s.pending := rfl
@[simp] theorem State.logAt_tb (s : State) (code : Byte) (time : BitVec 64) (subj : Byte) (a b : BitVec 32) : (s.logAt code time subj a b).tb = s.tb := rfl
@[simp] theorem State.logAt_keep (s : State) (code : Byte) (time : BitVec 64) (subj : Byte) (a b : BitVec 32) : (s.logAt code time subj a b).keep = s.keep := rfl
@[simp] theorem State.logAt_strap (s : State) (code : Byte) (time : BitVec 64) (subj : Byte) (a b : BitVec 32) : (s.logAt code time subj a b).strap = s.strap := rfl
@[simp] theorem State.logAt_chan (s : State) (code : Byte) (time : BitVec 64) (subj : Byte) (a b : BitVec 32) : (s.logAt code time subj a b).chan = s.chan := rfl
@[simp] theorem State.logAt_stat (s : State) (code : Byte) (time : BitVec 64) (subj : Byte) (a b : BitVec 32) : (s.logAt code time subj a b).stat = s.stat := rfl
@[simp] theorem State.logAt_eng (s : State) (code : Byte) (time : BitVec 64) (subj : Byte) (a b : BitVec 32) : (s.logAt code time subj a b).eng = s.eng := rfl
@[simp] theorem State.logAt_chain (s : State) (code : Byte) (time : BitVec 64) (subj : Byte) (a b : BitVec 32) : (s.logAt code time subj a b).chain = s.chain := rfl
@[simp] theorem State.logAt_pack (s : State) (code : Byte) (time : BitVec 64) (subj : Byte) (a b : BitVec 32) : (s.logAt code time subj a b).pack = s.pack := rfl
@[simp] theorem State.logAt_sched (s : State) (code : Byte) (time : BitVec 64) (subj : Byte) (a b : BitVec 32) : (s.logAt code time subj a b).sched = s.sched := rfl
@[simp] theorem State.logAt_fol (s : State) (code : Byte) (time : BitVec 64) (subj : Byte) (a b : BitVec 32) : (s.logAt code time subj a b).fol = s.fol := rfl
@[simp] theorem State.logAt_cab (s : State) (code : Byte) (time : BitVec 64) (subj : Byte) (a b : BitVec 32) : (s.logAt code time subj a b).cab = s.cab := rfl
@[simp] theorem State.logAt_port (s : State) (code : Byte) (time : BitVec 64) (subj : Byte) (a b : BitVec 32) : (s.logAt code time subj a b).port = s.port := rfl
@[simp] theorem State.logAt_snap (s : State) (code : Byte) (time : BitVec 64) (subj : Byte) (a b : BitVec 32) : (s.logAt code time subj a b).snap = s.snap := rfl
@[simp] theorem State.logAt_ao (s : State) (code : Byte) (time : BitVec 64) (subj : Byte) (a b : BitVec 32) : (s.logAt code time subj a b).ao = s.ao := rfl
@[simp] theorem State.logAt_cal (s : State) (code : Byte) (time : BitVec 64) (subj : Byte) (a b : BitVec 32) : (s.logAt code time subj a b).cal = s.cal := rfl
@[simp] theorem State.logAt_flash (s : State) (code : Byte) (time : BitVec 64) (subj : Byte) (a b : BitVec 32) : (s.logAt code time subj a b).flash = s.flash := rfl
@[simp] theorem State.logAt_power (s : State) (code : Byte) (time : BitVec 64) (subj : Byte) (a b : BitVec 32) : (s.logAt code time subj a b).power = s.power := rfl
@[simp] theorem State.logAt_leave (s : State) (code : Byte) (time : BitVec 64) (subj : Byte) (a b : BitVec 32) : (s.logAt code time subj a b).leave = s.leave := rfl
@[simp] theorem State.logAt_core (s : State) (code : Byte) (time : BitVec 64) (subj : Byte) (a b : BitVec 32) : (s.logAt code time subj a b).core = s.core := rfl
@[simp] theorem State.logAt_tether (s : State) (code : Byte) (time : BitVec 64) (subj : Byte) (a b : BitVec 32) : (s.logAt code time subj a b).tether = s.tether := rfl
@[simp] theorem State.logAt_svc (s : State) (code : Byte) (time : BitVec 64) (subj : Byte) (a b : BitVec 32) : (s.logAt code time subj a b).svc = s.svc := rfl
@[simp] theorem State.logAt_sens (s : State) (code : Byte) (time : BitVec 64) (subj : Byte) (a b : BitVec 32) : (s.logAt code time subj a b).sens = s.sens := rfl
@[simp] theorem State.logAt_seen (s : State) (code : Byte) (time : BitVec 64) (subj : Byte) (a b : BitVec 32) : (s.logAt code time subj a b).seen = s.seen := rfl

@[simp] theorem State.occur_clock (s : State) (code : Byte) (n : Nat) : (s.occur code n).clock = s.clock := rfl
@[simp] theorem State.occur_free (s : State) (code : Byte) (n : Nat) : (s.occur code n).free = s.free := rfl
@[simp] theorem State.occur_pending (s : State) (code : Byte) (n : Nat) : (s.occur code n).pending = s.pending := rfl
@[simp] theorem State.occur_tb (s : State) (code : Byte) (n : Nat) : (s.occur code n).tb = s.tb := rfl
@[simp] theorem State.occur_keep (s : State) (code : Byte) (n : Nat) : (s.occur code n).keep = s.keep := rfl
@[simp] theorem State.occur_strap (s : State) (code : Byte) (n : Nat) : (s.occur code n).strap = s.strap := rfl
@[simp] theorem State.occur_chan (s : State) (code : Byte) (n : Nat) : (s.occur code n).chan = s.chan := rfl
@[simp] theorem State.occur_stat (s : State) (code : Byte) (n : Nat) : (s.occur code n).stat = s.stat := rfl
@[simp] theorem State.occur_eng (s : State) (code : Byte) (n : Nat) : (s.occur code n).eng = s.eng := rfl
@[simp] theorem State.occur_chain (s : State) (code : Byte) (n : Nat) : (s.occur code n).chain = s.chain := rfl
@[simp] theorem State.occur_pack (s : State) (code : Byte) (n : Nat) : (s.occur code n).pack = s.pack := rfl
@[simp] theorem State.occur_sched (s : State) (code : Byte) (n : Nat) : (s.occur code n).sched = s.sched := rfl
@[simp] theorem State.occur_fol (s : State) (code : Byte) (n : Nat) : (s.occur code n).fol = s.fol := rfl
@[simp] theorem State.occur_cab (s : State) (code : Byte) (n : Nat) : (s.occur code n).cab = s.cab := rfl
@[simp] theorem State.occur_port (s : State) (code : Byte) (n : Nat) : (s.occur code n).port = s.port := rfl
@[simp] theorem State.occur_snap (s : State) (code : Byte) (n : Nat) : (s.occur code n).snap = s.snap := rfl
@[simp] theorem State.occur_ao (s : State) (code : Byte) (n : Nat) : (s.occur code n).ao = s.ao := rfl
@[simp] theorem State.occur_cal (s : State) (code : Byte) (n : Nat) : (s.occur code n).cal = s.cal := rfl
@[simp] theorem State.occur_flash (s : State) (code : Byte) (n : Nat) : (s.occur code n).flash = s.flash := rfl
@[simp] theorem State.occur_power (s : State) (code : Byte) (n : Nat) : (s.occur code n).power = s.power := rfl
@[simp] theorem State.occur_leave (s : State) (code : Byte) (n : Nat) : (s.occur code n).leave = s.leave := rfl
@[simp] theorem State.occur_core (s : State) (code : Byte) (n : Nat) : (s.occur code n).core = s.core := rfl
@[simp] theorem State.occur_tether (s : State) (code : Byte) (n : Nat) : (s.occur code n).tether = s.tether := rfl
@[simp] theorem State.occur_svc (s : State) (code : Byte) (n : Nat) : (s.occur code n).svc = s.svc := rfl
@[simp] theorem State.occur_sens (s : State) (code : Byte) (n : Nat) : (s.occur code n).sens = s.sens := rfl
@[simp] theorem State.occur_seen (s : State) (code : Byte) (n : Nat) : (s.occur code n).seen = s.seen := rfl

@[simp] theorem State.log_clock (s : State) (code subj : Byte) (a b : BitVec 32) : (s.log code subj a b).clock = s.clock := rfl
@[simp] theorem State.log_free (s : State) (code subj : Byte) (a b : BitVec 32) : (s.log code subj a b).free = s.free := rfl
@[simp] theorem State.log_pending (s : State) (code subj : Byte) (a b : BitVec 32) : (s.log code subj a b).pending = s.pending := rfl
@[simp] theorem State.log_tb (s : State) (code subj : Byte) (a b : BitVec 32) : (s.log code subj a b).tb = s.tb := rfl
@[simp] theorem State.log_keep (s : State) (code subj : Byte) (a b : BitVec 32) : (s.log code subj a b).keep = s.keep := rfl
@[simp] theorem State.log_strap (s : State) (code subj : Byte) (a b : BitVec 32) : (s.log code subj a b).strap = s.strap := rfl
@[simp] theorem State.log_chan (s : State) (code subj : Byte) (a b : BitVec 32) : (s.log code subj a b).chan = s.chan := rfl
@[simp] theorem State.log_stat (s : State) (code subj : Byte) (a b : BitVec 32) : (s.log code subj a b).stat = s.stat := rfl
@[simp] theorem State.log_eng (s : State) (code subj : Byte) (a b : BitVec 32) : (s.log code subj a b).eng = s.eng := rfl
@[simp] theorem State.log_chain (s : State) (code subj : Byte) (a b : BitVec 32) : (s.log code subj a b).chain = s.chain := rfl
@[simp] theorem State.log_pack (s : State) (code subj : Byte) (a b : BitVec 32) : (s.log code subj a b).pack = s.pack := rfl
@[simp] theorem State.log_sched (s : State) (code subj : Byte) (a b : BitVec 32) : (s.log code subj a b).sched = s.sched := rfl
@[simp] theorem State.log_fol (s : State) (code subj : Byte) (a b : BitVec 32) : (s.log code subj a b).fol = s.fol := rfl
@[simp] theorem State.log_cab (s : State) (code subj : Byte) (a b : BitVec 32) : (s.log code subj a b).cab = s.cab := rfl
@[simp] theorem State.log_port (s : State) (code subj : Byte) (a b : BitVec 32) : (s.log code subj a b).port = s.port := rfl
@[simp] theorem State.log_snap (s : State) (code subj : Byte) (a b : BitVec 32) : (s.log code subj a b).snap = s.snap := rfl
@[simp] theorem State.log_ao (s : State) (code subj : Byte) (a b : BitVec 32) : (s.log code subj a b).ao = s.ao := rfl
@[simp] theorem State.log_cal (s : State) (code subj : Byte) (a b : BitVec 32) : (s.log code subj a b).cal = s.cal := rfl
@[simp] theorem State.log_flash (s : State) (code subj : Byte) (a b : BitVec 32) : (s.log code subj a b).flash = s.flash := rfl
@[simp] theorem State.log_power (s : State) (code subj : Byte) (a b : BitVec 32) : (s.log code subj a b).power = s.power := rfl
@[simp] theorem State.log_leave (s : State) (code subj : Byte) (a b : BitVec 32) : (s.log code subj a b).leave = s.leave := rfl
@[simp] theorem State.log_core (s : State) (code subj : Byte) (a b : BitVec 32) : (s.log code subj a b).core = s.core := rfl
@[simp] theorem State.log_tether (s : State) (code subj : Byte) (a b : BitVec 32) : (s.log code subj a b).tether = s.tether := rfl
@[simp] theorem State.log_svc (s : State) (code subj : Byte) (a b : BitVec 32) : (s.log code subj a b).svc = s.svc := rfl
@[simp] theorem State.log_sens (s : State) (code subj : Byte) (a b : BitVec 32) : (s.log code subj a b).sens = s.sens := rfl
@[simp] theorem State.log_seen (s : State) (code subj : Byte) (a b : BitVec 32) : (s.log code subj a b).seen = s.seen := rfl

end Sys2Proof.Machine
end

