-- ==== Sys2Proof/Laws/Frame.lean ====
section
/-! SUPPORT. Frames: for each operation, the parts of the state it may touch. `Same ps s t` says that `t` differs from `s` in
the parts `ps` at most; a proof about a command cites the frame of what the command calls and unfolds nothing. -/

namespace Sys2Proof.Machine
open Sys2Proof

theorem Same.refl (ps : List Part) (s : State) : Same ps s s := by
  intro p _; cases p <;> first | rfl | exact ⟨rfl, rfl, rfl⟩ | exact ⟨rfl, rfl⟩ | exact fun _ => rfl

theorem Part.agree_trans {p : Part} {s t u : State} (h : p.agree s t) (h' : p.agree t u) : p.agree s u := by
  cases p <;> first
    | exact Eq.trans h' h
    | exact fun n => (h' n).trans (h n)
    | exact ⟨h'.1.trans h.1, h'.2.1.trans h.2.1, h'.2.2.trans h.2.2⟩
    | exact ⟨h'.1.trans h.1, h'.2.trans h.2⟩

theorem Same.trans {ps : List Part} {s t u : State} (h : Same ps s t) (h' : Same ps t u) : Same ps s u :=
  fun p hp => Part.agree_trans (h p hp) (h' p hp)

/-- Every part of the first list is one of the second. -/
def Part.within (m ps : List Part) : Bool := m.all ps.contains

theorem Same.mono {m ps : List Part} {s t : State} (h : Same m s t) (hi : Part.within m ps = true) : Same ps s t := by
  intro p hp
  apply h p
  by_contra hc
  have hm : p ∈ m := by
    cases he : m.contains p with
    | true => exact List.contains_iff_mem.mp he
    | false => exact absurd he hc
  have := List.all_eq_true.mp hi p hm
  rw [this] at hp
  cases hp

/-- One operation more, within the list. -/
theorem Same.step {m ps : List Part} {s t u : State} (h' : Same m t u) (hi : Part.within m ps = true) (h : Same ps s t) :
    Same ps s u := h.trans (h'.mono hi)

/-- A record update more. -/
theorem Same.upd {ps : List Part} {s t u : State} (h' : ∀ p : Part, ps.contains p = false → p.agree t u) (h : Same ps s t) :
    Same ps s u := h.trans h'

theorem Same.eachChan {ps : List Part} {s t : State} {f : Chan → State → State} (hf : ∀ n t, Same ps t (f n t))
    (h : Same ps s t) : Same ps s (t.eachChan f) := by
  have : ∀ (l : List Chan) (u : State), Same ps s u → Same ps s (l.foldl (fun t c => f c t) u) := by
    intro l
    induction l with
    | nil => exact fun u h => h
    | cons a l ih => exact fun u h => ih _ (h.trans (hf a u))
  exact this Chan.all t h

theorem Same.eachOut {ps : List Part} {s t : State} {f : OutNo → State → State} (hf : ∀ n t, Same ps t (f n t))
    (h : Same ps s t) : Same ps s (t.eachOut f) := by
  have : ∀ (l : List OutNo) (u : State), Same ps s u → Same ps s (l.foldl (fun t c => f c t) u) := by
    intro l
    induction l with
    | nil => exact fun u h => h
    | cons a l ih => exact fun u h => ih _ (h.trans (hf a u))
  exact this OutNo.all t h

theorem Same.foldl {α : Type} {ps : List Part} {s t : State} {f : State → α → State} {l : List α}
    (hf : ∀ t a, Same ps t (f t a)) (h : Same ps s t) : Same ps s (l.foldl f t) := by
  induction l generalizing t with
  | nil => exact h
  | cons a l ih => exact ih (h.trans (hf t a))

theorem Same.when {ps : List Part} {s t : State} {b : Bool} {f : State → State} (hf : ∀ t, Same ps t (f t))
    (h : Same ps s t) : Same ps s (t.when b f) := by
  cases b
  · exact h
  · exact h.trans (hf t)

theorem Same.ite {c : Prop} {_ : Decidable c} {ps : List Part} {s a b : State} (ha : Same ps s a) (hb : Same ps s b) :
    Same ps s (if c then a else b) := by
  by_cases h : c
  · rw [if_pos h]; exact ha
  · rw [if_neg h]; exact hb

theorem Same.dite {c : Prop} {_ : Decidable c} {ps : List Part} {s : State} {a : c → State} {b : ¬c → State}
    (ha : ∀ h, Same ps s (a h)) (hb : ∀ h, Same ps s (b h)) : Same ps s (if h : c then a h else b h) := by
  by_cases h : c
  · rw [dif_pos h]; exact ha h
  · rw [dif_neg h]; exact hb h

theorem Same.ite_snd {c : Prop} {_ : Decidable c} {α : Type} {ps : List Part} {s : State} {a b : α × State}
    (ha : Same ps s a.2) (hb : Same ps s b.2) : Same ps s (if c then a else b).2 := by
  by_cases h : c
  · rw [if_pos h]; exact ha
  · rw [if_neg h]; exact hb

theorem Same.ite_snd2 {c : Prop} {_ : Decidable c} {α β : Type} {ps : List Part} {s : State} {a b : α × β × State}
    (ha : Same ps s a.2.2) (hb : Same ps s b.2.2) : Same ps s (if c then a else b).2.2 := by
  by_cases h : c
  · rw [if_pos h]; exact ha
  · rw [if_neg h]; exact hb

theorem Same.modChan {ps : List Part} {s t : State} {n : Chan} {f : Channel → Channel}
    (h1 : ps.contains .counts = true ∨ ∀ c, (f c).count = c.count) (h2 : ps.contains .yarns = true ∨ ∀ c, (f c).yarn = c.yarn)
    (hm : ps.contains .chan = true) (h : Same ps s t) : Same ps s (t.modChan n f) := by
  refine h.trans fun p hp => ?_
  cases p <;> first
    | exact rfl
    | exact ⟨rfl, rfl, rfl⟩
    | exact ⟨rfl, rfl⟩
    | exact absurd (hm.symm.trans hp) Bool.noConfusion
    | exact fun m => Per8.get_set_field Channel.count t.chan n m _
        (h1.resolve_left (fun e => absurd (e.symm.trans hp) Bool.noConfusion) _)
    | exact fun m => Per8.get_set_field Channel.yarn t.chan n m _
        (h2.resolve_left (fun e => absurd (e.symm.trans hp) Bool.noConfusion) _)

theorem Same.modSvc {ps : List Part} {s t : State} {f : Service → Service}
    (h1 : ps.contains .fuse = true ∨ ∀ v, (f v).fuse = v.fuse) (hm : ps.contains .svc = true) (h : Same ps s t) :
    Same ps s (t.modSvc f) := by
  refine h.trans fun p hp => ?_
  cases p <;> first
    | exact rfl
    | exact ⟨rfl, rfl, rfl⟩
    | exact ⟨rfl, rfl⟩
    | exact fun _ => rfl
    | exact absurd (hm.symm.trans hp) Bool.noConfusion
    | exact h1.resolve_left (fun e => absurd (e.symm.trans hp) Bool.noConfusion) _


theorem Same.upd_clock_tb_seen {ps : List Part} {s t : State} {v_clock : Nat} {v_tb : Timebase} {v_seen : Seen}
    (h_clock : ps.contains .clock = true) (h_tb : ps.contains .tb = true) (k_time : ps.contains .time = true ∨ (v_tb.time = t.tb.time ∧ v_tb.era = t.tb.era ∧ v_tb.wrapped = t.tb.wrapped)) (k_session : ps.contains .session = true ∨ (v_tb.session = t.tb.session ∧ v_tb.sessionValid = t.tb.sessionValid)) (h_seen : ps.contains .seen = true) (h : Same ps s t) :
    Same ps s { t with clock := v_clock, tb := v_tb, seen := v_seen } := by
  refine h.trans fun p hp => ?_
  cases p <;> first
    | exact rfl
    | exact ⟨rfl, rfl, rfl⟩
    | exact ⟨rfl, rfl⟩
    | exact fun _ => rfl
    | exact absurd (h_clock.symm.trans hp) Bool.noConfusion
    | exact absurd (h_tb.symm.trans hp) Bool.noConfusion
    | exact absurd (h_seen.symm.trans hp) Bool.noConfusion
    | exact k_time.resolve_left fun e => absurd (e.symm.trans hp) Bool.noConfusion
    | exact k_session.resolve_left fun e => absurd (e.symm.trans hp) Bool.noConfusion

theorem Same.upd_chan {ps : List Part} {s t : State} {v_chan : Per8 Channel}
    (h_chan : ps.contains .chan = true) (k_counts : ps.contains .counts = true ∨ (∀ n : Chan, (v_chan.get n).count = (t.chan.get n).count)) (k_yarns : ps.contains .yarns = true ∨ (∀ n : Chan, (v_chan.get n).yarn = (t.chan.get n).yarn)) (h : Same ps s t) :
    Same ps s { t with chan := v_chan } := by
  refine h.trans fun p hp => ?_
  cases p <;> first
    | exact rfl
    | exact ⟨rfl, rfl, rfl⟩
    | exact ⟨rfl, rfl⟩
    | exact fun _ => rfl
    | exact absurd (h_chan.symm.trans hp) Bool.noConfusion
    | exact k_counts.resolve_left fun e => absurd (e.symm.trans hp) Bool.noConfusion
    | exact k_yarns.resolve_left fun e => absurd (e.symm.trans hp) Bool.noConfusion

theorem Same.upd_stat {ps : List Part} {s t : State} {v_stat : Per8 Stat}
    (h_stat : ps.contains .stat = true) (h : Same ps s t) :
    Same ps s { t with stat := v_stat } := by
  refine h.trans fun p hp => ?_
  cases p <;> first
    | exact rfl
    | exact ⟨rfl, rfl, rfl⟩
    | exact ⟨rfl, rfl⟩
    | exact fun _ => rfl
    | exact absurd (h_stat.symm.trans hp) Bool.noConfusion

theorem Same.upd_ao {ps : List Part} {s t : State} {v_ao : AoDomain}
    (h_ao : ps.contains .ao = true) (h : Same ps s t) :
    Same ps s { t with ao := v_ao } := by
  refine h.trans fun p hp => ?_
  cases p <;> first
    | exact rfl
    | exact ⟨rfl, rfl, rfl⟩
    | exact ⟨rfl, rfl⟩
    | exact fun _ => rfl
    | exact absurd (h_ao.symm.trans hp) Bool.noConfusion

theorem Same.upd_cab {ps : List Part} {s t : State} {v_cab : Cabinet}
    (h_cab : ps.contains .cab = true) (h : Same ps s t) :
    Same ps s { t with cab := v_cab } := by
  refine h.trans fun p hp => ?_
  cases p <;> first
    | exact rfl
    | exact ⟨rfl, rfl, rfl⟩
    | exact ⟨rfl, rfl⟩
    | exact fun _ => rfl
    | exact absurd (h_cab.symm.trans hp) Bool.noConfusion

theorem Same.upd_free {ps : List Part} {s t : State} {v_free : Nat}
    (h_free : ps.contains .free = true) (h : Same ps s t) :
    Same ps s { t with free := v_free } := by
  refine h.trans fun p hp => ?_
  cases p <;> first
    | exact rfl
    | exact ⟨rfl, rfl, rfl⟩
    | exact ⟨rfl, rfl⟩
    | exact fun _ => rfl
    | exact absurd (h_free.symm.trans hp) Bool.noConfusion

theorem Same.upd_flash {ps : List Part} {s t : State} {v_flash : Flash}
    (h_flash : ps.contains .flash = true) (k_mem : ps.contains .mem = true ∨ (v_flash.mem = t.flash.mem)) (h : Same ps s t) :
    Same ps s { t with flash := v_flash } := by
  refine h.trans fun p hp => ?_
  cases p <;> first
    | exact rfl
    | exact ⟨rfl, rfl, rfl⟩
    | exact ⟨rfl, rfl⟩
    | exact fun _ => rfl
    | exact absurd (h_flash.symm.trans hp) Bool.noConfusion
    | exact k_mem.resolve_left fun e => absurd (e.symm.trans hp) Bool.noConfusion

theorem Same.upd_chain {ps : List Part} {s t : State} {v_chain : Chain}
    (h_chain : ps.contains .chain = true) (h : Same ps s t) :
    Same ps s { t with chain := v_chain } := by
  refine h.trans fun p hp => ?_
  cases p <;> first
    | exact rfl
    | exact ⟨rfl, rfl, rfl⟩
    | exact ⟨rfl, rfl⟩
    | exact fun _ => rfl
    | exact absurd (h_chain.symm.trans hp) Bool.noConfusion

theorem Same.upd_faults {ps : List Part} {s t : State} {v_faults : Faults}
    (h_faults : ps.contains .faults = true) (h : Same ps s t) :
    Same ps s { t with faults := v_faults } := by
  refine h.trans fun p hp => ?_
  cases p <;> first
    | exact rfl
    | exact ⟨rfl, rfl, rfl⟩
    | exact ⟨rfl, rfl⟩
    | exact fun _ => rfl
    | exact absurd (h_faults.symm.trans hp) Bool.noConfusion

theorem Same.upd_pack {ps : List Part} {s t : State} {v_pack : Packer}
    (h_pack : ps.contains .pack = true) (h : Same ps s t) :
    Same ps s { t with pack := v_pack } := by
  refine h.trans fun p hp => ?_
  cases p <;> first
    | exact rfl
    | exact ⟨rfl, rfl, rfl⟩
    | exact ⟨rfl, rfl⟩
    | exact fun _ => rfl
    | exact absurd (h_pack.symm.trans hp) Bool.noConfusion

theorem Same.upd_chain_pack {ps : List Part} {s t : State} {v_chain : Chain} {v_pack : Packer}
    (h_chain : ps.contains .chain = true) (h_pack : ps.contains .pack = true) (h : Same ps s t) :
    Same ps s { t with chain := v_chain, pack := v_pack } := by
  refine h.trans fun p hp => ?_
  cases p <;> first
    | exact rfl
    | exact ⟨rfl, rfl, rfl⟩
    | exact ⟨rfl, rfl⟩
    | exact fun _ => rfl
    | exact absurd (h_chain.symm.trans hp) Bool.noConfusion
    | exact absurd (h_pack.symm.trans hp) Bool.noConfusion

theorem Same.upd_eng_pack {ps : List Part} {s t : State} {v_eng : Engine} {v_pack : Packer}
    (h_eng : ps.contains .eng = true) (h_pack : ps.contains .pack = true) (h : Same ps s t) :
    Same ps s { t with eng := v_eng, pack := v_pack } := by
  refine h.trans fun p hp => ?_
  cases p <;> first
    | exact rfl
    | exact ⟨rfl, rfl, rfl⟩
    | exact ⟨rfl, rfl⟩
    | exact fun _ => rfl
    | exact absurd (h_eng.symm.trans hp) Bool.noConfusion
    | exact absurd (h_pack.symm.trans hp) Bool.noConfusion

theorem Same.upd_port {ps : List Part} {s t : State} {v_port : Stream}
    (h_port : ps.contains .port = true) (h : Same ps s t) :
    Same ps s { t with port := v_port } := by
  refine h.trans fun p hp => ?_
  cases p <;> first
    | exact rfl
    | exact ⟨rfl, rfl, rfl⟩
    | exact ⟨rfl, rfl⟩
    | exact fun _ => rfl
    | exact absurd (h_port.symm.trans hp) Bool.noConfusion

theorem Same.upd_fol {ps : List Part} {s t : State} {v_fol : Follower}
    (h_fol : ps.contains .fol = true) (h : Same ps s t) :
    Same ps s { t with fol := v_fol } := by
  refine h.trans fun p hp => ?_
  cases p <;> first
    | exact rfl
    | exact ⟨rfl, rfl, rfl⟩
    | exact ⟨rfl, rfl⟩
    | exact fun _ => rfl
    | exact absurd (h_fol.symm.trans hp) Bool.noConfusion

theorem Same.upd_sched {ps : List Part} {s t : State} {v_sched : Sched}
    (h_sched : ps.contains .sched = true) (h : Same ps s t) :
    Same ps s { t with sched := v_sched } := by
  refine h.trans fun p hp => ?_
  cases p <;> first
    | exact rfl
    | exact ⟨rfl, rfl, rfl⟩
    | exact ⟨rfl, rfl⟩
    | exact fun _ => rfl
    | exact absurd (h_sched.symm.trans hp) Bool.noConfusion

theorem Same.upd_eng {ps : List Part} {s t : State} {v_eng : Engine}
    (h_eng : ps.contains .eng = true) (h : Same ps s t) :
    Same ps s { t with eng := v_eng } := by
  refine h.trans fun p hp => ?_
  cases p <;> first
    | exact rfl
    | exact ⟨rfl, rfl, rfl⟩
    | exact ⟨rfl, rfl⟩
    | exact fun _ => rfl
    | exact absurd (h_eng.symm.trans hp) Bool.noConfusion

theorem Same.upd_leave {ps : List Part} {s t : State} {v_leave : Leave}
    (h_leave : ps.contains .leave = true) (h : Same ps s t) :
    Same ps s { t with leave := v_leave } := by
  refine h.trans fun p hp => ?_
  cases p <;> first
    | exact rfl
    | exact ⟨rfl, rfl, rfl⟩
    | exact ⟨rfl, rfl⟩
    | exact fun _ => rfl
    | exact absurd (h_leave.symm.trans hp) Bool.noConfusion

theorem Same.upd_flash_svc {ps : List Part} {s t : State} {v_flash : Flash} {v_svc : Service}
    (h_flash : ps.contains .flash = true) (k_mem : ps.contains .mem = true ∨ (v_flash.mem = t.flash.mem)) (h_svc : ps.contains .svc = true) (k_fuse : ps.contains .fuse = true ∨ (v_svc.fuse = t.svc.fuse)) (h : Same ps s t) :
    Same ps s { t with flash := v_flash, svc := v_svc } := by
  refine h.trans fun p hp => ?_
  cases p <;> first
    | exact rfl
    | exact ⟨rfl, rfl, rfl⟩
    | exact ⟨rfl, rfl⟩
    | exact fun _ => rfl
    | exact absurd (h_flash.symm.trans hp) Bool.noConfusion
    | exact absurd (h_svc.symm.trans hp) Bool.noConfusion
    | exact k_mem.resolve_left fun e => absurd (e.symm.trans hp) Bool.noConfusion
    | exact k_fuse.resolve_left fun e => absurd (e.symm.trans hp) Bool.noConfusion

theorem Same.upd_cal_core {ps : List Part} {s t : State} {v_cal : Cal} {v_core : Core}
    (h_cal : ps.contains .cal = true) (h_core : ps.contains .core = true) (h : Same ps s t) :
    Same ps s { t with cal := v_cal, core := v_core } := by
  refine h.trans fun p hp => ?_
  cases p <;> first
    | exact rfl
    | exact ⟨rfl, rfl, rfl⟩
    | exact ⟨rfl, rfl⟩
    | exact fun _ => rfl
    | exact absurd (h_cal.symm.trans hp) Bool.noConfusion
    | exact absurd (h_core.symm.trans hp) Bool.noConfusion

theorem Same.upd_cal {ps : List Part} {s t : State} {v_cal : Cal}
    (h_cal : ps.contains .cal = true) (h : Same ps s t) :
    Same ps s { t with cal := v_cal } := by
  refine h.trans fun p hp => ?_
  cases p <;> first
    | exact rfl
    | exact ⟨rfl, rfl, rfl⟩
    | exact ⟨rfl, rfl⟩
    | exact fun _ => rfl
    | exact absurd (h_cal.symm.trans hp) Bool.noConfusion

theorem Same.upd_ao_cal {ps : List Part} {s t : State} {v_ao : AoDomain} {v_cal : Cal}
    (h_ao : ps.contains .ao = true) (h_cal : ps.contains .cal = true) (h : Same ps s t) :
    Same ps s { t with ao := v_ao, cal := v_cal } := by
  refine h.trans fun p hp => ?_
  cases p <;> first
    | exact rfl
    | exact ⟨rfl, rfl, rfl⟩
    | exact ⟨rfl, rfl⟩
    | exact fun _ => rfl
    | exact absurd (h_ao.symm.trans hp) Bool.noConfusion
    | exact absurd (h_cal.symm.trans hp) Bool.noConfusion

theorem Same.upd_core {ps : List Part} {s t : State} {v_core : Core}
    (h_core : ps.contains .core = true) (h : Same ps s t) :
    Same ps s { t with core := v_core } := by
  refine h.trans fun p hp => ?_
  cases p <;> first
    | exact rfl
    | exact ⟨rfl, rfl, rfl⟩
    | exact ⟨rfl, rfl⟩
    | exact fun _ => rfl
    | exact absurd (h_core.symm.trans hp) Bool.noConfusion

theorem Same.upd_snap {ps : List Part} {s t : State} {v_snap : Snap}
    (h_snap : ps.contains .snap = true) (h : Same ps s t) :
    Same ps s { t with snap := v_snap } := by
  refine h.trans fun p hp => ?_
  cases p <;> first
    | exact rfl
    | exact ⟨rfl, rfl, rfl⟩
    | exact ⟨rfl, rfl⟩
    | exact fun _ => rfl
    | exact absurd (h_snap.symm.trans hp) Bool.noConfusion

theorem Same.upd_cab_cal_sens {ps : List Part} {s t : State} {v_cab : Cabinet} {v_cal : Cal} {v_sens : Sensors}
    (h_cab : ps.contains .cab = true) (h_cal : ps.contains .cal = true) (h_sens : ps.contains .sens = true) (h : Same ps s t) :
    Same ps s { t with cab := v_cab, cal := v_cal, sens := v_sens } := by
  refine h.trans fun p hp => ?_
  cases p <;> first
    | exact rfl
    | exact ⟨rfl, rfl, rfl⟩
    | exact ⟨rfl, rfl⟩
    | exact fun _ => rfl
    | exact absurd (h_cab.symm.trans hp) Bool.noConfusion
    | exact absurd (h_cal.symm.trans hp) Bool.noConfusion
    | exact absurd (h_sens.symm.trans hp) Bool.noConfusion

theorem Same.upd_sens {ps : List Part} {s t : State} {v_sens : Sensors}
    (h_sens : ps.contains .sens = true) (h : Same ps s t) :
    Same ps s { t with sens := v_sens } := by
  refine h.trans fun p hp => ?_
  cases p <;> first
    | exact rfl
    | exact ⟨rfl, rfl, rfl⟩
    | exact ⟨rfl, rfl⟩
    | exact fun _ => rfl
    | exact absurd (h_sens.symm.trans hp) Bool.noConfusion

theorem Same.upd_cab_port {ps : List Part} {s t : State} {v_cab : Cabinet} {v_port : Stream}
    (h_cab : ps.contains .cab = true) (h_port : ps.contains .port = true) (h : Same ps s t) :
    Same ps s { t with cab := v_cab, port := v_port } := by
  refine h.trans fun p hp => ?_
  cases p <;> first
    | exact rfl
    | exact ⟨rfl, rfl, rfl⟩
    | exact ⟨rfl, rfl⟩
    | exact fun _ => rfl
    | exact absurd (h_cab.symm.trans hp) Bool.noConfusion
    | exact absurd (h_port.symm.trans hp) Bool.noConfusion

theorem Same.upd_chain_cab_port {ps : List Part} {s t : State} {v_chain : Chain} {v_cab : Cabinet} {v_port : Stream}
    (h_chain : ps.contains .chain = true) (h_cab : ps.contains .cab = true) (h_port : ps.contains .port = true) (h : Same ps s t) :
    Same ps s { t with chain := v_chain, cab := v_cab, port := v_port } := by
  refine h.trans fun p hp => ?_
  cases p <;> first
    | exact rfl
    | exact ⟨rfl, rfl, rfl⟩
    | exact ⟨rfl, rfl⟩
    | exact fun _ => rfl
    | exact absurd (h_chain.symm.trans hp) Bool.noConfusion
    | exact absurd (h_cab.symm.trans hp) Bool.noConfusion
    | exact absurd (h_port.symm.trans hp) Bool.noConfusion

theorem Same.upd_power {ps : List Part} {s t : State} {v_power : Power}
    (h_power : ps.contains .power = true) (h : Same ps s t) :
    Same ps s { t with power := v_power } := by
  refine h.trans fun p hp => ?_
  cases p <;> first
    | exact rfl
    | exact ⟨rfl, rfl, rfl⟩
    | exact ⟨rfl, rfl⟩
    | exact fun _ => rfl
    | exact absurd (h_power.symm.trans hp) Bool.noConfusion

theorem Same.upd_strap_core {ps : List Part} {s t : State} {v_strap : Strap} {v_core : Core}
    (h_strap : ps.contains .strap = true) (h_core : ps.contains .core = true) (h : Same ps s t) :
    Same ps s { t with strap := v_strap, core := v_core } := by
  refine h.trans fun p hp => ?_
  cases p <;> first
    | exact rfl
    | exact ⟨rfl, rfl, rfl⟩
    | exact ⟨rfl, rfl⟩
    | exact fun _ => rfl
    | exact absurd (h_strap.symm.trans hp) Bool.noConfusion
    | exact absurd (h_core.symm.trans hp) Bool.noConfusion

theorem Same.upd_cab_core_svc {ps : List Part} {s t : State} {v_cab : Cabinet} {v_core : Core} {v_svc : Service}
    (h_cab : ps.contains .cab = true) (h_core : ps.contains .core = true) (h_svc : ps.contains .svc = true) (k_fuse : ps.contains .fuse = true ∨ (v_svc.fuse = t.svc.fuse)) (h : Same ps s t) :
    Same ps s { t with cab := v_cab, core := v_core, svc := v_svc } := by
  refine h.trans fun p hp => ?_
  cases p <;> first
    | exact rfl
    | exact ⟨rfl, rfl, rfl⟩
    | exact ⟨rfl, rfl⟩
    | exact fun _ => rfl
    | exact absurd (h_cab.symm.trans hp) Bool.noConfusion
    | exact absurd (h_core.symm.trans hp) Bool.noConfusion
    | exact absurd (h_svc.symm.trans hp) Bool.noConfusion
    | exact k_fuse.resolve_left fun e => absurd (e.symm.trans hp) Bool.noConfusion

theorem Same.upd_fol_port_snap_flash_core {ps : List Part} {s t : State} {v_fol : Follower} {v_port : Stream} {v_snap : Snap} {v_flash : Flash} {v_core : Core}
    (h_fol : ps.contains .fol = true) (h_port : ps.contains .port = true) (h_snap : ps.contains .snap = true) (h_flash : ps.contains .flash = true) (k_mem : ps.contains .mem = true ∨ (v_flash.mem = t.flash.mem)) (h_core : ps.contains .core = true) (h : Same ps s t) :
    Same ps s { t with fol := v_fol, port := v_port, snap := v_snap, flash := v_flash, core := v_core } := by
  refine h.trans fun p hp => ?_
  cases p <;> first
    | exact rfl
    | exact ⟨rfl, rfl, rfl⟩
    | exact ⟨rfl, rfl⟩
    | exact fun _ => rfl
    | exact absurd (h_fol.symm.trans hp) Bool.noConfusion
    | exact absurd (h_port.symm.trans hp) Bool.noConfusion
    | exact absurd (h_snap.symm.trans hp) Bool.noConfusion
    | exact absurd (h_flash.symm.trans hp) Bool.noConfusion
    | exact absurd (h_core.symm.trans hp) Bool.noConfusion
    | exact k_mem.resolve_left fun e => absurd (e.symm.trans hp) Bool.noConfusion

theorem Same.upd_strap {ps : List Part} {s t : State} {v_strap : Strap}
    (h_strap : ps.contains .strap = true) (h : Same ps s t) :
    Same ps s { t with strap := v_strap } := by
  refine h.trans fun p hp => ?_
  cases p <;> first
    | exact rfl
    | exact ⟨rfl, rfl, rfl⟩
    | exact ⟨rfl, rfl⟩
    | exact fun _ => rfl
    | exact absurd (h_strap.symm.trans hp) Bool.noConfusion

theorem Same.upd_tb_keep_core {ps : List Part} {s t : State} {v_tb : Timebase} {v_keep : Keep} {v_core : Core}
    (h_tb : ps.contains .tb = true) (k_time : ps.contains .time = true ∨ (v_tb.time = t.tb.time ∧ v_tb.era = t.tb.era ∧ v_tb.wrapped = t.tb.wrapped)) (k_session : ps.contains .session = true ∨ (v_tb.session = t.tb.session ∧ v_tb.sessionValid = t.tb.sessionValid)) (h_keep : ps.contains .keep = true) (h_core : ps.contains .core = true) (h : Same ps s t) :
    Same ps s { t with tb := v_tb, keep := v_keep, core := v_core } := by
  refine h.trans fun p hp => ?_
  cases p <;> first
    | exact rfl
    | exact ⟨rfl, rfl, rfl⟩
    | exact ⟨rfl, rfl⟩
    | exact fun _ => rfl
    | exact absurd (h_tb.symm.trans hp) Bool.noConfusion
    | exact absurd (h_keep.symm.trans hp) Bool.noConfusion
    | exact absurd (h_core.symm.trans hp) Bool.noConfusion
    | exact k_time.resolve_left fun e => absurd (e.symm.trans hp) Bool.noConfusion
    | exact k_session.resolve_left fun e => absurd (e.symm.trans hp) Bool.noConfusion

theorem Same.upd_tb_core {ps : List Part} {s t : State} {v_tb : Timebase} {v_core : Core}
    (h_tb : ps.contains .tb = true) (k_time : ps.contains .time = true ∨ (v_tb.time = t.tb.time ∧ v_tb.era = t.tb.era ∧ v_tb.wrapped = t.tb.wrapped)) (k_session : ps.contains .session = true ∨ (v_tb.session = t.tb.session ∧ v_tb.sessionValid = t.tb.sessionValid)) (h_core : ps.contains .core = true) (h : Same ps s t) :
    Same ps s { t with tb := v_tb, core := v_core } := by
  refine h.trans fun p hp => ?_
  cases p <;> first
    | exact rfl
    | exact ⟨rfl, rfl, rfl⟩
    | exact ⟨rfl, rfl⟩
    | exact fun _ => rfl
    | exact absurd (h_tb.symm.trans hp) Bool.noConfusion
    | exact absurd (h_core.symm.trans hp) Bool.noConfusion
    | exact k_time.resolve_left fun e => absurd (e.symm.trans hp) Bool.noConfusion
    | exact k_session.resolve_left fun e => absurd (e.symm.trans hp) Bool.noConfusion

theorem Same.upd_tb {ps : List Part} {s t : State} {v_tb : Timebase}
    (h_tb : ps.contains .tb = true) (k_time : ps.contains .time = true ∨ (v_tb.time = t.tb.time ∧ v_tb.era = t.tb.era ∧ v_tb.wrapped = t.tb.wrapped)) (k_session : ps.contains .session = true ∨ (v_tb.session = t.tb.session ∧ v_tb.sessionValid = t.tb.sessionValid)) (h : Same ps s t) :
    Same ps s { t with tb := v_tb } := by
  refine h.trans fun p hp => ?_
  cases p <;> first
    | exact rfl
    | exact ⟨rfl, rfl, rfl⟩
    | exact ⟨rfl, rfl⟩
    | exact fun _ => rfl
    | exact absurd (h_tb.symm.trans hp) Bool.noConfusion
    | exact k_time.resolve_left fun e => absurd (e.symm.trans hp) Bool.noConfusion
    | exact k_session.resolve_left fun e => absurd (e.symm.trans hp) Bool.noConfusion

theorem Same.upd_tb_cal {ps : List Part} {s t : State} {v_tb : Timebase} {v_cal : Cal}
    (h_tb : ps.contains .tb = true) (k_time : ps.contains .time = true ∨ (v_tb.time = t.tb.time ∧ v_tb.era = t.tb.era ∧ v_tb.wrapped = t.tb.wrapped)) (k_session : ps.contains .session = true ∨ (v_tb.session = t.tb.session ∧ v_tb.sessionValid = t.tb.sessionValid)) (h_cal : ps.contains .cal = true) (h : Same ps s t) :
    Same ps s { t with tb := v_tb, cal := v_cal } := by
  refine h.trans fun p hp => ?_
  cases p <;> first
    | exact rfl
    | exact ⟨rfl, rfl, rfl⟩
    | exact ⟨rfl, rfl⟩
    | exact fun _ => rfl
    | exact absurd (h_tb.symm.trans hp) Bool.noConfusion
    | exact absurd (h_cal.symm.trans hp) Bool.noConfusion
    | exact k_time.resolve_left fun e => absurd (e.symm.trans hp) Bool.noConfusion
    | exact k_session.resolve_left fun e => absurd (e.symm.trans hp) Bool.noConfusion

theorem Same.upd_chan_core {ps : List Part} {s t : State} {v_chan : Per8 Channel} {v_core : Core}
    (h_chan : ps.contains .chan = true) (k_counts : ps.contains .counts = true ∨ (∀ n : Chan, (v_chan.get n).count = (t.chan.get n).count)) (k_yarns : ps.contains .yarns = true ∨ (∀ n : Chan, (v_chan.get n).yarn = (t.chan.get n).yarn)) (h_core : ps.contains .core = true) (h : Same ps s t) :
    Same ps s { t with chan := v_chan, core := v_core } := by
  refine h.trans fun p hp => ?_
  cases p <;> first
    | exact rfl
    | exact ⟨rfl, rfl, rfl⟩
    | exact ⟨rfl, rfl⟩
    | exact fun _ => rfl
    | exact absurd (h_chan.symm.trans hp) Bool.noConfusion
    | exact absurd (h_core.symm.trans hp) Bool.noConfusion
    | exact k_counts.resolve_left fun e => absurd (e.symm.trans hp) Bool.noConfusion
    | exact k_yarns.resolve_left fun e => absurd (e.symm.trans hp) Bool.noConfusion

theorem Same.upd_tb_keep_fol_core {ps : List Part} {s t : State} {v_tb : Timebase} {v_keep : Keep} {v_fol : Follower} {v_core : Core}
    (h_tb : ps.contains .tb = true) (k_time : ps.contains .time = true ∨ (v_tb.time = t.tb.time ∧ v_tb.era = t.tb.era ∧ v_tb.wrapped = t.tb.wrapped)) (k_session : ps.contains .session = true ∨ (v_tb.session = t.tb.session ∧ v_tb.sessionValid = t.tb.sessionValid)) (h_keep : ps.contains .keep = true) (h_fol : ps.contains .fol = true) (h_core : ps.contains .core = true) (h : Same ps s t) :
    Same ps s { t with tb := v_tb, keep := v_keep, fol := v_fol, core := v_core } := by
  refine h.trans fun p hp => ?_
  cases p <;> first
    | exact rfl
    | exact ⟨rfl, rfl, rfl⟩
    | exact ⟨rfl, rfl⟩
    | exact fun _ => rfl
    | exact absurd (h_tb.symm.trans hp) Bool.noConfusion
    | exact absurd (h_keep.symm.trans hp) Bool.noConfusion
    | exact absurd (h_fol.symm.trans hp) Bool.noConfusion
    | exact absurd (h_core.symm.trans hp) Bool.noConfusion
    | exact k_time.resolve_left fun e => absurd (e.symm.trans hp) Bool.noConfusion
    | exact k_session.resolve_left fun e => absurd (e.symm.trans hp) Bool.noConfusion

theorem Same.upd_tether {ps : List Part} {s t : State} {v_tether : Tether}
    (h_tether : ps.contains .tether = true) (h : Same ps s t) :
    Same ps s { t with tether := v_tether } := by
  refine h.trans fun p hp => ?_
  cases p <;> first
    | exact rfl
    | exact ⟨rfl, rfl, rfl⟩
    | exact ⟨rfl, rfl⟩
    | exact fun _ => rfl
    | exact absurd (h_tether.symm.trans hp) Bool.noConfusion

theorem Same.upd_keep {ps : List Part} {s t : State} {v_keep : Keep}
    (h_keep : ps.contains .keep = true) (h : Same ps s t) :
    Same ps s { t with keep := v_keep } := by
  refine h.trans fun p hp => ?_
  cases p <;> first
    | exact rfl
    | exact ⟨rfl, rfl, rfl⟩
    | exact ⟨rfl, rfl⟩
    | exact fun _ => rfl
    | exact absurd (h_keep.symm.trans hp) Bool.noConfusion

theorem Same.upd_strap_chain_pack_sched_port_cal {ps : List Part} {s t : State} {v_strap : Strap} {v_chain : Chain} {v_pack : Packer} {v_sched : Sched} {v_port : Stream} {v_cal : Cal}
    (h_strap : ps.contains .strap = true) (h_chain : ps.contains .chain = true) (h_pack : ps.contains .pack = true) (h_sched : ps.contains .sched = true) (h_port : ps.contains .port = true) (h_cal : ps.contains .cal = true) (h : Same ps s t) :
    Same ps s { t with strap := v_strap, chain := v_chain, pack := v_pack, sched := v_sched, port := v_port, cal := v_cal } := by
  refine h.trans fun p hp => ?_
  cases p <;> first
    | exact rfl
    | exact ⟨rfl, rfl, rfl⟩
    | exact ⟨rfl, rfl⟩
    | exact fun _ => rfl
    | exact absurd (h_strap.symm.trans hp) Bool.noConfusion
    | exact absurd (h_chain.symm.trans hp) Bool.noConfusion
    | exact absurd (h_pack.symm.trans hp) Bool.noConfusion
    | exact absurd (h_sched.symm.trans hp) Bool.noConfusion
    | exact absurd (h_port.symm.trans hp) Bool.noConfusion
    | exact absurd (h_cal.symm.trans hp) Bool.noConfusion

theorem Same.upd_chain_fol_cal_faults {ps : List Part} {s t : State} {v_chain : Chain} {v_fol : Follower} {v_cal : Cal} {v_faults : Faults}
    (h_chain : ps.contains .chain = true) (h_fol : ps.contains .fol = true) (h_cal : ps.contains .cal = true) (h_faults : ps.contains .faults = true) (h : Same ps s t) :
    Same ps s { t with chain := v_chain, fol := v_fol, cal := v_cal, faults := v_faults } := by
  refine h.trans fun p hp => ?_
  cases p <;> first
    | exact rfl
    | exact ⟨rfl, rfl, rfl⟩
    | exact ⟨rfl, rfl⟩
    | exact fun _ => rfl
    | exact absurd (h_chain.symm.trans hp) Bool.noConfusion
    | exact absurd (h_fol.symm.trans hp) Bool.noConfusion
    | exact absurd (h_cal.symm.trans hp) Bool.noConfusion
    | exact absurd (h_faults.symm.trans hp) Bool.noConfusion

theorem Same.upd_tb_keep_tether {ps : List Part} {s t : State} {v_tb : Timebase} {v_keep : Keep} {v_tether : Tether}
    (h_tb : ps.contains .tb = true) (k_time : ps.contains .time = true ∨ (v_tb.time = t.tb.time ∧ v_tb.era = t.tb.era ∧ v_tb.wrapped = t.tb.wrapped)) (k_session : ps.contains .session = true ∨ (v_tb.session = t.tb.session ∧ v_tb.sessionValid = t.tb.sessionValid)) (h_keep : ps.contains .keep = true) (h_tether : ps.contains .tether = true) (h : Same ps s t) :
    Same ps s { t with tb := v_tb, keep := v_keep, tether := v_tether } := by
  refine h.trans fun p hp => ?_
  cases p <;> first
    | exact rfl
    | exact ⟨rfl, rfl, rfl⟩
    | exact ⟨rfl, rfl⟩
    | exact fun _ => rfl
    | exact absurd (h_tb.symm.trans hp) Bool.noConfusion
    | exact absurd (h_keep.symm.trans hp) Bool.noConfusion
    | exact absurd (h_tether.symm.trans hp) Bool.noConfusion
    | exact k_time.resolve_left fun e => absurd (e.symm.trans hp) Bool.noConfusion
    | exact k_session.resolve_left fun e => absurd (e.symm.trans hp) Bool.noConfusion

theorem State.modStat_same (s : State) (c : Chan) (f : Stat → Stat) :
    Same [.stat] s (State.modStat s c f) := by
  unfold State.modStat
  with_reducible refine Same.upd_stat rfl ?_
  exact Same.refl _ _

theorem State.modOut_same (s : State) (o : OutNo) (f : Output → Output) :
    Same [.ao] s (State.modOut s o f) := by
  unfold State.modOut
  with_reducible refine Same.upd_ao rfl ?_
  exact Same.refl _ _

theorem State.modStore_same (s : State) (st : StoreId) (f : Store → Store) :
    Same [.cab] s (State.modStore s st f) := by
  unfold State.modStore
  split
  · with_reducible refine Same.upd_cab rfl ?_
    exact Same.refl _ _
  · with_reducible refine Same.upd_cab rfl ?_
    exact Same.refl _ _

theorem State.pass_same (dt : Nat) (s : State) :
    Same [.clock, .tb, .time, .seen] s (State.pass dt s) := by
  unfold State.pass
  with_reducible refine Same.upd_clock_tb_seen rfl rfl (.inl rfl) (.inr ?_) rfl (Same.refl _ _)
  cases s.tb.epochSet <;> exact ⟨rfl, rfl⟩

theorem State.drawBit_same (s : State) :
    Same [.free] s (State.drawBit s).2 := by
  unfold State.drawBit
  with_reducible refine Same.upd_free rfl ?_
  exact Same.refl _ _

theorem State.drawNat_same (s : State) :
    Same [.free] s (State.drawNat s).2 := by
  unfold State.drawNat
  with_reducible refine Same.upd_free rfl ?_
  exact Same.refl _ _

theorem State.flashProgram_same (s : State) (x : Nat) (bs : List Byte) :
    Same [.flash, .mem] s (State.flashProgram s x bs) := by
  unfold State.flashProgram
  with_reducible refine Same.upd_flash rfl (.inl rfl) ?_
  exact Same.refl _ _

theorem State.flashEraseSector_same (s : State) (p : Nat) :
    Same [.flash, .mem] s (State.flashEraseSector s p) := by
  unfold State.flashEraseSector
  with_reducible refine Same.upd_flash rfl (.inl rfl) ?_
  exact Same.refl _ _

theorem State.hwMarker_same (s : State) (st : Stitch) :
    Same [.chain] s (State.hwMarker s st) := by
  unfold State.hwMarker
  with_reducible refine Same.upd_chain rfl ?_
  exact Same.refl _ _

theorem State.flagGates_same (s : State) (f : Gate → Gate) :
    Same [.stat] s (State.flagGates s f) := by
  unfold State.flagGates
  with_reducible refine Same.upd_stat rfl ?_
  exact Same.refl _ _

theorem State.fwMarkerItem_same (s : State) (i : Item) :
    Same [.chain] s (State.fwMarkerItem s i) := by
  unfold State.fwMarkerItem
  with_reducible refine Same.upd_chain rfl ?_
  exact Same.refl _ _

theorem State.fwMarker_same (s : State) (st : Stitch) :
    Same [.chain] s (State.fwMarker s st) := by
  unfold State.fwMarker
  with_reducible refine Same.step (State.fwMarkerItem_same ..) rfl ?_
  exact Same.refl _ _

theorem State.takes_same (s : State) (p : DigitalPin) (level : Bool) (width : Nat) :
    Same [.free] s (State.takes s p level width).2 := by
  unfold State.takes
  with_reducible refine Same.ite_snd ?_ ?_
  · exact Same.refl _ _
  · with_reducible refine Same.ite_snd ?_ ?_
    · with_reducible refine Same.step (State.drawBit_same ..) rfl ?_
      exact Same.refl _ _
    · exact Same.refl _ _

theorem State.event_same (s : State) (code : Byte) (raised : Bool) (held : Bool) (time : BitVec 64) (subj : Byte) (a : BitVec 32) (b : BitVec 32) :
    Same [.faults] s (State.event s code raised held time subj a b) := by
  unfold State.event
  with_reducible refine Same.upd_faults rfl ?_
  exact Same.refl _ _

theorem State.occur_same (s : State) (code : Byte) (n : Nat) :
    Same [.faults] s (State.occur s code n) := by
  unfold State.occur
  with_reducible refine Same.upd_faults rfl ?_
  exact Same.refl _ _

theorem State.occurs_same (s : State) (code : Byte) :
    Same [.faults] s (State.occurs s code) := by
  unfold State.occurs
  with_reducible refine Same.step (State.occur_same ..) rfl ?_
  exact Same.refl _ _

theorem State.raiseFor_same (s : State) (code : Byte) (key : Byte) (subj : Byte) (a : BitVec 32) (b : BitVec 32) :
    Same [.faults] s (State.raiseFor s code key subj a b) := by
  unfold State.raiseFor
  with_reducible refine Same.ite ?_ ?_
  · exact Same.refl _ _
  · with_reducible refine Same.upd_faults rfl ?_
    with_reducible refine Same.step (State.event_same ..) rfl ?_
    with_reducible refine Same.step (State.occurs_same ..) rfl ?_
    exact Same.refl _ _

theorem State.clearFor_same (s : State) (code : Byte) (key : Byte) (subj : Byte) :
    Same [.faults] s (State.clearFor s code key subj) := by
  unfold State.clearFor
  with_reducible refine Same.ite ?_ ?_
  · with_reducible refine Same.upd_faults rfl ?_
    with_reducible refine Same.step (State.event_same ..) rfl ?_
    exact Same.refl _ _
  · exact Same.refl _ _

theorem State.raise_same (s : State) (code : Byte) (subj : Byte) (a : BitVec 32) (b : BitVec 32) :
    Same [.faults] s (State.raise s code subj a b) := by
  unfold State.raise
  with_reducible refine Same.step (State.raiseFor_same ..) rfl ?_
  exact Same.refl _ _

theorem State.raiseAgain_same (s : State) (code : Byte) (subj : Byte) (a : BitVec 32) (b : BitVec 32) :
    Same [.faults] s (State.raiseAgain s code subj a b) := by
  unfold State.raiseAgain
  with_reducible refine Same.ite ?_ ?_
  · with_reducible refine Same.upd_faults rfl ?_
    with_reducible refine Same.step (State.event_same ..) rfl ?_
    with_reducible refine Same.step (State.occurs_same ..) rfl ?_
    exact Same.refl _ _
  · with_reducible refine Same.step (State.raise_same ..) rfl ?_
    exact Same.refl _ _

theorem State.clearFault_same (s : State) (code : Byte) (subj : Byte) :
    Same [.faults] s (State.clearFault s code subj) := by
  unfold State.clearFault
  with_reducible refine Same.step (State.clearFor_same ..) rfl ?_
  exact Same.refl _ _

theorem State.logAt_same (s : State) (code : Byte) (time : BitVec 64) (subj : Byte) (a : BitVec 32) (b : BitVec 32) :
    Same [.faults] s (State.logAt s code time subj a b) := by
  unfold State.logAt
  with_reducible refine Same.step (State.event_same ..) rfl ?_
  with_reducible refine Same.step (State.occurs_same ..) rfl ?_
  exact Same.refl _ _

theorem State.log_same (s : State) (code : Byte) (subj : Byte) (a : BitVec 32) (b : BitVec 32) :
    Same [.faults] s (State.log s code subj a b) := by
  unfold State.log
  with_reducible refine Same.step (State.logAt_same ..) rfl ?_
  exact Same.refl _ _

theorem State.logLimited_same (s : State) (code : Byte) (ch : Nat) (n : Nat) (subj : Byte) (b : BitVec 32) :
    Same [.faults] s (State.logLimited s code ch n subj b) := by
  unfold State.logLimited
  try dsimp only
  split
  · with_reducible refine Same.upd_faults rfl ?_
    with_reducible refine Same.step (State.event_same ..) rfl ?_
    with_reducible refine Same.step (State.occur_same ..) rfl ?_
    exact Same.refl _ _
  · with_reducible refine Same.ite ?_ ?_
    · with_reducible refine Same.upd_faults rfl ?_
      with_reducible refine Same.step (State.event_same ..) rfl ?_
      with_reducible refine Same.step (State.occur_same ..) rfl ?_
      exact Same.refl _ _
    · with_reducible refine Same.upd_faults rfl ?_
      exact Same.refl _ _

theorem State.endPeriod_same (s : State) (code : Byte) (ch : Nat) :
    Same [.faults] s (State.endPeriod s code ch) := by
  unfold State.endPeriod
  split
  · exact Same.refl _ _
  · with_reducible refine Same.ite ?_ ?_
    · exact Same.refl _ _
    · with_reducible refine Same.ite ?_ ?_
      · with_reducible refine Same.upd_faults rfl ?_
        exact Same.refl _ _
      · with_reducible refine Same.upd_faults rfl ?_
        with_reducible refine Same.step (State.event_same ..) rfl ?_
        exact Same.refl _ _

theorem State.refuse_same (s : State) (n : Chan) (e : MergeEntry) (cycle : Nat) :
    Same [.chan, .chain] s (State.refuse s n e cycle) := by
  unfold State.refuse
  with_reducible refine Same.upd_chain rfl ?_
  with_reducible refine Same.modChan (.inr fun _ => rfl) (.inr fun _ => rfl) rfl ?_
  exact Same.refl _ _

theorem State.arrive_same (s : State) (n : Chan) (e : MergeEntry) (cycle : Nat) :
    Same [.chan, .chain] s (State.arrive s n e cycle) := by
  unfold State.arrive
  with_reducible refine Same.ite ?_ ?_
  · with_reducible refine Same.step (State.refuse_same ..) rfl ?_
    exact Same.refl _ _
  · with_reducible refine Same.modChan (.inr fun _ => rfl) (.inr fun _ => rfl) rfl ?_
    exact Same.refl _ _

theorem State.checkChain_same (s : State) :
    Same [.chain] s (State.checkChain s) := by
  unfold State.checkChain
  with_reducible refine Same.ite ?_ ?_
  · exact Same.refl _ _
  · with_reducible refine Same.upd_chain rfl ?_
    exact Same.refl _ _

theorem State.enterChain_same (s : State) (i : Item) :
    Same [.chain] s (State.enterChain s i) := by
  unfold State.enterChain
  with_reducible refine Same.step (State.checkChain_same ..) rfl ?_
  with_reducible refine Same.upd_chain rfl ?_
  exact Same.refl _ _

theorem State.upsetEntry_same (s : State) (flip : BitVec 7) :
    Same [.chain] s (State.upsetEntry s flip) := by
  unfold State.upsetEntry
  with_reducible refine Same.upd_chain rfl ?_
  exact Same.refl _ _

theorem State.upsetExit_same (s : State) (flip : BitVec 7) :
    Same [.chain] s (State.upsetExit s flip) := by
  unfold State.upsetExit
  with_reducible refine Same.upd_chain rfl ?_
  exact Same.refl _ _

theorem State.takeOffer_same (s : State) (x0 : Offer) :
    Same [.chan, .chain] s (State.takeOffer s x0) := by
  unfold State.takeOffer
  split
  · with_reducible refine Same.upd_chain rfl ?_
    exact Same.refl _ _
  · with_reducible refine Same.modChan (.inr fun _ => rfl) (.inr fun _ => rfl) rfl ?_
    exact Same.refl _ _
  · with_reducible refine Same.upd_chain rfl ?_
    exact Same.refl _ _

theorem State.markerEntry_same (s : State) (flip : BitVec 7) :
    Same [.chan, .chain] s (State.markerEntry s flip) := by
  unfold State.markerEntry
  split
  · with_reducible refine Same.ite ?_ ?_
    · with_reducible refine Same.step (State.enterChain_same ..) rfl ?_
      with_reducible refine Same.step (State.upsetEntry_same ..) rfl ?_
      with_reducible refine Same.step (State.takeOffer_same ..) rfl ?_
      exact Same.refl _ _
    · exact Same.refl _ _
  · exact Same.refl _ _

theorem State.placeFirmwareMarker_same (s : State) :
    Same [.chain] s (State.placeFirmwareMarker s) := by
  unfold State.placeFirmwareMarker
  split
  · with_reducible refine Same.ite ?_ ?_
    · with_reducible refine Same.upd_chain rfl ?_
      exact Same.refl _ _
    · exact Same.refl _ _
  · exact Same.refl _ _

theorem State.mergeMove_same (s : State) (flip : BitVec 7) :
    Same [.chan, .chain] s (State.mergeMove s flip) := by
  unfold State.mergeMove
  split
  · with_reducible refine Same.ite ?_ ?_
    · with_reducible refine Same.ite ?_ ?_
      · with_reducible refine Same.step (State.enterChain_same ..) rfl ?_
        with_reducible refine Same.step (State.upsetEntry_same ..) rfl ?_
        with_reducible refine Same.upd_chain rfl ?_
        with_reducible refine Same.modChan (.inr fun _ => rfl) (.inr fun _ => rfl) rfl ?_
        exact Same.refl _ _
      · with_reducible refine Same.step (State.refuse_same ..) rfl ?_
        with_reducible refine Same.upd_chain rfl ?_
        with_reducible refine Same.modChan (.inr fun _ => rfl) (.inr fun _ => rfl) rfl ?_
        exact Same.refl _ _
    · exact Same.refl _ _
  · exact Same.refl _ _

theorem State.closeRun_same (s : State) (n : Chan) :
    Same [.chan, .faults] s (State.closeRun s n) := by
  unfold State.closeRun
  try dsimp only
  split
  · with_reducible refine Same.ite ?_ ?_
    · with_reducible refine Same.step (State.logLimited_same ..) rfl ?_
      with_reducible refine Same.modChan (.inr fun _ => rfl) (.inr fun _ => rfl) rfl ?_
      exact Same.refl _ _
    · exact Same.refl _ _
  · exact Same.refl _ _

theorem State.queueReset_same (s : State) :
    Same [.chain, .faults] s (State.queueReset s) := by
  unfold State.queueReset
  split
  · with_reducible refine Same.step (State.log_same ..) rfl ?_
    with_reducible refine Same.upd_chain rfl ?_
    exact Same.refl _ _
  · exact Same.refl _ _

theorem State.number_same (s : State) (k : Skein) :
    Same [.pack] s (State.number s k) := by
  unfold State.number
  with_reducible refine Same.ite ?_ ?_
  · with_reducible refine Same.upd_pack rfl ?_
    exact Same.refl _ _
  · with_reducible refine Same.upd_pack rfl ?_
    exact Same.refl _ _

theorem State.release_same (s : State) (k : Skein) :
    Same [.pack] s (State.release s k) := by
  unfold State.release
  with_reducible refine Same.ite ?_ ?_
  · with_reducible refine Same.step (State.number_same ..) rfl ?_
    exact Same.refl _ _
  · with_reducible refine Same.upd_pack rfl ?_
    exact Same.refl _ _

theorem State.numberWaiting_same (s : State) (session : BitVec 16) :
    Same [.pack] s (State.numberWaiting s session) := by
  unfold State.numberWaiting
  with_reducible refine Same.foldl (fun _ _ => ?_) ?_
  · with_reducible refine Same.step (State.number_same ..) rfl ?_
    exact Same.refl _ _
  with_reducible refine Same.upd_pack rfl ?_
  exact Same.refl _ _

theorem State.closeRaw_same (s : State) (reason : BitVec 3) :
    Same [.pack] s (State.closeRaw s reason) := by
  unfold State.closeRaw
  split
  · with_reducible refine Same.step (State.release_same ..) rfl ?_
    with_reducible refine Same.upd_pack rfl ?_
    exact Same.refl _ _
  · exact Same.refl _ _

theorem State.writeRaw_same (s : State) (o : RawOpen) (i : Item) :
    Same [.pack] s (State.writeRaw s o i) := by
  unfold State.writeRaw
  with_reducible refine Same.ite ?_ ?_
  · with_reducible refine Same.step (State.closeRaw_same ..) rfl ?_
    with_reducible refine Same.upd_pack rfl ?_
    exact Same.refl _ _
  · with_reducible refine Same.upd_pack rfl ?_
    exact Same.refl _ _

theorem State.leaveChain_same (s : State) (flip : BitVec 7) :
    Same [.chain, .pack] s (State.leaveChain s flip) := by
  unfold State.leaveChain
  with_reducible refine Same.step (State.checkChain_same ..) rfl ?_
  with_reducible refine Same.upd_chain_pack rfl rfl ?_
  exact Same.refl _ _

theorem State.takeItem_same (s : State) (flip : BitVec 7) :
    Same [.chain, .pack] s (State.takeItem s flip) := by
  unfold State.takeItem
  split
  · exact Same.refl _ _
  · with_reducible refine Same.ite ?_ ?_
    · split
      · with_reducible refine Same.step (State.writeRaw_same ..) rfl ?_
        with_reducible refine Same.step (State.leaveChain_same ..) rfl ?_
        exact Same.refl _ _
      · split
        · with_reducible refine Same.step (State.writeRaw_same ..) rfl ?_
          with_reducible refine Same.step (State.leaveChain_same ..) rfl ?_
          exact Same.refl _ _
        · with_reducible refine Same.ite ?_ ?_
          · with_reducible refine Same.step (State.writeRaw_same ..) rfl ?_
            with_reducible refine Same.step (State.leaveChain_same ..) rfl ?_
            with_reducible refine Same.step (State.closeRaw_same ..) rfl ?_
            exact Same.refl _ _
          · with_reducible refine Same.step (State.closeRaw_same ..) rfl ?_
            exact Same.refl _ _
    · exact Same.refl _ _

theorem State.closeTimer_expire_same (s : State) :
    Same [.chain, .pack] s (State.closeTimer_expire s) := by
  unfold State.closeTimer_expire
  split
  · with_reducible refine Same.ite ?_ ?_
    · split
      · with_reducible refine Same.ite ?_ ?_
        · split
          · with_reducible refine Same.step (State.closeRaw_same ..) rfl ?_
            exact Same.refl _ _
          · with_reducible refine Same.ite ?_ ?_
            · with_reducible refine Same.step (State.writeRaw_same ..) rfl ?_
              with_reducible refine Same.step (State.leaveChain_same ..) rfl ?_
              exact Same.refl _ _
            · with_reducible refine Same.step (State.closeRaw_same ..) rfl ?_
              exact Same.refl _ _
        · with_reducible refine Same.step (State.closeRaw_same ..) rfl ?_
          exact Same.refl _ _
      · with_reducible refine Same.step (State.closeRaw_same ..) rfl ?_
        exact Same.refl _ _
    · exact Same.refl _ _
  · exact Same.refl _ _

theorem State.closeSum_same (s : State) (reason : BitVec 3) :
    Same [.pack] s (State.closeSum s reason) := by
  unfold State.closeSum
  split
  · with_reducible refine Same.step (State.release_same ..) rfl ?_
    with_reducible refine Same.upd_pack rfl ?_
    exact Same.refl _ _
  · exact Same.refl _ _

theorem State.writeSum_same (s : State) (o : SumOpen) (r : Result) :
    Same [.eng, .pack] s (State.writeSum s o r) := by
  unfold State.writeSum
  with_reducible refine Same.ite ?_ ?_
  · with_reducible refine Same.step (State.closeSum_same ..) rfl ?_
    with_reducible refine Same.upd_eng_pack rfl rfl ?_
    exact Same.refl _ _
  · with_reducible refine Same.upd_eng_pack rfl rfl ?_
    exact Same.refl _ _

theorem State.takeResult_same (s : State) :
    Same [.eng, .pack] s (State.takeResult s) := by
  unfold State.takeResult
  split
  · exact Same.refl _ _
  · with_reducible refine Same.ite ?_ ?_
    · split
      · with_reducible refine Same.step (State.writeSum_same ..) rfl ?_
        exact Same.refl _ _
      · with_reducible refine Same.ite ?_ ?_
        · with_reducible refine Same.step (State.writeSum_same ..) rfl ?_
          exact Same.refl _ _
        · with_reducible refine Same.ite ?_ ?_
          · with_reducible refine Same.step (State.writeSum_same ..) rfl ?_
            with_reducible refine Same.step (State.closeSum_same ..) rfl ?_
            exact Same.refl _ _
          · with_reducible refine Same.step (State.closeSum_same ..) rfl ?_
            exact Same.refl _ _
    · exact Same.refl _ _

theorem State.closeCtl_same (s : State) (c : Ctl) :
    Same [.pack] s (State.closeCtl s c) := by
  unfold State.closeCtl
  with_reducible refine Same.ite ?_ ?_
  · with_reducible refine Same.ite ?_ ?_
    · with_reducible refine Same.step (State.numberWaiting_same ..) rfl ?_
      with_reducible refine Same.upd_pack rfl ?_
      with_reducible refine Same.step (State.release_same ..) rfl ?_
      with_reducible refine Same.upd_pack rfl ?_
      exact Same.refl _ _
    · with_reducible refine Same.step (State.numberWaiting_same ..) rfl ?_
      with_reducible refine Same.upd_pack rfl ?_
      with_reducible refine Same.step (State.release_same ..) rfl ?_
      with_reducible refine Same.upd_pack rfl ?_
      exact Same.refl _ _
  · with_reducible refine Same.step (State.release_same ..) rfl ?_
    with_reducible refine Same.upd_pack rfl ?_
    exact Same.refl _ _

theorem State.control_same (s : State) (typ : BitVec 6) (body : List Byte) (intro : Bool) :
    Same [.pack] s (State.control s typ body intro) := by
  unfold State.control
  with_reducible refine Same.ite ?_ ?_
  · with_reducible refine Same.step (State.closeCtl_same ..) rfl ?_
    exact Same.refl _ _
  · with_reducible refine Same.upd_pack rfl ?_
    exact Same.refl _ _

theorem State.write_same (s : State) (typ : BitVec 6) (body : List Byte) (intro : Bool) :
    Same [.pack] s (State.write s typ body intro) := by
  unfold State.write
  with_reducible refine Same.ite ?_ ?_
  · with_reducible refine Same.step (State.control_same ..) rfl ?_
    exact Same.refl _ _
  · with_reducible refine Same.upd_pack rfl ?_
    exact Same.refl _ _

theorem State.settlePort_same (s : State) :
    Same [.port] s (State.settlePort s) := by
  unfold State.settlePort
  with_reducible refine Same.ite ?_ ?_
  · with_reducible refine Same.upd_port rfl ?_
    exact Same.refl _ _
  · exact Same.refl _ _

theorem State.closeNextCtl_same (s : State) :
    Same [.pack, .port] s (State.closeNextCtl s) := by
  unfold State.closeNextCtl
  split
  · with_reducible refine Same.ite ?_ ?_
    · with_reducible refine Same.step (State.settlePort_same ..) rfl ?_
      with_reducible refine Same.step (State.closeCtl_same ..) rfl ?_
      with_reducible refine Same.upd_pack rfl ?_
      exact Same.refl _ _
    · exact Same.refl _ _
  · exact Same.refl _ _

theorem State.modFol_same (s : State) (f : Follower → Follower) :
    Same [.fol] s (State.modFol s f) := by
  unfold State.modFol
  with_reducible refine Same.upd_fol rfl ?_
  exact Same.refl _ _

theorem State.markFol_same (s : State) :
    Same [.fol] s (State.markFol s) := by
  unfold State.markFol
  with_reducible refine Same.step (State.modFol_same ..) rfl ?_
  exact Same.refl _ _

theorem State.switchSlots_same (s : State) :
    Same [.sched] s (State.switchSlots s) := by
  unfold State.switchSlots
  with_reducible refine Same.upd_sched rfl ?_
  exact Same.refl _ _

theorem State.phaseMarker_same (s : State) (event : BitVec 2) (interval : Nat) :
    Same [.chain] s (State.phaseMarker s event interval) := by
  unfold State.phaseMarker
  with_reducible refine Same.step (State.hwMarker_same ..) rfl ?_
  exact Same.refl _ _

theorem State.lock_same (s : State) :
    Same [.chain, .sched, .fol, .faults] s (State.lock s) := by
  unfold State.lock
  with_reducible refine Same.step (State.clearFault_same ..) rfl ?_
  with_reducible refine Same.step (State.phaseMarker_same ..) rfl ?_
  with_reducible refine Same.step (State.switchSlots_same ..) rfl ?_
  with_reducible refine Same.step (State.modFol_same ..) rfl ?_
  exact Same.refl _ _

theorem State.phaseLoss_same (s : State) :
    Same [.stat, .chain, .sched, .fol, .faults] s (State.phaseLoss s) := by
  unfold State.phaseLoss
  with_reducible refine Same.ite ?_ ?_
  · with_reducible refine Same.step (State.log_same ..) rfl ?_
    with_reducible refine Same.step (State.phaseMarker_same ..) rfl ?_
    with_reducible refine Same.step (State.switchSlots_same ..) rfl ?_
    with_reducible refine Same.step (State.flagGates_same ..) rfl ?_
    with_reducible refine Same.step (State.modFol_same ..) rfl ?_
    with_reducible refine Same.step (State.markFol_same ..) rfl ?_
    exact Same.refl _ _
  · exact Same.refl _ _

theorem State.correct_same (s : State) (p : PulseEvent) (events : List Nat) :
    Same [.fol] s (State.correct s p events) := by
  unfold State.correct
  with_reducible refine Same.step (State.modFol_same ..) rfl ?_
  exact Same.refl _ _

theorem State.acquirePulse_same (s : State) (p : PulseEvent) :
    Same [.chain, .sched, .fol, .faults] s (State.acquirePulse s p) := by
  unfold State.acquirePulse
  with_reducible refine Same.ite ?_ ?_
  · with_reducible refine Same.step (State.modFol_same ..) rfl ?_
    exact Same.refl _ _
  · with_reducible refine Same.ite ?_ ?_
    · with_reducible refine Same.step (State.correct_same ..) rfl ?_
      with_reducible refine Same.step (State.modFol_same ..) rfl ?_
      exact Same.refl _ _
    · with_reducible refine Same.ite ?_ ?_
      · with_reducible refine Same.step (State.lock_same ..) rfl ?_
        with_reducible refine Same.step (State.modFol_same ..) rfl ?_
        with_reducible refine Same.step (State.modFol_same ..) rfl ?_
        with_reducible refine Same.step (State.correct_same ..) rfl ?_
        with_reducible refine Same.step (State.modFol_same ..) rfl ?_
        exact Same.refl _ _
      · with_reducible refine Same.step (State.modFol_same ..) rfl ?_
        with_reducible refine Same.step (State.correct_same ..) rfl ?_
        with_reducible refine Same.step (State.modFol_same ..) rfl ?_
        exact Same.refl _ _

theorem State.lockedPulse_same (s : State) (p : PulseEvent) :
    Same [.fol] s (State.lockedPulse s p) := by
  unfold State.lockedPulse
  with_reducible refine Same.ite ?_ ?_
  · with_reducible refine Same.step (State.modFol_same ..) rfl ?_
    with_reducible refine Same.step (State.correct_same ..) rfl ?_
    exact Same.refl _ _
  · with_reducible refine Same.step (State.modFol_same ..) rfl ?_
    with_reducible refine Same.step (State.modFol_same ..) rfl ?_
    exact Same.refl _ _

theorem State.coastingPulse_same (s : State) (p : PulseEvent) :
    Same [.fol] s (State.coastingPulse s p) := by
  unfold State.coastingPulse
  with_reducible refine Same.ite ?_ ?_
  · with_reducible refine Same.step (State.modFol_same ..) rfl ?_
    exact Same.refl _ _
  · with_reducible refine Same.ite ?_ ?_
    · with_reducible refine Same.step (State.modFol_same ..) rfl ?_
      exact Same.refl _ _
    · with_reducible refine Same.step (State.modFol_same ..) rfl ?_
      with_reducible refine Same.step (State.correct_same ..) rfl ?_
      exact Same.refl _ _

theorem State.acquireIndex_same (s : State) :
    Same [.chain, .sched, .fol, .faults] s (State.acquireIndex s) := by
  unfold State.acquireIndex
  try dsimp only
  split
  · with_reducible refine Same.step (State.modFol_same ..) rfl ?_
    exact Same.refl _ _
  · with_reducible refine Same.ite ?_ ?_
    · with_reducible refine Same.step (State.modFol_same ..) rfl ?_
      exact Same.refl _ _
    · with_reducible refine Same.step (State.modFol_same ..) rfl ?_
      exact Same.refl _ _
  · with_reducible refine Same.ite ?_ ?_
    · with_reducible refine Same.step (State.lock_same ..) rfl ?_
      with_reducible refine Same.step (State.modFol_same ..) rfl ?_
      exact Same.refl _ _
    · with_reducible refine Same.step (State.modFol_same ..) rfl ?_
      exact Same.refl _ _

theorem State.trackIndex_same (s : State) :
    Same [.fol, .faults] s (State.trackIndex s) := by
  unfold State.trackIndex
  with_reducible refine Same.ite ?_ ?_
  · with_reducible refine Same.step (State.log_same ..) rfl ?_
    with_reducible refine Same.step (State.modFol_same ..) rfl ?_
    exact Same.refl _ _
  · with_reducible refine Same.ite ?_ ?_
    · with_reducible refine Same.step (State.modFol_same ..) rfl ?_
      exact Same.refl _ _
    · with_reducible refine Same.ite ?_ ?_
      · with_reducible refine Same.step (State.modFol_same ..) rfl ?_
        exact Same.refl _ _
      · with_reducible refine Same.step (State.modFol_same ..) rfl ?_
        exact Same.refl _ _

theorem State.takeEvent_same (s : State) (low : Nat) :
    Same [.chain, .sched, .fol, .faults] s (State.takeEvent s low) := by
  unfold State.takeEvent
  with_reducible refine Same.ite ?_ ?_
  · with_reducible refine Same.ite ?_ ?_
    · with_reducible refine Same.step (State.trackIndex_same ..) rfl ?_
      with_reducible refine Same.step (State.markFol_same ..) rfl ?_
      exact Same.refl _ _
    · with_reducible refine Same.step (State.acquireIndex_same ..) rfl ?_
      with_reducible refine Same.step (State.markFol_same ..) rfl ?_
      exact Same.refl _ _
  · with_reducible refine Same.ite ?_ ?_
    · with_reducible refine Same.step (State.lockedPulse_same ..) rfl ?_
      with_reducible refine Same.step (State.markFol_same ..) rfl ?_
      exact Same.refl _ _
    · with_reducible refine Same.ite ?_ ?_
      · with_reducible refine Same.step (State.coastingPulse_same ..) rfl ?_
        with_reducible refine Same.step (State.markFol_same ..) rfl ?_
        exact Same.refl _ _
      · with_reducible refine Same.step (State.acquirePulse_same ..) rfl ?_
        with_reducible refine Same.step (State.markFol_same ..) rfl ?_
        exact Same.refl _ _

theorem State.later_same (s : State) (l : Late) :
    Same [.sched] s (State.later s l) := by
  unfold State.later
  with_reducible refine Same.upd_sched rfl ?_
  exact Same.refl _ _

theorem State.referenceEvent_same (s : State) (low : Nat) :
    Same [.chain, .sched, .fol, .faults] s (State.referenceEvent s low) := by
  unfold State.referenceEvent
  with_reducible refine Same.ite ?_ ?_
  · exact Same.refl _ _
  · with_reducible refine Same.ite ?_ ?_
    · with_reducible refine Same.step (State.later_same ..) rfl ?_
      exact Same.refl _ _
    · with_reducible refine Same.step (State.takeEvent_same ..) rfl ?_
      exact Same.refl _ _

theorem State.takeStep_same (s : State) (x0 : QuadStep) :
    Same [.fol, .faults] s (State.takeStep s x0) := by
  unfold State.takeStep
  split
  · with_reducible refine Same.step (State.modFol_same ..) rfl ?_
    with_reducible refine Same.step (State.markFol_same ..) rfl ?_
    exact Same.refl _ _
  · with_reducible refine Same.step (State.modFol_same ..) rfl ?_
    with_reducible refine Same.step (State.markFol_same ..) rfl ?_
    exact Same.refl _ _
  · with_reducible refine Same.step (State.logLimited_same ..) rfl ?_
    with_reducible refine Same.step (State.modFol_same ..) rfl ?_
    with_reducible refine Same.step (State.markFol_same ..) rfl ?_
    exact Same.refl _ _

theorem State.quadratureStep_same (s : State) (q : QuadStep) :
    Same [.sched, .fol, .faults] s (State.quadratureStep s q) := by
  unfold State.quadratureStep
  with_reducible refine Same.ite ?_ ?_
  · exact Same.refl _ _
  · with_reducible refine Same.ite ?_ ?_
    · with_reducible refine Same.step (State.later_same ..) rfl ?_
      exact Same.refl _ _
    · with_reducible refine Same.step (State.takeStep_same ..) rfl ?_
      exact Same.refl _ _

theorem State.referenceTimeout_same (s : State) :
    Same [.fol] s (State.referenceTimeout s) := by
  unfold State.referenceTimeout
  with_reducible refine Same.ite ?_ ?_
  · with_reducible refine Same.step (State.modFol_same ..) rfl ?_
    with_reducible refine Same.step (State.markFol_same ..) rfl ?_
    exact Same.refl _ _
  · exact Same.refl _ _

theorem State.setSlot_same (s : State) (i : Fin 16) (v : Option Slot) :
    Same [.sched] s (State.setSlot s i v) := by
  unfold State.setSlot
  with_reducible refine Same.upd_sched rfl ?_
  exact Same.refl _ _

theorem State.arm_same (s : State) (i : Fin 16) (t : Task) :
    Same [.sched] s (State.arm s i t) := by
  unfold State.arm
  with_reducible refine Same.step (State.setSlot_same ..) rfl ?_
  exact Same.refl _ _

theorem State.landCommand_same (s : State) (i : Fin 16) (x0 : Option Task) :
    Same [.sched] s (State.landCommand s i x0) := by
  unfold State.landCommand
  split
  · with_reducible refine Same.ite ?_ ?_
    · exact Same.refl _ _
    · with_reducible refine Same.step (State.arm_same ..) rfl ?_
      exact Same.refl _ _
  · with_reducible refine Same.upd_sched rfl ?_
    with_reducible refine Same.step (State.setSlot_same ..) rfl ?_
    exact Same.refl _ _

theorem State.toSlot_same (s : State) (i : Fin 16) (t : Option Task) :
    Same [.sched] s (State.toSlot s i t) := by
  unfold State.toSlot
  with_reducible refine Same.ite ?_ ?_
  · with_reducible refine Same.step (State.later_same ..) rfl ?_
    exact Same.refl _ _
  · with_reducible refine Same.step (State.landCommand_same ..) rfl ?_
    exact Same.refl _ _

theorem State.slotCommand_same (s : State) (i : Fin 16) (t : Option Task) :
    Same [.sched] s (State.slotCommand s i t) := by
  unfold State.slotCommand
  with_reducible refine Same.ite ?_ ?_
  · with_reducible refine Same.step (State.toSlot_same ..) rfl ?_
    exact Same.refl _ _
  · with_reducible refine Same.ite ?_ ?_
    · with_reducible refine Same.upd_sched rfl ?_
      exact Same.refl _ _
    · exact Same.refl _ _

theorem State.landOwed_same (s : State) :
    Same [.sched] s (State.landOwed s) := by
  unfold State.landOwed
  with_reducible refine Same.foldl (fun _ _ => ?_) ?_
  · with_reducible refine Same.step (State.toSlot_same ..) rfl ?_
    exact Same.refl _ _
  with_reducible refine Same.upd_sched rfl ?_
  exact Same.refl _ _

theorem State.armCommand_same (s : State) (i : Fin 16) (t : Task) :
    Same [.sched] s (State.armCommand s i t) := by
  unfold State.armCommand
  with_reducible refine Same.step (State.slotCommand_same ..) rfl ?_
  exact Same.refl _ _

theorem State.cancelSlot_same (s : State) (i : Fin 16) :
    Same [.sched] s (State.cancelSlot s i) := by
  unfold State.cancelSlot
  with_reducible refine Same.step (State.slotCommand_same ..) rfl ?_
  exact Same.refl _ _

theorem State.armStartup_same (s : State) :
    Same [.sched] s (State.armStartup s) := by
  unfold State.armStartup
  with_reducible refine Same.upd_sched rfl ?_
  exact Same.refl _ _

theorem State.issue_same (s : State) (i : Fin 16) :
    Same [.sched] s (State.issue s i) := by
  unfold State.issue
  with_reducible refine Same.upd_sched rfl ?_
  exact Same.refl _ _

theorem State.countAt_same (s : State) (n : Chan) (t : Nat) :
    Same [.free] s (State.countAt s n t).2 := by
  unfold State.countAt
  with_reducible refine Same.ite_snd ?_ ?_
  · exact Same.refl _ _
  · with_reducible refine Same.step (State.drawNat_same ..) rfl ?_
    exact Same.refl _ _

theorem State.sourceValue_same (s : State) (o : OutNo) (v : Rat) (at_ : Nat) :
    Same [.ao, .faults] s (State.sourceValue s o v at_) := by
  unfold State.sourceValue
  with_reducible refine Same.ite ?_ ?_
  · with_reducible refine Same.step (State.logAt_same ..) rfl ?_
    with_reducible refine Same.step (State.modOut_same ..) rfl ?_
    with_reducible refine Same.step (State.modOut_same ..) rfl ?_
    exact Same.refl _ _
  · with_reducible refine Same.step (State.modOut_same ..) rfl ?_
    exact Same.refl _ _

theorem State.sourceFormed_same (s : State) (src : AoSource) (v : Rat) (at_ : Nat) :
    Same [.ao, .faults] s (State.sourceFormed s src v at_) := by
  unfold State.sourceFormed
  with_reducible refine Same.eachOut (fun _ _ => ?_) ?_
  · with_reducible refine Same.ite ?_ ?_
    · with_reducible refine Same.step (State.sourceValue_same ..) rfl ?_
      exact Same.refl _ _
    · exact Same.refl _ _
  exact Same.refl _ _

theorem State.endGate_same (s : State) (n : Chan) (fin : Nat) (count : BitVec 48) (atYarnEnd : Bool) (adoption : Bool) :
    Same [.stat, .eng] s (State.endGate s n fin count atYarnEnd adoption) := by
  unfold State.endGate
  split
  · with_reducible refine Same.upd_eng rfl ?_
    with_reducible refine Same.step (State.modStat_same ..) rfl ?_
    exact Same.refl _ _
  · exact Same.refl _ _

theorem State.openGate_same (s : State) (n : Chan) (start : Nat) (count : BitVec 48) (atYarnStart : Bool) :
    Same [.stat] s (State.openGate s n start count atYarnStart) := by
  unfold State.openGate
  with_reducible refine Same.step (State.modStat_same ..) rfl ?_
  exact Same.refl _ _

theorem State.noYarnHead_same (s : State) (n : Chan) (fin : Nat) (count : BitVec 48) (adoption : Bool) :
    Same [.eng] s (State.noYarnHead s n fin count adoption) := by
  unfold State.noYarnHead
  with_reducible refine Same.upd_eng rfl ?_
  exact Same.refl _ _

theorem State.closeInterval_same (s : State) (n : Chan) (fin : Nat) (count : BitVec 48) (adoption : Bool) :
    Same [.stat, .eng] s (State.closeInterval s n fin count adoption) := by
  unfold State.closeInterval
  with_reducible refine Same.ite ?_ ?_
  · with_reducible refine Same.step (State.endGate_same ..) rfl ?_
    exact Same.refl _ _
  · with_reducible refine Same.ite ?_ ?_
    · exact Same.refl _ _
    · with_reducible refine Same.step (State.noYarnHead_same ..) rfl ?_
      exact Same.refl _ _

theorem State.openInterval_same (s : State) (n : Chan) (running : Bool) (start : Nat) (count : BitVec 48) :
    Same [.stat] s (State.openInterval s n running start count) := by
  unfold State.openInterval
  with_reducible refine Same.ite ?_ ?_
  · with_reducible refine Same.step (State.openGate_same ..) rfl ?_
    with_reducible refine Same.step (State.modStat_same ..) rfl ?_
    exact Same.refl _ _
  · with_reducible refine Same.step (State.modStat_same ..) rfl ?_
    exact Same.refl _ _

theorem State.summaryBoundary_same (s : State) :
    Same [.free, .stat, .eng] s (State.summaryBoundary s) := by
  unfold State.summaryBoundary
  split
  · with_reducible refine Same.ite ?_ ?_
    · with_reducible refine Same.upd_eng rfl ?_
      with_reducible refine Same.eachChan (fun _ _ => ?_) ?_
      · with_reducible refine Same.ite ?_ ?_
        · with_reducible refine Same.upd_eng rfl ?_
          with_reducible refine Same.step (State.openInterval_same ..) rfl ?_
          with_reducible refine Same.upd_eng rfl ?_
          with_reducible refine Same.step (State.closeInterval_same ..) rfl ?_
          with_reducible refine Same.step (State.countAt_same ..) rfl ?_
          exact Same.refl _ _
        · with_reducible refine Same.step (State.modStat_same ..) rfl ?_
          exact Same.refl _ _
      exact Same.refl _ _
    · exact Same.refl _ _
  · exact Same.refl _ _

theorem State.cutSamples_same (s : State) (n : Chan) :
    Same [.stat] s (State.cutSamples s n) := by
  unfold State.cutSamples
  with_reducible refine Same.step (State.modStat_same ..) rfl ?_
  exact Same.refl _ _

theorem State.statYarnStart_same (s : State) (n : Chan) (start : Nat) (count : BitVec 48) :
    Same [.stat] s (State.statYarnStart s n start count) := by
  unfold State.statYarnStart
  with_reducible refine Same.step (State.openGate_same ..) rfl ?_
  with_reducible refine Same.ite ?_ ?_
  · with_reducible refine Same.eachChan (fun _ _ => ?_) ?_
    · with_reducible refine Same.step (State.modStat_same ..) rfl ?_
      exact Same.refl _ _
    with_reducible refine Same.step (State.modStat_same ..) rfl ?_
    with_reducible refine Same.step (State.cutSamples_same ..) rfl ?_
    exact Same.refl _ _
  · with_reducible refine Same.step (State.modStat_same ..) rfl ?_
    with_reducible refine Same.step (State.cutSamples_same ..) rfl ?_
    exact Same.refl _ _

theorem State.statYarnEnd_same (s : State) (n : Chan) (fin : Nat) (count : BitVec 48) :
    Same [.stat, .eng] s (State.statYarnEnd s n fin count) := by
  unfold State.statYarnEnd
  with_reducible refine Same.step (State.cutSamples_same ..) rfl ?_
  with_reducible refine Same.step (State.endGate_same ..) rfl ?_
  exact Same.refl _ _

theorem State.modGateAt_same (s : State) (n : Chan) (session : BitVec 16) (t : Nat) (f : Gate → Gate) :
    Same [.stat, .eng] s (State.modGateAt s n session t f) := by
  unfold State.modGateAt
  with_reducible refine Same.ite ?_ ?_
  · with_reducible refine Same.step (State.modStat_same ..) rfl ?_
    exact Same.refl _ _
  · with_reducible refine Same.upd_eng rfl ?_
    exact Same.refl _ _

theorem State.trySample_same (s : State) (n : Chan) (at_ : Nat) :
    Same [.stat, .eng, .ao, .faults] s (State.trySample s n at_) := by
  unfold State.trySample
  split
  · with_reducible refine Same.step (State.sourceFormed_same ..) rfl ?_
    with_reducible refine Same.ite ?_ ?_
    · with_reducible refine Same.step (State.modStat_same ..) rfl ?_
      with_reducible refine Same.step (State.modStat_same ..) rfl ?_
      with_reducible refine Same.step (State.modGateAt_same ..) rfl ?_
      exact Same.refl _ _
    · with_reducible refine Same.step (State.modStat_same ..) rfl ?_
      with_reducible refine Same.step (State.modGateAt_same ..) rfl ?_
      exact Same.refl _ _
  · exact Same.refl _ _

theorem State.addTerms_same (s : State) (n : Chan) (session : BitVec 16) (l : List (Nat × Rat)) (base : Nat) (last : Nat) (tau0 : Nat) (t : Nat) :
    Same [.stat, .eng] s (State.addTerms s n session l base last tau0 t) := by
  unfold State.addTerms
  with_reducible refine Same.step (State.modGateAt_same ..) rfl ?_
  exact Same.refl _ _

theorem State.diffPoint_same (s : State) (n : Chan) (k : Nat) (tau0 : Nat) (t : Nat) :
    Same [.stat, .eng] s (State.diffPoint s n k tau0 t) := by
  unfold State.diffPoint
  try dsimp only
  split
  · with_reducible refine Same.ite ?_ ?_
    · exact Same.refl _ _
    · with_reducible refine Same.step (State.addTerms_same ..) rfl ?_
      with_reducible refine Same.step (State.modStat_same ..) rfl ?_
      exact Same.refl _ _
  · exact Same.refl _ _

theorem State.phasePoint_same (s : State) (n : Chan) (c : StampRec) (slots : List (Fin 16)) :
    Same [.stat, .eng] s (State.phasePoint s n c slots) := by
  unfold State.phasePoint
  split
  · with_reducible refine Same.ite ?_ ?_
    · with_reducible refine Same.ite ?_ ?_
      · with_reducible refine Same.step (State.diffPoint_same ..) rfl ?_
        with_reducible refine Same.step (State.modStat_same ..) rfl ?_
        exact Same.refl _ _
      · with_reducible refine Same.ite ?_ ?_
        · with_reducible refine Same.eachChan (fun _ _ => ?_) ?_
          · with_reducible refine Same.ite ?_ ?_
            · exact Same.refl _ _
            · with_reducible refine Same.step (State.diffPoint_same ..) rfl ?_
              exact Same.refl _ _
          split
          · with_reducible refine Same.step (State.addTerms_same ..) rfl ?_
            with_reducible refine Same.step (State.modStat_same ..) rfl ?_
            exact Same.refl _ _
          · with_reducible refine Same.step (State.modStat_same ..) rfl ?_
            exact Same.refl _ _
        · split
          · with_reducible refine Same.step (State.addTerms_same ..) rfl ?_
            with_reducible refine Same.step (State.modStat_same ..) rfl ?_
            exact Same.refl _ _
          · with_reducible refine Same.step (State.modStat_same ..) rfl ?_
            exact Same.refl _ _
    · exact Same.refl _ _
  · exact Same.refl _ _

theorem State.takeStamp_same (s : State) (n : Chan) (c : StampRec) :
    Same [.stat] s (State.takeStamp s n c) := by
  unfold State.takeStamp
  with_reducible refine Same.eachChan (fun _ _ => ?_) ?_
  · with_reducible refine Same.ite ?_ ?_
    · with_reducible refine Same.step (State.modStat_same ..) rfl ?_
      exact Same.refl _ _
    · exact Same.refl _ _
  with_reducible refine Same.step (State.modStat_same ..) rfl ?_
  exact Same.refl _ _

theorem State.statInput_same (s : State) (n : Chan) (c : StampRec) (slots : List (Fin 16)) (at_ : Nat) :
    Same [.stat, .eng, .ao, .faults] s (State.statInput s n c slots at_) := by
  unfold State.statInput
  with_reducible refine Same.ite ?_ ?_
  · with_reducible refine Same.eachChan (fun _ _ => ?_) ?_
    · with_reducible refine Same.ite ?_ ?_
      · with_reducible refine Same.step (State.trySample_same ..) rfl ?_
        exact Same.refl _ _
      · exact Same.refl _ _
    with_reducible refine Same.ite ?_ ?_
    · with_reducible refine Same.step (State.phasePoint_same ..) rfl ?_
      with_reducible refine Same.step (State.modGateAt_same ..) rfl ?_
      with_reducible refine Same.step (State.takeStamp_same ..) rfl ?_
      exact Same.refl _ _
    · with_reducible refine Same.step (State.takeStamp_same ..) rfl ?_
      exact Same.refl _ _
  · exact Same.refl _ _

theorem State.publish_same (s : State) (g : Gate) :
    Same [.stat, .ao, .faults] s (State.publish s g) := by
  unfold State.publish
  with_reducible refine Same.ite ?_ ?_
  · with_reducible refine Same.step (State.modStat_same ..) rfl ?_
    exact Same.refl _ _
  · with_reducible refine Same.ite ?_ ?_
    · split
      · with_reducible refine Same.ite ?_ ?_
        · with_reducible refine Same.step (State.sourceFormed_same ..) rfl ?_
          with_reducible refine Same.step (State.sourceFormed_same ..) rfl ?_
          with_reducible refine Same.step (State.modStat_same ..) rfl ?_
          with_reducible refine Same.step (State.modStat_same ..) rfl ?_
          exact Same.refl _ _
        · with_reducible refine Same.step (State.modStat_same ..) rfl ?_
          with_reducible refine Same.step (State.modStat_same ..) rfl ?_
          exact Same.refl _ _
      · with_reducible refine Same.step (State.modStat_same ..) rfl ?_
        with_reducible refine Same.step (State.modStat_same ..) rfl ?_
        exact Same.refl _ _
    · with_reducible refine Same.step (State.modStat_same ..) rfl ?_
      exact Same.refl _ _

theorem State.summaryComplete_same (s : State) :
    Same [.stat, .eng, .ao, .faults] s (State.summaryComplete s) := by
  unfold State.summaryComplete
  with_reducible refine Same.ite ?_ ?_
  · with_reducible refine Same.upd_eng rfl ?_
    exact Same.refl _ _
  · split
    · exact Same.refl _ _
    · with_reducible refine Same.ite ?_ ?_
      · exact Same.refl _ _
      · with_reducible refine Same.upd_eng rfl ?_
        with_reducible refine Same.ite ?_ ?_
        · with_reducible refine Same.step (State.modStat_same ..) rfl ?_
          with_reducible refine Same.step (State.publish_same ..) rfl ?_
          exact Same.refl _ _
        · with_reducible refine Same.step (State.publish_same ..) rfl ?_
          exact Same.refl _ _

theorem State.modLeave_same (s : State) (f : Leave → Leave) :
    Same [.leave] s (State.modLeave s f) := by
  unfold State.modLeave
  with_reducible refine Same.upd_leave rfl ?_
  exact Same.refl _ _

theorem State.settleWait_same (s : State) :
    Same [.leave] s (State.settleWait s) := by
  unfold State.settleWait
  with_reducible refine Same.ite ?_ ?_
  · with_reducible refine Same.step (State.modLeave_same ..) rfl ?_
    exact Same.refl _ _
  · with_reducible refine Same.ite ?_ ?_
    · with_reducible refine Same.step (State.modLeave_same ..) rfl ?_
      exact Same.refl _ _
    · with_reducible refine Same.step (State.modLeave_same ..) rfl ?_
      exact Same.refl _ _

theorem State.startRequest_same (s : State) :
    Same [.leave] s (State.startRequest s) := by
  unfold State.startRequest
  with_reducible refine Same.ite ?_ ?_
  · with_reducible refine Same.step (State.modLeave_same ..) rfl ?_
    exact Same.refl _ _
  · with_reducible refine Same.ite ?_ ?_
    · exact Same.refl _ _
    · with_reducible refine Same.ite ?_ ?_
      · with_reducible refine Same.step (State.modLeave_same ..) rfl ?_
        exact Same.refl _ _
      · with_reducible refine Same.ite ?_ ?_
        · with_reducible refine Same.step (State.modLeave_same ..) rfl ?_
          exact Same.refl _ _
        · with_reducible refine Same.step (State.modLeave_same ..) rfl ?_
          exact Same.refl _ _

theorem State.requestLeave_same (s : State) (op : HeavyOp) :
    Same [.leave] s (State.requestLeave s op) := by
  unfold State.requestLeave
  with_reducible refine Same.ite ?_ ?_
  · exact Same.refl _ _
  · with_reducible refine Same.step (State.settleWait_same ..) rfl ?_
    with_reducible refine Same.ite ?_ ?_
    · with_reducible refine Same.step (State.startRequest_same ..) rfl ?_
      with_reducible refine Same.step (State.modLeave_same ..) rfl ?_
      exact Same.refl _ _
    · with_reducible refine Same.step (State.modLeave_same ..) rfl ?_
      exact Same.refl _ _

theorem State.dropRequest_same (s : State) (op : HeavyOp) :
    Same [.leave] s (State.dropRequest s op) := by
  unfold State.dropRequest
  with_reducible refine Same.step (State.settleWait_same ..) rfl ?_
  with_reducible refine Same.ite ?_ ?_
  · with_reducible refine Same.step (State.modLeave_same ..) rfl ?_
    with_reducible refine Same.step (State.modLeave_same ..) rfl ?_
    exact Same.refl _ _
  · with_reducible refine Same.step (State.modLeave_same ..) rfl ?_
    exact Same.refl _ _

theorem State.releaseLeave_same (s : State) :
    Same [.leave] s (State.releaseLeave s) := by
  unfold State.releaseLeave
  with_reducible refine Same.ite ?_ ?_
  · with_reducible refine Same.step (State.settleWait_same ..) rfl ?_
    with_reducible refine Same.step (State.startRequest_same ..) rfl ?_
    with_reducible refine Same.step (State.modLeave_same ..) rfl ?_
    exact Same.refl _ _
  · exact Same.refl _ _

theorem State.releaseFor_same (s : State) (op : HeavyOp) :
    Same [.leave] s (State.releaseFor s op) := by
  unfold State.releaseFor
  with_reducible refine Same.ite ?_ ?_
  · with_reducible refine Same.step (State.releaseLeave_same ..) rfl ?_
    exact Same.refl _ _
  · exact Same.refl _ _

theorem State.withdrawLeave_same (s : State) :
    Same [.leave] s (State.withdrawLeave s) := by
  unfold State.withdrawLeave
  with_reducible refine Same.ite ?_ ?_
  · exact Same.refl _ _
  · with_reducible refine Same.step (State.settleWait_same ..) rfl ?_
    with_reducible refine Same.ite ?_ ?_
    · with_reducible refine Same.step (State.modLeave_same ..) rfl ?_
      with_reducible refine Same.step (State.modLeave_same ..) rfl ?_
      exact Same.refl _ _
    · with_reducible refine Same.step (State.modLeave_same ..) rfl ?_
      exact Same.refl _ _

theorem State.resumeLeave_same (s : State) :
    Same [.leave] s (State.resumeLeave s) := by
  unfold State.resumeLeave
  with_reducible refine Same.ite ?_ ?_
  · with_reducible refine Same.step (State.settleWait_same ..) rfl ?_
    with_reducible refine Same.step (State.modLeave_same ..) rfl ?_
    exact Same.refl _ _
  · with_reducible refine Same.step (State.settleWait_same ..) rfl ?_
    with_reducible refine Same.step (State.startRequest_same ..) rfl ?_
    with_reducible refine Same.step (State.modLeave_same ..) rfl ?_
    exact Same.refl _ _

theorem State.unjoin_same (s : State) (x0 : HeavyOp) :
    Same [.chan] s (State.unjoin s x0) := by
  unfold State.unjoin
  split
  · with_reducible refine Same.modChan (.inr fun _ => rfl) (.inr fun _ => rfl) rfl ?_
    exact Same.refl _ _
  · with_reducible refine Same.modChan (.inr fun _ => rfl) (.inr fun _ => rfl) rfl ?_
    exact Same.refl _ _
  · exact Same.refl _ _

theorem State.giveBack_same (s : State) :
    Same [.chan, .leave] s (State.giveBack s) := by
  unfold State.giveBack
  split
  · with_reducible refine Same.ite ?_ ?_
    · exact Same.refl _ _
    · with_reducible refine Same.step (State.settleWait_same ..) rfl ?_
      with_reducible refine Same.step (State.modLeave_same ..) rfl ?_
      with_reducible refine Same.step (State.releaseLeave_same ..) rfl ?_
      with_reducible refine Same.step (State.unjoin_same ..) rfl ?_
      exact Same.refl _ _
  · exact Same.refl _ _

theorem State.dropHold_same (s : State) :
    Same [.chan, .leave] s (State.dropHold s) := by
  unfold State.dropHold
  split
  · with_reducible refine Same.ite ?_ ?_
    · exact Same.refl _ _
    · with_reducible refine Same.ite ?_ ?_
      · with_reducible refine Same.step (State.releaseLeave_same ..) rfl ?_
        exact Same.refl _ _
      · with_reducible refine Same.step (State.giveBack_same ..) rfl ?_
        exact Same.refl _ _
  · exact Same.refl _ _

theorem State.lineChange_same (s : State) (high : Bool) :
    Same [.leave] s (State.lineChange s high) := by
  unfold State.lineChange
  with_reducible refine Same.step (State.modLeave_same ..) rfl ?_
  exact Same.refl _ _

theorem State.lineSeen_same (s : State) (width : Nat) :
    Same [.free] s (State.lineSeen s width).2 := by
  unfold State.lineSeen
  with_reducible refine Same.ite_snd ?_ ?_
  · exact Same.refl _ _
  · with_reducible refine Same.ite_snd ?_ ?_
    · with_reducible refine Same.step (State.drawBit_same ..) rfl ?_
      exact Same.refl _ _
    · exact Same.refl _ _

theorem State.startWon_same (s : State) (op : HeavyOp) :
    Same [.flash, .leave, .svc] s (State.startWon s op) := by
  unfold State.startWon
  dsimp only
  split
  · with_reducible refine Same.ite ?_ (Same.refl _ _)
    with_reducible refine Same.step (State.withdrawLeave_same ..) rfl ?_
    with_reducible refine Same.upd_flash rfl (.inr rfl) ?_
    exact Same.refl _ _
  · split
    · with_reducible refine Same.upd_flash_svc rfl (.inr rfl) rfl (.inr rfl) ?_
      exact Same.refl _ _
    · exact Same.refl _ _

theorem State.enterJoin_same (s : State) (x0 : HeavyOp) :
    Same [.chan] s (State.enterJoin s x0) := by
  unfold State.enterJoin
  split
  · with_reducible refine Same.modChan (.inr fun _ => rfl) (.inr fun _ => rfl) rfl ?_
    exact Same.refl _ _
  · with_reducible refine Same.modChan (.inr fun _ => rfl) (.inr fun _ => rfl) rfl ?_
    exact Same.refl _ _
  · exact Same.refl _ _

theorem State.winLeave_same (s : State) :
    Same [.chan, .flash, .leave, .faults, .svc] s (State.winLeave s) := by
  unfold State.winLeave
  split
  · with_reducible refine Same.ite ?_ ?_
    · with_reducible refine Same.step (State.startWon_same ..) rfl ?_
      with_reducible refine Same.step (State.enterJoin_same ..) rfl ?_
      with_reducible refine Same.step (State.clearFault_same ..) rfl ?_
      with_reducible refine Same.step (State.modLeave_same ..) rfl ?_
      exact Same.refl _ _
    · exact Same.refl _ _
  · exact Same.refl _ _

theorem State.holdoffEnd_same (s : State) :
    Same [.leave] s (State.holdoffEnd s) := by
  unfold State.holdoffEnd
  split
  · with_reducible refine Same.ite ?_ ?_
    · with_reducible refine Same.step (State.settleWait_same ..) rfl ?_
      with_reducible refine Same.step (State.startRequest_same ..) rfl ?_
      exact Same.refl _ _
    · exact Same.refl _ _
  · exact Same.refl _ _

theorem State.withdrawal_same (s : State) :
    Same [.leave] s (State.withdrawal s) := by
  unfold State.withdrawal
  with_reducible refine Same.ite ?_ ?_
  · with_reducible refine Same.step (State.withdrawLeave_same ..) rfl ?_
    exact Same.refl _ _
  · with_reducible refine Same.ite ?_ ?_
    · with_reducible refine Same.step (State.resumeLeave_same ..) rfl ?_
      exact Same.refl _ _
    · exact Same.refl _ _

theorem State.starve_same (s : State) :
    Same [.leave, .faults] s (State.starve s) := by
  unfold State.starve
  split
  · with_reducible refine Same.ite ?_ ?_
    · with_reducible refine Same.step (State.raise_same ..) rfl ?_
      with_reducible refine Same.step (State.modLeave_same ..) rfl ?_
      exact Same.refl _ _
    · exact Same.refl _ _
  · exact Same.refl _ _

theorem State.markBad_same (s : State) (ws : List Nat) :
    Same [.flash] s (State.markBad s ws) := by
  unfold State.markBad
  with_reducible refine Same.upd_flash rfl (.inr rfl) ?_
  exact Same.refl _ _

theorem State.blurTally_same (s : State) (p : Nat) :
    Same [.free, .flash, .mem] s (State.blurTally s p) := by
  unfold State.blurTally
  with_reducible refine Same.upd_free rfl ?_
  with_reducible refine Same.foldl (fun _ _ => ?_) ?_
  · with_reducible refine Same.step (State.flashProgram_same ..) rfl ?_
    exact Same.refl _ _
  with_reducible refine Same.step (State.flashEraseSector_same ..) rfl ?_
  exact Same.refl _ _

theorem State.spoilErase_same (s : State) (p : Nat) :
    Same [.free, .flash, .mem] s (State.spoilErase s p) := by
  unfold State.spoilErase
  with_reducible refine Same.ite ?_ ?_
  · with_reducible refine Same.step (State.blurTally_same ..) rfl ?_
    exact Same.refl _ _
  · with_reducible refine Same.step (State.markBad_same ..) rfl ?_
    with_reducible refine Same.step (State.flashEraseSector_same ..) rfl ?_
    exact Same.refl _ _

theorem State.spoilProgram_same (s : State) (x : Nat) (bs : List Byte) :
    Same [.free, .flash, .mem] s (State.spoilProgram s x bs) := by
  unfold State.spoilProgram
  with_reducible refine Same.ite ?_ ?_
  · with_reducible refine Same.step (State.flashProgram_same ..) rfl ?_
    with_reducible refine Same.upd_free rfl ?_
    exact Same.refl _ _
  · with_reducible refine Same.step (State.markBad_same ..) rfl ?_
    with_reducible refine Same.step (State.flashProgram_same ..) rfl ?_
    exact Same.refl _ _

theorem State.wear_same (s : State) (p : Nat) (retries : Nat) :
    Same [.flash] s (State.wear s p retries) := by
  unfold State.wear
  with_reducible refine Same.ite ?_ ?_
  · with_reducible refine Same.upd_flash rfl (.inr rfl) ?_
    exact Same.refl _ _
  · exact Same.refl _ _

theorem State.retryFault_same (s : State) (p : Nat) (n : Nat) :
    Same [.faults] s (State.retryFault s p n) := by
  unfold State.retryFault
  with_reducible refine Same.step (State.log_same ..) rfl ?_
  exact Same.refl _ _

theorem State.retried_same (s : State) (p : Nat) (n : Nat) :
    Same [.flash, .faults] s (State.retried s p n) := by
  unfold State.retried
  with_reducible refine Same.step (State.wear_same ..) rfl ?_
  with_reducible refine Same.foldl (fun _ _ => ?_) ?_
  · with_reducible refine Same.step (State.retryFault_same ..) rfl ?_
    exact Same.refl _ _
  exact Same.refl _ _

theorem State.noteTook_same (s : State) (p : Nat) (took : Nat) :
    Same [.flash, .faults] s (State.noteTook s p took) := by
  unfold State.noteTook
  with_reducible refine Same.ite ?_ ?_
  · with_reducible refine Same.step (State.log_same ..) rfl ?_
    with_reducible refine Same.upd_flash rfl (.inr rfl) ?_
    exact Same.refl _ _
  · with_reducible refine Same.upd_flash rfl (.inr rfl) ?_
    exact Same.refl _ _

theorem State.eraseNow_same (s : State) (p : Nat) :
    Same [.free, .flash, .mem, .faults] s (State.eraseNow s p) := by
  unfold State.eraseNow
  with_reducible refine Same.step (State.retried_same ..) rfl ?_
  with_reducible refine Same.step (State.noteTook_same ..) rfl ?_
  with_reducible refine Same.ite ?_ ?_
  · with_reducible refine Same.step (State.spoilErase_same ..) rfl ?_
    with_reducible refine Same.step (State.drawNat_same ..) rfl ?_
    exact Same.refl _ _
  · with_reducible refine Same.step (State.flashEraseSector_same ..) rfl ?_
    with_reducible refine Same.step (State.drawNat_same ..) rfl ?_
    exact Same.refl _ _

theorem State.programNow_same (s : State) (x : Nat) (bs : List Byte) :
    Same [.free, .flash, .mem, .faults] s (State.programNow s x bs) := by
  unfold State.programNow
  with_reducible refine Same.step (State.retried_same ..) rfl ?_
  with_reducible refine Same.ite ?_ ?_
  · with_reducible refine Same.step (State.spoilProgram_same ..) rfl ?_
    with_reducible refine Same.step (State.drawNat_same ..) rfl ?_
    exact Same.refl _ _
  · with_reducible refine Same.step (State.flashProgram_same ..) rfl ?_
    with_reducible refine Same.step (State.drawNat_same ..) rfl ?_
    exact Same.refl _ _

theorem State.journalPut_same (s : State) (w : Nat) :
    Same [.free, .flash, .mem, .faults] s (State.journalPut s w) := by
  unfold State.journalPut
  with_reducible refine Same.upd_flash rfl (.inl rfl) ?_
  with_reducible refine Same.step (State.programNow_same ..) rfl ?_
  exact Same.refl _ _

theorem State.journalComplete_same (s : State) (i : Nat) :
    Same [.free, .flash, .mem, .faults] s (State.journalComplete s i) := by
  unfold State.journalComplete
  with_reducible refine Same.step (State.programNow_same ..) rfl ?_
  with_reducible refine Same.upd_flash rfl (.inl rfl) ?_
  exact Same.refl _ _

theorem State.completeErased_same (s : State) (i : Nat) (p : Nat) :
    Same [.free, .flash, .mem, .faults] s (State.completeErased s i p) := by
  unfold State.completeErased
  with_reducible refine Same.ite ?_ ?_
  · with_reducible refine Same.step (State.journalComplete_same ..) rfl ?_
    exact Same.refl _ _
  · exact Same.refl _ _

theorem State.journalRoom_same (s : State) :
    Same [.free, .flash, .mem, .faults] s (State.journalRoom s) := by
  unfold State.journalRoom
  with_reducible refine Same.ite ?_ ?_
  · exact Same.refl _ _
  · with_reducible refine Same.step (State.completeErased_same ..) rfl ?_
    with_reducible refine Same.step (State.eraseNow_same ..) rfl ?_
    with_reducible refine Same.step (State.journalPut_same ..) rfl ?_
    with_reducible refine Same.foldl (fun _ _ => ?_) ?_
    · split
      · with_reducible refine Same.step (State.journalPut_same ..) rfl ?_
        exact Same.refl _ _
      · exact Same.refl _ _
    exact Same.refl _ _

theorem State.journalBegin_same (s : State) (w : Nat) :
    Same [.free, .flash, .mem, .faults] s (State.journalBegin s w).2 := by
  unfold State.journalBegin
  with_reducible refine Same.step (State.journalPut_same ..) rfl ?_
  with_reducible refine Same.step (State.journalRoom_same ..) rfl ?_
  exact Same.refl _ _

theorem State.journaledErase_same (s : State) (area : Nat) (p : Nat) :
    Same [.free, .flash, .mem, .faults] s (State.journaledErase s area p) := by
  unfold State.journaledErase
  with_reducible refine Same.step (State.completeErased_same ..) rfl ?_
  with_reducible refine Same.step (State.eraseNow_same ..) rfl ?_
  with_reducible refine Same.step (State.journalBegin_same ..) rfl ?_
  exact Same.refl _ _

theorem State.appendCarry_same (s : State) (p : Nat) (carry : Nat) (cleared : Byte) :
    Same [.free, .flash, .mem, .faults] s (State.appendCarry s p carry cleared) := by
  unfold State.appendCarry
  split
  · with_reducible refine Same.step (State.programNow_same ..) rfl ?_
    exact Same.refl _ _
  · with_reducible refine Same.step (State.programNow_same ..) rfl ?_
    with_reducible refine Same.step (State.journaledErase_same ..) rfl ?_
    exact Same.refl _ _

theorem State.setCleared_same (s : State) (p : Nat) :
    Same [.free, .flash, .mem, .faults] s (State.setCleared s p) := by
  unfold State.setCleared
  split
  · with_reducible refine Same.step (State.programNow_same ..) rfl ?_
    exact Same.refl _ _
  · exact Same.refl _ _

theorem State.clearTally_same (s : State) (q : Nat × Nat × Nat) :
    Same [.free, .flash, .mem, .faults] s (State.clearTally s q) := by
  unfold State.clearTally
  with_reducible refine Same.step (State.setCleared_same ..) rfl ?_
  with_reducible refine Same.step (State.setCleared_same ..) rfl ?_
  with_reducible refine Same.step (State.journaledErase_same ..) rfl ?_
  exact Same.refl _ _

theorem State.rowCarry_same (s : State) (q : Nat × Nat × Nat) :
    Same [.free, .flash, .mem, .faults] s (State.rowCarry s q) := by
  unfold State.rowCarry
  with_reducible refine Same.step (State.clearTally_same ..) rfl ?_
  with_reducible refine Same.step (State.appendCarry_same ..) rfl ?_
  with_reducible refine Same.step (State.appendCarry_same ..) rfl ?_
  exact Same.refl _ _

theorem State.rowIncrement_same (s : State) (c : RowId) :
    Same [.free, .flash, .mem, .faults] s (State.rowIncrement s c) := by
  unfold State.rowIncrement
  with_reducible refine Same.ite ?_ ?_
  · with_reducible refine Same.step (State.rowCarry_same ..) rfl ?_
    with_reducible refine Same.step (State.programNow_same ..) rfl ?_
    exact Same.refl _ _
  · with_reducible refine Same.step (State.programNow_same ..) rfl ?_
    exact Same.refl _ _

theorem State.rowAdvance_same (c : RowId) : ∀ (x0 : Nat) (x1 : State),
    Same [.free, .flash, .mem, .faults] x1 (State.rowAdvance c x0 x1)
  | 0, s => Same.refl _ s
  | n + 1, s => (State.rowIncrement_same s c).trans (State.rowAdvance_same c n (s.rowIncrement c))

theorem State.resolved_same (s : State) (c : RowId) :
    Same [.faults] s (State.resolved s c) := by
  unfold State.resolved
  with_reducible refine Same.step (State.log_same ..) rfl ?_
  exact Same.refl _ _

theorem State.reconcileRow_same (s : State) (c : RowId) :
    Same [.free, .flash, .mem, .faults] s (State.reconcileRow s c) := by
  unfold State.reconcileRow
  with_reducible refine Same.ite ?_ ?_
  · with_reducible refine Same.step (State.resolved_same ..) rfl ?_
    with_reducible refine Same.step (State.rowCarry_same ..) rfl ?_
    with_reducible refine Same.ite ?_ ?_
    · with_reducible refine Same.ite ?_ ?_
      · with_reducible refine Same.step (State.resolved_same ..) rfl ?_
        with_reducible refine Same.step (State.clearTally_same ..) rfl ?_
        with_reducible refine Same.ite ?_ ?_
        · with_reducible refine Same.step (State.resolved_same ..) rfl ?_
          with_reducible refine Same.step (State.appendCarry_same ..) rfl ?_
          exact Same.refl _ _
        · with_reducible refine Same.ite ?_ ?_
          · with_reducible refine Same.step (State.resolved_same ..) rfl ?_
            with_reducible refine Same.step (State.appendCarry_same ..) rfl ?_
            exact Same.refl _ _
          · exact Same.refl _ _
      · with_reducible refine Same.ite ?_ ?_
        · with_reducible refine Same.step (State.resolved_same ..) rfl ?_
          with_reducible refine Same.step (State.appendCarry_same ..) rfl ?_
          exact Same.refl _ _
        · with_reducible refine Same.ite ?_ ?_
          · with_reducible refine Same.step (State.resolved_same ..) rfl ?_
            with_reducible refine Same.step (State.appendCarry_same ..) rfl ?_
            exact Same.refl _ _
          · exact Same.refl _ _
    · with_reducible refine Same.step (State.resolved_same ..) rfl ?_
      with_reducible refine Same.foldl (fun _ _ => ?_) ?_
      · with_reducible refine Same.step (State.programNow_same ..) rfl ?_
        exact Same.refl _ _
      with_reducible refine Same.ite ?_ ?_
      · with_reducible refine Same.step (State.resolved_same ..) rfl ?_
        with_reducible refine Same.step (State.clearTally_same ..) rfl ?_
        with_reducible refine Same.ite ?_ ?_
        · with_reducible refine Same.step (State.resolved_same ..) rfl ?_
          with_reducible refine Same.step (State.appendCarry_same ..) rfl ?_
          exact Same.refl _ _
        · with_reducible refine Same.ite ?_ ?_
          · with_reducible refine Same.step (State.resolved_same ..) rfl ?_
            with_reducible refine Same.step (State.appendCarry_same ..) rfl ?_
            exact Same.refl _ _
          · exact Same.refl _ _
      · with_reducible refine Same.ite ?_ ?_
        · with_reducible refine Same.step (State.resolved_same ..) rfl ?_
          with_reducible refine Same.step (State.appendCarry_same ..) rfl ?_
          exact Same.refl _ _
        · with_reducible refine Same.ite ?_ ?_
          · with_reducible refine Same.step (State.resolved_same ..) rfl ?_
            with_reducible refine Same.step (State.appendCarry_same ..) rfl ?_
            exact Same.refl _ _
          · exact Same.refl _ _
  · with_reducible refine Same.ite ?_ ?_
    · with_reducible refine Same.ite ?_ ?_
      · with_reducible refine Same.step (State.resolved_same ..) rfl ?_
        with_reducible refine Same.step (State.clearTally_same ..) rfl ?_
        with_reducible refine Same.ite ?_ ?_
        · with_reducible refine Same.step (State.resolved_same ..) rfl ?_
          with_reducible refine Same.step (State.appendCarry_same ..) rfl ?_
          exact Same.refl _ _
        · with_reducible refine Same.ite ?_ ?_
          · with_reducible refine Same.step (State.resolved_same ..) rfl ?_
            with_reducible refine Same.step (State.appendCarry_same ..) rfl ?_
            exact Same.refl _ _
          · exact Same.refl _ _
      · with_reducible refine Same.ite ?_ ?_
        · with_reducible refine Same.step (State.resolved_same ..) rfl ?_
          with_reducible refine Same.step (State.appendCarry_same ..) rfl ?_
          exact Same.refl _ _
        · with_reducible refine Same.ite ?_ ?_
          · with_reducible refine Same.step (State.resolved_same ..) rfl ?_
            with_reducible refine Same.step (State.appendCarry_same ..) rfl ?_
            exact Same.refl _ _
          · exact Same.refl _ _
    · with_reducible refine Same.step (State.resolved_same ..) rfl ?_
      with_reducible refine Same.foldl (fun _ _ => ?_) ?_
      · with_reducible refine Same.step (State.programNow_same ..) rfl ?_
        exact Same.refl _ _
      with_reducible refine Same.ite ?_ ?_
      · with_reducible refine Same.step (State.resolved_same ..) rfl ?_
        with_reducible refine Same.step (State.clearTally_same ..) rfl ?_
        with_reducible refine Same.ite ?_ ?_
        · with_reducible refine Same.step (State.resolved_same ..) rfl ?_
          with_reducible refine Same.step (State.appendCarry_same ..) rfl ?_
          exact Same.refl _ _
        · with_reducible refine Same.ite ?_ ?_
          · with_reducible refine Same.step (State.resolved_same ..) rfl ?_
            with_reducible refine Same.step (State.appendCarry_same ..) rfl ?_
            exact Same.refl _ _
          · exact Same.refl _ _
      · with_reducible refine Same.ite ?_ ?_
        · with_reducible refine Same.step (State.resolved_same ..) rfl ?_
          with_reducible refine Same.step (State.appendCarry_same ..) rfl ?_
          exact Same.refl _ _
        · with_reducible refine Same.ite ?_ ?_
          · with_reducible refine Same.step (State.resolved_same ..) rfl ?_
            with_reducible refine Same.step (State.appendCarry_same ..) rfl ?_
            exact Same.refl _ _
          · exact Same.refl _ _

theorem State.appendRecs_same (s : State) (rs : List (List Byte)) :
    Same [.free, .flash, .mem, .faults] s (State.appendRecs s rs) := by
  unfold State.appendRecs
  with_reducible refine Same.foldl (fun _ _ => ?_) ?_
  · with_reducible refine Same.upd_flash rfl (.inl rfl) ?_
    with_reducible refine Same.step (State.programNow_same ..) rfl ?_
    exact Same.refl _ _
  exact Same.refl _ _

theorem State.findLog_same (s : State) :
    Same [.flash] s (State.findLog s) := by
  unfold State.findLog
  try dsimp only
  split
  · with_reducible refine Same.upd_flash rfl (.inr rfl) ?_
    exact Same.refl _ _
  · with_reducible refine Same.upd_flash rfl (.inr rfl) ?_
    exact Same.refl _ _

theorem State.buildIndex_same (s : State) :
    Same [.flash, .faults] s (State.buildIndex s) := by
  unfold State.buildIndex
  with_reducible refine Same.foldl (fun _ _ => ?_) ?_
  · with_reducible refine Same.step (State.log_same ..) rfl ?_
    exact Same.refl _ _
  with_reducible refine Same.step (State.findLog_same ..) rfl ?_
  exact Same.refl _ _

theorem State.tickStamp_same (s : State) (n : Chan) (inst : Nat) (slot : Fin 16) :
    Same [.free, .chan] s (State.tickStamp s n inst slot) := by
  unfold State.tickStamp
  with_reducible refine Same.modChan (.inr fun _ => rfl) (.inr fun _ => rfl) rfl ?_
  with_reducible refine Same.step (State.countAt_same ..) rfl ?_
  exact Same.refl _ _

theorem State.edgeStamp_same (s : State) (n : Chan) (full : Nat) (captureAt : Nat) :
    Same [.chan] s (State.edgeStamp s n full captureAt) := by
  unfold State.edgeStamp
  with_reducible refine Same.modChan (.inr fun _ => rfl) (.inr fun _ => rfl) rfl ?_
  exact Same.refl _ _

theorem State.takeCaptures_same (s : State) (k : Nat) :
    Same [.chan] s (State.takeCaptures s k) := by
  unfold State.takeCaptures
  with_reducible refine Same.upd_chan rfl (.inr fun m => ?_) (.inr fun m => ?_) (Same.refl _ _)
  · simp only [Per8.get_map]
  · simp only [Per8.get_map]

theorem State.land_same (s : State) (n : Chan) (f : Flight) :
    Same [.chan, .stat, .eng, .chain, .ao, .faults] s (State.land s n f) := by
  unfold State.land
  with_reducible refine Same.step (State.statInput_same ..) rfl ?_
  with_reducible refine Same.step (State.arrive_same ..) rfl ?_
  with_reducible refine Same.ite ?_ ?_
  · with_reducible refine Same.modChan (.inr fun _ => rfl) (.inr fun _ => rfl) rfl ?_
    with_reducible refine Same.modChan (.inr fun _ => rfl) (.inr fun _ => rfl) rfl ?_
    exact Same.refl _ _
  · with_reducible refine Same.modChan (.inr fun _ => rfl) (.inr fun _ => rfl) rfl ?_
    exact Same.refl _ _

theorem State.settle_same : ∀ (fuel : Nat) (s : State),
    Same [.chan, .stat, .eng, .chain, .ao, .faults] s (State.settle fuel s)
  | 0, s => Same.refl _ s
  | fuel + 1, s => by
    unfold State.settle
    split
    · with_reducible refine Same.ite ?_ (Same.refl _ _)
      with_reducible exact (State.land_same ..).trans (State.settle_same fuel _)
    · exact Same.refl _ _

theorem State.settleAll_same (s : State) :
    Same [.chan, .stat, .eng, .chain, .ao, .faults] s (State.settleAll s) := by
  unfold State.settleAll
  with_reducible refine Same.step (State.settle_same ..) rfl ?_
  exact Same.refl _ _

theorem State.tickChannel_same (s : State) (n : Chan) (inst : Nat) (slot : Fin 16) :
    Same [.free, .chan] s (State.tickChannel s n inst slot) := by
  unfold State.tickChannel
  with_reducible refine Same.ite (Same.refl _ _) (Same.ite ?_ (Same.ite (Same.refl _ _) ?_))
  · with_reducible refine Same.modChan (.inr fun _ => ?_) (.inr fun _ => ?_) rfl (Same.refl _ _) <;> split <;> rfl
  · have h : Same [Part.free, .chan] s (if (s.chan.get n).pending then
        s.modChan n fun c => { c with expired := c.expired + 1 } else s) :=
      Same.ite (Same.modChan (.inr fun _ => rfl) (.inr fun _ => rfl) rfl (Same.refl _ _)) (Same.refl _ _)
    with_reducible refine Same.modChan (.inr fun _ => rfl) (.inr fun _ => rfl) rfl (Same.ite ?_ ?_)
    · with_reducible refine Same.step (State.tickStamp_same ..) rfl ?_
      with_reducible exact Same.modChan (.inr fun _ => rfl) (.inr fun _ => rfl) rfl h
    · exact h

theorem State.tickAll_same (s : State) (inst : Nat) (slot : Fin 16) :
    Same [.free, .chan] s (State.tickAll s inst slot) := by
  unfold State.tickAll
  with_reducible refine Same.eachChan (fun _ _ => ?_) ?_
  · with_reducible refine Same.step (State.tickChannel_same ..) rfl ?_
    exact Same.refl _ _
  exact Same.refl _ _

theorem State.timeTick_same (s : State) (slot : Fin 16) :
    Same [.free, .chan, .sched] s (State.timeTick s slot) := by
  unfold State.timeTick
  split
  · with_reducible refine Same.ite ?_ ?_
    · split
      · with_reducible refine Same.step (State.issue_same ..) rfl ?_
        with_reducible refine Same.step (State.tickAll_same ..) rfl ?_
        exact Same.refl _ _
      · exact Same.refl _ _
    · exact Same.refl _ _
  · exact Same.refl _ _

theorem State.angleTick_same (s : State) :
    Same [.free, .chan, .sched] s (State.angleTick s) := by
  unfold State.angleTick
  split
  · with_reducible refine Same.ite ?_ ?_
    · with_reducible refine Same.step (State.issue_same ..) rfl ?_
      with_reducible refine Same.step (State.tickAll_same ..) rfl ?_
      exact Same.refl _ _
    · exact Same.refl _ _
  · exact Same.refl _ _

theorem State.goAbsentUp_same (s : State) (n : Chan) :
    Same [.chan] s (State.goAbsentUp s n) := by
  unfold State.goAbsentUp
  with_reducible refine Same.modChan (.inr fun _ => rfl) (.inr fun _ => rfl) rfl ?_
  exact Same.refl _ _

theorem State.settleBoot_same (s : State) :
    Same [.cal, .core] s (State.settleBoot s) := by
  unfold State.settleBoot
  with_reducible refine Same.ite ?_ ?_
  · with_reducible refine Same.upd_cal_core rfl rfl ?_
    exact Same.refl _ _
  · exact Same.refl _ _

theorem State.settleJoin_same (s : State) :
    Same [.cal] s (State.settleJoin s) := by
  unfold State.settleJoin
  with_reducible refine Same.upd_cal rfl ?_
  exact Same.refl _ _

theorem State.withdrawJoin_same (s : State) (n : Chan) :
    Same [.chan, .cal, .leave, .core, .faults] s (State.withdrawJoin s n) := by
  unfold State.withdrawJoin
  with_reducible refine Same.step (State.settleBoot_same ..) rfl ?_
  with_reducible refine Same.step (State.settleJoin_same ..) rfl ?_
  with_reducible refine Same.step (State.log_same ..) rfl ?_
  with_reducible refine Same.step (State.dropRequest_same ..) rfl ?_
  with_reducible refine Same.step (State.dropRequest_same ..) rfl ?_
  with_reducible refine Same.modChan (.inr fun _ => rfl) (.inr fun _ => rfl) rfl ?_
  exact Same.refl _ _

theorem State.presence_same (s : State) (n : Chan) (stable : Bool) :
    Same [.chan, .cal, .leave, .core, .faults] s (State.presence s n stable) := by
  unfold State.presence
  try dsimp only
  split
  · with_reducible refine Same.ite ?_ ?_
    · with_reducible refine Same.modChan (.inr fun _ => rfl) (.inr fun _ => rfl) rfl ?_
      exact Same.refl _ _
    · with_reducible refine Same.ite ?_ ?_
      · with_reducible refine Same.modChan (.inr fun _ => rfl) (.inr fun _ => rfl) rfl ?_
        exact Same.refl _ _
      · with_reducible refine Same.modChan (.inr fun _ => rfl) (.inr fun _ => rfl) rfl ?_
        exact Same.refl _ _
  · with_reducible refine Same.ite ?_ ?_
    · with_reducible refine Same.modChan (.inr fun _ => rfl) (.inr fun _ => rfl) rfl ?_
      exact Same.refl _ _
    · with_reducible refine Same.ite ?_ ?_
      · with_reducible refine Same.modChan (.inr fun _ => rfl) (.inr fun _ => rfl) rfl ?_
        exact Same.refl _ _
      · with_reducible refine Same.modChan (.inr fun _ => rfl) (.inr fun _ => rfl) rfl ?_
        exact Same.refl _ _
  · with_reducible refine Same.ite ?_ ?_
    · exact Same.refl _ _
    · with_reducible refine Same.step (State.withdrawJoin_same ..) rfl ?_
      exact Same.refl _ _
  · with_reducible refine Same.ite ?_ ?_
    · exact Same.refl _ _
    · with_reducible refine Same.modChan (.inr fun _ => rfl) (.inr fun _ => rfl) rfl ?_
      exact Same.refl _ _
  · exact Same.refl _ _
  · exact Same.refl _ _
  · exact Same.refl _ _

theorem State.countEdge_same (s : State) (n : Chan) (bin : Byte) (narrow : Bool) (pos : Int) (neg : Int) :
    Same [.chan, .counts, .cal, .leave, .core, .faults] s (State.countEdge s n bin narrow pos neg) := by
  unfold State.countEdge
  try dsimp only
  split
  · with_reducible refine Same.ite ?_ ?_
    · with_reducible refine Same.step (State.edgeStamp_same ..) rfl ?_
      with_reducible refine Same.step (State.presence_same ..) rfl ?_
      with_reducible refine Same.modChan (.inl rfl) (.inr fun _ => rfl) rfl ?_
      exact Same.refl _ _
    · with_reducible refine Same.step (State.presence_same ..) rfl ?_
      with_reducible refine Same.modChan (.inl rfl) (.inr fun _ => rfl) rfl ?_
      exact Same.refl _ _
  · with_reducible refine Same.step (State.presence_same ..) rfl ?_
    with_reducible refine Same.modChan (.inl rfl) (.inr fun _ => rfl) rfl ?_
    exact Same.refl _ _

theorem State.activeEdge_same (s : State) (n : Chan) (bin : Byte) (pulse : Nat) (pos : Int) (neg : Int) :
    Same [.free, .chan, .counts, .cal, .leave, .core, .faults] s (State.activeEdge s n bin pulse pos neg) := by
  unfold State.activeEdge
  with_reducible refine Same.ite ?_ ?_
  · exact Same.refl _ _
  · with_reducible refine Same.ite ?_ ?_
    · with_reducible refine Same.step (State.countEdge_same ..) rfl ?_
      with_reducible refine Same.ite ?_ ?_
      · with_reducible refine Same.step (State.logLimited_same ..) rfl ?_
        with_reducible refine Same.ite_snd ?_ ?_
        · with_reducible refine Same.ite_snd ?_ ?_
          · with_reducible refine Same.step (State.drawBit_same ..) rfl ?_
            exact Same.refl _ _
          · exact Same.refl _ _
        · with_reducible refine Same.ite_snd ?_ ?_
          · with_reducible refine Same.step (State.drawBit_same ..) rfl ?_
            with_reducible refine Same.ite_snd ?_ ?_
            · with_reducible refine Same.step (State.drawBit_same ..) rfl ?_
              exact Same.refl _ _
            · exact Same.refl _ _
          · with_reducible refine Same.ite_snd ?_ ?_
            · with_reducible refine Same.step (State.drawBit_same ..) rfl ?_
              exact Same.refl _ _
            · exact Same.refl _ _
      · with_reducible refine Same.ite_snd ?_ ?_
        · with_reducible refine Same.ite_snd ?_ ?_
          · with_reducible refine Same.step (State.drawBit_same ..) rfl ?_
            exact Same.refl _ _
          · exact Same.refl _ _
        · with_reducible refine Same.ite_snd ?_ ?_
          · with_reducible refine Same.step (State.drawBit_same ..) rfl ?_
            with_reducible refine Same.ite_snd ?_ ?_
            · with_reducible refine Same.step (State.drawBit_same ..) rfl ?_
              exact Same.refl _ _
            · exact Same.refl _ _
          · with_reducible refine Same.ite_snd ?_ ?_
            · with_reducible refine Same.step (State.drawBit_same ..) rfl ?_
              exact Same.refl _ _
            · exact Same.refl _ _
    · with_reducible refine Same.ite ?_ ?_
      · with_reducible refine Same.step (State.logLimited_same ..) rfl ?_
        with_reducible refine Same.ite_snd ?_ ?_
        · with_reducible refine Same.ite_snd ?_ ?_
          · with_reducible refine Same.step (State.drawBit_same ..) rfl ?_
            exact Same.refl _ _
          · exact Same.refl _ _
        · with_reducible refine Same.ite_snd ?_ ?_
          · with_reducible refine Same.step (State.drawBit_same ..) rfl ?_
            with_reducible refine Same.ite_snd ?_ ?_
            · with_reducible refine Same.step (State.drawBit_same ..) rfl ?_
              exact Same.refl _ _
            · exact Same.refl _ _
          · with_reducible refine Same.ite_snd ?_ ?_
            · with_reducible refine Same.step (State.drawBit_same ..) rfl ?_
              exact Same.refl _ _
            · exact Same.refl _ _
      · with_reducible refine Same.ite_snd ?_ ?_
        · with_reducible refine Same.ite_snd ?_ ?_
          · with_reducible refine Same.step (State.drawBit_same ..) rfl ?_
            exact Same.refl _ _
          · exact Same.refl _ _
        · with_reducible refine Same.ite_snd ?_ ?_
          · with_reducible refine Same.step (State.drawBit_same ..) rfl ?_
            with_reducible refine Same.ite_snd ?_ ?_
            · with_reducible refine Same.step (State.drawBit_same ..) rfl ?_
              exact Same.refl _ _
            · exact Same.refl _ _
          · with_reducible refine Same.ite_snd ?_ ?_
            · with_reducible refine Same.step (State.drawBit_same ..) rfl ?_
              exact Same.refl _ _
            · exact Same.refl _ _

theorem State.stopStamping_same (s : State) (n : Chan) :
    Same [.chan, .stat] s (State.stopStamping s n) := by
  unfold State.stopStamping
  with_reducible refine Same.step (State.cutSamples_same ..) rfl ?_
  with_reducible refine Same.modChan (.inr fun _ => rfl) (.inr fun _ => rfl) rfl ?_
  exact Same.refl _ _

theorem State.enterPresent_same (s : State) (n : Chan) (inst : Nat) :
    Same [.chan, .faults] s (State.enterPresent s n inst) := by
  unfold State.enterPresent
  with_reducible refine Same.step (State.clearFault_same ..) rfl ?_
  with_reducible refine Same.modChan (.inr fun _ => rfl) (.inr fun _ => rfl) rfl ?_
  exact Same.refl _ _

theorem State.startYarn_same (s : State) (n : Chan) (inst : Nat) :
    Same [.chan, .yarns, .stat, .chain, .faults] s (State.startYarn s n inst) := by
  unfold State.startYarn
  with_reducible refine Same.step (State.enterPresent_same ..) rfl ?_
  with_reducible refine Same.step (State.statYarnStart_same ..) rfl ?_
  with_reducible refine Same.step (State.fwMarkerItem_same ..) rfl ?_
  with_reducible refine Same.modChan (.inr fun _ => rfl) (.inl rfl) rfl ?_
  exact Same.refl _ _

theorem State.capture_same (s : State) (n : Chan) :
    Same [.chan] s (State.capture s n) := by
  unfold State.capture
  with_reducible refine Same.modChan (.inr fun _ => rfl) (.inr fun _ => rfl) rfl ?_
  exact Same.refl _ _

theorem State.gapMarkers_same (s : State) (n : Chan) (rejoin : Bool) (inst1 : Nat) :
    Same [.chan, .chain] s (State.gapMarkers s n rejoin inst1) := by
  unfold State.gapMarkers
  split
  · with_reducible refine Same.step (State.fwMarkerItem_same ..) rfl ?_
    with_reducible refine Same.step (State.fwMarkerItem_same ..) rfl ?_
    with_reducible refine Same.modChan (.inr fun _ => rfl) (.inr fun _ => rfl) rfl ?_
    exact Same.refl _ _
  · exact Same.refl _ _

theorem State.beginRejoin_same (s : State) (n : Chan) :
    Same [.chan, .cal] s (State.beginRejoin s n) := by
  unfold State.beginRejoin
  with_reducible refine Same.upd_cal rfl ?_
  with_reducible refine Same.step (State.capture_same ..) rfl ?_
  exact Same.refl _ _

theorem State.startRejoin_same (s : State) (n : Chan) :
    Same [.chan, .cal] s (State.startRejoin s n) := by
  unfold State.startRejoin
  with_reducible refine Same.ite ?_ ?_
  · with_reducible refine Same.step (State.beginRejoin_same ..) rfl ?_
    exact Same.refl _ _
  · with_reducible refine Same.upd_cal rfl ?_
    exact Same.refl _ _

theorem State.landOne_same (s : State) (x0 : Late) :
    Same [.chan, .chain, .sched, .fol, .cal, .leave, .faults] s (State.landOne s x0) := by
  unfold State.landOne
  split
  · with_reducible refine Same.step (State.landCommand_same ..) rfl ?_
    exact Same.refl _ _
  · with_reducible refine Same.step (State.takeEvent_same ..) rfl ?_
    exact Same.refl _ _
  · with_reducible refine Same.step (State.takeStep_same ..) rfl ?_
    exact Same.refl _ _
  · with_reducible refine Same.step (State.gapMarkers_same ..) rfl ?_
    exact Same.refl _ _
  · with_reducible refine Same.ite ?_ ?_
    · with_reducible refine Same.step (State.startRejoin_same ..) rfl ?_
      with_reducible refine Same.modChan (.inr fun _ => rfl) (.inr fun _ => rfl) rfl ?_
      exact Same.refl _ _
    · with_reducible refine Same.ite ?_ ?_
      · with_reducible refine Same.modChan (.inr fun _ => rfl) (.inr fun _ => rfl) rfl ?_
        exact Same.refl _ _
      · with_reducible refine Same.step (State.releaseFor_same ..) rfl ?_
        with_reducible refine Same.modChan (.inr fun _ => rfl) (.inr fun _ => rfl) rfl ?_
        exact Same.refl _ _

theorem State.landLate_same (s : State) :
    Same [.chan, .chain, .sched, .fol, .cal, .leave, .faults] s (State.landLate s) := by
  unfold State.landLate
  with_reducible refine Same.foldl (fun _ _ => ?_) ?_
  · with_reducible exact (State.landOne_same ..).mono rfl
  with_reducible refine Same.upd_sched rfl ?_
  exact Same.refl _ _

theorem State.flow_same (dt : Nat) (s : State) :
    Same [.clock, .tb, .time, .chan, .stat, .eng, .chain, .ao, .faults, .seen] s (State.flow dt s) := by
  unfold State.flow
  with_reducible refine Same.step (State.settleAll_same ..) rfl ?_
  with_reducible refine Same.step (State.pass_same ..) rfl ?_
  with_reducible refine Same.ite ?_ ?_
  · with_reducible refine Same.step (State.takeCaptures_same ..) rfl ?_
    exact Same.refl _ _
  · exact Same.refl _ _

theorem advance_same (dt : Nat) (s : State) :
    Same [.clock, .tb, .time, .chan, .stat, .eng, .chain, .sched, .fol, .ao, .cal, .leave, .faults, .seen] s (advance dt s) := by
  unfold advance
  with_reducible refine Same.ite ?_ ?_
  · with_reducible refine Same.step (State.flow_same ..) rfl ?_
    exact Same.refl _ _
  · with_reducible refine Same.step (State.flow_same ..) rfl ?_
    with_reducible refine Same.step (State.landLate_same ..) rfl ?_
    with_reducible refine Same.step (State.flow_same ..) rfl ?_
    exact Same.refl _ _

theorem State.judgeCells_same (s : State) (n : Chan) (m : ChanMeas) :
    Same [.faults] s (State.judgeCells s n m) := by
  unfold State.judgeCells
  with_reducible refine Same.ite ?_ ?_
  · with_reducible refine Same.step (State.raiseFor_same ..) rfl ?_
    exact Same.refl _ _
  · with_reducible refine Same.step (State.clearFor_same ..) rfl ?_
    exact Same.refl _ _

theorem State.judgeSegs_same (s : State) (o : OutNo) (m : OutMeas) :
    Same [.faults] s (State.judgeSegs s o m) := by
  unfold State.judgeSegs
  with_reducible refine Same.ite ?_ ?_
  · with_reducible refine Same.step (State.raiseFor_same ..) rfl ?_
    exact Same.refl _ _
  · with_reducible refine Same.step (State.clearFor_same ..) rfl ?_
    exact Same.refl _ _

theorem State.useSet_same (s : State) (w : CalSet) :
    Same [.ao, .cal] s (State.useSet s w) := by
  unfold State.useSet
  with_reducible refine Same.upd_cal rfl ?_
  with_reducible refine Same.eachOut (fun _ _ => ?_) ?_
  · with_reducible refine Same.step (State.modOut_same ..) rfl ?_
    exact Same.refl _ _
  exact Same.refl _ _

theorem State.rebuild_same (s : State) :
    Same [.ao, .cal] s (State.rebuild s) := by
  unfold State.rebuild
  with_reducible refine Same.ite ?_ ?_
  · exact Same.refl _ _
  · with_reducible refine Same.step (State.useSet_same ..) rfl ?_
    exact Same.refl _ _

theorem State.closeReport_same (s : State) (r : RunResult) (outcome : Nat) (slot : Nat) (prev : Option CalSet) :
    Same [.pack, .cal] s (State.closeReport s r outcome slot prev) := by
  unfold State.closeReport
  with_reducible refine Same.step (State.control_same ..) rfl ?_
  with_reducible refine Same.upd_cal rfl ?_
  exact Same.refl _ _

theorem State.requestRun_same (s : State) (t : Trigger) :
    Same [.cal] s (State.requestRun s t) := by
  unfold State.requestRun
  with_reducible refine Same.upd_cal rfl ?_
  exact Same.refl _ _

theorem State.temperatureEval_same (s : State) (mean : Int) :
    Same [.cal] s (State.temperatureEval s mean) := by
  unfold State.temperatureEval
  split
  · with_reducible refine Same.ite ?_ ?_
    · with_reducible refine Same.step (State.requestRun_same ..) rfl ?_
      exact Same.refl _ _
    · exact Same.refl _ _
  · exact Same.refl _ _

theorem State.precheckStart_same (s : State) :
    Same [.cal] s (State.precheckStart s) := by
  unfold State.precheckStart
  with_reducible refine Same.ite ?_ ?_
  · with_reducible refine Same.upd_cal rfl ?_
    exact Same.refl _ _
  · exact Same.refl _ _

theorem State.precheckResult_same (s : State) (ohms : Nat) :
    Same [.cal, .leave, .faults] s (State.precheckResult s ohms) := by
  unfold State.precheckResult
  split
  · with_reducible refine Same.ite ?_ ?_
    · exact Same.refl _ _
    · with_reducible refine Same.ite ?_ ?_
      · with_reducible refine Same.ite ?_ ?_
        · with_reducible refine Same.step (State.requestLeave_same ..) rfl ?_
          with_reducible refine Same.step (State.clearFault_same ..) rfl ?_
          with_reducible refine Same.upd_cal rfl ?_
          exact Same.refl _ _
        · with_reducible refine Same.step (State.clearFault_same ..) rfl ?_
          with_reducible refine Same.upd_cal rfl ?_
          exact Same.refl _ _
      · with_reducible refine Same.step (State.raise_same ..) rfl ?_
        with_reducible refine Same.upd_cal rfl ?_
        exact Same.refl _ _
  · exact Same.refl _ _

theorem State.suspend_same (s : State) (n : Chan) :
    Same [.chan, .stat] s (State.suspend s n) := by
  unfold State.suspend
  with_reducible refine Same.ite ?_ ?_
  · with_reducible refine Same.step (State.modStat_same ..) rfl ?_
    with_reducible refine Same.modChan (.inr fun _ => rfl) (.inr fun _ => rfl) rfl ?_
    with_reducible refine Same.step (State.stopStamping_same ..) rfl ?_
    with_reducible refine Same.step (State.capture_same ..) rfl ?_
    exact Same.refl _ _
  · exact Same.refl _ _

theorem State.resumeChan_same (s : State) (n : Chan) (inst : Nat) :
    Same [.chan, .faults] s (State.resumeChan s n inst) := by
  unfold State.resumeChan
  with_reducible refine Same.ite ?_ ?_
  · with_reducible refine Same.ite ?_ ?_
    · with_reducible refine Same.modChan (.inr fun _ => rfl) (.inr fun _ => rfl) rfl ?_
      with_reducible refine Same.step (State.goAbsentUp_same ..) rfl ?_
      exact Same.refl _ _
    · with_reducible refine Same.step (State.enterPresent_same ..) rfl ?_
      exact Same.refl _ _
  · exact Same.refl _ _

theorem State.endSuspension_same (s : State) (inst : Nat) :
    Same [.chan, .chain, .faults] s (State.endSuspension s inst) := by
  unfold State.endSuspension
  with_reducible refine Same.eachChan (fun _ _ => ?_) ?_
  · with_reducible refine Same.step (State.gapMarkers_same ..) rfl ?_
    exact Same.refl _ _
  with_reducible refine Same.eachChan (fun _ _ => ?_) ?_
  · with_reducible refine Same.step (State.resumeChan_same ..) rfl ?_
    exact Same.refl _ _
  exact Same.refl _ _

theorem State.lateGap_same (s : State) (n : Chan) (rejoin : Bool) :
    Same [.sched] s (State.lateGap s n rejoin) := by
  unfold State.lateGap
  with_reducible refine Same.ite ?_ ?_
  · with_reducible refine Same.step (State.later_same ..) rfl ?_
    exact Same.refl _ _
  · exact Same.refl _ _

theorem State.endCalStep_same (s : State) :
    Same [.ao, .cal] s (State.endCalStep s) := by
  unfold State.endCalStep
  with_reducible refine Same.upd_ao_cal rfl rfl ?_
  exact Same.refl _ _

theorem State.ready_same (s : State) :
    Same [.ao, .cal, .core] s (State.ready s) := by
  unfold State.ready
  with_reducible refine Same.step (State.endCalStep_same ..) rfl ?_
  with_reducible refine Same.upd_core rfl ?_
  exact Same.refl _ _

theorem State.startYarns_same (s : State) (inst : Nat) :
    Same [.chan, .yarns, .stat, .chain, .faults] s (State.startYarns s inst) := by
  unfold State.startYarns
  with_reducible refine Same.eachChan (fun _ _ => ?_) ?_
  · with_reducible refine Same.ite ?_ ?_
    · with_reducible refine Same.step (State.startYarn_same ..) rfl ?_
      exact Same.refl _ _
    · exact Same.refl _ _
  exact Same.refl _ _

theorem State.startupAbandoned_same (s : State) (inst : Nat) :
    Same [.chan, .yarns, .stat, .chain, .ao, .cal, .core, .faults] s (State.startupAbandoned s inst) := by
  unfold State.startupAbandoned
  with_reducible refine Same.ite ?_ ?_
  · with_reducible refine Same.step (State.raise_same ..) rfl ?_
    with_reducible refine Same.upd_cal rfl ?_
    with_reducible refine Same.step (State.endCalStep_same ..) rfl ?_
    exact Same.refl _ _
  · with_reducible refine Same.upd_cal rfl ?_
    with_reducible refine Same.step (State.ready_same ..) rfl ?_
    with_reducible refine Same.step (State.startYarns_same ..) rfl ?_
    with_reducible refine Same.step (State.rebuild_same ..) rfl ?_
    exact Same.refl _ _

theorem State.startupRunAbandon_same (s : State) :
    Same [.chan, .yarns, .stat, .chain, .ao, .cal, .core, .faults] s (State.startupRunAbandon s) := by
  unfold State.startupRunAbandon
  with_reducible refine Same.ite ?_ ?_
  · with_reducible refine Same.step (State.startupAbandoned_same ..) rfl ?_
    with_reducible refine Same.upd_cal rfl ?_
    exact Same.refl _ _
  · exact Same.refl _ _

theorem State.fullRunStart_same (s : State) :
    Same [.chan, .stat, .cal] s (State.fullRunStart s) := by
  unfold State.fullRunStart
  split
  · with_reducible refine Same.ite ?_ ?_
    · with_reducible refine Same.upd_cal rfl ?_
      with_reducible refine Same.eachChan (fun _ _ => ?_) ?_
      · with_reducible refine Same.step (State.suspend_same ..) rfl ?_
        exact Same.refl _ _
      exact Same.refl _ _
    · exact Same.refl _ _
  · exact Same.refl _ _

theorem State.fullRunEnd_same (s : State) (m : FullMeas) :
    Same [.chan, .yarns, .stat, .chain, .ao, .cal, .leave, .core, .faults] s (State.fullRunEnd s m) := by
  unfold State.fullRunEnd
  split
  · with_reducible refine Same.ite ?_ ?_
    · exact Same.refl _ _
    · with_reducible refine Same.ite ?_ ?_
      · with_reducible refine Same.step (State.ready_same ..) rfl ?_
        with_reducible refine Same.step (State.startYarns_same ..) rfl ?_
        with_reducible refine Same.step (State.clearFault_same ..) rfl ?_
        with_reducible refine Same.step (State.clearFault_same ..) rfl ?_
        with_reducible refine Same.step (State.clearFault_same ..) rfl ?_
        with_reducible refine Same.step (State.releaseFor_same ..) rfl ?_
        with_reducible refine Same.step (State.endSuspension_same ..) rfl ?_
        with_reducible refine Same.upd_cal rfl ?_
        with_reducible refine Same.step (State.useSet_same ..) rfl ?_
        with_reducible refine Same.eachOut (fun _ _ => ?_) ?_
        · with_reducible refine Same.ite ?_ ?_
          · with_reducible refine Same.step (State.judgeSegs_same ..) rfl ?_
            exact Same.refl _ _
          · exact Same.refl _ _
        with_reducible refine Same.eachChan (fun _ _ => ?_) ?_
        · with_reducible refine Same.ite ?_ ?_
          · with_reducible refine Same.step (State.judgeCells_same ..) rfl ?_
            exact Same.refl _ _
          · exact Same.refl _ _
        exact Same.refl _ _
      · with_reducible refine Same.step (State.startYarns_same ..) rfl ?_
        with_reducible refine Same.step (State.clearFault_same ..) rfl ?_
        with_reducible refine Same.step (State.clearFault_same ..) rfl ?_
        with_reducible refine Same.step (State.clearFault_same ..) rfl ?_
        with_reducible refine Same.step (State.releaseFor_same ..) rfl ?_
        with_reducible refine Same.step (State.endSuspension_same ..) rfl ?_
        with_reducible refine Same.upd_cal rfl ?_
        with_reducible refine Same.step (State.useSet_same ..) rfl ?_
        with_reducible refine Same.eachOut (fun _ _ => ?_) ?_
        · with_reducible refine Same.ite ?_ ?_
          · with_reducible refine Same.step (State.judgeSegs_same ..) rfl ?_
            exact Same.refl _ _
          · exact Same.refl _ _
        with_reducible refine Same.eachChan (fun _ _ => ?_) ?_
        · with_reducible refine Same.ite ?_ ?_
          · with_reducible refine Same.step (State.judgeCells_same ..) rfl ?_
            exact Same.refl _ _
          · exact Same.refl _ _
        exact Same.refl _ _
  · exact Same.refl _ _

theorem State.resumeJoin_same (s : State) :
    Same [.chan, .cal] s (State.resumeJoin s) := by
  unfold State.resumeJoin
  split
  · with_reducible refine Same.ite ?_ ?_
    · with_reducible refine Same.step (State.startRejoin_same ..) rfl ?_
      exact Same.refl _ _
    · exact Same.refl _ _
  · exact Same.refl _ _

theorem State.rejoinRunEnd_same (s : State) (n : Chan) (m : ChanMeas) (temp : Int) :
    Same [.chan, .yarns, .stat, .chain, .ao, .cal, .leave, .faults] s (State.rejoinRunEnd s n m temp) := by
  unfold State.rejoinRunEnd
  split
  · with_reducible refine Same.ite ?_ ?_
    · exact Same.refl _ _
    · with_reducible refine Same.ite ?_ ?_
      · with_reducible refine Same.step (State.startYarn_same ..) rfl ?_
        with_reducible refine Same.step (State.gapMarkers_same ..) rfl ?_
        with_reducible refine Same.step (State.releaseFor_same ..) rfl ?_
        with_reducible refine Same.upd_cal rfl ?_
        with_reducible refine Same.step (State.useSet_same ..) rfl ?_
        with_reducible refine Same.step (State.judgeCells_same ..) rfl ?_
        exact Same.refl _ _
      · with_reducible refine Same.step (State.log_same ..) rfl ?_
        with_reducible refine Same.step (State.goAbsentUp_same ..) rfl ?_
        with_reducible refine Same.step (State.gapMarkers_same ..) rfl ?_
        with_reducible refine Same.step (State.releaseFor_same ..) rfl ?_
        with_reducible refine Same.upd_cal rfl ?_
        with_reducible refine Same.step (State.useSet_same ..) rfl ?_
        with_reducible refine Same.step (State.judgeCells_same ..) rfl ?_
        exact Same.refl _ _
  · exact Same.refl _ _

theorem State.abandonRun_same (s : State) :
    Same [.free, .chan, .yarns, .stat, .chain, .sched, .ao, .cal, .leave, .core, .faults] s (State.abandonRun s) := by
  unfold State.abandonRun
  split
  · try dsimp only
    split
    · with_reducible refine Same.step (State.log_same ..) rfl ?_
      with_reducible refine Same.step (State.lateGap_same ..) rfl ?_
      with_reducible refine Same.step (State.goAbsentUp_same ..) rfl ?_
      with_reducible refine Same.step (State.releaseFor_same ..) rfl ?_
      with_reducible refine Same.upd_cal rfl ?_
      with_reducible refine Same.step (State.drawNat_same ..) rfl ?_
      with_reducible refine Same.step (State.drawNat_same ..) rfl ?_
      exact Same.refl _ _
    · with_reducible refine Same.ite ?_ ?_
      · with_reducible refine Same.step (State.startupAbandoned_same ..) rfl ?_
        with_reducible refine Same.step (State.log_same ..) rfl ?_
        with_reducible refine Same.step (State.releaseFor_same ..) rfl ?_
        with_reducible refine Same.eachChan (fun _ _ => ?_) ?_
        · with_reducible refine Same.step (State.lateGap_same ..) rfl ?_
          exact Same.refl _ _
        with_reducible refine Same.eachChan (fun _ _ => ?_) ?_
        · with_reducible refine Same.step (State.resumeChan_same ..) rfl ?_
          exact Same.refl _ _
        with_reducible refine Same.upd_cal rfl ?_
        with_reducible refine Same.step (State.drawNat_same ..) rfl ?_
        with_reducible refine Same.step (State.drawNat_same ..) rfl ?_
        exact Same.refl _ _
      · with_reducible refine Same.ite ?_ ?_
        · with_reducible refine Same.step (State.requestRun_same ..) rfl ?_
          with_reducible refine Same.step (State.log_same ..) rfl ?_
          with_reducible refine Same.step (State.releaseFor_same ..) rfl ?_
          with_reducible refine Same.eachChan (fun _ _ => ?_) ?_
          · with_reducible refine Same.step (State.lateGap_same ..) rfl ?_
            exact Same.refl _ _
          with_reducible refine Same.eachChan (fun _ _ => ?_) ?_
          · with_reducible refine Same.step (State.resumeChan_same ..) rfl ?_
            exact Same.refl _ _
          with_reducible refine Same.upd_cal rfl ?_
          with_reducible refine Same.step (State.drawNat_same ..) rfl ?_
          with_reducible refine Same.step (State.drawNat_same ..) rfl ?_
          exact Same.refl _ _
        · with_reducible refine Same.step (State.log_same ..) rfl ?_
          with_reducible refine Same.step (State.releaseFor_same ..) rfl ?_
          with_reducible refine Same.eachChan (fun _ _ => ?_) ?_
          · with_reducible refine Same.step (State.lateGap_same ..) rfl ?_
            exact Same.refl _ _
          with_reducible refine Same.eachChan (fun _ _ => ?_) ?_
          · with_reducible refine Same.step (State.resumeChan_same ..) rfl ?_
            exact Same.refl _ _
          with_reducible refine Same.upd_cal rfl ?_
          with_reducible refine Same.step (State.drawNat_same ..) rfl ?_
          with_reducible refine Same.step (State.drawNat_same ..) rfl ?_
          exact Same.refl _ _
  · exact Same.refl _ _

theorem State.powerJoin_same (s : State) (n : Chan) :
    Same [.chan] s (State.powerJoin s n) := by
  unfold State.powerJoin
  with_reducible refine Same.modChan (.inr fun _ => rfl) (.inr fun _ => rfl) rfl ?_
  exact Same.refl _ _

theorem State.joinStart_same (s : State) (n : Chan) :
    Same [.chan, .cal] s (State.joinStart s n) := by
  unfold State.joinStart
  with_reducible refine Same.ite ?_ ?_
  · with_reducible refine Same.ite ?_ ?_
    · with_reducible refine Same.step (State.startRejoin_same ..) rfl ?_
      exact Same.refl _ _
    · with_reducible refine Same.step (State.powerJoin_same ..) rfl ?_
      exact Same.refl _ _
  · exact Same.refl _ _

theorem State.startupJoin_same (s : State) (n : Chan) :
    Same [.chan] s (State.startupJoin s n) := by
  unfold State.startupJoin
  with_reducible refine Same.ite ?_ ?_
  · with_reducible refine Same.step (State.powerJoin_same ..) rfl ?_
    exact Same.refl _ _
  · exact Same.refl _ _

theorem State.domainReady_same (s : State) (n : Chan) :
    Same [.chan, .sched, .cal, .leave, .core] s (State.domainReady s n) := by
  unfold State.domainReady
  with_reducible refine Same.ite ?_ ?_
  · exact Same.refl _ _
  · with_reducible refine Same.ite ?_ ?_
    · with_reducible refine Same.step (State.settleBoot_same ..) rfl ?_
      with_reducible refine Same.step (State.releaseFor_same ..) rfl ?_
      with_reducible refine Same.modChan (.inr fun _ => rfl) (.inr fun _ => rfl) rfl ?_
      exact Same.refl _ _
    · with_reducible refine Same.ite ?_ ?_
      · with_reducible refine Same.step (State.later_same ..) rfl ?_
        exact Same.refl _ _
      · with_reducible refine Same.ite ?_ ?_
        · with_reducible refine Same.modChan (.inr fun _ => rfl) (.inr fun _ => rfl) rfl ?_
          exact Same.refl _ _
        · with_reducible refine Same.step (State.releaseFor_same ..) rfl ?_
          with_reducible refine Same.modChan (.inr fun _ => rfl) (.inr fun _ => rfl) rfl ?_
          exact Same.refl _ _

theorem State.dropResult_same (s : State) :
    Same [.cal] s (State.dropResult s) := by
  unfold State.dropResult
  with_reducible refine Same.upd_cal rfl ?_
  exact Same.refl _ _

theorem State.drawerCommit_same (s : State) :
    Same [.free, .pack, .cal, .flash, .mem, .leave, .faults] s (State.drawerCommit s) := by
  unfold State.drawerCommit
  split
  · with_reducible refine Same.ite ?_ ?_
    · exact Same.refl _ _
    · with_reducible refine Same.ite ?_ ?_
      · with_reducible refine Same.step (State.closeReport_same ..) rfl ?_
        with_reducible refine Same.step (State.dropResult_same ..) rfl ?_
        exact Same.refl _ _
      · with_reducible refine Same.ite ?_ ?_
        · with_reducible refine Same.step (State.closeReport_same ..) rfl ?_
          with_reducible refine Same.step (State.dropResult_same ..) rfl ?_
          with_reducible refine Same.upd_cal rfl ?_
          exact Same.refl _ _
        · with_reducible refine Same.ite ?_ ?_
          · with_reducible refine Same.step (State.closeReport_same ..) rfl ?_
            with_reducible refine Same.step (State.dropResult_same ..) rfl ?_
            with_reducible refine Same.step (State.releaseFor_same ..) rfl ?_
            with_reducible refine Same.step (State.appendRecs_same ..) rfl ?_
            with_reducible refine Same.step (State.rowIncrement_same ..) rfl ?_
            exact Same.refl _ _
          · exact Same.refl _ _
  · exact Same.refl _ _

theorem State.loseChannel_same (s : State) (n : Chan) :
    Same [.chan, .stat, .eng] s (State.loseChannel s n) := by
  unfold State.loseChannel
  with_reducible refine Same.ite ?_ ?_
  · with_reducible refine Same.modChan (.inr fun _ => rfl) (.inr fun _ => rfl) rfl ?_
    with_reducible refine Same.step (State.goAbsentUp_same ..) rfl ?_
    with_reducible refine Same.modChan (.inr fun _ => rfl) (.inr fun _ => rfl) rfl ?_
    with_reducible refine Same.step (State.statYarnEnd_same ..) rfl ?_
    with_reducible refine Same.step (State.stopStamping_same ..) rfl ?_
    exact Same.refl _ _
  · with_reducible refine Same.modChan (.inr fun _ => rfl) (.inr fun _ => rfl) rfl ?_
    with_reducible refine Same.step (State.statYarnEnd_same ..) rfl ?_
    with_reducible refine Same.step (State.stopStamping_same ..) rfl ?_
    exact Same.refl _ _

theorem State.channelLoss_same (s : State) (n : Chan) (cause : LossCause) :
    Same [.chan, .stat, .eng] s (State.channelLoss s n cause) := by
  unfold State.channelLoss
  with_reducible refine Same.ite ?_ ?_
  · with_reducible refine Same.step (State.loseChannel_same ..) rfl ?_
    exact Same.refl _ _
  · exact Same.refl _ _

theorem State.domainDown_same (s : State) (n : Chan) :
    Same [.chan] s (State.domainDown s n) := by
  unfold State.domainDown
  with_reducible refine Same.ite ?_ ?_
  · with_reducible refine Same.modChan (.inr fun _ => rfl) (.inr fun _ => rfl) rfl ?_
    exact Same.refl _ _
  · exact Same.refl _ _

theorem State.idleTimeout_same (s : State) (n : Chan) :
    Same [.chan] s (State.idleTimeout s n) := by
  unfold State.idleTimeout
  with_reducible refine Same.ite ?_ ?_
  · with_reducible refine Same.step (State.domainDown_same ..) rfl ?_
    with_reducible refine Same.modChan (.inr fun _ => rfl) (.inr fun _ => rfl) rfl ?_
    exact Same.refl _ _
  · exact Same.refl _ _

theorem State.autoLevelUpdate_same (s : State) (n : Chan) (pos : Int) (neg : Int) :
    Same [.chan, .faults] s (State.autoLevelUpdate s n pos neg) := by
  unfold State.autoLevelUpdate
  with_reducible refine Same.ite ?_ ?_
  · with_reducible refine Same.ite ?_ ?_
    · with_reducible refine Same.step (State.log_same ..) rfl ?_
      with_reducible refine Same.modChan (.inr fun _ => rfl) (.inr fun _ => rfl) rfl ?_
      exact Same.refl _ _
    · with_reducible refine Same.modChan (.inr fun _ => rfl) (.inr fun _ => rfl) rfl ?_
      exact Same.refl _ _
  · exact Same.refl _ _

theorem State.peakReport_same (s : State) (n : Chan) (pos : Int) (neg : Int) :
    Same [.chan] s (State.peakReport s n pos neg) := by
  unfold State.peakReport
  with_reducible refine Same.ite ?_ ?_
  · with_reducible refine Same.modChan (.inr fun _ => rfl) (.inr fun _ => rfl) rfl ?_
    exact Same.refl _ _
  · exact Same.refl _ _

theorem State.writeFw_same (s : State) :
    Same [.snap] s (State.writeFw s) := by
  unfold State.writeFw
  with_reducible refine Same.ite ?_ ?_
  · with_reducible refine Same.upd_snap rfl ?_
    exact Same.refl _ _
  · exact Same.refl _ _

theorem State.lossHandling_same (s : State) (n : Chan) :
    Same [.chan, .chain, .snap, .faults] s (State.lossHandling s n) := by
  unfold State.lossHandling
  try dsimp only
  split
  · with_reducible refine Same.ite ?_ ?_
    · with_reducible refine Same.step (State.writeFw_same ..) rfl ?_
      with_reducible refine Same.step (State.logAt_same ..) rfl ?_
      with_reducible refine Same.step (State.fwMarkerItem_same ..) rfl ?_
      with_reducible refine Same.modChan (.inr fun _ => rfl) (.inr fun _ => rfl) rfl ?_
      exact Same.refl _ _
    · exact Same.refl _ _
  · exact Same.refl _ _

theorem State.codeOf_same (s : State) (o : OutNo) (x : Rat) :
    Same [.free] s (State.codeOf s o x).2 := by
  unfold State.codeOf
  with_reducible refine Same.ite_snd ?_ ?_
  · exact Same.refl _ _
  · try dsimp only
    split
    · exact Same.refl _ _
    · with_reducible refine Same.step (State.drawNat_same ..) rfl ?_
      exact Same.refl _ _

theorem State.writeCode_same (s : State) (o : OutNo) (connecting : Bool) :
    Same [.free, .ao] s (State.writeCode s o connecting) := by
  unfold State.writeCode
  with_reducible refine Same.step (State.modOut_same ..) rfl ?_
  try dsimp only
  split
  · with_reducible refine Same.step (State.codeOf_same ..) rfl ?_
    exact Same.refl _ _
  · exact Same.refl _ _

theorem State.updateOutput_same (s : State) (o : OutNo) :
    Same [.free, .ao] s (State.updateOutput s o) := by
  unfold State.updateOutput
  with_reducible refine Same.step (State.modOut_same ..) rfl ?_
  with_reducible refine Same.ite ?_ ?_
  · exact Same.refl _ _
  · with_reducible refine Same.ite ?_ ?_
    · with_reducible refine Same.step (State.writeCode_same ..) rfl ?_
      exact Same.refl _ _
    · with_reducible refine Same.ite ?_ ?_
      · with_reducible refine Same.step (State.modOut_same ..) rfl ?_
        with_reducible refine Same.step (State.writeCode_same ..) rfl ?_
        exact Same.refl _ _
      · exact Same.refl _ _

theorem State.outputUpdate_same (s : State) :
    Same [.free, .sched, .ao] s (State.outputUpdate s) := by
  unfold State.outputUpdate
  split
  · with_reducible refine Same.ite ?_ ?_
    · with_reducible refine Same.upd_sched rfl ?_
      with_reducible refine Same.step (State.issue_same ..) rfl ?_
      with_reducible refine Same.eachOut (fun _ _ => ?_) ?_
      · with_reducible refine Same.step (State.updateOutput_same ..) rfl ?_
        exact Same.refl _ _
      exact Same.refl _ _
    · exact Same.refl _ _
  · exact Same.refl _ _

theorem State.faultOutput_same (s : State) (o : OutNo) (code : Byte) (a : BitVec 32) (b : BitVec 32) :
    Same [.ao, .leave, .faults] s (State.faultOutput s o code a b) := by
  unfold State.faultOutput
  with_reducible refine Same.step (State.raise_same ..) rfl ?_
  with_reducible refine Same.step (State.releaseFor_same ..) rfl ?_
  with_reducible refine Same.step (State.dropRequest_same ..) rfl ?_
  with_reducible refine Same.step (State.modOut_same ..) rfl ?_
  exact Same.refl _ _

theorem State.headroomFault_same (s : State) (o : OutNo) (sensed : Nat) (vpin : Nat) :
    Same [.ao, .leave, .faults] s (State.headroomFault s o sensed vpin) := by
  unfold State.headroomFault
  with_reducible refine Same.ite ?_ ?_
  · with_reducible refine Same.step (State.faultOutput_same ..) rfl ?_
    exact Same.refl _ _
  · exact Same.refl _ _

theorem State.readBack_same (s : State) (o : OutNo) (measured : Int) :
    Same [.ao, .leave, .faults] s (State.readBack s o measured) := by
  unfold State.readBack
  with_reducible refine Same.ite ?_ ?_
  · with_reducible refine Same.ite ?_ ?_
    · with_reducible refine Same.step (State.faultOutput_same ..) rfl ?_
      with_reducible refine Same.step (State.modOut_same ..) rfl ?_
      exact Same.refl _ _
    · with_reducible refine Same.step (State.modOut_same ..) rfl ?_
      exact Same.refl _ _
  · exact Same.refl _ _

theorem State.establish_same (s : State) (o : OutNo) :
    Same [.ao, .leave] s (State.establish s o) := by
  unfold State.establish
  with_reducible refine Same.ite ?_ ?_
  · with_reducible refine Same.step (State.requestLeave_same ..) rfl ?_
    with_reducible refine Same.step (State.modOut_same ..) rfl ?_
    exact Same.refl _ _
  · with_reducible refine Same.step (State.modOut_same ..) rfl ?_
    exact Same.refl _ _

theorem State.outputEstablish_same (s : State) (o : OutNo) :
    Same [.ao, .leave, .faults] s (State.outputEstablish s o) := by
  unfold State.outputEstablish
  with_reducible refine Same.ite ?_ ?_
  · with_reducible refine Same.ite ?_ ?_
    · with_reducible refine Same.step (State.establish_same ..) rfl ?_
      exact Same.refl _ _
    · with_reducible refine Same.ite ?_ ?_
      · with_reducible refine Same.step (State.raise_same ..) rfl ?_
        exact Same.refl _ _
      · exact Same.refl _ _
  · exact Same.refl _ _

theorem State.stageReady_same (s : State) (o : OutNo) (vpos : Int) (vneg : Int) :
    Same [.ao, .leave, .faults] s (State.stageReady s o vpos vneg) := by
  unfold State.stageReady
  with_reducible refine Same.ite ?_ ?_
  · exact Same.refl _ _
  · with_reducible refine Same.ite ?_ ?_
    · with_reducible refine Same.ite ?_ ?_
      · with_reducible refine Same.step (State.modOut_same ..) rfl ?_
        with_reducible refine Same.step (State.releaseFor_same ..) rfl ?_
        exact Same.refl _ _
      · exact Same.refl _ _
    · with_reducible refine Same.ite ?_ ?_
      · with_reducible refine Same.ite ?_ ?_
        · with_reducible refine Same.step (State.modOut_same ..) rfl ?_
          exact Same.refl _ _
        · with_reducible refine Same.step (State.faultOutput_same ..) rfl ?_
          exact Same.refl _ _
      · exact Same.refl _ _

theorem State.breakExpiry_same (s : State) (o : OutNo) :
    Same [.ao] s (State.breakExpiry s o) := by
  unfold State.breakExpiry
  with_reducible refine Same.ite ?_ ?_
  · with_reducible refine Same.step (State.modOut_same ..) rfl ?_
    exact Same.refl _ _
  · exact Same.refl _ _

theorem State.outputRetry_same (s : State) (o : OutNo) :
    Same [.ao, .leave, .faults] s (State.outputRetry s o) := by
  unfold State.outputRetry
  with_reducible refine Same.ite ?_ ?_
  · with_reducible refine Same.step (State.outputEstablish_same ..) rfl ?_
    with_reducible refine Same.step (State.modOut_same ..) rfl ?_
    exact Same.refl _ _
  · exact Same.refl _ _

theorem State.outputFaultClear_same (s : State) (o : OutNo) :
    Same [.ao, .faults] s (State.outputFaultClear s o) := by
  unfold State.outputFaultClear
  with_reducible refine Same.ite ?_ ?_
  · with_reducible refine Same.step (State.modOut_same ..) rfl ?_
    with_reducible refine Same.foldl (fun _ _ => ?_) ?_
    · with_reducible refine Same.step (State.clearFault_same ..) rfl ?_
      exact Same.refl _ _
    exact Same.refl _ _
  · exact Same.refl _ _

theorem State.dropOutputs_same (s : State) :
    Same [.ao, .leave] s (State.dropOutputs s) := by
  unfold State.dropOutputs
  with_reducible refine Same.eachOut (fun _ _ => ?_) ?_
  · with_reducible refine Same.step (State.modOut_same ..) rfl ?_
    with_reducible refine Same.step (State.releaseFor_same ..) rfl ?_
    with_reducible refine Same.step (State.dropRequest_same ..) rfl ?_
    exact Same.refl _ _
  exact Same.refl _ _

theorem State.dieRead_same (s : State) (t : Int) :
    Same [.cab, .snap, .ao, .cal, .faults, .sens] s (State.dieRead s t) := by
  unfold State.dieRead
  with_reducible refine Same.ite ?_ ?_
  · with_reducible refine Same.step (State.writeFw_same ..) rfl ?_
    with_reducible refine Same.step (State.sourceFormed_same ..) rfl ?_
    with_reducible refine Same.upd_cab_cal_sens rfl rfl rfl ?_
    exact Same.refl _ _
  · exact Same.refl _ _

theorem State.cthRead_same (s : State) (t : Int) :
    Same [.snap, .sens] s (State.cthRead s t) := by
  unfold State.cthRead
  with_reducible refine Same.ite ?_ ?_
  · with_reducible refine Same.step (State.writeFw_same ..) rfl ?_
    with_reducible refine Same.upd_sens rfl ?_
    exact Same.refl _ _
  · exact Same.refl _ _

theorem State.checkStore_same (s : State) (st : StoreId) :
    Same [.cab] s (State.checkStore s st) := by
  unfold State.checkStore
  with_reducible refine Same.ite ?_ ?_
  · exact Same.refl _ _
  · with_reducible refine Same.step (State.modStore_same ..) rfl ?_
    exact Same.refl _ _

theorem State.takeOut_same (s : State) (st : StoreId) (k : Skein) :
    Same [.cab] s (State.takeOut s st k) := by
  unfold State.takeOut
  with_reducible refine Same.upd_cab rfl ?_
  with_reducible refine Same.step (State.modStore_same ..) rfl ?_
  exact Same.refl _ _

theorem State.upsetRead_same (s : State) (st : StoreId) (flip : BitVec 26) :
    Same [.cab] s (State.upsetRead s st flip) := by
  unfold State.upsetRead
  with_reducible refine Same.step (State.modStore_same ..) rfl ?_
  exact Same.refl _ _

theorem State.closeDropRun_same (s : State) (st : StoreId) :
    Same [.cab] s (State.closeDropRun s st) := by
  unfold State.closeDropRun
  split
  · with_reducible refine Same.upd_cab rfl ?_
    with_reducible refine Same.step (State.modStore_same ..) rfl ?_
    exact Same.refl _ _
  · exact Same.refl _ _

theorem State.dropSkein_same (s : State) (st : StoreId) (k : Skein) :
    Same [.cab] s (State.dropSkein s st k) := by
  unfold State.dropSkein
  with_reducible refine Same.step (State.modStore_same ..) rfl ?_
  exact Same.refl _ _

theorem State.acceptSkein_same (s : State) (st : StoreId) (k : Skein) (flip : BitVec 26) :
    Same [.cab] s (State.acceptSkein s st k flip) := by
  unfold State.acceptSkein
  with_reducible refine Same.step (State.checkStore_same ..) rfl ?_
  with_reducible refine Same.step (State.modStore_same ..) rfl ?_
  with_reducible refine Same.step (State.closeDropRun_same ..) rfl ?_
  exact Same.refl _ _

theorem State.placeSkein_same (s : State) (k : Skein) (flip : BitVec 26) :
    Same [.cab] s (State.placeSkein s k flip) := by
  unfold State.placeSkein
  with_reducible refine Same.ite ?_ ?_
  · with_reducible refine Same.upd_cab rfl ?_
    exact Same.refl _ _
  · with_reducible refine Same.ite ?_ ?_
    · with_reducible refine Same.upd_cab rfl ?_
      exact Same.refl _ _
    · with_reducible refine Same.ite ?_ ?_
      · with_reducible refine Same.step (State.acceptSkein_same ..) rfl ?_
        exact Same.refl _ _
      · with_reducible refine Same.step (State.dropSkein_same ..) rfl ?_
        exact Same.refl _ _

theorem State.takeUp_same (s : State) (flip : BitVec 26) :
    Same [.pack, .cab] s (State.takeUp s flip) := by
  unfold State.takeUp
  split
  · with_reducible refine Same.ite ?_ ?_
    · exact Same.refl _ _
    · with_reducible refine Same.step (State.placeSkein_same ..) rfl ?_
      with_reducible refine Same.upd_pack rfl ?_
      exact Same.refl _ _
  · exact Same.refl _ _

theorem State.takeRun_same (s : State) :
    Same [.pack, .cab, .faults] s (State.takeRun s) := by
  unfold State.takeRun
  split
  · with_reducible refine Same.step (State.write_same ..) rfl ?_
    with_reducible refine Same.step (State.occurs_same ..) rfl ?_
    with_reducible refine Same.upd_cab rfl ?_
    exact Same.refl _ _
  · exact Same.refl _ _

theorem State.droppedMarker_same (s : State) :
    Same [.pack, .cab, .faults] s (State.droppedMarker s) := by
  unfold State.droppedMarker
  with_reducible refine Same.ite ?_ ?_
  · with_reducible refine Same.step (State.takeRun_same ..) rfl ?_
    exact Same.refl _ _
  · exact Same.refl _ _

theorem State.refreshBurst_same (s : State) :
    Same [.cab] s (State.refreshBurst s) := by
  unfold State.refreshBurst
  with_reducible refine Same.ite ?_ ?_
  · with_reducible refine Same.upd_cab rfl ?_
    exact Same.refl _ _
  · exact Same.refl _ _

theorem State.correctWords_same (s : State) (n : Nat) :
    Same [.cab, .faults] s (State.correctWords s n) := by
  unfold State.correctWords
  with_reducible refine Same.ite ?_ ?_
  · exact Same.refl _ _
  · with_reducible refine Same.step (State.logLimited_same ..) rfl ?_
    with_reducible refine Same.upd_cab rfl ?_
    exact Same.refl _ _

theorem State.discardBad_same (s : State) (st : StoreId) (k : Skein) :
    Same [.cab, .port, .faults] s (State.discardBad s st k) := by
  unfold State.discardBad
  with_reducible refine Same.ite ?_ ?_
  · exact Same.refl _ _
  · with_reducible refine Same.step (State.checkStore_same ..) rfl ?_
    with_reducible refine Same.step (State.log_same ..) rfl ?_
    with_reducible refine Same.upd_cab_port rfl rfl ?_
    with_reducible refine Same.step (State.takeOut_same ..) rfl ?_
    exact Same.refl _ _

theorem State.scrubRequest_same (s : State) :
    Same [.leave] s (State.scrubRequest s) := by
  unfold State.scrubRequest
  with_reducible refine Same.ite ?_ ?_
  · with_reducible refine Same.step (State.requestLeave_same ..) rfl ?_
    exact Same.refl _ _
  · exact Same.refl _ _

theorem State.scrubBurst_same (s : State) (corrected : Nat) (bad : List Nat) (flip : BitVec 26) :
    Same [.cab, .port, .faults] s (State.scrubBurst s corrected bad flip) := by
  unfold State.scrubBurst
  with_reducible refine Same.ite ?_ ?_
  · with_reducible refine Same.when (fun _ => ?_) ?_
    · with_reducible refine Same.step (State.checkStore_same ..) rfl ?_
      exact Same.refl _ _
    with_reducible refine Same.when (fun _ => ?_) ?_
    · with_reducible refine Same.step (State.checkStore_same ..) rfl ?_
      exact Same.refl _ _
    with_reducible refine Same.foldl (fun _ _ => ?_) ?_
    · with_reducible refine Same.step (State.discardBad_same ..) rfl ?_
      exact Same.refl _ _
    split
    · with_reducible refine Same.step (State.upsetRead_same ..) rfl ?_
      with_reducible refine Same.step (State.correctWords_same ..) rfl ?_
      with_reducible refine Same.upd_cab rfl ?_
      exact Same.refl _ _
    · with_reducible refine Same.step (State.correctWords_same ..) rfl ?_
      with_reducible refine Same.upd_cab rfl ?_
      exact Same.refl _ _
  · exact Same.refl _ _

theorem State.scrubTo_same (s : State) (n : Nat) :
    Same [.cab] s (State.scrubTo s n) := by
  unfold State.scrubTo
  with_reducible refine Same.upd_cab rfl ?_
  exact Same.refl _ _

theorem State.scrubEnd_same (s : State) :
    Same [.cab, .leave] s (State.scrubEnd s) := by
  unfold State.scrubEnd
  with_reducible refine Same.ite ?_ ?_
  · with_reducible refine Same.step (State.releaseFor_same ..) rfl ?_
    with_reducible refine Same.step (State.scrubTo_same ..) rfl ?_
    exact Same.refl _ _
  · exact Same.refl _ _

theorem State.scrubStop_same (s : State) :
    Same [.free, .cab, .leave] s (State.scrubStop s) := by
  unfold State.scrubStop
  with_reducible refine Same.ite ?_ ?_
  · with_reducible refine Same.step (State.releaseFor_same ..) rfl ?_
    with_reducible refine Same.step (State.scrubTo_same ..) rfl ?_
    with_reducible refine Same.step (State.drawNat_same ..) rfl ?_
    exact Same.refl _ _
  · exact Same.refl _ _

theorem State.dropTx_same (s : State) (st : StoreId) :
    Same [.free, .port] s (State.dropTx s st) := by
  unfold State.dropTx
  split
  · with_reducible refine Same.ite ?_ ?_
    · with_reducible refine Same.upd_port rfl ?_
      with_reducible refine Same.step (State.drawNat_same ..) rfl ?_
      exact Same.refl _ _
    · exact Same.refl _ _
  · exact Same.refl _ _

theorem State.storeReset_same (s : State) (st : StoreId) :
    Same [.free, .chain, .cab, .port, .faults] s (State.storeReset s st) := by
  unfold State.storeReset
  split
  · with_reducible refine Same.step (State.log_same ..) rfl ?_
    with_reducible refine Same.upd_chain_cab_port rfl rfl rfl ?_
    with_reducible refine Same.step (State.modStore_same ..) rfl ?_
    with_reducible refine Same.step (State.closeDropRun_same ..) rfl ?_
    with_reducible refine Same.step (State.dropTx_same ..) rfl ?_
    exact Same.refl _ _
  · exact Same.refl _ _

theorem State.flush_same (s : State) :
    Same [.chain, .cab, .port] s (State.flush s) := by
  unfold State.flush
  with_reducible refine Same.ite ?_ ?_
  · with_reducible refine Same.step (State.hwMarker_same ..) rfl ?_
    with_reducible refine Same.upd_cab_port rfl rfl ?_
    with_reducible refine Same.step (State.closeDropRun_same ..) rfl ?_
    with_reducible refine Same.step (State.closeDropRun_same ..) rfl ?_
    with_reducible refine Same.step (State.checkStore_same ..) rfl ?_
    with_reducible refine Same.step (State.checkStore_same ..) rfl ?_
    exact Same.refl _ _
  · exact Same.refl _ _

theorem State.modPort_same (s : State) (f : Stream → Stream) :
    Same [.port] s (State.modPort s f) := by
  unfold State.modPort
  with_reducible refine Same.upd_port rfl ?_
  exact Same.refl _ _

theorem State.cutOff_same (s : State) (partly : Bool) :
    Same [.chain, .port, .faults] s (State.cutOff s partly) := by
  unfold State.cutOff
  split
  · with_reducible refine Same.ite ?_ ?_
    · exact Same.refl _ _
    · with_reducible refine Same.step (State.log_same ..) rfl ?_
      with_reducible refine Same.step (State.hwMarker_same ..) rfl ?_
      with_reducible refine Same.step (State.modPort_same ..) rfl ?_
      exact Same.refl _ _
  · exact Same.refl _ _

theorem State.streamDown_same (s : State) (st : Port) :
    Same [.chain, .port, .faults] s (State.streamDown s st) := by
  unfold State.streamDown
  with_reducible refine Same.step (State.modPort_same ..) rfl ?_
  with_reducible refine Same.step (State.cutOff_same ..) rfl ?_
  exact Same.refl _ _

theorem State.streamStandby_same (s : State) :
    Same [.chain, .port, .faults] s (State.streamStandby s) := by
  unfold State.streamStandby
  with_reducible refine Same.ite ?_ ?_
  · exact Same.refl _ _
  · with_reducible refine Same.step (State.streamDown_same ..) rfl ?_
    exact Same.refl _ _

theorem State.streamResume_same (s : State) :
    Same [.port] s (State.streamResume s) := by
  unfold State.streamResume
  with_reducible refine Same.ite ?_ ?_
  · with_reducible refine Same.step (State.modPort_same ..) rfl ?_
    exact Same.refl _ _
  · exact Same.refl _ _

theorem State.hostHigh_same (s : State) :
    Same [.port] s (State.hostHigh s) := by
  unfold State.hostHigh
  with_reducible refine Same.ite ?_ ?_
  · exact Same.refl _ _
  · with_reducible refine Same.ite ?_ ?_
    · with_reducible refine Same.step (State.settlePort_same ..) rfl ?_
      with_reducible refine Same.step (State.modPort_same ..) rfl ?_
      with_reducible refine Same.step (State.modPort_same ..) rfl ?_
      exact Same.refl _ _
    · with_reducible refine Same.step (State.modPort_same ..) rfl ?_
      exact Same.refl _ _

theorem State.flushMore_same (s : State) (src : Src) :
    Same [.chain] s (State.flushMore s src) := by
  unfold State.flushMore
  split
  · with_reducible refine Same.upd_chain rfl ?_
    exact Same.refl _ _
  · exact Same.refl _ _

theorem State.reopen_same (s : State) :
    Same [.chain, .cab, .port] s (State.reopen s) := by
  unfold State.reopen
  split
  · with_reducible refine Same.ite ?_ ?_
    · with_reducible refine Same.step (State.modPort_same ..) rfl ?_
      exact Same.refl _ _
    · with_reducible refine Same.ite ?_ ?_
      · with_reducible refine Same.step (State.flushMore_same ..) rfl ?_
        with_reducible refine Same.step (State.modPort_same ..) rfl ?_
        exact Same.refl _ _
      · split
        · with_reducible refine Same.upd_cab rfl ?_
          with_reducible refine Same.step (State.modPort_same ..) rfl ?_
          exact Same.refl _ _
        · with_reducible refine Same.upd_cab rfl ?_
          with_reducible refine Same.step (State.modStore_same ..) rfl ?_
          with_reducible refine Same.step (State.modPort_same ..) rfl ?_
          exact Same.refl _ _
  · exact Same.refl _ _

theorem State.hostLow_same (s : State) :
    Same [.chain, .cab, .port, .faults] s (State.hostLow s) := by
  unfold State.hostLow
  with_reducible refine Same.ite ?_ ?_
  · exact Same.refl _ _
  · with_reducible refine Same.ite ?_ ?_
    · with_reducible refine Same.step (State.modPort_same ..) rfl ?_
      with_reducible refine Same.step (State.cutOff_same ..) rfl ?_
      with_reducible refine Same.step (State.modPort_same ..) rfl ?_
      with_reducible refine Same.step (State.reopen_same ..) rfl ?_
      exact Same.refl _ _
    · with_reducible refine Same.step (State.modPort_same ..) rfl ?_
      with_reducible refine Same.step (State.reopen_same ..) rfl ?_
      exact Same.refl _ _

theorem State.powered_same (dom : Nat) (s : State) :
    Same [.power] s (State.powered dom s) := by
  unfold State.powered
  with_reducible refine Same.upd_power rfl ?_
  exact Same.refl _ _

theorem State.discover_same (s : State) :
    Same [.port, .power] s (State.discover s) := by
  unfold State.discover
  with_reducible refine Same.ite ?_ ?_
  · with_reducible refine Same.step (State.powered_same ..) rfl ?_
    with_reducible refine Same.step (State.modPort_same ..) rfl ?_
    exact Same.refl _ _
  · exact Same.refl _ _

theorem State.alignmentDone_same (s : State) :
    Same [.port, .faults] s (State.alignmentDone s) := by
  unfold State.alignmentDone
  with_reducible refine Same.ite ?_ ?_
  · with_reducible refine Same.step (State.settlePort_same ..) rfl ?_
    with_reducible refine Same.step (State.clearFault_same ..) rfl ?_
    with_reducible refine Same.step (State.modPort_same ..) rfl ?_
    exact Same.refl _ _
  · exact Same.refl _ _

theorem State.closeDescriptor_same (s : State) :
    Same [.pack, .port] s (State.closeDescriptor s) := by
  unfold State.closeDescriptor
  with_reducible refine Same.ite ?_ ?_
  · with_reducible refine Same.step (State.settlePort_same ..) rfl ?_
    with_reducible refine Same.step (State.modPort_same ..) rfl ?_
    with_reducible refine Same.step (State.control_same ..) rfl ?_
    exact Same.refl _ _
  · exact Same.refl _ _

theorem State.introductionClose_same (s : State) :
    Same [.pack, .port] s (State.introductionClose s) := by
  unfold State.introductionClose
  with_reducible refine Same.ite ?_ ?_
  · with_reducible refine Same.ite ?_ ?_
    · with_reducible refine Same.step (State.closeDescriptor_same ..) rfl ?_
      exact Same.refl _ _
    · with_reducible refine Same.ite ?_ ?_
      · exact Same.refl _ _
      · with_reducible refine Same.step (State.closeDescriptor_same ..) rfl ?_
        with_reducible refine Same.step (State.modPort_same ..) rfl ?_
        split
        · with_reducible refine Same.step (State.control_same ..) rfl ?_
          with_reducible refine Same.step (State.control_same ..) rfl ?_
          exact Same.refl _ _
        · with_reducible refine Same.step (State.control_same ..) rfl ?_
          exact Same.refl _ _
  · exact Same.refl _ _

theorem State.startTx_same (s : State) (src : Src) (k : Skein) :
    Same [.port] s (State.startTx s src k) := by
  unfold State.startTx
  with_reducible refine Same.step (State.modPort_same ..) rfl ?_
  exact Same.refl _ _

theorem State.transmitStart_same (s : State) (corrected : Nat) (uncorrectable : Bool) :
    Same [.cab, .port, .faults] s (State.transmitStart s corrected uncorrectable) := by
  unfold State.transmitStart
  with_reducible refine Same.ite ?_ ?_
  · exact Same.refl _ _
  · split
    · with_reducible refine Same.step (State.startTx_same ..) rfl ?_
      exact Same.refl _ _
    · with_reducible refine Same.ite ?_ ?_
      · split
        · with_reducible refine Same.ite ?_ ?_
          · exact Same.refl _ _
          · with_reducible refine Same.ite ?_ ?_
            · with_reducible refine Same.step (State.modPort_same ..) rfl ?_
              with_reducible refine Same.step (State.discardBad_same ..) rfl ?_
              with_reducible refine Same.step (State.correctWords_same ..) rfl ?_
              exact Same.refl _ _
            · with_reducible refine Same.step (State.checkStore_same ..) rfl ?_
              with_reducible refine Same.step (State.startTx_same ..) rfl ?_
              with_reducible refine Same.step (State.correctWords_same ..) rfl ?_
              exact Same.refl _ _
        · exact Same.refl _ _
      · exact Same.refl _ _

theorem State.freeSkein_same (s : State) (st : StoreId) (k : Skein) (flip : BitVec 26) :
    Same [.cab] s (State.freeSkein s st k flip) := by
  unfold State.freeSkein
  with_reducible refine Same.step (State.checkStore_same ..) rfl ?_
  with_reducible refine Same.step (State.upsetRead_same ..) rfl ?_
  with_reducible refine Same.step (State.takeOut_same ..) rfl ?_
  exact Same.refl _ _

theorem State.settleIntro_same (s : State) :
    Same [.port] s (State.settleIntro s) := by
  unfold State.settleIntro
  with_reducible refine Same.ite ?_ ?_
  · with_reducible refine Same.step (State.modPort_same ..) rfl ?_
    exact Same.refl _ _
  · exact Same.refl _ _

theorem State.pulsePkt_same (s : State) :
    Same [.free, .port] s (State.pulsePkt s) := by
  unfold State.pulsePkt
  with_reducible refine Same.step (State.modPort_same ..) rfl ?_
  with_reducible refine Same.step (State.drawNat_same ..) rfl ?_
  with_reducible refine Same.step (State.drawNat_same ..) rfl ?_
  exact Same.refl _ _

theorem State.transmissionComplete_same (s : State) (flip : BitVec 26) :
    Same [.free, .cab, .port] s (State.transmissionComplete s flip) := by
  unfold State.transmissionComplete
  split
  · with_reducible refine Same.ite ?_ ?_
    · with_reducible refine Same.step (State.modPort_same ..) rfl ?_
      exact Same.refl _ _
    · with_reducible refine Same.step (State.modPort_same ..) rfl ?_
      split
      · with_reducible refine Same.ite ?_ ?_
        · with_reducible refine Same.step (State.modPort_same ..) rfl ?_
          with_reducible refine Same.step (State.pulsePkt_same ..) rfl ?_
          with_reducible refine Same.step (State.modPort_same ..) rfl ?_
          exact Same.refl _ _
        · with_reducible refine Same.step (State.freeSkein_same ..) rfl ?_
          with_reducible refine Same.step (State.modPort_same ..) rfl ?_
          with_reducible refine Same.step (State.pulsePkt_same ..) rfl ?_
          with_reducible refine Same.step (State.modPort_same ..) rfl ?_
          exact Same.refl _ _
      · with_reducible refine Same.step (State.settleIntro_same ..) rfl ?_
        with_reducible refine Same.upd_cab rfl ?_
        with_reducible refine Same.step (State.modPort_same ..) rfl ?_
        with_reducible refine Same.step (State.pulsePkt_same ..) rfl ?_
        with_reducible refine Same.step (State.modPort_same ..) rfl ?_
        exact Same.refl _ _
  · exact Same.refl _ _

theorem State.partnerLoss_same (s : State) :
    Same [.chain, .port, .faults] s (State.partnerLoss s) := by
  unfold State.partnerLoss
  with_reducible refine Same.ite ?_ ?_
  · with_reducible refine Same.step (State.log_same ..) rfl ?_
    with_reducible refine Same.step (State.streamDown_same ..) rfl ?_
    exact Same.refl _ _
  · exact Same.refl _ _

theorem State.shortCircuit_same (s : State) (lane : Fin 5) :
    Same [.chain, .port, .faults] s (State.shortCircuit s lane) := by
  unfold State.shortCircuit
  with_reducible refine Same.ite ?_ ?_
  · with_reducible refine Same.step (State.raise_same ..) rfl ?_
    with_reducible refine Same.step (State.modPort_same ..) rfl ?_
    with_reducible refine Same.step (State.streamDown_same ..) rfl ?_
    exact Same.refl _ _
  · exact Same.refl _ _

theorem State.modSnap_same (s : State) (f : Snap → Snap) :
    Same [.snap] s (State.modSnap s f) := by
  unfold State.modSnap
  with_reducible refine Same.upd_snap rfl ?_
  exact Same.refl _ _

theorem State.releaseGroup_same (s : State) (g : Group) :
    Same [.snap] s (State.releaseGroup s g) := by
  unfold State.releaseGroup
  with_reducible refine Same.step (State.modSnap_same ..) rfl ?_
  exact Same.refl _ _

theorem State.purge_same (s : State) (g : Group) :
    Same [.snap] s (State.purge s g) := by
  unfold State.purge
  split
  · with_reducible refine Same.ite ?_ ?_
    · with_reducible refine Same.step (State.releaseGroup_same ..) rfl ?_
      exact Same.refl _ _
    · exact Same.refl _ _
  · exact Same.refl _ _

theorem State.latchGroup_same (s : State) (g : Group) :
    Same [.snap] s (State.latchGroup s g) := by
  unfold State.latchGroup
  split
  · exact Same.refl _ _
  · with_reducible refine Same.step (State.modSnap_same ..) rfl ?_
    exact Same.refl _ _

theorem State.presentGroup_same (s : State) (g : Group) (sa : BitVec 9) (w : Nat) (latches : Bool) (counts : Bool) (fin : Nat) :
    Same [.snap] s (State.presentGroup s g sa w latches counts fin) := by
  unfold State.presentGroup
  try dsimp only
  split
  · with_reducible refine Same.ite ?_ ?_
    · with_reducible refine Same.step (State.releaseGroup_same ..) rfl ?_
      with_reducible refine Same.step (State.modSnap_same ..) rfl ?_
      with_reducible refine Same.ite ?_ ?_
      · with_reducible refine Same.step (State.latchGroup_same ..) rfl ?_
        with_reducible refine Same.step (State.purge_same ..) rfl ?_
        exact Same.refl _ _
      · with_reducible refine Same.step (State.purge_same ..) rfl ?_
        exact Same.refl _ _
    · with_reducible refine Same.step (State.modSnap_same ..) rfl ?_
      with_reducible refine Same.step (State.modSnap_same ..) rfl ?_
      with_reducible refine Same.ite ?_ ?_
      · with_reducible refine Same.step (State.latchGroup_same ..) rfl ?_
        with_reducible refine Same.step (State.purge_same ..) rfl ?_
        exact Same.refl _ _
      · with_reducible refine Same.step (State.purge_same ..) rfl ?_
        exact Same.refl _ _
  · with_reducible refine Same.ite ?_ ?_
    · with_reducible refine Same.step (State.latchGroup_same ..) rfl ?_
      with_reducible refine Same.step (State.purge_same ..) rfl ?_
      exact Same.refl _ _
    · with_reducible refine Same.step (State.purge_same ..) rfl ?_
      exact Same.refl _ _

theorem State.presentation_same (s : State) (sa : BitVec 9) (hold : Nat) :
    Same [.free, .snap] s (State.presentation s sa hold) := by
  unfold State.presentation
  with_reducible refine Same.ite ?_ ?_
  · with_reducible refine Same.step (State.modSnap_same ..) rfl ?_
    exact Same.refl _ _
  · with_reducible refine Same.ite ?_ ?_
    · split
      · with_reducible refine Same.ite ?_ ?_
        · with_reducible refine Same.ite_snd ?_ ?_
          · with_reducible refine Same.step (State.modSnap_same ..) rfl ?_
            exact Same.refl _ _
          · with_reducible refine Same.ite_snd ?_ ?_
            · with_reducible refine Same.step (State.drawBit_same ..) rfl ?_
              with_reducible refine Same.step (State.modSnap_same ..) rfl ?_
              exact Same.refl _ _
            · with_reducible refine Same.step (State.modSnap_same ..) rfl ?_
              exact Same.refl _ _
        · with_reducible refine Same.step (State.presentGroup_same ..) rfl ?_
          with_reducible refine Same.ite_snd ?_ ?_
          · with_reducible refine Same.step (State.modSnap_same ..) rfl ?_
            exact Same.refl _ _
          · with_reducible refine Same.ite_snd ?_ ?_
            · with_reducible refine Same.step (State.drawBit_same ..) rfl ?_
              with_reducible refine Same.step (State.modSnap_same ..) rfl ?_
              exact Same.refl _ _
            · with_reducible refine Same.step (State.modSnap_same ..) rfl ?_
              exact Same.refl _ _
      · with_reducible refine Same.step (State.modSnap_same ..) rfl ?_
        with_reducible refine Same.ite_snd ?_ ?_
        · with_reducible refine Same.step (State.modSnap_same ..) rfl ?_
          exact Same.refl _ _
        · with_reducible refine Same.ite_snd ?_ ?_
          · with_reducible refine Same.step (State.drawBit_same ..) rfl ?_
            with_reducible refine Same.step (State.modSnap_same ..) rfl ?_
            exact Same.refl _ _
          · with_reducible refine Same.step (State.modSnap_same ..) rfl ?_
            exact Same.refl _ _
    · with_reducible refine Same.step (State.modSnap_same ..) rfl ?_
      with_reducible refine Same.step (State.drawNat_same ..) rfl ?_
      split
      · with_reducible refine Same.ite ?_ ?_
        · with_reducible refine Same.ite_snd ?_ ?_
          · with_reducible refine Same.step (State.modSnap_same ..) rfl ?_
            exact Same.refl _ _
          · with_reducible refine Same.ite_snd ?_ ?_
            · with_reducible refine Same.step (State.drawBit_same ..) rfl ?_
              with_reducible refine Same.step (State.modSnap_same ..) rfl ?_
              exact Same.refl _ _
            · with_reducible refine Same.step (State.modSnap_same ..) rfl ?_
              exact Same.refl _ _
        · with_reducible refine Same.step (State.presentGroup_same ..) rfl ?_
          with_reducible refine Same.ite_snd ?_ ?_
          · with_reducible refine Same.step (State.modSnap_same ..) rfl ?_
            exact Same.refl _ _
          · with_reducible refine Same.ite_snd ?_ ?_
            · with_reducible refine Same.step (State.drawBit_same ..) rfl ?_
              with_reducible refine Same.step (State.modSnap_same ..) rfl ?_
              exact Same.refl _ _
            · with_reducible refine Same.step (State.modSnap_same ..) rfl ?_
              exact Same.refl _ _
      · with_reducible refine Same.step (State.modSnap_same ..) rfl ?_
        with_reducible refine Same.ite_snd ?_ ?_
        · with_reducible refine Same.step (State.modSnap_same ..) rfl ?_
          exact Same.refl _ _
        · with_reducible refine Same.ite_snd ?_ ?_
          · with_reducible refine Same.step (State.drawBit_same ..) rfl ?_
            with_reducible refine Same.step (State.modSnap_same ..) rfl ?_
            exact Same.refl _ _
          · with_reducible refine Same.step (State.modSnap_same ..) rfl ?_
            exact Same.refl _ _

theorem State.groupTimeout_same (s : State) (g : Group) :
    Same [.snap] s (State.groupTimeout s g) := by
  unfold State.groupTimeout
  split
  · with_reducible refine Same.ite ?_ ?_
    · with_reducible refine Same.step (State.releaseGroup_same ..) rfl ?_
      exact Same.refl _ _
    · exact Same.refl _ _
  · exact Same.refl _ _

theorem State.startOp_same (s : State) (kind : FlashKind) (journal : Option Nat) :
    Same [.flash, .leave] s (State.startOp s kind journal) := by
  unfold State.startOp
  with_reducible refine Same.step (State.withdrawLeave_same ..) rfl ?_
  with_reducible refine Same.upd_flash rfl (.inr rfl) ?_
  exact Same.refl _ _

theorem State.flashErase_same (s : State) (p : Nat) :
    Same [.free, .flash, .mem, .leave, .faults] s (State.flashErase s p) := by
  unfold State.flashErase
  with_reducible refine Same.ite ?_ ?_
  · split
    · with_reducible refine Same.ite ?_ ?_
      · exact Same.refl _ _
      · with_reducible refine Same.step (State.startOp_same ..) rfl ?_
        with_reducible refine Same.ite_snd ?_ ?_
        · with_reducible refine Same.step (State.journalPut_same ..) rfl ?_
          exact Same.refl _ _
        · with_reducible refine Same.step (State.journalBegin_same ..) rfl ?_
          exact Same.refl _ _
    · with_reducible refine Same.step (State.startOp_same ..) rfl ?_
      exact Same.refl _ _
  · exact Same.refl _ _

theorem State.flashProgramStart_same (s : State) (a : Nat) (data : List Byte) :
    Same [.flash, .leave] s (State.flashProgramStart s a data) := by
  unfold State.flashProgramStart
  with_reducible refine Same.ite ?_ ?_
  · with_reducible refine Same.step (State.startOp_same ..) rfl ?_
    exact Same.refl _ _
  · exact Same.refl _ _

theorem State.releaseOp_same (s : State) :
    Same [.leave] s (State.releaseOp s) := by
  unfold State.releaseOp
  with_reducible refine Same.step (State.releaseFor_same ..) rfl ?_
  with_reducible refine Same.step (State.releaseFor_same ..) rfl ?_
  with_reducible refine Same.step (State.releaseFor_same ..) rfl ?_
  exact Same.refl _ _

theorem State.landOp_same (s : State) (o : FlashOp) (verified : Bool) :
    Same [.free, .flash, .mem] s (State.landOp s o verified) := by
  unfold State.landOp
  split
  · with_reducible refine Same.ite ?_ ?_
    · with_reducible refine Same.step (State.flashEraseSector_same ..) rfl ?_
      exact Same.refl _ _
    · with_reducible refine Same.step (State.spoilErase_same ..) rfl ?_
      exact Same.refl _ _
  · with_reducible refine Same.ite ?_ ?_
    · with_reducible refine Same.step (State.flashProgram_same ..) rfl ?_
      exact Same.refl _ _
    · with_reducible refine Same.step (State.spoilProgram_same ..) rfl ?_
      exact Same.refl _ _

theorem State.noteErase_same (s : State) (o : FlashOp) (verified : Bool) (took : Nat) :
    Same [.free, .flash, .mem, .faults] s (State.noteErase s o verified took) := by
  unfold State.noteErase
  split
  · try dsimp only
    split
    · with_reducible refine Same.ite ?_ ?_
      · with_reducible refine Same.step (State.journalComplete_same ..) rfl ?_
        with_reducible refine Same.step (State.noteTook_same ..) rfl ?_
        exact Same.refl _ _
      · with_reducible refine Same.step (State.noteTook_same ..) rfl ?_
        exact Same.refl _ _
    · with_reducible refine Same.step (State.noteTook_same ..) rfl ?_
      exact Same.refl _ _
  · exact Same.refl _ _

theorem State.stallCost_same (s : State) (o : FlashOp) :
    Same [.strap, .core] s (State.stallCost s o) := by
  unfold State.stallCost
  with_reducible refine Same.ite ?_ ?_
  · exact Same.refl _ _
  · with_reducible refine Same.upd_strap_core rfl rfl ?_
    exact Same.refl _ _

theorem State.landHalt_same (s : State) :
    Same [.chan, .leave, .core] s (State.landHalt s) := by
  unfold State.landHalt
  with_reducible refine Same.ite ?_ ?_
  · with_reducible refine Same.step (State.dropHold_same ..) rfl ?_
    with_reducible refine Same.upd_core rfl ?_
    exact Same.refl _ _
  · exact Same.refl _ _

theorem State.endStall_same (s : State) (o : FlashOp) :
    Same [.strap, .chan, .sched, .leave, .core] s (State.endStall s o) := by
  unfold State.endStall
  with_reducible refine Same.step (State.resumeLeave_same ..) rfl ?_
  with_reducible refine Same.step (State.landOwed_same ..) rfl ?_
  with_reducible refine Same.step (State.withdrawLeave_same ..) rfl ?_
  with_reducible refine Same.step (State.landHalt_same ..) rfl ?_
  with_reducible refine Same.step (State.stallCost_same ..) rfl ?_
  exact Same.refl _ _

theorem State.checkSpares_same (s : State) :
    Same [.faults] s (State.checkSpares s) := by
  unfold State.checkSpares
  with_reducible refine Same.ite ?_ ?_
  · with_reducible refine Same.step (State.raise_same ..) rfl ?_
    exact Same.refl _ _
  · exact Same.refl _ _

theorem State.flashEnd_same (s : State) (verified : Bool) (took : Nat) :
    Same [.free, .strap, .chan, .sched, .flash, .mem, .leave, .core, .faults] s (State.flashEnd s verified took) := by
  unfold State.flashEnd
  split
  · with_reducible refine Same.ite ?_ ?_
    · exact Same.refl _ _
    · with_reducible refine Same.ite ?_ ?_
      · with_reducible refine Same.ite ?_ ?_
        · with_reducible refine Same.step (State.retryFault_same ..) rfl ?_
          with_reducible refine Same.upd_flash rfl (.inl rfl) ?_
          exact Same.refl _ _
        · with_reducible refine Same.step (State.raise_same ..) rfl ?_
          with_reducible refine Same.step (State.retryFault_same ..) rfl ?_
          with_reducible refine Same.upd_flash rfl (.inl rfl) ?_
          exact Same.refl _ _
      · with_reducible refine Same.step (State.endStall_same ..) rfl ?_
        with_reducible refine Same.step (State.checkSpares_same ..) rfl ?_
        with_reducible refine Same.step (State.releaseOp_same ..) rfl ?_
        with_reducible refine Same.upd_flash rfl (.inl rfl) ?_
        with_reducible refine Same.step (State.wear_same ..) rfl ?_
        with_reducible refine Same.step (State.noteErase_same ..) rfl ?_
        with_reducible refine Same.step (State.landOp_same ..) rfl ?_
        exact Same.refl _ _
  · exact Same.refl _ _

theorem State.eraseHoldEnd_same (s : State) :
    Same [.flash, .leave] s (State.eraseHoldEnd s) := by
  unfold State.eraseHoldEnd
  split
  · split
    · with_reducible refine Same.ite ?_ ?_
      · with_reducible refine Same.step (State.releaseOp_same ..) rfl ?_
        with_reducible refine Same.upd_flash rfl (.inr rfl) ?_
        exact Same.refl _ _
      · exact Same.refl _ _
    · exact Same.refl _ _
  · exact Same.refl _ _

theorem State.eraseSuspend_same (s : State) :
    Same [.strap, .chan, .sched, .flash, .leave, .core] s (State.eraseSuspend s) := by
  unfold State.eraseSuspend
  split
  · split
    · with_reducible refine Same.ite ?_ ?_
      · with_reducible refine Same.step (State.endStall_same ..) rfl ?_
        with_reducible refine Same.step (State.releaseOp_same ..) rfl ?_
        with_reducible refine Same.upd_flash rfl (.inr rfl) ?_
        exact Same.refl _ _
      · exact Same.refl _ _
    · exact Same.refl _ _
  · exact Same.refl _ _

theorem State.programStop_same (s : State) :
    Same [.free, .strap, .chan, .sched, .flash, .mem, .leave, .core] s (State.programStop s) := by
  unfold State.programStop
  split
  · split
    · with_reducible refine Same.ite ?_ ?_
      · with_reducible refine Same.step (State.endStall_same ..) rfl ?_
        with_reducible refine Same.step (State.releaseOp_same ..) rfl ?_
        with_reducible refine Same.upd_flash rfl (.inl rfl) ?_
        with_reducible refine Same.step (State.flashProgram_same ..) rfl ?_
        with_reducible refine Same.step (State.drawNat_same ..) rfl ?_
        exact Same.refl _ _
      · exact Same.refl _ _
    · exact Same.refl _ _
  · exact Same.refl _ _

theorem State.resumeOp_same (s : State) :
    Same [.flash, .leave] s (State.resumeOp s) := by
  unfold State.resumeOp
  split
  · with_reducible refine Same.ite ?_ ?_
    · exact Same.refl _ _
    · with_reducible refine Same.ite ?_ ?_
      · with_reducible refine Same.step (State.withdrawLeave_same ..) rfl ?_
        with_reducible refine Same.upd_flash rfl (.inr rfl) ?_
        exact Same.refl _ _
      · with_reducible refine Same.step (State.requestLeave_same ..) rfl ?_
        exact Same.refl _ _
  · exact Same.refl _ _

theorem State.cutOp_same (s : State) :
    Same [.free, .flash, .mem] s (State.cutOp s) := by
  unfold State.cutOp
  split
  · with_reducible refine Same.upd_flash rfl (.inl rfl) ?_
    split
    · with_reducible refine Same.step (State.spoilErase_same ..) rfl ?_
      with_reducible refine Same.step (State.drawNat_same ..) rfl ?_
      exact Same.refl _ _
    · with_reducible refine Same.ite ?_ ?_
      · with_reducible refine Same.step (State.drawNat_same ..) rfl ?_
        exact Same.refl _ _
      · with_reducible refine Same.ite ?_ ?_
        · with_reducible refine Same.step (State.spoilProgram_same ..) rfl ?_
          with_reducible refine Same.step (State.drawNat_same ..) rfl ?_
          exact Same.refl _ _
        · with_reducible refine Same.ite ?_ ?_
          · with_reducible refine Same.step (State.markBad_same ..) rfl ?_
            with_reducible refine Same.step (State.flashProgram_same ..) rfl ?_
            with_reducible refine Same.step (State.drawNat_same ..) rfl ?_
            exact Same.refl _ _
          · with_reducible refine Same.step (State.flashProgram_same ..) rfl ?_
            with_reducible refine Same.step (State.drawNat_same ..) rfl ?_
            exact Same.refl _ _
  · exact Same.refl _ _

theorem State.compact_same (s : State) :
    Same [.free, .flash, .mem, .faults] s (State.compact s) := by
  unfold State.compact
  with_reducible refine Same.upd_flash rfl (.inl rfl) ?_
  with_reducible refine Same.step (State.journalComplete_same ..) rfl ?_
  with_reducible refine Same.step (State.journalComplete_same ..) rfl ?_
  with_reducible refine Same.foldl (fun _ _ => ?_) ?_
  · with_reducible refine Same.step (State.journaledErase_same ..) rfl ?_
    exact Same.refl _ _
  with_reducible refine Same.step (State.journalBegin_same ..) rfl ?_
  with_reducible refine Same.step (State.appendRecs_same ..) rfl ?_
  with_reducible refine Same.step (State.journalBegin_same ..) rfl ?_
  with_reducible refine Same.upd_flash rfl (.inl rfl) ?_
  exact Same.refl _ _

theorem State.compaction_same (s : State) :
    Same [.free, .flash, .mem, .leave, .faults] s (State.compaction s) := by
  unfold State.compaction
  with_reducible refine Same.ite ?_ ?_
  · with_reducible refine Same.step (State.releaseFor_same ..) rfl ?_
    with_reducible refine Same.step (State.compact_same ..) rfl ?_
    exact Same.refl _ _
  · exact Same.refl _ _

theorem State.rowCounterIncrement_same (s : State) (c : RowId) :
    Same [.free, .flash, .mem, .leave, .faults] s (State.rowCounterIncrement s c) := by
  unfold State.rowCounterIncrement
  with_reducible refine Same.ite ?_ ?_
  · with_reducible refine Same.step (State.releaseFor_same ..) rfl ?_
    with_reducible refine Same.step (State.rowIncrement_same ..) rfl ?_
    exact Same.refl _ _
  · exact Same.refl _ _

theorem State.mapRetired_same (s : State) (old : Nat) (new : Nat) (p : Nat) :
    Same [.free, .flash, .mem, .faults] s (State.mapRetired s old new p) := by
  unfold State.mapRetired
  with_reducible refine Same.ite ?_ ?_
  · exact Same.refl _ _
  · try dsimp only
    split
    · with_reducible refine Same.step (State.programNow_same ..) rfl ?_
      exact Same.refl _ _
    · exact Same.refl _ _

theorem State.recoverEntry_same (s : State) (i : Nat) :
    Same [.free, .flash, .mem, .faults] s (State.recoverEntry s i).2.2 := by
  unfold State.recoverEntry
  with_reducible refine Same.ite_snd2 ?_ ?_
  · with_reducible refine Same.ite ?_ ?_
    · with_reducible refine Same.step (State.journalComplete_same ..) rfl ?_
      exact Same.refl _ _
    · with_reducible refine Same.step (State.completeErased_same ..) rfl ?_
      with_reducible refine Same.step (State.eraseNow_same ..) rfl ?_
      exact Same.refl _ _
  · with_reducible refine Same.ite_snd2 ?_ ?_
    · with_reducible refine Same.step (State.journalComplete_same ..) rfl ?_
      with_reducible refine Same.step (State.mapRetired_same ..) rfl ?_
      with_reducible refine Same.step (State.mapRetired_same ..) rfl ?_
      exact Same.refl _ _
    · try dsimp only
      split
      · with_reducible refine Same.step (State.journalComplete_same ..) rfl ?_
        with_reducible refine Same.step (State.journalComplete_same ..) rfl ?_
        with_reducible refine Same.foldl (fun _ _ => ?_) ?_
        · with_reducible refine Same.ite ?_ ?_
          · exact Same.refl _ _
          · with_reducible refine Same.step (State.journaledErase_same ..) rfl ?_
            exact Same.refl _ _
        exact Same.refl _ _
      · with_reducible refine Same.step (State.journalComplete_same ..) rfl ?_
        with_reducible refine Same.foldl (fun _ _ => ?_) ?_
        · with_reducible refine Same.step (State.journaledErase_same ..) rfl ?_
          exact Same.refl _ _
        exact Same.refl _ _

theorem State.recoverOne_same (s : State) (i : Nat) :
    Same [.free, .flash, .mem, .faults] s (State.recoverOne s i) := by
  unfold State.recoverOne
  with_reducible refine Same.step (State.log_same ..) rfl ?_
  with_reducible refine Same.step (State.recoverEntry_same ..) rfl ?_
  exact Same.refl _ _

theorem State.restartIndex_same (s : State) :
    Same [.ao, .cal, .flash, .faults] s (State.restartIndex s) := by
  unfold State.restartIndex
  with_reducible refine Same.ite ?_ ?_
  · with_reducible refine Same.ite ?_ ?_
    · with_reducible refine Same.step (State.rebuild_same ..) rfl ?_
      with_reducible refine Same.step (State.buildIndex_same ..) rfl ?_
      exact Same.refl _ _
    · with_reducible refine Same.step (State.buildIndex_same ..) rfl ?_
      exact Same.refl _ _
  · exact Same.refl _ _

theorem State.journalRecovery_same (s : State) :
    Same [.free, .ao, .cal, .flash, .mem, .leave, .core, .faults] s (State.journalRecovery s) := by
  unfold State.journalRecovery
  with_reducible refine Same.ite ?_ ?_
  · try dsimp only
    split
    · with_reducible refine Same.ite ?_ ?_
      · with_reducible refine Same.step (State.releaseFor_same ..) rfl ?_
        with_reducible refine Same.step (State.recoverOne_same ..) rfl ?_
        with_reducible refine Same.step (State.checkSpares_same ..) rfl ?_
        exact Same.refl _ _
      · with_reducible refine Same.step (State.checkSpares_same ..) rfl ?_
        exact Same.refl _ _
    · with_reducible refine Same.ite ?_ ?_
      · with_reducible refine Same.upd_core rfl ?_
        with_reducible refine Same.step (State.checkSpares_same ..) rfl ?_
        exact Same.refl _ _
      · with_reducible refine Same.step (State.restartIndex_same ..) rfl ?_
        with_reducible refine Same.upd_core rfl ?_
        with_reducible refine Same.step (State.checkSpares_same ..) rfl ?_
        exact Same.refl _ _
  · exact Same.refl _ _

theorem State.reconcile_same (s : State) :
    Same [.free, .flash, .mem, .faults] s (State.reconcile s) := by
  unfold State.reconcile
  with_reducible refine Same.step (State.reconcileRow_same ..) rfl ?_
  with_reducible refine Same.step (State.reconcileRow_same ..) rfl ?_
  exact Same.refl _ _

theorem State.endRecovery_same (s : State) :
    Same [.flash, .core, .faults] s (State.endRecovery s) := by
  unfold State.endRecovery
  with_reducible refine Same.upd_core rfl ?_
  with_reducible refine Same.step (State.buildIndex_same ..) rfl ?_
  exact Same.refl _ _

theorem State.rowReconcile_same (s : State) :
    Same [.free, .flash, .mem, .leave, .core, .faults] s (State.rowReconcile s) := by
  unfold State.rowReconcile
  with_reducible refine Same.ite ?_ ?_
  · with_reducible refine Same.ite ?_ ?_
    · with_reducible refine Same.step (State.endRecovery_same ..) rfl ?_
      with_reducible refine Same.step (State.reconcile_same ..) rfl ?_
      exact Same.refl _ _
    · with_reducible refine Same.ite ?_ ?_
      · with_reducible refine Same.step (State.endRecovery_same ..) rfl ?_
        with_reducible refine Same.step (State.releaseFor_same ..) rfl ?_
        with_reducible refine Same.step (State.reconcile_same ..) rfl ?_
        exact Same.refl _ _
      · exact Same.refl _ _
  · exact Same.refl _ _

theorem State.moveBytes_same (s : State) (old : Nat) (new : Nat) (f : Nat → Bool) :
    Same [.free, .flash, .mem, .faults] s (State.moveBytes s old new f) := by
  unfold State.moveBytes
  with_reducible refine Same.step (State.programNow_same ..) rfl ?_
  with_reducible refine Same.foldl (fun _ _ => ?_) ?_
  · with_reducible refine Same.ite ?_ ?_
    · with_reducible refine Same.step (State.flashProgram_same ..) rfl ?_
      exact Same.refl _ _
    · exact Same.refl _ _
  exact Same.refl _ _

theorem State.moveContent_same (s : State) (old : Nat) (new : Nat) (orig : Nat) :
    Same [.free, .flash, .mem, .faults] s (State.moveContent s old new orig) := by
  unfold State.moveContent
  with_reducible refine Same.ite ?_ ?_
  · with_reducible refine Same.step (State.moveBytes_same ..) rfl ?_
    exact Same.refl _ _
  · with_reducible refine Same.ite ?_ ?_
    · with_reducible refine Same.step (State.moveBytes_same ..) rfl ?_
      exact Same.refl _ _
    · with_reducible refine Same.ite ?_ ?_
      · with_reducible refine Same.step (State.moveBytes_same ..) rfl ?_
        exact Same.refl _ _
      · with_reducible refine Same.ite ?_ ?_
        · split
          · with_reducible refine Same.step (State.programNow_same ..) rfl ?_
            exact Same.refl _ _
          · exact Same.refl _ _
        · with_reducible refine Same.step (State.moveBytes_same ..) rfl ?_
          exact Same.refl _ _

theorem State.retire_same (s : State) (p : Nat) :
    Same [.free, .flash, .mem, .leave, .faults] s (State.retire s p) := by
  unfold State.retire
  try dsimp only
  split
  · with_reducible refine Same.ite ?_ ?_
    · try dsimp only
      split
      · with_reducible refine Same.step (State.checkSpares_same ..) rfl ?_
        with_reducible refine Same.step (State.releaseFor_same ..) rfl ?_
        with_reducible refine Same.upd_flash rfl (.inl rfl) ?_
        with_reducible refine Same.step (State.log_same ..) rfl ?_
        with_reducible refine Same.step (State.recoverEntry_same ..) rfl ?_
        with_reducible refine Same.step (State.moveContent_same ..) rfl ?_
        with_reducible refine Same.ite ?_ ?_
        · with_reducible refine Same.step (State.journalBegin_same ..) rfl ?_
          exact Same.refl _ _
        · with_reducible refine Same.step (State.eraseNow_same ..) rfl ?_
          with_reducible refine Same.step (State.journalBegin_same ..) rfl ?_
          exact Same.refl _ _
      · with_reducible refine Same.step (State.releaseFor_same ..) rfl ?_
        with_reducible refine Same.upd_flash rfl (.inl rfl) ?_
        with_reducible refine Same.step (State.raise_same ..) rfl ?_
        exact Same.refl _ _
    · exact Same.refl _ _
  · exact Same.refl _ _

theorem State.braceScrub_same (s : State) :
    Same [.free, .cab, .leave] s (State.braceScrub s) := by
  unfold State.braceScrub
  with_reducible refine Same.ite ?_ ?_
  · with_reducible refine Same.step (State.requestLeave_same ..) rfl ?_
    with_reducible refine Same.step (State.scrubStop_same ..) rfl ?_
    exact Same.refl _ _
  · exact Same.refl _ _

theorem State.braceMarker_same (s : State) (back : Bool) (duration : BitVec 40) :
    Same [.chain, .power] s (State.braceMarker s back duration) := by
  unfold State.braceMarker
  with_reducible refine Same.ite ?_ ?_
  · with_reducible refine Same.step (State.hwMarker_same ..) rfl ?_
    exact Same.refl _ _
  · with_reducible refine Same.upd_power rfl ?_
    exact Same.refl _ _

theorem State.braceEntry_same (s : State) :
    Same [.free, .strap, .chan, .chain, .sched, .cab, .flash, .mem, .power, .leave, .core, .faults] s (State.braceEntry s) := by
  unfold State.braceEntry
  with_reducible refine Same.ite ?_ ?_
  · with_reducible refine Same.step (State.settleWait_same ..) rfl ?_
    with_reducible refine Same.step (State.modLeave_same ..) rfl ?_
    with_reducible refine Same.step (State.programStop_same ..) rfl ?_
    with_reducible refine Same.step (State.braceScrub_same ..) rfl ?_
    with_reducible refine Same.step (State.giveBack_same ..) rfl ?_
    with_reducible refine Same.step (State.occurs_same ..) rfl ?_
    with_reducible refine Same.step (State.braceMarker_same ..) rfl ?_
    with_reducible refine Same.upd_power rfl ?_
    exact Same.refl _ _
  · exact Same.refl _ _

theorem State.braceReturn_same (s : State) (lowest : Nat) :
    Same [.chain, .flash, .power, .leave, .faults] s (State.braceReturn s lowest) := by
  unfold State.braceReturn
  with_reducible refine Same.ite ?_ ?_
  · with_reducible refine Same.step (State.resumeLeave_same ..) rfl ?_
    with_reducible refine Same.step (State.resumeOp_same ..) rfl ?_
    with_reducible refine Same.step (State.event_same ..) rfl ?_
    with_reducible refine Same.step (State.braceMarker_same ..) rfl ?_
    with_reducible refine Same.upd_power rfl ?_
    exact Same.refl _ _
  · exact Same.refl _ _

theorem State.standbyEntry_same (s : State) :
    Same [.chain, .port, .ao, .power, .leave, .faults] s (State.standbyEntry s) := by
  unfold State.standbyEntry
  with_reducible refine Same.ite ?_ ?_
  · with_reducible refine Same.step (State.dropOutputs_same ..) rfl ?_
    with_reducible refine Same.step (State.streamStandby_same ..) rfl ?_
    with_reducible refine Same.upd_power rfl ?_
    exact Same.refl _ _
  · exact Same.refl _ _

theorem State.standbyExit_same (s : State) :
    Same [.port, .ao, .power] s (State.standbyExit s) := by
  unfold State.standbyExit
  with_reducible refine Same.ite ?_ ?_
  · with_reducible refine Same.ite ?_ ?_
    · with_reducible refine Same.step (State.powered_same ..) rfl ?_
      with_reducible refine Same.upd_ao rfl ?_
      with_reducible refine Same.step (State.streamResume_same ..) rfl ?_
      with_reducible refine Same.upd_power rfl ?_
      exact Same.refl _ _
    · with_reducible refine Same.step (State.streamResume_same ..) rfl ?_
      with_reducible refine Same.upd_power rfl ?_
      exact Same.refl _ _
  · exact Same.refl _ _

theorem State.aoDown_same (s : State) :
    Same [.ao] s (State.aoDown s) := by
  unfold State.aoDown
  with_reducible refine Same.ite ?_ ?_
  · with_reducible refine Same.upd_ao rfl ?_
    exact Same.refl _ _
  · exact Same.refl _ _

theorem State.vbatCheck_same (s : State) (vbat : Nat) :
    Same [.power, .faults] s (State.vbatCheck s vbat) := by
  unfold State.vbatCheck
  with_reducible refine Same.ite ?_ ?_
  · with_reducible refine Same.ite ?_ ?_
    · with_reducible refine Same.step (State.log_same ..) rfl ?_
      with_reducible refine Same.upd_power rfl ?_
      exact Same.refl _ _
    · with_reducible refine Same.upd_power rfl ?_
      exact Same.refl _ _
  · exact Same.refl _ _

theorem State.fullReset_same (s : State) (cause : ResetCause) :
    Same [.free, .tb, .time, .session, .keep, .strap, .chan, .counts, .yarns, .stat, .eng, .chain, .pack, .sched, .fol, .cab, .port, .snap, .ao, .cal, .flash, .mem, .power, .leave, .core, .faults, .tether, .svc, .fuse, .sens, .seen] s (State.fullReset s cause) := by
  unfold State.fullReset
  with_reducible refine Same.ite (Same.ite (Same.upd_keep rfl (Same.upd_core rfl (Same.refl _ _))) (Same.upd_core rfl (Same.refl _ _))) fun p hp => ?_
  cases p <;> first
    | exact State.cutOp_same s .clock rfl
    | exact State.cutOp_same s .pending rfl
    | exact absurd hp (by decide)

theorem State.resetBy_same (s : State) (cause : ResetCause) :
    Same [.free, .tb, .time, .session, .keep, .strap, .chan, .counts, .yarns, .stat, .eng, .chain, .pack, .sched, .fol, .cab, .port, .snap, .ao, .cal, .flash, .mem, .power, .leave, .core, .faults, .tether, .svc, .fuse, .sens, .seen] s (State.resetBy s cause) := by
  unfold State.resetBy
  split
  · unfold State.onPin
    exact Same.when (fun t => (State.fullReset_same t _).mono rfl) ((State.takes_same _ _ _ _).mono rfl)
  · exact State.fullReset_same _ _

theorem State.resetRelease_same (s : State) (sense : FuseSense) :
    Same [.cab, .core, .faults, .svc, .fuse] s (State.resetRelease s sense) := by
  unfold State.resetRelease
  with_reducible refine Same.ite ?_ ?_
  · with_reducible refine Same.ite ?_ ?_
    · with_reducible refine Same.upd_cab_core_svc rfl rfl rfl (.inl rfl) ?_
      exact Same.refl _ _
    · with_reducible refine Same.step (State.raise_same ..) rfl ?_
      with_reducible refine Same.upd_cab_core_svc rfl rfl rfl (.inl rfl) ?_
      exact Same.refl _ _
  · exact Same.refl _ _

theorem State.strapFaults_same (s : State) :
    Same [.faults] s (State.strapFaults s) := by
  unfold State.strapFaults
  with_reducible refine Same.ite ?_ ?_
  · with_reducible refine Same.step (State.raise_same ..) rfl ?_
    exact Same.refl _ _
  · with_reducible refine Same.foldl (fun _ _ => ?_) ?_
    · with_reducible refine Same.ite ?_ ?_
      · with_reducible refine Same.step (State.raise_same ..) rfl ?_
        exact Same.refl _ _
      · exact Same.refl _ _
    exact Same.refl _ _

theorem State.startChannel_same (s : State) (n : Chan) :
    Same [.chan, .counts] s (State.startChannel s n) := by
  unfold State.startChannel
  with_reducible refine Same.ite ?_ ?_
  · with_reducible refine Same.modChan (.inl rfl) (.inr fun _ => rfl) rfl ?_
    exact Same.refl _ _
  · exact Same.refl _ _

theorem State.strapLatch_same (s : State) (r : StrapRead) :
    Same [.strap, .chan, .counts, .fol, .port, .snap, .flash, .core, .faults] s (State.strapLatch s r) := by
  unfold State.strapLatch
  with_reducible refine Same.ite ?_ ?_
  · with_reducible refine Same.upd_fol_port_snap_flash_core rfl rfl rfl rfl (.inr rfl) rfl ?_
    with_reducible refine Same.step (State.strapFaults_same ..) rfl ?_
    with_reducible refine Same.eachChan (fun _ _ => ?_) ?_
    · with_reducible refine Same.step (State.startChannel_same ..) rfl ?_
      exact Same.refl _ _
    with_reducible refine Same.upd_strap rfl ?_
    exact Same.refl _ _
  · exact Same.refl _ _

theorem State.sessionCommit_same (s : State) :
    Same [.free, .tb, .session, .keep, .sched, .flash, .mem, .leave, .core, .faults] s (State.sessionCommit s) := by
  unfold State.sessionCommit
  with_reducible refine Same.ite ?_ ?_
  · with_reducible refine Same.ite ?_ ?_
    · with_reducible refine Same.step (State.armStartup_same ..) rfl ?_
      with_reducible refine Same.step (State.releaseFor_same ..) rfl ?_
      with_reducible refine Same.upd_tb_keep_core rfl (.inr ⟨rfl, rfl, rfl⟩) (.inl rfl) rfl rfl ?_
      with_reducible refine Same.step (State.rowAdvance_same ..) rfl ?_
      exact Same.refl _ _
    · with_reducible refine Same.step (State.log_same ..) rfl ?_
      with_reducible refine Same.step (State.armStartup_same ..) rfl ?_
      with_reducible refine Same.step (State.releaseFor_same ..) rfl ?_
      with_reducible refine Same.upd_tb_keep_core rfl (.inr ⟨rfl, rfl, rfl⟩) (.inl rfl) rfl rfl ?_
      with_reducible refine Same.step (State.rowAdvance_same ..) rfl ?_
      exact Same.refl _ _
  · exact Same.refl _ _

theorem State.pllLock_same (s : State) :
    Same [.tb, .core, .faults] s (State.pllLock s) := by
  unfold State.pllLock
  with_reducible refine Same.ite ?_ ?_
  · with_reducible refine Same.step (State.clearFault_same ..) rfl ?_
    with_reducible refine Same.step (State.clearFault_same ..) rfl ?_
    with_reducible refine Same.upd_tb_core rfl (.inr ⟨rfl, rfl, rfl⟩) (.inr ⟨rfl, rfl⟩) rfl ?_
    exact Same.refl _ _
  · exact Same.refl _ _

theorem State.refinChange_same (s : State) (active : Bool) :
    Same [.tb, .faults] s (State.refinChange s active) := by
  unfold State.refinChange
  with_reducible refine Same.ite ?_ ?_
  · exact Same.refl _ _
  · with_reducible refine Same.ite ?_ ?_
    · with_reducible refine Same.step (State.clearFault_same ..) rfl ?_
      with_reducible refine Same.upd_tb rfl (.inr ⟨rfl, rfl, rfl⟩) (.inr ⟨rfl, rfl⟩) ?_
      exact Same.refl _ _
    · with_reducible refine Same.step (State.clearFault_same ..) rfl ?_
      with_reducible refine Same.upd_tb rfl (.inr ⟨rfl, rfl, rfl⟩) (.inr ⟨rfl, rfl⟩) ?_
      exact Same.refl _ _

theorem State.pllUnlock_same (s : State) :
    Same [.free, .tb, .chan, .yarns, .stat, .chain, .sched, .ao, .cal, .leave, .core, .faults] s (State.pllUnlock s) := by
  unfold State.pllUnlock
  with_reducible refine Same.ite ?_ ?_
  · exact Same.refl _ _
  · with_reducible refine Same.ite ?_ ?_
    · with_reducible refine Same.step (State.releaseFor_same ..) rfl ?_
      with_reducible refine Same.step (State.dropRequest_same ..) rfl ?_
      with_reducible refine Same.step (State.abandonRun_same ..) rfl ?_
      with_reducible refine Same.step (State.raise_same ..) rfl ?_
      with_reducible refine Same.step (State.flagGates_same ..) rfl ?_
      with_reducible refine Same.upd_tb_cal rfl (.inr ⟨rfl, rfl, rfl⟩) (.inr ⟨rfl, rfl⟩) rfl ?_
      exact Same.refl _ _
    · with_reducible refine Same.ite ?_ ?_
      · with_reducible refine Same.upd_tb_core rfl (.inr ⟨rfl, rfl, rfl⟩) (.inr ⟨rfl, rfl⟩) rfl ?_
        exact Same.refl _ _
      · exact Same.refl _ _

theorem State.pllRelock_same (s : State) :
    Same [.tb, .chan, .cal, .faults] s (State.pllRelock s) := by
  unfold State.pllRelock
  with_reducible refine Same.ite ?_ ?_
  · with_reducible refine Same.step (State.resumeJoin_same ..) rfl ?_
    with_reducible refine Same.step (State.clearFault_same ..) rfl ?_
    with_reducible refine Same.upd_tb rfl (.inr ⟨rfl, rfl, rfl⟩) (.inr ⟨rfl, rfl⟩) ?_
    exact Same.refl _ _
  · exact Same.refl _ _

theorem State.chanAtEpoch_same (s : State) (n : Chan) :
    Same [.chan, .stat] s (State.chanAtEpoch s n) := by
  unfold State.chanAtEpoch
  with_reducible refine Same.step (State.modStat_same ..) rfl ?_
  with_reducible refine Same.modChan (.inr fun _ => rfl) (.inr fun _ => rfl) rfl ?_
  exact Same.refl _ _

theorem State.stepSix_same (s : State) :
    Same [.chan, .cal, .core] s (State.stepSix s) := by
  unfold State.stepSix
  with_reducible refine Same.ite ?_ ?_
  · with_reducible refine Same.step (State.settleBoot_same ..) rfl ?_
    with_reducible refine Same.upd_chan_core rfl (.inr (fun _ => by first | rfl | simp only [Per8.get_map])) (.inr (fun _ => by first | rfl | simp only [Per8.get_map])) rfl ?_
    exact Same.refl _ _
  · exact Same.refl _ _

theorem State.setEpoch_same (s : State) (source : BitVec 2) (epoch : Nat) :
    Same [.clock, .tb, .time, .keep, .chan, .stat, .eng, .chain, .pack, .sched, .fol, .ao, .cal, .power, .leave, .core, .faults, .seen] s (State.setEpoch s source epoch) := by
  unfold State.setEpoch
  with_reducible refine Same.step (State.stepSix_same ..) rfl ?_
  with_reducible refine Same.upd_power rfl ?_
  with_reducible refine Same.step (State.write_same ..) rfl ?_
  with_reducible refine Same.foldl (fun _ _ => ?_) ?_
  · with_reducible refine Same.step (State.hwMarker_same ..) rfl ?_
    exact Same.refl _ _
  with_reducible refine Same.step (State.write_same ..) rfl ?_
  with_reducible refine Same.eachChan (fun _ _ => ?_) ?_
  · with_reducible refine Same.step (State.chanAtEpoch_same ..) rfl ?_
    exact Same.refl _ _
  with_reducible refine Same.upd_tb_keep_fol_core rfl (.inl rfl) (.inr ⟨rfl, rfl⟩) rfl rfl rfl ?_
  with_reducible refine Same.step (advance_same ..) rfl ?_
  exact Same.refl _ _

theorem State.epochFree_same (s : State) :
    Same [.clock, .tb, .time, .keep, .chan, .stat, .eng, .chain, .pack, .sched, .fol, .ao, .cal, .power, .leave, .core, .faults, .seen] s (State.epochFree s) := by
  unfold State.epochFree
  with_reducible refine Same.ite ?_ ?_
  · with_reducible refine Same.step (State.setEpoch_same ..) rfl ?_
    exact Same.refl _ _
  · exact Same.refl _ _

theorem State.epochTimeout_same (s : State) :
    Same [.clock, .tb, .time, .keep, .chan, .stat, .eng, .chain, .pack, .sched, .fol, .ao, .cal, .power, .leave, .core, .faults, .seen] s (State.epochTimeout s) := by
  unfold State.epochTimeout
  with_reducible refine Same.ite ?_ ?_
  · with_reducible refine Same.step (State.setEpoch_same ..) rfl ?_
    with_reducible refine Same.step (State.log_same ..) rfl ?_
    exact Same.refl _ _
  · exact Same.refl _ _

theorem State.ppsNote_same (s : State) (d : Int) :
    Same [.tb, .faults] s (State.ppsNote s d) := by
  unfold State.ppsNote
  with_reducible refine Same.ite ?_ ?_
  · with_reducible refine Same.step (State.log_same ..) rfl ?_
    with_reducible refine Same.upd_tb rfl (.inr ⟨rfl, rfl, rfl⟩) (.inr ⟨rfl, rfl⟩) ?_
    exact Same.refl _ _
  · with_reducible refine Same.upd_tb rfl (.inr ⟨rfl, rfl, rfl⟩) (.inr ⟨rfl, rfl⟩) ?_
    exact Same.refl _ _

theorem State.ppsCheck_same (s : State) :
    Same [.tb, .faults] s (State.ppsCheck s) := by
  unfold State.ppsCheck
  with_reducible refine Same.step (State.ppsNote_same ..) rfl ?_
  exact Same.refl _ _

theorem State.tetherSecond_same (s : State) :
    Same [.tether] s (State.tetherSecond s) := by
  unfold State.tetherSecond
  with_reducible refine Same.ite ?_ ?_
  · with_reducible refine Same.upd_tether rfl ?_
    exact Same.refl _ _
  · exact Same.refl _ _

theorem State.ppsLater_same (s : State) :
    Same [.tb, .faults, .tether] s (State.ppsLater s) := by
  unfold State.ppsLater
  with_reducible refine Same.step (State.tetherSecond_same ..) rfl ?_
  with_reducible refine Same.ite ?_ ?_
  · with_reducible refine Same.step (State.ppsCheck_same ..) rfl ?_
    with_reducible refine Same.upd_tb rfl (.inr ⟨rfl, rfl, rfl⟩) (.inr ⟨rfl, rfl⟩) ?_
    exact Same.refl _ _
  · with_reducible refine Same.upd_tb rfl (.inr ⟨rfl, rfl, rfl⟩) (.inr ⟨rfl, rfl⟩) ?_
    exact Same.refl _ _

theorem State.ppsEdge_same (s : State) :
    Same [.clock, .tb, .time, .keep, .chan, .stat, .eng, .chain, .pack, .sched, .fol, .ao, .cal, .power, .leave, .core, .faults, .tether, .seen] s (State.ppsEdge s) := by
  unfold State.ppsEdge
  with_reducible refine Same.ite ?_ ?_
  · exact Same.refl _ _
  · with_reducible refine Same.ite ?_ ?_
    · with_reducible refine Same.step (State.ppsLater_same ..) rfl ?_
      exact Same.refl _ _
    · with_reducible refine Same.ite ?_ ?_
      · with_reducible refine Same.ite ?_ ?_
        · with_reducible refine Same.step (State.ppsLater_same ..) rfl ?_
          with_reducible refine Same.step (State.epochTimeout_same ..) rfl ?_
          exact Same.refl _ _
        · with_reducible refine Same.step (State.tetherSecond_same ..) rfl ?_
          with_reducible refine Same.ite ?_ ?_
          · with_reducible refine Same.step (State.ppsNote_same ..) rfl ?_
            with_reducible refine Same.step (State.setEpoch_same ..) rfl ?_
            exact Same.refl _ _
          · with_reducible refine Same.step (State.setEpoch_same ..) rfl ?_
            exact Same.refl _ _
      · exact Same.refl _ _

theorem State.ppsGap_same (s : State) :
    Same [.tb, .faults] s (State.ppsGap s) := by
  unfold State.ppsGap
  split
  · with_reducible refine Same.ite ?_ ?_
    · with_reducible refine Same.step (State.log_same ..) rfl ?_
      with_reducible refine Same.upd_tb rfl (.inr ⟨rfl, rfl, rfl⟩) (.inr ⟨rfl, rfl⟩) ?_
      exact Same.refl _ _
    · exact Same.refl _ _
  · exact Same.refl _ _

theorem State.keepTick_same (s : State) :
    Same [.keep] s (State.keepTick s) := by
  unfold State.keepTick
  with_reducible refine Same.ite ?_ ?_
  · with_reducible refine Same.upd_keep rfl ?_
    exact Same.refl _ _
  · exact Same.refl _ _

theorem State.keepLoss_same (s : State) :
    Same [.keep] s (State.keepLoss s) := by
  unfold State.keepLoss
  with_reducible refine Same.ite ?_ ?_
  · with_reducible refine Same.upd_keep rfl ?_
    exact Same.refl _ _
  · exact Same.refl _ _

theorem State.beginRestart_same (s : State) (pc : Option (BitVec 32)) :
    Same [.free, .tb, .time, .session, .keep, .strap, .chan, .counts, .yarns, .stat, .eng, .chain, .pack, .sched, .fol, .cab, .port, .snap, .ao, .cal, .flash, .mem, .power, .leave, .core, .faults, .tether, .svc, .fuse, .sens, .seen] s (State.beginRestart s pc) := by
  unfold State.beginRestart
  with_reducible refine Same.ite ?_ ?_
  · with_reducible refine Same.step (State.fullReset_same ..) rfl ?_
    exact Same.refl _ _
  · with_reducible refine Same.step (State.withdrawLeave_same ..) rfl ?_
    with_reducible refine Same.step (State.dropHold_same ..) rfl ?_
    with_reducible refine Same.upd_core rfl ?_
    exact Same.refl _ _

theorem State.fetchError_same (s : State) (sector : Nat) (offset : Nat) :
    Same [.free, .tb, .time, .session, .keep, .strap, .chan, .counts, .yarns, .stat, .eng, .chain, .pack, .sched, .fol, .cab, .port, .snap, .ao, .cal, .flash, .mem, .power, .leave, .core, .faults, .tether, .svc, .fuse, .sens, .seen] s (State.fetchError s sector offset) := by
  unfold State.fetchError
  with_reducible refine Same.ite ?_ ?_
  · with_reducible refine Same.step (State.beginRestart_same ..) rfl ?_
    with_reducible refine Same.step (State.log_same ..) rfl ?_
    with_reducible refine Same.step (State.markBad_same ..) rfl ?_
    exact Same.refl _ _
  · exact Same.refl _ _

theorem State.restartRecovery_same (s : State) :
    Same [.ao, .cal, .flash, .leave, .core, .faults] s (State.restartRecovery s) := by
  unfold State.restartRecovery
  with_reducible refine Same.ite ?_ ?_
  · exact Same.refl _ _
  · with_reducible refine Same.ite ?_ ?_
    · with_reducible refine Same.step (State.requestLeave_same ..) rfl ?_
      with_reducible refine Same.upd_core rfl ?_
      exact Same.refl _ _
    · with_reducible refine Same.step (State.restartIndex_same ..) rfl ?_
      exact Same.refl _ _

theorem State.restartJoin_same (s : State) (n : Chan) :
    Same [.chan, .chain, .leave, .faults] s (State.restartJoin s n) := by
  unfold State.restartJoin
  with_reducible refine Same.ite ?_ ?_
  · with_reducible refine Same.step (State.log_same ..) rfl ?_
    with_reducible refine Same.step (State.releaseFor_same ..) rfl ?_
    with_reducible refine Same.step (State.releaseFor_same ..) rfl ?_
    with_reducible refine Same.step (State.gapMarkers_same ..) rfl ?_
    with_reducible refine Same.step (State.goAbsentUp_same ..) rfl ?_
    exact Same.refl _ _
  · exact Same.refl _ _

theorem State.restartRun_same (s : State) :
    Same [.chan, .chain, .cal, .leave, .core, .faults] s (State.restartRun s) := by
  unfold State.restartRun
  with_reducible refine Same.step (State.settleBoot_same ..) rfl ?_
  with_reducible refine Same.eachChan (fun _ _ => ?_) ?_
  · with_reducible refine Same.step (State.restartJoin_same ..) rfl ?_
    exact Same.refl _ _
  split
  · with_reducible refine Same.step (State.releaseFor_same ..) rfl ?_
    with_reducible refine Same.step (State.endSuspension_same ..) rfl ?_
    with_reducible refine Same.upd_cal rfl ?_
    with_reducible refine Same.upd_cal rfl ?_
    exact Same.refl _ _
  · with_reducible refine Same.upd_cal rfl ?_
    exact Same.refl _ _

theorem State.restartLosses_same (s : State) :
    Same [.strap, .chain, .pack, .sched, .port, .cal] s (State.restartLosses s) := by
  unfold State.restartLosses
  with_reducible refine Same.upd_strap_chain_pack_sched_port_cal rfl rfl rfl rfl rfl rfl ?_
  exact Same.refl _ _

theorem State.restartOutput_same (s : State) (o : OutNo) :
    Same [.ao, .leave] s (State.restartOutput s o) := by
  unfold State.restartOutput
  with_reducible refine Same.ite ?_ ?_
  · with_reducible refine Same.step (State.releaseFor_same ..) rfl ?_
    with_reducible refine Same.step (State.dropRequest_same ..) rfl ?_
    with_reducible refine Same.step (State.modOut_same ..) rfl ?_
    exact Same.refl _ _
  · exact Same.refl _ _

theorem State.restartSteps_same (s : State) :
    Same [.strap, .chan, .chain, .pack, .sched, .port, .ao, .cal, .flash, .leave, .core, .faults] s (State.restartSteps s) := by
  unfold State.restartSteps
  with_reducible refine Same.step (State.resumeLeave_same ..) rfl ?_
  with_reducible refine Same.eachOut (fun _ _ => ?_) ?_
  · with_reducible refine Same.step (State.restartOutput_same ..) rfl ?_
    exact Same.refl _ _
  with_reducible refine Same.step (State.restartRun_same ..) rfl ?_
  with_reducible refine Same.step (State.restartRecovery_same ..) rfl ?_
  with_reducible refine Same.step (State.restartLosses_same ..) rfl ?_
  with_reducible refine Same.upd_core rfl ?_
  exact Same.refl _ _

theorem State.coreRestart_same (s : State) :
    Same [.strap, .chan, .chain, .pack, .sched, .port, .ao, .cal, .flash, .leave, .core, .faults] s (State.coreRestart s) := by
  unfold State.coreRestart
  with_reducible refine Same.ite ?_ ?_
  · try dsimp only
    split
    · with_reducible refine Same.step (State.log_same ..) rfl ?_
      with_reducible refine Same.upd_core rfl ?_
      with_reducible refine Same.step (State.restartSteps_same ..) rfl ?_
      exact Same.refl _ _
    · with_reducible refine Same.step (State.restartSteps_same ..) rfl ?_
      exact Same.refl _ _
  · exact Same.refl _ _

theorem State.dropJoin_same (s : State) (n : Chan) :
    Same [.chan, .chain, .cal, .leave, .core, .faults] s (State.dropJoin s n) := by
  unfold State.dropJoin
  with_reducible refine Same.step (State.settleBoot_same ..) rfl ?_
  with_reducible refine Same.step (State.settleJoin_same ..) rfl ?_
  with_reducible refine Same.step (State.log_same ..) rfl ?_
  with_reducible refine Same.step (State.goAbsentUp_same ..) rfl ?_
  with_reducible refine Same.step (State.gapMarkers_same ..) rfl ?_
  with_reducible refine Same.step (State.releaseFor_same ..) rfl ?_
  with_reducible refine Same.step (State.releaseFor_same ..) rfl ?_
  with_reducible refine Same.ite ?_ ?_
  · with_reducible refine Same.upd_cal rfl ?_
    exact Same.refl _ _
  · exact Same.refl _ _

theorem State.takeDown_same (s : State) (dom : Nat) :
    Same [.chan, .stat, .eng, .chain, .port, .snap, .ao, .cal, .leave, .core, .faults] s (State.takeDown s dom) := by
  unfold State.takeDown
  with_reducible refine Same.ite ?_ ?_
  · with_reducible refine Same.modChan (.inr fun _ => rfl) (.inr fun _ => rfl) rfl ?_
    with_reducible refine Same.ite ?_ ?_
    · with_reducible refine Same.step (State.loseChannel_same ..) rfl ?_
      exact Same.refl _ _
    · with_reducible refine Same.ite ?_ ?_
      · with_reducible refine Same.step (State.dropJoin_same ..) rfl ?_
        exact Same.refl _ _
      · exact Same.refl _ _
  · with_reducible refine Same.ite ?_ ?_
    · with_reducible refine Same.step (State.streamDown_same ..) rfl ?_
      exact Same.refl _ _
    · with_reducible refine Same.ite ?_ ?_
      · with_reducible refine Same.upd_ao rfl ?_
        with_reducible refine Same.step (State.dropOutputs_same ..) rfl ?_
        exact Same.refl _ _
      · with_reducible refine Same.step (State.modSnap_same ..) rfl ?_
        exact Same.refl _ _

theorem State.domainFault_same (s : State) (dom : Nat) :
    Same [.chan, .stat, .eng, .chain, .port, .snap, .ao, .cal, .power, .leave, .core, .faults] s (State.domainFault s dom) := by
  unfold State.domainFault
  with_reducible refine Same.ite ?_ ?_
  · with_reducible refine Same.step (State.takeDown_same ..) rfl ?_
    with_reducible refine Same.step (State.raiseAgain_same ..) rfl ?_
    with_reducible refine Same.upd_power rfl ?_
    exact Same.refl _ _
  · exact Same.refl _ _

theorem State.bringUp_same (s : State) (dom : Nat) :
    Same [.chan, .snap, .ao, .power] s (State.bringUp s dom) := by
  unfold State.bringUp
  with_reducible refine Same.ite ?_ ?_
  · with_reducible refine Same.ite ?_ ?_
    · with_reducible refine Same.step (State.powered_same ..) rfl ?_
      with_reducible refine Same.step (State.goAbsentUp_same ..) rfl ?_
      with_reducible refine Same.modChan (.inr fun _ => rfl) (.inr fun _ => rfl) rfl ?_
      exact Same.refl _ _
    · with_reducible refine Same.step (State.powered_same ..) rfl ?_
      with_reducible refine Same.modChan (.inr fun _ => rfl) (.inr fun _ => rfl) rfl ?_
      exact Same.refl _ _
  · with_reducible refine Same.ite ?_ ?_
    · exact Same.refl _ _
    · with_reducible refine Same.ite ?_ ?_
      · with_reducible refine Same.ite ?_ ?_
        · exact Same.refl _ _
        · with_reducible refine Same.step (State.powered_same ..) rfl ?_
          with_reducible refine Same.upd_ao rfl ?_
          exact Same.refl _ _
      · with_reducible refine Same.step (State.powered_same ..) rfl ?_
        with_reducible refine Same.step (State.modSnap_same ..) rfl ?_
        exact Same.refl _ _

theorem State.domainRestore_same (s : State) (dom : Nat) :
    Same [.chan, .snap, .ao, .power] s (State.domainRestore s dom) := by
  unfold State.domainRestore
  split
  · with_reducible refine Same.ite ?_ ?_
    · with_reducible refine Same.step (State.bringUp_same ..) rfl ?_
      with_reducible refine Same.upd_power rfl ?_
      exact Same.refl _ _
    · exact Same.refl _ _
  · exact Same.refl _ _

theorem State.domainClear_same (s : State) (dom : Nat) :
    Same [.power, .faults] s (State.domainClear s dom) := by
  unfold State.domainClear
  split
  · with_reducible refine Same.ite ?_ ?_
    · with_reducible refine Same.step (State.clearFault_same ..) rfl ?_
      with_reducible refine Same.upd_power rfl ?_
      exact Same.refl _ _
    · exact Same.refl _ _
  · exact Same.refl _ _

theorem State.driftRead_same (s : State) (pin : Nat) (reading : Nat) :
    Same [.strap, .chain, .snap, .faults] s (State.driftRead s pin reading) := by
  unfold State.driftRead
  split
  · with_reducible refine Same.ite ?_ ?_
    · exact Same.refl _ _
    · with_reducible refine Same.ite ?_ ?_
      · with_reducible refine Same.upd_strap rfl ?_
        exact Same.refl _ _
      · split
        · with_reducible refine Same.ite ?_ ?_
          · with_reducible refine Same.step (State.writeFw_same ..) rfl ?_
            with_reducible refine Same.ite ?_ ?_
            · with_reducible refine Same.step (State.log_same ..) rfl ?_
              with_reducible refine Same.ite ?_ ?_
              · with_reducible refine Same.step (State.fwMarker_same ..) rfl ?_
                with_reducible refine Same.upd_strap rfl ?_
                exact Same.refl _ _
              · with_reducible refine Same.upd_strap rfl ?_
                exact Same.refl _ _
            · with_reducible refine Same.ite ?_ ?_
              · with_reducible refine Same.step (State.fwMarker_same ..) rfl ?_
                with_reducible refine Same.upd_strap rfl ?_
                exact Same.refl _ _
              · with_reducible refine Same.upd_strap rfl ?_
                exact Same.refl _ _
          · with_reducible refine Same.upd_strap rfl ?_
            exact Same.refl _ _
  · exact Same.refl _ _

theorem State.statusTimer_same (s : State) :
    Same [.pack] s (State.statusTimer s) := by
  unfold State.statusTimer
  cases s.gridInstant (10 * Config.sec) with
  | none => exact Same.refl _ _
  | some x => with_reducible exact Same.ite (Same.step (State.write_same ..) rfl (Same.refl _ _)) (Same.refl _ _)

theorem State.closeFault_same (s : State) :
    Same [.chan, .pack, .snap, .cal, .core, .faults] s (State.closeFault s) := by
  unfold State.closeFault
  split
  · with_reducible refine Same.ite ?_ ?_
    · with_reducible refine Same.step (State.writeFw_same ..) rfl ?_
      with_reducible refine Same.step (State.stepSix_same ..) rfl ?_
      with_reducible refine Same.step (State.control_same ..) rfl ?_
      with_reducible refine Same.upd_faults rfl ?_
      exact Same.refl _ _
    · exact Same.refl _ _
  · exact Same.refl _ _

theorem State.modTether_same (s : State) (f : Tether → Tether) :
    Same [.tether] s (State.modTether s f) := by
  unfold State.modTether
  with_reducible refine Same.upd_tether rfl ?_
  exact Same.refl _ _

theorem State.clash_same (s : State) (detail : Nat) :
    Same [.faults, .tether] s (State.clash s detail) := by
  unfold State.clash
  with_reducible refine Same.step (State.raise_same ..) rfl ?_
  with_reducible refine Same.step (State.modTether_same ..) rfl ?_
  exact Same.refl _ _

theorem State.tetherSlot_same (s : State) (collision : Bool) :
    Same [.faults, .tether] s (State.tetherSlot s collision) := by
  unfold State.tetherSlot
  split
  · with_reducible refine Same.ite ?_ ?_
    · with_reducible refine Same.ite ?_ ?_
      · with_reducible refine Same.step (State.clash_same ..) rfl ?_
        with_reducible refine Same.step (State.modTether_same ..) rfl ?_
        with_reducible refine Same.step (State.modTether_same ..) rfl ?_
        exact Same.refl _ _
      · with_reducible refine Same.step (State.modTether_same ..) rfl ?_
        with_reducible refine Same.step (State.modTether_same ..) rfl ?_
        exact Same.refl _ _
    · exact Same.refl _ _
  · exact Same.refl _ _

theorem State.validFrame_same (s : State) (i : Fin 8) (f : Frame) :
    Same [.faults, .tether] s (State.validFrame s i f) := by
  unfold State.validFrame
  with_reducible refine Same.ite ?_ ?_
  · with_reducible refine Same.step (State.modTether_same ..) rfl ?_
    with_reducible refine Same.ite ?_ ?_
    · with_reducible refine Same.step (State.clash_same ..) rfl ?_
      with_reducible refine Same.step (State.modTether_same ..) rfl ?_
      exact Same.refl _ _
    · with_reducible refine Same.step (State.modTether_same ..) rfl ?_
      exact Same.refl _ _
  · with_reducible refine Same.ite ?_ ?_
    · with_reducible refine Same.step (State.clash_same ..) rfl ?_
      with_reducible refine Same.step (State.modTether_same ..) rfl ?_
      exact Same.refl _ _
    · with_reducible refine Same.step (State.modTether_same ..) rfl ?_
      exact Same.refl _ _

theorem State.frameReceived_same (s : State) (began : Nat) (f : FrameIn) :
    Same [.faults, .tether] s (State.frameReceived s began f) := by
  unfold State.frameReceived
  try dsimp only
  split
  · with_reducible refine Same.step (State.validFrame_same ..) rfl ?_
    exact Same.refl _ _
  · with_reducible refine Same.step (State.logLimited_same ..) rfl ?_
    exact Same.refl _ _

theorem State.adoptionArm_same (s : State) :
    Same [.tether] s (State.adoptionArm s) := by
  unfold State.adoptionArm
  split
  · with_reducible refine Same.ite ?_ ?_
    · with_reducible refine Same.step (State.modTether_same ..) rfl ?_
      exact Same.refl _ _
    · exact Same.refl _ _
  · exact Same.refl _ _

theorem State.adoptChan_same (s : State) (n : Chan) (old : Nat) (new : Nat) (w : Nat) :
    Same [.chan, .stat, .eng] s (State.adoptChan s n old new w) := by
  unfold State.adoptChan
  with_reducible refine Same.modChan (.inr fun _ => rfl) (.inr fun _ => rfl) rfl ?_
  with_reducible refine Same.step (State.modStat_same ..) rfl ?_
  with_reducible refine Same.step (State.cutSamples_same ..) rfl ?_
  with_reducible refine Same.ite ?_ ?_
  · with_reducible refine Same.step (State.closeInterval_same ..) rfl ?_
    exact Same.refl _ _
  · exact Same.refl _ _

theorem State.adoptPacker_same (s : State) :
    Same [.pack] s (State.adoptPacker s) := by
  unfold State.adoptPacker
  with_reducible refine Same.upd_pack rfl ?_
  exact Same.refl _ _

theorem State.adoptMarkers_same (s : State) :
    Same [.pack, .cab, .faults] s (State.adoptMarkers s) := by
  unfold State.adoptMarkers
  with_reducible refine Same.foldl (fun _ _ => ?_) ?_
  · with_reducible refine Same.step (State.takeRun_same ..) rfl ?_
    exact Same.refl _ _
  exact Same.refl _ _

theorem State.adoptCounts_same (s : State) :
    Same [.chain, .fol, .cal, .faults] s (State.adoptCounts s) := by
  unfold State.adoptCounts
  with_reducible refine Same.upd_chain_fol_cal_faults rfl rfl rfl rfl ?_
  exact Same.refl _ _

theorem State.adoptSkeins_same (s : State) (w : Nat) :
    Same [.pack] s (State.adoptSkeins s w) := by
  unfold State.adoptSkeins
  with_reducible refine Same.step (State.write_same ..) rfl ?_
  with_reducible refine Same.step (State.write_same ..) rfl ?_
  exact Same.refl _ _

theorem State.adoptIntervals_same (s : State) (old : Nat) (new : Nat) (w : Nat) :
    Same [.chan, .stat, .eng] s (State.adoptIntervals s old new w) := by
  unfold State.adoptIntervals
  with_reducible refine Same.eachChan (fun _ _ => ?_) ?_
  · with_reducible refine Same.step (State.openInterval_same ..) rfl ?_
    exact Same.refl _ _
  with_reducible refine Same.upd_eng rfl ?_
  with_reducible refine Same.eachChan (fun _ _ => ?_) ?_
  · with_reducible refine Same.step (State.adoptChan_same ..) rfl ?_
    exact Same.refl _ _
  exact Same.refl _ _

theorem State.switchTo_same (s : State) (f : Frame) (w : Nat) (d : Nat) :
    Same [.tb, .time, .session, .keep, .chan, .stat, .eng, .chain, .pack, .fol, .cab, .cal, .faults, .tether] s (State.switchTo s f w d) := by
  unfold State.switchTo
  with_reducible refine Same.step (State.adoptSkeins_same ..) rfl ?_
  with_reducible refine Same.step (State.adoptCounts_same ..) rfl ?_
  with_reducible refine Same.step (State.adoptMarkers_same ..) rfl ?_
  with_reducible refine Same.step (State.adoptPacker_same ..) rfl ?_
  with_reducible refine Same.step (State.closeDropRun_same ..) rfl ?_
  with_reducible refine Same.step (State.closeDropRun_same ..) rfl ?_
  with_reducible refine Same.step (State.adoptIntervals_same ..) rfl ?_
  with_reducible refine Same.upd_tb_keep_tether rfl (.inl rfl) (.inl rfl) rfl rfl ?_
  exact Same.refl _ _

theorem State.epochAdoption_same (s : State) :
    Same [.tb, .time, .session, .keep, .chan, .stat, .eng, .chain, .pack, .fol, .cab, .cal, .faults, .tether] s (State.epochAdoption s) := by
  unfold State.epochAdoption
  split
  · split
    · with_reducible refine Same.ite ?_ ?_
      · with_reducible refine Same.step (State.switchTo_same ..) rfl ?_
        exact Same.refl _ _
      · exact Same.refl _ _
  · exact Same.refl _ _

theorem State.adoptionCommit_same (s : State) :
    Same [.free, .tb, .flash, .mem, .leave, .faults] s (State.adoptionCommit s) := by
  unfold State.adoptionCommit
  with_reducible refine Same.ite ?_ ?_
  · with_reducible refine Same.step (State.releaseFor_same ..) rfl ?_
    with_reducible refine Same.upd_tb rfl (.inr ⟨rfl, rfl, rfl⟩) (.inr ⟨rfl, rfl⟩) ?_
    with_reducible refine Same.step (State.rowAdvance_same ..) rfl ?_
    exact Same.refl _ _
  · exact Same.refl _ _

theorem State.leadCheck_same (s : State) :
    Same [.faults, .tether] s (State.leadCheck s) := by
  unfold State.leadCheck
  split
  · with_reducible refine Same.ite ?_ ?_
    · try dsimp only
      split
      · with_reducible refine Same.ite ?_ ?_
        · with_reducible refine Same.step (State.log_same ..) rfl ?_
          with_reducible refine Same.step (State.modTether_same ..) rfl ?_
          exact Same.refl _ _
        · with_reducible refine Same.step (State.modTether_same ..) rfl ?_
          exact Same.refl _ _
      · with_reducible refine Same.step (State.modTether_same ..) rfl ?_
        exact Same.refl _ _
    · exact Same.refl _ _
  · exact Same.refl _ _

theorem State.reply_same (s : State) (status : Byte) (resp : List Byte) :
    Same [.svc] s (State.reply s status resp) := by
  unfold State.reply
  with_reducible refine Same.modSvc (.inr fun _ => rfl) rfl ?_
  exact Same.refl _ _

theorem State.ident_same (s : State) :
    Same [.svc] s (State.ident s) := by
  unfold State.ident
  with_reducible refine Same.step (State.reply_same ..) rfl ?_
  exact Same.refl _ _

theorem State.svcRead_same (s : State) (a : Nat) (n : Nat) :
    Same [.free, .svc] s (State.svcRead s a n) := by
  unfold State.svcRead
  with_reducible refine Same.step (State.reply_same ..) rfl ?_
  with_reducible refine Same.upd_free rfl ?_
  exact Same.refl _ _

theorem State.halt_same (s : State) :
    Same [.chan, .leave, .core, .svc] s (State.halt s) := by
  unfold State.halt
  with_reducible refine Same.step (State.reply_same ..) rfl ?_
  with_reducible refine Same.step (State.withdrawLeave_same ..) rfl ?_
  with_reducible refine Same.ite ?_ ?_
  · with_reducible refine Same.upd_core rfl ?_
    with_reducible refine Same.ite ?_ ?_
    · exact Same.refl _ _
    · with_reducible refine Same.modSvc (.inr fun _ => rfl) rfl ?_
      exact Same.refl _ _
  · with_reducible refine Same.step (State.dropHold_same ..) rfl ?_
    with_reducible refine Same.upd_core rfl ?_
    with_reducible refine Same.ite ?_ ?_
    · exact Same.refl _ _
    · with_reducible refine Same.modSvc (.inr fun _ => rfl) rfl ?_
      exact Same.refl _ _

theorem State.resume_same (s : State) :
    Same [.core, .svc] s (State.resume s) := by
  unfold State.resume
  with_reducible refine Same.step (State.reply_same ..) rfl ?_
  with_reducible refine Same.upd_core rfl ?_
  exact Same.refl _ _

theorem State.svcStart_same (s : State) (k : FlashKind) :
    Same [.leave, .svc] s (State.svcStart s k) := by
  unfold State.svcStart
  with_reducible refine Same.step (State.reply_same ..) rfl ?_
  with_reducible refine Same.step (State.requestLeave_same ..) rfl ?_
  with_reducible refine Same.modSvc (.inr fun _ => rfl) rfl ?_
  exact Same.refl _ _

theorem State.verify_same (s : State) :
    Same [.free, .svc] s (State.verify s) := by
  unfold State.verify
  with_reducible refine Same.ite ?_ ?_
  · with_reducible refine Same.step (State.reply_same ..) rfl ?_
    with_reducible refine Same.step (State.drawNat_same ..) rfl ?_
    with_reducible refine Same.modSvc (.inr fun _ => rfl) rfl ?_
    exact Same.refl _ _
  · with_reducible refine Same.step (State.reply_same ..) rfl ?_
    with_reducible refine Same.modSvc (.inr fun _ => rfl) rfl ?_
    exact Same.refl _ _

end Sys2Proof.Machine
end

