-- ==== Sys2Proof/Laws/Advance.lean ====
section
/-! SUPPORT. What the passing of time does, said once: the clock and the time counter move by what passes, and where no stitch is on
its way and nothing waits for the next cycle, that is all. -/

namespace Sys2Proof.Machine
open Sys2Proof

/-- Time that passes in two parts passes once. -/
theorem Timebase.move_move (a b : Nat) (tb : Timebase) : (tb.move a).move b = tb.move (a + b) := by
  have ht : ((tb.time.toNat + a) % 2 ^ 64 + b) % 2 ^ 64 = (tb.time.toNat + (a + b)) % 2 ^ 64 := by omega
  have he : (tb.time.toNat + a) / 2 ^ 64 + ((tb.time.toNat + a) % 2 ^ 64 + b) / 2 ^ 64 = (tb.time.toNat + (a + b)) / 2 ^ 64 := by
    omega
  simp only [Timebase.move, BitVec.toNat_ofNat]
  congr 1
  · exact BitVec.eq_of_toNat_eq (by simpa using ht)
  · rw [BitVec.add_assoc, ← BitVec.ofNat_add, he]
  · rw [Bool.or_assoc]
    congr 1
    rw [← Bool.decide_or]
    exact decide_eq_decide.mpr (by omega)

theorem State.flow_clock (dt : Nat) (s : State) : (s.flow dt).clock = s.clock + dt := by
  unfold State.flow
  refine (State.settleAll_same _ .clock rfl).trans ?_
  show (if _ then _ else _ : State).clock + dt = _
  split <;> rfl

theorem State.flow_tb (dt : Nat) (s : State) :
    (s.flow dt).tb = if s.tb.epochSet then s.tb.move dt else s.tb := by
  unfold State.flow
  refine (State.settleAll_same _ .tb rfl).trans ?_
  split <;> rfl

/-- The clock moves by what passes (log 3). -/
theorem advance_clock (dt : Nat) (s : State) : (advance dt s).clock = s.clock + dt := by
  unfold advance
  split
  · exact State.flow_clock dt s
  · rename_i h
    simp only [Bool.or_eq_true, decide_eq_true_eq, not_or, Nat.not_lt] at h
    rw [State.flow_clock, State.landLate_same _ .clock rfl, State.flow_clock, Nat.add_assoc, Nat.add_sub_of_le h.2]

/-- The time counter moves with it once the epoch is set (R48). -/
theorem advance_tb (dt : Nat) (s : State) : (advance dt s).tb = if s.tb.epochSet then s.tb.move dt else s.tb := by
  unfold advance
  split
  · exact State.flow_tb dt s
  · rename_i h
    simp only [Bool.or_eq_true, decide_eq_true_eq, not_or, Nat.not_lt] at h
    rw [State.flow_tb, State.landLate_same _ .tb rfl, State.flow_tb]
    split
    · rename_i he
      have : (s.tb.move s.toNext).epochSet = true := he
      rw [if_pos this, Timebase.move_move, Nat.add_sub_of_le h.2]
    · rfl

/-- Nothing is on its way to the merge, and nothing waits for the start of the next cycle. -/
def State.atRest (s : State) : Bool := s.sched.late.isEmpty && Chan.all.all fun n => (s.chan.get n).flights.isEmpty

/-- Time that passes in such a state passes, and nothing else comes about. -/
theorem advance_quiet (dt : Nat) (s : State) (h : s.atRest = true) : advance dt s = State.pass dt s := by
  simp only [State.atRest, Bool.and_eq_true, List.all_eq_true] at h
  have hf : ∀ n : Chan, (s.chan.get n).flights = [] := fun n =>
    List.isEmpty_iff.mp (h.2 n (by revert n; decide))
  have hc : ∀ k, s.takeCaptures k = s := fun k => by
    have g : ∀ c : Channel, c.flights = [] → { c with flights := c.flights.map (s.capturedIn k) } = c := fun c hc => by
      cases c; simp_all
    have e : s.chan.map (fun c => { c with flights := c.flights.map (s.capturedIn k) }) = s.chan :=
      Per8.map_same _ _ fun n => g _ (hf n)
    unfold State.takeCaptures
    rw [e]
  unfold advance State.flow
  rw [if_pos (by simp [h.1])]
  dsimp only
  rw [hc, ite_self]
  have h0 : (State.pass dt s).inFlight = 0 := by
    simp [State.inFlight, hf, Chan.all]
  rw [State.settleAll, h0]
  rfl

end Sys2Proof.Machine
end

