-- ==== Sys2Proof/Laws/Fault.lean ====
section
/-! SUPPORT. What raising, clearing and logging a fault do, said once: the whole of the change is in the faults. -/

namespace Sys2Proof.Machine
open Sys2Proof

/-- Adding to the occurrences of a code, as `bump` leaves them. -/
theorem Faults.count_bump (f : Faults) (code : Byte) (n : Nat) : (f.bump code n).count code = f.count code + n := by
  simp [Faults.count, Faults.bump]

theorem State.logAt_eq (s : State) (code : Byte) (time : BitVec 64) (subj : Byte) (a b : BitVec 32) :
    s.logAt code time subj a b = { s with faults := s.faults.logged code time subj a b } := by
  simp only [State.logAt, State.event, State.occurs, State.occur, Faults.logged]
  congr 2
  simp [Faults.bump, Faults.count]

theorem State.log_eq (s : State) (code subj : Byte) (a b : BitVec 32) :
    s.log code subj a b = { s with faults := s.faults.logged code s.tb.time subj a b } := State.logAt_eq ..

theorem State.raise_eq (s : State) (code subj : Byte) (a b : BitVec 32) :
    s.raise code subj a b = { s with faults := s.faults.raised code s.tb.time subj a b } := by
  unfold State.raise State.raiseFor Faults.raised
  by_cases h : s.faultActive code subj = true
  · have h' : s.faults.active.contains (code, subj) = true := h
    rw [if_pos h, if_pos h']
  · have h' : ¬s.faults.active.contains (code, subj) = true := h
    rw [if_neg h, if_neg h']
    simp only [State.event, State.occurs, State.occur]
    congr 2
    simp [Faults.bump, Faults.count]

theorem State.clearFault_eq (s : State) (code subj : Byte) :
    s.clearFault code subj = { s with faults := s.faults.cleared code s.tb.time subj } := by
  unfold State.clearFault State.clearFor Faults.cleared
  by_cases h : s.faultActive code subj = true
  · have h' : s.faults.active.contains (code, subj) = true := h
    rw [if_pos h, if_pos h']
    rfl
  · have h' : ¬s.faults.active.contains (code, subj) = true := h
    rw [if_neg h, if_neg h']

/-- A raised fault is active. -/
theorem Faults.raised_active (f : Faults) (code : Byte) (time : BitVec 64) (subj : Byte) (a b : BitVec 32) :
    (f.raised code time subj a b).active.contains (code, subj) = true := by
  simp only [Faults.raised]
  split
  · assumption
  · simp

/-- A cleared fault is not. -/
theorem Faults.cleared_active (f : Faults) (code : Byte) (time : BitVec 64) (subj : Byte) :
    (f.cleared code time subj).active.contains (code, subj) = false := by
  simp only [Faults.cleared]
  split
  · simp
  · rename_i h
    simpa using h

end Sys2Proof.Machine
end

