-- ==== Sys2Proof/Laws/Memory.lean ====
section
/-! SUPPORT. The flash byte array: what a read gives after a program or an erase, and that both keep the canonical form. -/

namespace Sys2Proof.Machine
open Sys2Proof

/-- The canonical form, said over all cells at once. -/
theorem memWf_iff (m : List Host.Cell) :
    memWf m = true ↔ m.Pairwise (fun c d => c.1 < d.1) ∧ ∀ c ∈ m, c.1 < arrayBytes ∧ c.2 ≠ baseByte c.1 := by
  induction m with
  | nil => simp [memWf]
  | cons c m ih =>
    obtain ⟨a, b⟩ := c
    cases m with
    | nil => simp [memWf]
    | cons d m =>
      obtain ⟨a', b'⟩ := d
      simp only [memWf, Bool.and_eq_true, decide_eq_true_eq, bne_iff_ne, ne_eq, ih, List.pairwise_cons, List.mem_cons,
        forall_eq_or_imp]
      constructor
      · rintro ⟨⟨h1, h2⟩, ⟨h3, h4⟩, ⟨h5, h6⟩, h7⟩
        exact ⟨⟨⟨h1, fun x hx => Nat.lt_trans h1 (h3 x hx)⟩, h3, h4⟩, ⟨Nat.lt_trans h1 h5, h2⟩, ⟨h5, h6⟩, h7⟩
      · rintro ⟨⟨⟨h1, -⟩, h3, h4⟩, ⟨-, h2⟩, ⟨h5, h6⟩, h7⟩
        exact ⟨⟨h1, h2⟩, ⟨h3, h4⟩, ⟨h5, h6⟩, h7⟩

theorem memGet_of_notMem {m : List Host.Cell} {x : Nat} (h : ∀ c ∈ m, c.1 ≠ x) : memGet m x = baseByte x := by
  induction m with
  | nil => rfl
  | cons c m ih =>
    rw [memGet, if_neg fun e => h c List.mem_cons_self e.symm]
    exact ih fun d hd => h d (List.mem_cons_of_mem _ hd)

/-- A written byte leaves every other byte alone. -/
theorem memGet_memPut_ne (m : List Host.Cell) {x y : Nat} (v : Byte) (h : y ≠ x) : memGet (memPut m x v) y = memGet m y := by
  induction m with
  | nil => by_cases hv : v = baseByte x <;> simp [memPut, memGet, hv, h]
  | cons c m ih =>
    obtain ⟨a, b⟩ := c
    unfold memPut
    split
    · split <;> simp [memGet, h]
    · split
      · subst_vars; split <;> simp [memGet, h]
      · simp [memGet, ih]

/-- A written byte reads back. -/
theorem memGet_memPut_same {m : List Host.Cell} (hm : memWf m = true) (x : Nat) (v : Byte) : memGet (memPut m x v) x = v := by
  have hp := ((memWf_iff m).mp hm).1
  clear hm
  induction m with
  | nil => by_cases hv : v = baseByte x <;> simp [memPut, memGet, hv]
  | cons c m ih =>
    obtain ⟨a, b⟩ := c
    obtain ⟨h1, h2⟩ := List.pairwise_cons.mp hp
    unfold memPut
    split
    · split
      · subst_vars
        exact memGet_of_notMem fun d hd => by
          rcases List.mem_cons.mp hd with rfl | hd
          · simp; omega
          · have := h1 d hd; simp at this; omega
      · simp [memGet]
    · split
      · split
        · subst_vars
          exact memGet_of_notMem fun d hd => Nat.ne_of_gt (h1 d hd)
        · simp [memGet, *]
      · simp [memGet, *]

theorem mem_memPut {m : List Host.Cell} {x : Nat} {v : Byte} {c : Host.Cell} (h : c ∈ memPut m x v) :
    c ∈ m ∨ c = (x, v) ∧ v ≠ baseByte x := by
  induction m with
  | nil => by_cases hv : v = baseByte x <;> simp_all [memPut]
  | cons d m ih =>
    obtain ⟨a, b⟩ := d
    unfold memPut at h
    split at h
    · split at h
      · exact .inl h
      · rcases List.mem_cons.mp h with rfl | h
        · exact .inr ⟨rfl, by assumption⟩
        · exact .inl h
    · split at h
      · split at h
        · exact .inl (List.mem_cons_of_mem _ h)
        · rcases List.mem_cons.mp h with rfl | h
          · subst_vars; exact .inr ⟨rfl, by assumption⟩
          · exact .inl (List.mem_cons_of_mem _ h)
      · rcases List.mem_cons.mp h with rfl | h
        · exact .inl List.mem_cons_self
        · exact (ih h).imp (List.mem_cons_of_mem _) id

/-- A write keeps the canonical form. -/
theorem memWf_memPut {m : List Host.Cell} (hm : memWf m = true) {x : Nat} (hx : x < arrayBytes) (v : Byte) :
    memWf (memPut m x v) = true := by
  obtain ⟨hp, ha⟩ := (memWf_iff m).mp hm
  refine (memWf_iff _).mpr ⟨?_, fun c hc => ?_⟩
  · clear hm ha
    induction m with
    | nil => unfold memPut; split <;> simp
    | cons d m ih =>
      obtain ⟨a, b⟩ := d
      obtain ⟨h1, h2⟩ := List.pairwise_cons.mp hp
      unfold memPut
      split
      · split
        · exact hp
        · refine List.pairwise_cons.mpr ⟨fun d hd => ?_, hp⟩
          rcases List.mem_cons.mp hd with rfl | hd
          · assumption
          · have := h1 d hd; simp at this ⊢; omega
      · split
        · split
          · exact h2
          · exact List.pairwise_cons.mpr ⟨h1, h2⟩
        · refine List.pairwise_cons.mpr ⟨fun d hd => ?_, ih h2⟩
          rcases mem_memPut hd with hd | ⟨rfl, -⟩
          · exact h1 d hd
          · simp; omega
  · rcases mem_memPut hc with hc | ⟨rfl, hv⟩
    · exact ha c hc
    · exact ⟨hx, hv⟩

theorem memGet_memErase (m : List Host.Cell) (lo hi x : Nat) :
    memGet (memErase m lo hi) x = if lo ≤ x ∧ x < hi then baseByte x else memGet m x := by
  induction m with
  | nil => simp [memErase, memGet]
  | cons c m ih =>
    obtain ⟨a, b⟩ := c
    unfold memErase at ih ⊢
    by_cases h : a < lo ∨ hi ≤ a
    · rw [List.filter_cons_of_pos (by simpa using h)]
      simp only [memGet, ih]
      by_cases hx : x = a
      · subst hx
        rw [if_pos rfl, if_pos rfl, if_neg (by omega)]
      · rw [if_neg hx, if_neg hx]
    · rw [List.filter_cons_of_neg (by simpa using h), ih]
      simp only [memGet]
      by_cases hx : x = a
      · subst hx
        rw [if_pos (by omega), if_pos (by omega)]
      · rw [if_neg hx]

/-- An erase keeps the canonical form. -/
theorem memWf_memErase {m : List Host.Cell} (hm : memWf m = true) (lo hi : Nat) : memWf (memErase m lo hi) = true := by
  obtain ⟨hp, ha⟩ := (memWf_iff m).mp hm
  exact (memWf_iff _).mpr ⟨hp.filter _, fun c hc => ha c (List.mem_filter.mp hc).1⟩

/-- A program keeps the canonical form. -/
theorem memWf_memProgram {m : List Host.Cell} (hm : memWf m = true) (x : Nat) (bs : List Byte) :
    memWf (memProgram m x bs) = true := by
  induction bs generalizing m x with
  | nil => exact hm
  | cons b bs ih =>
    rw [memProgram]
    apply ih
    split
    · exact memWf_memPut hm ‹_› _
    · exact hm

/-- A program leaves every byte outside its range alone. -/
theorem memGet_memProgram_outside (m : List Host.Cell) (x : Nat) (bs : List Byte) {y : Nat}
    (h : y < x ∨ x + bs.length ≤ y) : memGet (memProgram m x bs) y = memGet m y := by
  induction bs generalizing m x with
  | nil => rfl
  | cons b bs ih =>
    simp only [List.length_cons] at h
    rw [memProgram, ih _ _ (by omega)]
    split
    · exact memGet_memPut_ne _ _ (by omega)
    · rfl

/-- A program only clears bits: each byte of its range becomes what was there and the byte programmed (R518). -/
theorem memGet_memProgram {m : List Host.Cell} (hm : memWf m = true) {x : Nat} {bs : List Byte} {i : Nat} (hi : i < bs.length)
    (ha : x + bs.length ≤ arrayBytes) : memGet (memProgram m x bs) (x + i) = memGet m (x + i) &&& bs[i] := by
  induction bs generalizing m x i with
  | nil => exact absurd hi (Nat.not_lt_zero _)
  | cons b bs ih =>
    simp only [List.length_cons] at hi ha
    rw [memProgram, if_pos (by omega)]
    cases i with
    | zero =>
      show memGet (memProgram (memPut m x (memGet m x &&& b)) (x + 1) bs) x = memGet m x &&& b
      rw [memGet_memProgram_outside _ _ _ (by omega), memGet_memPut_same hm]
    | succ i =>
      have h := ih (memWf_memPut hm (by omega : x < arrayBytes) (memGet m x &&& b)) (x := x + 1) (i := i) (by omega) (by omega)
      rw [show x + (i + 1) = x + 1 + i by omega, h, memGet_memPut_ne _ _ (by omega)]
      rfl

theorem State.reset_memWf : State.reset.flash.wf = true := rfl

theorem State.flashProgram_wf {s : State} (h : s.flash.wf = true) (x : Nat) (bs : List Byte) :
    (s.flashProgram x bs).flash.wf = true := memWf_memProgram h x bs

theorem State.flashEraseSector_wf {s : State} (h : s.flash.wf = true) (p : Nat) :
    (s.flashEraseSector p).flash.wf = true := memWf_memErase h _ _

theorem State.flashProgram_mem_outside (s : State) (x : Nat) (bs : List Byte) {y : Nat} (h : y < x ∨ x + bs.length ≤ y) :
    memGet (s.flashProgram x bs).flash.mem y = memGet s.flash.mem y := memGet_memProgram_outside _ _ _ h

theorem State.flashEraseSector_mem (s : State) (p y : Nat) :
    memGet (s.flashEraseSector p).flash.mem y =
      if sectorBase p ≤ y ∧ y < sectorBase (p + 1) then baseByte y else memGet s.flash.mem y := memGet_memErase _ _ _ _

end Sys2Proof.Machine
end

