-- ==== Sys2Proof/Laws/Keeps.lean ====
section
/-! SUPPORT. What no operation breaks: every structure stays within its room and the flash array in its canonical form. A
proof about a command cites the law of what the command calls. -/

namespace Sys2Proof.Machine
open Sys2Proof

/-- From `s` to `t`, what fits goes on to fit and a canonical array stays canonical. -/
def Keeps (s t : State) : Prop := (s.Fits → t.Fits) ∧ (s.flash.wf = true → t.flash.wf = true)

theorem Keeps.refl (s : State) : Keeps s s := ⟨id, id⟩

theorem Keeps.trans {s t u : State} (h : Keeps s t) (h' : Keeps t u) : Keeps s u :=
  ⟨fun e => h'.1 (h.1 e), fun e => h'.2 (h.2 e)⟩

/-- One operation more. -/
theorem Keeps.step {s t u : State} (h' : Keeps t u) (h : Keeps s t) : Keeps s u := h.trans h'

/-- An operation that touches none of the parts these laws speak of. -/
theorem Keeps.of_same {m : List Part} {s t : State} (h : Same m s t)
    (hm : Part.within [.chan, .chain, .eng, .sched, .ao, .mem]
      (([.chan, .chain, .eng, .sched, .ao, .mem] : List Part).filter fun p => !m.contains p) = true) : Keeps s t := by
  have k : ∀ p ∈ ([.chan, .chain, .eng, .sched, .ao, .mem] : List Part), m.contains p = false := fun p hp => by
    have h1 := List.all_eq_true.mp hm p hp
    have h2 := (List.mem_filter.mp (List.contains_iff_mem.mp h1)).2
    simpa using h2
  have h1 : t.chan = s.chan := h .chan (k _ (by decide))
  have h2 : t.chain = s.chain := h .chain (k _ (by decide))
  have h3 : t.eng = s.eng := h .eng (k _ (by decide))
  have h4 : t.sched = s.sched := h .sched (k _ (by decide))
  have h5 : t.ao = s.ao := h .ao (k _ (by decide))
  have h6 : t.flash.mem = s.flash.mem := h .mem (k _ (by decide))
  refine ⟨fun e => ⟨?_, ?_, ?_, ?_, ?_⟩, fun e => ?_⟩
  · rw [h1]; exact e.chan
  · rw [h2]; exact e.chain
  · rw [h3]; exact e.eng
  · rw [h4]; exact e.sched
  · rw [h5]; exact e.out
  · unfold Flash.wf at e ⊢; rw [h6]; exact e

theorem Keeps.ite {c : Prop} {_ : Decidable c} {s a b : State} (ha : Keeps s a) (hb : Keeps s b) :
    Keeps s (if c then a else b) := by
  by_cases h : c
  · rw [if_pos h]; exact ha
  · rw [if_neg h]; exact hb

theorem Keeps.ite_snd {c : Prop} {_ : Decidable c} {α : Type} {s : State} {a b : α × State}
    (ha : Keeps s a.2) (hb : Keeps s b.2) : Keeps s (if c then a else b).2 := by
  by_cases h : c
  · rw [if_pos h]; exact ha
  · rw [if_neg h]; exact hb

theorem Keeps.ite_snd2 {c : Prop} {_ : Decidable c} {α β : Type} {s : State} {a b : α × β × State}
    (ha : Keeps s a.2.2) (hb : Keeps s b.2.2) : Keeps s (if c then a else b).2.2 := by
  by_cases h : c
  · rw [if_pos h]; exact ha
  · rw [if_neg h]; exact hb

theorem Keeps.foldl {α : Type} {s t : State} {f : State → α → State} {l : List α} (hf : ∀ t a, Keeps t (f t a))
    (h : Keeps s t) : Keeps s (l.foldl f t) := by
  induction l generalizing t with
  | nil => exact h
  | cons a l ih => exact ih (h.trans (hf t a))

theorem Keeps.eachChan {s t : State} {f : Chan → State → State} (hf : ∀ n t, Keeps t (f n t)) (h : Keeps s t) :
    Keeps s (t.eachChan f) := Keeps.foldl (fun t n => hf n t) h

theorem Keeps.eachOut {s t : State} {f : OutNo → State → State} (hf : ∀ n t, Keeps t (f n t)) (h : Keeps s t) :
    Keeps s (t.eachOut f) := Keeps.foldl (fun t n => hf n t) h

theorem Keeps.when {s t : State} {b : Bool} {f : State → State} (hf : ∀ t, Keeps t (f t)) (h : Keeps s t) :
    Keeps s (t.when b f) := by
  cases b
  · exact h
  · exact h.trans (hf t)

theorem Keeps.modChan {s t : State} {n : Chan} {f : Channel → Channel} (hf : ∀ c : Channel, c.Fits → (f c).Fits)
    (h : Keeps s t) : Keeps s (t.modChan n f) := by
  refine ⟨fun e => ?_, h.2⟩
  have q := h.1 e
  refine ⟨fun m => ?_, q.chain, q.eng, q.sched, q.out⟩
  show ((t.chan.set n (f (t.chan.get n))).get m).Fits
  by_cases hm : m = n
  · subst hm; rw [Per8.get_set_same]; exact hf _ (q.chan m)
  · rw [Per8.get_set_ne _ _ _ _ hm]; exact q.chan m

theorem Keeps.modOut {s t : State} {n : OutNo} {f : Output → Output} (hf : ∀ c : Output, c.Fits → (f c).Fits)
    (h : Keeps s t) : Keeps s (t.modOut n f) := by
  refine ⟨fun e => ?_, h.2⟩
  have q := h.1 e
  refine ⟨q.chan, q.chain, q.eng, q.sched, fun m => ?_⟩
  show ((t.ao.outs.set n (f (t.ao.outs.get n))).get m).Fits
  by_cases hm : m = n
  · subst hm; rw [Per2.get_set_same]; exact hf _ (q.out m)
  · rw [Per2.get_set_ne _ _ _ _ hm]; exact q.out m

theorem Keeps.modSvc {s t : State} {f : Service → Service} (h : Keeps s t) : Keeps s (t.modSvc f) :=
  h.trans ⟨fun e => ⟨e.chan, e.chain, e.eng, e.sched, e.out⟩, id⟩

theorem Keeps.dite {c : Prop} {_ : Decidable c} {s a b : State} (ha : c → Keeps s a) (hb : ¬c → Keeps s b) :
    Keeps s (if c then a else b) := by
  by_cases h : c
  · rw [if_pos h]; exact ha h
  · rw [if_neg h]; exact hb h

theorem Keeps.tail {s t : State} {v : Nat} (h : Keeps s t) : Keeps s { t with flash := { t.flash with tail := v } } :=
  h.trans ⟨fun q => ⟨q.chan, q.chain, q.eng, q.sched, q.out⟩, id⟩

theorem State.reset_fits : State.reset.Fits := by
  refine ⟨fun n => ?_, ⟨by decide, by decide⟩, Nat.zero_le _, rfl, fun o => ?_⟩
  · show Channel.Fits (Per8.get (Per8.const _) n)
    rw [Per8.get_const]; exact ⟨by decide, by decide, by decide⟩
  · show Output.Fits (Per2.get (Per2.const _) o)
    rw [Per2.get_const]; exact ⟨by decide, by decide⟩

theorem Chain.refill_fits {c : Chain} (h : c.Fits) : c.refill.Fits := by
  unfold Chain.refill
  split
  · split
    · exact ⟨h.1, by simp; omega⟩
    · exact h
  · exact h

theorem Engine.refill_fits {e : Engine} (h : e.Fits) : e.refill.Fits := by
  unfold Engine.Fits at h
  simp only [Engine.Fits, Engine.refill, List.length_append, List.length_take]
  omega

theorem dacCode_fits (num den : Int) : -2048 ≤ dacCode num den ∧ dacCode num den ≤ 2047 := by
  unfold dacCode clipInt
  omega

theorem dacStep_fits {d t : Int} (hd : -2048 ≤ d ∧ d ≤ 2047) (ht : -2048 ≤ t ∧ t ≤ 2047) :
    -2048 ≤ dacStep d t ∧ dacStep d t ≤ 2047 := by
  unfold dacStep clipInt
  omega

theorem Chain.placeUpTo_fits {c : Chain} (h : c.Fits) (k : Nat) : (c.placeUpTo k).Fits := by
  obtain ⟨h1, h2⟩ := h
  refine ⟨h1, ?_⟩
  simp only [Chain.placeUpTo, List.length_append, List.length_take]
  omega

theorem Chain.place_fits {c : Chain} (h : c.Fits) : c.place.Fits := Chain.placeUpTo_fits h _

@[simp] theorem Chain.placeUpTo_items (c : Chain) (k : Nat) : (c.placeUpTo k).items = c.items := rfl

@[simp] theorem Chain.place_items (c : Chain) : c.place.items = c.items := rfl

@[simp] theorem Chain.refill_items (c : Chain) : c.refill.items = c.items := by
  unfold Chain.refill
  split
  · split <;> rfl
  · rfl

theorem State.takeOffer_items (s : State) (o : Offer) : (s.takeOffer o).chain.items = s.chain.items := by
  cases o with
  | reset i => rfl
  | gap n i => rfl
  | buffer i =>
    simp only [State.takeOffer]
    split <;> simp


theorem Keeps.upd_ao {s t : State} {v_ao : AoDomain}
    (h_ao : (∀ o : OutNo, (t.ao.outs.get o).Fits) → ∀ o : OutNo, (v_ao.outs.get o).Fits) (h : Keeps s t) :
    Keeps s { t with ao := v_ao } :=
  h.trans ⟨fun q => ⟨q.chan, q.chain, q.eng, q.sched, h_ao q.out⟩, id⟩

theorem Keeps.upd_chain {s t : State} {v_chain : Chain}
    (h_chain : (t.chain.Fits) → v_chain.Fits) (h : Keeps s t) :
    Keeps s { t with chain := v_chain } :=
  h.trans ⟨fun q => ⟨q.chan, h_chain q.chain, q.eng, q.sched, q.out⟩, id⟩

theorem Keeps.upd_sched {s t : State} {v_sched : Sched}
    (h_sched : (t.sched.Fits) → v_sched.Fits) (h : Keeps s t) :
    Keeps s { t with sched := v_sched } :=
  h.trans ⟨fun q => ⟨q.chan, q.chain, q.eng, h_sched q.sched, q.out⟩, id⟩

theorem Keeps.upd_eng {s t : State} {v_eng : Engine}
    (h_eng : (t.eng.Fits) → v_eng.Fits) (h : Keeps s t) :
    Keeps s { t with eng := v_eng } :=
  h.trans ⟨fun q => ⟨q.chan, q.chain, h_eng q.eng, q.sched, q.out⟩, id⟩

theorem Keeps.upd_free {s t : State} {v_free : Nat}
     (h : Keeps s t) :
    Keeps s { t with free := v_free } :=
  h.trans ⟨fun q => ⟨q.chan, q.chain, q.eng, q.sched, q.out⟩, id⟩

theorem Keeps.upd_flash {s t : State} {v_flash : Flash}
    (h_flash : (t.flash.wf = true) → v_flash.wf = true) (h : Keeps s t) :
    Keeps s { t with flash := v_flash } :=
  h.trans ⟨fun q => ⟨q.chan, q.chain, q.eng, q.sched, q.out⟩, h_flash⟩

theorem Keeps.upd_cal {s t : State} {v_cal : Cal}
     (h : Keeps s t) :
    Keeps s { t with cal := v_cal } :=
  h.trans ⟨fun q => ⟨q.chan, q.chain, q.eng, q.sched, q.out⟩, id⟩

theorem Keeps.upd_ao_cal {s t : State} {v_ao : AoDomain} {v_cal : Cal}
    (h_ao : (∀ o : OutNo, (t.ao.outs.get o).Fits) → ∀ o : OutNo, (v_ao.outs.get o).Fits) (h : Keeps s t) :
    Keeps s { t with ao := v_ao, cal := v_cal } :=
  h.trans ⟨fun q => ⟨q.chan, q.chain, q.eng, q.sched, h_ao q.out⟩, id⟩

theorem Keeps.upd_core {s t : State} {v_core : Core}
     (h : Keeps s t) :
    Keeps s { t with core := v_core } :=
  h.trans ⟨fun q => ⟨q.chan, q.chain, q.eng, q.sched, q.out⟩, id⟩

theorem Keeps.upd_cab_cal_sens {s t : State} {v_cab : Cabinet} {v_cal : Cal} {v_sens : Sensors}
     (h : Keeps s t) :
    Keeps s { t with cab := v_cab, cal := v_cal, sens := v_sens } :=
  h.trans ⟨fun q => ⟨q.chan, q.chain, q.eng, q.sched, q.out⟩, id⟩

theorem Keeps.upd_chain_cab_port {s t : State} {v_chain : Chain} {v_cab : Cabinet} {v_port : Stream}
    (h_chain : (t.chain.Fits) → v_chain.Fits) (h : Keeps s t) :
    Keeps s { t with chain := v_chain, cab := v_cab, port := v_port } :=
  h.trans ⟨fun q => ⟨q.chan, h_chain q.chain, q.eng, q.sched, q.out⟩, id⟩

theorem Keeps.upd_cab_port {s t : State} {v_cab : Cabinet} {v_port : Stream}
     (h : Keeps s t) :
    Keeps s { t with cab := v_cab, port := v_port } :=
  h.trans ⟨fun q => ⟨q.chan, q.chain, q.eng, q.sched, q.out⟩, id⟩

theorem Keeps.upd_cab {s t : State} {v_cab : Cabinet}
     (h : Keeps s t) :
    Keeps s { t with cab := v_cab } :=
  h.trans ⟨fun q => ⟨q.chan, q.chain, q.eng, q.sched, q.out⟩, id⟩

theorem Keeps.upd_power {s t : State} {v_power : Power}
     (h : Keeps s t) :
    Keeps s { t with power := v_power } :=
  h.trans ⟨fun q => ⟨q.chan, q.chain, q.eng, q.sched, q.out⟩, id⟩

theorem Keeps.upd_tb_keep_core {s t : State} {v_tb : Timebase} {v_keep : Keep} {v_core : Core}
     (h : Keeps s t) :
    Keeps s { t with tb := v_tb, keep := v_keep, core := v_core } :=
  h.trans ⟨fun q => ⟨q.chan, q.chain, q.eng, q.sched, q.out⟩, id⟩

theorem Keeps.upd_tb_cal {s t : State} {v_tb : Timebase} {v_cal : Cal}
     (h : Keeps s t) :
    Keeps s { t with tb := v_tb, cal := v_cal } :=
  h.trans ⟨fun q => ⟨q.chan, q.chain, q.eng, q.sched, q.out⟩, id⟩

theorem Keeps.upd_tb_core {s t : State} {v_tb : Timebase} {v_core : Core}
     (h : Keeps s t) :
    Keeps s { t with tb := v_tb, core := v_core } :=
  h.trans ⟨fun q => ⟨q.chan, q.chain, q.eng, q.sched, q.out⟩, id⟩

theorem Keeps.upd_tb {s t : State} {v_tb : Timebase}
     (h : Keeps s t) :
    Keeps s { t with tb := v_tb } :=
  h.trans ⟨fun q => ⟨q.chan, q.chain, q.eng, q.sched, q.out⟩, id⟩

theorem Keeps.upd_tb_keep_fol_core {s t : State} {v_tb : Timebase} {v_keep : Keep} {v_fol : Follower} {v_core : Core}
     (h : Keeps s t) :
    Keeps s { t with tb := v_tb, keep := v_keep, fol := v_fol, core := v_core } :=
  h.trans ⟨fun q => ⟨q.chan, q.chain, q.eng, q.sched, q.out⟩, id⟩

theorem Keeps.upd_strap_chain_pack_sched_port_cal {s t : State} {v_strap : Strap} {v_chain : Chain} {v_pack : Packer} {v_sched : Sched} {v_port : Stream} {v_cal : Cal}
    (h_chain : (t.chain.Fits) → v_chain.Fits) (h_sched : (t.sched.Fits) → v_sched.Fits) (h : Keeps s t) :
    Keeps s { t with strap := v_strap, chain := v_chain, pack := v_pack, sched := v_sched, port := v_port, cal := v_cal } :=
  h.trans ⟨fun q => ⟨q.chan, h_chain q.chain, q.eng, h_sched q.sched, q.out⟩, id⟩

theorem Keeps.upd_strap {s t : State} {v_strap : Strap}
     (h : Keeps s t) :
    Keeps s { t with strap := v_strap } :=
  h.trans ⟨fun q => ⟨q.chan, q.chain, q.eng, q.sched, q.out⟩, id⟩

theorem Keeps.upd_faults {s t : State} {v_faults : Faults}
     (h : Keeps s t) :
    Keeps s { t with faults := v_faults } :=
  h.trans ⟨fun q => ⟨q.chan, q.chain, q.eng, q.sched, q.out⟩, id⟩

theorem Keeps.upd_chain_fol_cal_faults {s t : State} {v_chain : Chain} {v_fol : Follower} {v_cal : Cal} {v_faults : Faults}
    (h_chain : (t.chain.Fits) → v_chain.Fits) (h : Keeps s t) :
    Keeps s { t with chain := v_chain, fol := v_fol, cal := v_cal, faults := v_faults } :=
  h.trans ⟨fun q => ⟨q.chan, h_chain q.chain, q.eng, q.sched, q.out⟩, id⟩

theorem Keeps.upd_tb_keep_tether {s t : State} {v_tb : Timebase} {v_keep : Keep} {v_tether : Tether}
     (h : Keeps s t) :
    Keeps s { t with tb := v_tb, keep := v_keep, tether := v_tether } :=
  h.trans ⟨fun q => ⟨q.chan, q.chain, q.eng, q.sched, q.out⟩, id⟩

theorem Keeps.upd_fol_port_snap_flash_core {s t : State} {v_fol : Follower} {v_port : Stream} {v_snap : Snap} {v_flash : Flash} {v_core : Core}
    (h_flash : (t.flash.wf = true) → v_flash.wf = true) (h : Keeps s t) :
    Keeps s { t with fol := v_fol, port := v_port, snap := v_snap, flash := v_flash, core := v_core } :=
  h.trans ⟨fun q => ⟨q.chan, q.chain, q.eng, q.sched, q.out⟩, h_flash⟩

theorem State.flashProgram_keeps (s : State) (x : Nat) (bs : List Byte) :
    Keeps s (State.flashProgram s x bs) := by
  unfold State.flashProgram
  exact ⟨fun e => ⟨e.chan, e.chain, e.eng, e.sched, e.out⟩, fun e => State.flashProgram_wf e x bs⟩

theorem State.flashEraseSector_keeps (s : State) (p : Nat) :
    Keeps s (State.flashEraseSector s p) := by
  unfold State.flashEraseSector
  exact ⟨fun e => ⟨e.chan, e.chain, e.eng, e.sched, e.out⟩, fun e => State.flashEraseSector_wf e p⟩

theorem State.hwMarker_keeps (s : State) (st : Stitch) :
    Keeps s (State.hwMarker s st) := by
  unfold State.hwMarker
  refine ⟨fun e => ⟨e.chan, ?_, e.eng, e.sched, e.out⟩, id⟩
  show Chain.Fits (if _ then _ else _)
  split
  · rename_i h
    simp only [Bool.and_eq_true, decide_eq_true_eq] at h
    exact ⟨e.chain.1, by simp; omega⟩
  · exact e.chain

theorem State.fwMarkerItem_keeps (s : State) (i : Item) :
    Keeps s (State.fwMarkerItem s i) := by
  unfold State.fwMarkerItem
  refine ⟨fun e => ⟨e.chan, ?_, e.eng, e.sched, e.out⟩, id⟩
  show Chain.Fits (if _ then _ else _)
  split
  · exact Chain.place_fits e.chain
  · exact e.chain

theorem State.fwMarker_keeps (s : State) (st : Stitch) :
    Keeps s (State.fwMarker s st) := by
  unfold State.fwMarker
  with_reducible refine Keeps.step (State.fwMarkerItem_keeps ..) ?_
  exact Keeps.refl _

theorem State.refuse_keeps (s : State) (n : Chan) (e : MergeEntry) (cycle : Nat) :
    Keeps s (State.refuse s n e cycle) := by
  unfold State.refuse
  with_reducible refine Keeps.upd_chain ?_ ?_
  on_goal 1 => exact fun h => h
  with_reducible refine Keeps.modChan ?_ ?_
  on_goal 1 => exact fun _ h => h
  exact Keeps.refl _

theorem State.arrive_keeps (s : State) (n : Chan) (e : MergeEntry) (cycle : Nat) :
    Keeps s (State.arrive s n e cycle) := by
  unfold State.arrive
  with_reducible refine Keeps.dite (fun _ => State.refuse_keeps ..) (fun hl => ?_)
  refine ⟨fun e => ⟨fun m => ?_, e.chain, e.eng, e.sched, e.out⟩, id⟩
  by_cases hm : m = n
  · subst hm
    simp only [State.modChan, Per8.get_set_same]
    exact ⟨by simp; omega, (e.chan m).2⟩
  · simp only [State.modChan, Per8.get_set_ne _ _ _ _ hm]
    exact e.chan m

theorem State.checkChain_keeps (s : State) :
    Keeps s (State.checkChain s) := by
  unfold State.checkChain
  with_reducible refine Keeps.ite ?_ ?_
  · exact Keeps.refl _
  · with_reducible refine Keeps.upd_chain ?_ ?_
    on_goal 1 => exact fun h => h
    exact Keeps.refl _

theorem State.enterChain_keeps (s : State) (i : Item) (h : s.chain.items.length ≤ 63) :
    Keeps s (State.enterChain s i) := by
  unfold State.enterChain
  with_reducible refine Keeps.step (State.checkChain_keeps ..) ?_
  exact ⟨fun e => ⟨e.chan, ⟨by simp; omega, e.chain.2⟩, e.eng, e.sched, e.out⟩, id⟩

theorem State.upsetEntry_keeps (s : State) (flip : BitVec 7) :
    Keeps s (State.upsetEntry s flip) := by
  unfold State.upsetEntry
  with_reducible refine Keeps.upd_chain ?_ ?_
  on_goal 1 => exact fun h => h
  exact Keeps.refl _

theorem State.upsetExit_keeps (s : State) (flip : BitVec 7) :
    Keeps s (State.upsetExit s flip) := by
  unfold State.upsetExit
  with_reducible refine Keeps.upd_chain ?_ ?_
  on_goal 1 => exact fun h => h
  exact Keeps.refl _

theorem State.takeOffer_keeps (s : State) (x0 : Offer) :
    Keeps s (State.takeOffer s x0) := by
  unfold State.takeOffer
  split
  · with_reducible refine Keeps.upd_chain ?_ ?_
    on_goal 1 => exact fun h => h
    exact Keeps.refl _
  · with_reducible refine Keeps.modChan ?_ ?_
    on_goal 1 => exact fun _ h => h
    exact Keeps.refl _
  · refine ⟨fun e => ⟨e.chan, ?_, e.eng, e.sched, e.out⟩, id⟩
    have h : ({ s.chain with buffer := s.chain.buffer.tail } : Chain).refill.Fits :=
      Chain.refill_fits ⟨e.chain.1, Nat.le_trans (by simp) e.chain.2⟩
    show Chain.Fits (if _ then _ else _)
    split
    · exact Chain.placeUpTo_fits h _
    · exact Chain.placeUpTo_fits h _

theorem State.markerEntry_keeps (s : State) (flip : BitVec 7) :
    Keeps s (State.markerEntry s flip) := by
  unfold State.markerEntry
  split
  · with_reducible refine Keeps.dite (fun hc => ?_) (fun _ => Keeps.refl _)
    rename_i o _
    simp only [Bool.and_eq_true, decide_eq_true_eq] at hc
    refine Keeps.step (State.enterChain_keeps _ _ ?_) ((State.upsetEntry_keeps ..).step (State.takeOffer_keeps ..))
    show ((s.takeOffer o).chain).items.length ≤ 63
    rw [State.takeOffer_items]
    exact hc.2
  · exact Keeps.refl _

theorem State.placeFirmwareMarker_keeps (s : State) :
    Keeps s (State.placeFirmwareMarker s) := by
  unfold State.placeFirmwareMarker
  split
  · with_reducible refine Keeps.dite (fun hc => ?_) (fun _ => Keeps.refl _)
    simp only [Bool.and_eq_true, decide_eq_true_eq] at hc
    exact ⟨fun e => ⟨e.chan, ⟨e.chain.1, by simp; omega⟩, e.eng, e.sched, e.out⟩, id⟩
  · exact Keeps.refl _

theorem State.mergeMove_keeps (s : State) (flip : BitVec 7) :
    Keeps s (State.mergeMove s flip) := by
  unfold State.mergeMove
  split
  · rename_i n e _
    have k : Keeps s (s.modChan n fun c => { c.noteMerge s.cycle with merge := c.merge.tail }) :=
      Keeps.modChan (fun c h => ⟨Nat.le_trans (by simp) h.1, h.2⟩) (Keeps.refl _)
    have k2 : Keeps s { s.modChan n fun c => { c.noteMerge s.cycle with merge := c.merge.tail } with
        chain := { (s.modChan n fun c => { c.noteMerge s.cycle with merge := c.merge.tail }).chain with
          moves := remember 8 s.cycle (s.modChan n fun c => { c.noteMerge s.cycle with merge := c.merge.tail }).chain.moves } } :=
      k.trans ⟨fun q => ⟨q.chan, q.chain, q.eng, q.sched, q.out⟩, id⟩
    with_reducible refine Keeps.ite ?_ (Keeps.refl _)
    with_reducible refine Keeps.dite (fun hl => ?_) (fun _ => (State.refuse_keeps ..).step k2)
    exact Keeps.step (State.enterChain_keeps _ _ (Nat.le_succ_of_le hl)) ((State.upsetEntry_keeps ..).step k2)
  · exact Keeps.refl _

theorem State.closeRun_keeps (s : State) (n : Chan) :
    Keeps s (State.closeRun s n) := by
  unfold State.closeRun
  try dsimp only
  split
  · with_reducible refine Keeps.ite ?_ ?_
    · with_reducible refine Keeps.step (Keeps.of_same (State.logLimited_same ..) rfl) ?_
      with_reducible refine Keeps.modChan ?_ ?_
      on_goal 1 => exact fun _ h => h
      exact Keeps.refl _
    · exact Keeps.refl _
  · exact Keeps.refl _

theorem State.queueReset_keeps (s : State) :
    Keeps s (State.queueReset s) := by
  unfold State.queueReset
  split
  · with_reducible refine Keeps.step (Keeps.of_same (State.log_same ..) rfl) ?_
    exact ⟨fun e => ⟨e.chan, ⟨by simp, e.chain.2⟩, e.eng, e.sched, e.out⟩, id⟩
  · exact Keeps.refl _

theorem State.leaveChain_keeps (s : State) (flip : BitVec 7) :
    Keeps s (State.leaveChain s flip) := by
  unfold State.leaveChain
  with_reducible refine Keeps.step (State.checkChain_keeps ..) ?_
  exact ⟨fun e => ⟨e.chan, ⟨Nat.le_trans (by simp) e.chain.1, e.chain.2⟩, e.eng, e.sched, e.out⟩, id⟩

theorem State.takeItem_keeps (s : State) (flip : BitVec 7) :
    Keeps s (State.takeItem s flip) := by
  unfold State.takeItem
  split
  · exact Keeps.refl _
  · with_reducible refine Keeps.ite ?_ ?_
    · split
      · with_reducible refine Keeps.step (Keeps.of_same (State.writeRaw_same ..) rfl) ?_
        with_reducible refine Keeps.step (State.leaveChain_keeps ..) ?_
        exact Keeps.refl _
      · split
        · with_reducible refine Keeps.step (Keeps.of_same (State.writeRaw_same ..) rfl) ?_
          with_reducible refine Keeps.step (State.leaveChain_keeps ..) ?_
          exact Keeps.refl _
        · with_reducible refine Keeps.ite ?_ ?_
          · with_reducible refine Keeps.step (Keeps.of_same (State.writeRaw_same ..) rfl) ?_
            with_reducible refine Keeps.step (State.leaveChain_keeps ..) ?_
            with_reducible refine Keeps.step (Keeps.of_same (State.closeRaw_same ..) rfl) ?_
            exact Keeps.refl _
          · with_reducible refine Keeps.step (Keeps.of_same (State.closeRaw_same ..) rfl) ?_
            exact Keeps.refl _
    · exact Keeps.refl _

theorem State.closeTimer_expire_keeps (s : State) :
    Keeps s (State.closeTimer_expire s) := by
  unfold State.closeTimer_expire
  split
  · with_reducible refine Keeps.ite ?_ ?_
    · split
      · with_reducible refine Keeps.ite ?_ ?_
        · split
          · with_reducible refine Keeps.step (Keeps.of_same (State.closeRaw_same ..) rfl) ?_
            exact Keeps.refl _
          · with_reducible refine Keeps.ite ?_ ?_
            · with_reducible refine Keeps.step (Keeps.of_same (State.writeRaw_same ..) rfl) ?_
              with_reducible refine Keeps.step (State.leaveChain_keeps ..) ?_
              exact Keeps.refl _
            · with_reducible refine Keeps.step (Keeps.of_same (State.closeRaw_same ..) rfl) ?_
              exact Keeps.refl _
        · with_reducible refine Keeps.step (Keeps.of_same (State.closeRaw_same ..) rfl) ?_
          exact Keeps.refl _
      · with_reducible refine Keeps.step (Keeps.of_same (State.closeRaw_same ..) rfl) ?_
        exact Keeps.refl _
    · exact Keeps.refl _
  · exact Keeps.refl _

theorem State.writeSum_keeps (s : State) (o : SumOpen) (r : Result) :
    Keeps s (State.writeSum s o r) := by
  unfold State.writeSum
  have k : ∀ q : Packer, Keeps s { s with eng := ({ s.eng with queue := s.eng.queue.tail } : Engine).refill, pack := q } :=
    fun q => ⟨fun e => ⟨e.chan, e.chain, Engine.refill_fits (Nat.le_trans (by simp) e.eng), e.sched, e.out⟩, id⟩
  with_reducible refine Keeps.ite ?_ (k _)
  with_reducible exact Keeps.step (Keeps.of_same (State.closeSum_same ..) rfl) (k _)

theorem State.takeResult_keeps (s : State) :
    Keeps s (State.takeResult s) := by
  unfold State.takeResult
  split
  · exact Keeps.refl _
  · with_reducible refine Keeps.ite ?_ ?_
    · split
      · with_reducible refine Keeps.step (State.writeSum_keeps ..) ?_
        exact Keeps.refl _
      · with_reducible refine Keeps.ite ?_ ?_
        · with_reducible refine Keeps.step (State.writeSum_keeps ..) ?_
          exact Keeps.refl _
        · with_reducible refine Keeps.ite ?_ ?_
          · with_reducible refine Keeps.step (State.writeSum_keeps ..) ?_
            with_reducible refine Keeps.step (Keeps.of_same (State.closeSum_same ..) rfl) ?_
            exact Keeps.refl _
          · with_reducible refine Keeps.step (Keeps.of_same (State.closeSum_same ..) rfl) ?_
            exact Keeps.refl _
    · exact Keeps.refl _

theorem State.switchSlots_keeps (s : State) :
    Keeps s (State.switchSlots s) := by
  unfold State.switchSlots
  with_reducible refine Keeps.upd_sched ?_ ?_
  on_goal 1 => exact fun h => h
  exact Keeps.refl _

theorem State.phaseMarker_keeps (s : State) (event : BitVec 2) (interval : Nat) :
    Keeps s (State.phaseMarker s event interval) := by
  unfold State.phaseMarker
  with_reducible refine Keeps.step (State.hwMarker_keeps ..) ?_
  exact Keeps.refl _

theorem State.lock_keeps (s : State) :
    Keeps s (State.lock s) := by
  unfold State.lock
  with_reducible refine Keeps.step (Keeps.of_same (State.clearFault_same ..) rfl) ?_
  with_reducible refine Keeps.step (State.phaseMarker_keeps ..) ?_
  with_reducible refine Keeps.step (State.switchSlots_keeps ..) ?_
  with_reducible refine Keeps.step (Keeps.of_same (State.modFol_same ..) rfl) ?_
  exact Keeps.refl _

theorem State.phaseLoss_keeps (s : State) :
    Keeps s (State.phaseLoss s) := by
  unfold State.phaseLoss
  with_reducible refine Keeps.ite ?_ ?_
  · with_reducible refine Keeps.step (Keeps.of_same (State.log_same ..) rfl) ?_
    with_reducible refine Keeps.step (State.phaseMarker_keeps ..) ?_
    with_reducible refine Keeps.step (State.switchSlots_keeps ..) ?_
    with_reducible refine Keeps.step (Keeps.of_same (State.flagGates_same ..) rfl) ?_
    with_reducible refine Keeps.step (Keeps.of_same (State.modFol_same ..) rfl) ?_
    with_reducible refine Keeps.step (Keeps.of_same (State.markFol_same ..) rfl) ?_
    exact Keeps.refl _
  · exact Keeps.refl _

theorem State.acquirePulse_keeps (s : State) (p : PulseEvent) :
    Keeps s (State.acquirePulse s p) := by
  unfold State.acquirePulse
  with_reducible refine Keeps.ite ?_ ?_
  · with_reducible refine Keeps.step (Keeps.of_same (State.modFol_same ..) rfl) ?_
    exact Keeps.refl _
  · with_reducible refine Keeps.ite ?_ ?_
    · with_reducible refine Keeps.step (Keeps.of_same (State.correct_same ..) rfl) ?_
      with_reducible refine Keeps.step (Keeps.of_same (State.modFol_same ..) rfl) ?_
      exact Keeps.refl _
    · with_reducible refine Keeps.ite ?_ ?_
      · with_reducible refine Keeps.step (State.lock_keeps ..) ?_
        with_reducible refine Keeps.step (Keeps.of_same (State.modFol_same ..) rfl) ?_
        with_reducible refine Keeps.step (Keeps.of_same (State.modFol_same ..) rfl) ?_
        with_reducible refine Keeps.step (Keeps.of_same (State.correct_same ..) rfl) ?_
        with_reducible refine Keeps.step (Keeps.of_same (State.modFol_same ..) rfl) ?_
        exact Keeps.refl _
      · with_reducible refine Keeps.step (Keeps.of_same (State.modFol_same ..) rfl) ?_
        with_reducible refine Keeps.step (Keeps.of_same (State.correct_same ..) rfl) ?_
        with_reducible refine Keeps.step (Keeps.of_same (State.modFol_same ..) rfl) ?_
        exact Keeps.refl _

theorem State.acquireIndex_keeps (s : State) :
    Keeps s (State.acquireIndex s) := by
  unfold State.acquireIndex
  try dsimp only
  split
  · with_reducible refine Keeps.step (Keeps.of_same (State.modFol_same ..) rfl) ?_
    exact Keeps.refl _
  · with_reducible refine Keeps.ite ?_ ?_
    · with_reducible refine Keeps.step (Keeps.of_same (State.modFol_same ..) rfl) ?_
      exact Keeps.refl _
    · with_reducible refine Keeps.step (Keeps.of_same (State.modFol_same ..) rfl) ?_
      exact Keeps.refl _
  · with_reducible refine Keeps.ite ?_ ?_
    · with_reducible refine Keeps.step (State.lock_keeps ..) ?_
      with_reducible refine Keeps.step (Keeps.of_same (State.modFol_same ..) rfl) ?_
      exact Keeps.refl _
    · with_reducible refine Keeps.step (Keeps.of_same (State.modFol_same ..) rfl) ?_
      exact Keeps.refl _

theorem State.takeEvent_keeps (s : State) (low : Nat) :
    Keeps s (State.takeEvent s low) := by
  unfold State.takeEvent
  with_reducible refine Keeps.ite ?_ ?_
  · with_reducible refine Keeps.ite ?_ ?_
    · with_reducible refine Keeps.step (Keeps.of_same (State.trackIndex_same ..) rfl) ?_
      with_reducible refine Keeps.step (Keeps.of_same (State.markFol_same ..) rfl) ?_
      exact Keeps.refl _
    · with_reducible refine Keeps.step (State.acquireIndex_keeps ..) ?_
      with_reducible refine Keeps.step (Keeps.of_same (State.markFol_same ..) rfl) ?_
      exact Keeps.refl _
  · with_reducible refine Keeps.ite ?_ ?_
    · with_reducible refine Keeps.step (Keeps.of_same (State.lockedPulse_same ..) rfl) ?_
      with_reducible refine Keeps.step (Keeps.of_same (State.markFol_same ..) rfl) ?_
      exact Keeps.refl _
    · with_reducible refine Keeps.ite ?_ ?_
      · with_reducible refine Keeps.step (Keeps.of_same (State.coastingPulse_same ..) rfl) ?_
        with_reducible refine Keeps.step (Keeps.of_same (State.markFol_same ..) rfl) ?_
        exact Keeps.refl _
      · with_reducible refine Keeps.step (State.acquirePulse_keeps ..) ?_
        with_reducible refine Keeps.step (Keeps.of_same (State.markFol_same ..) rfl) ?_
        exact Keeps.refl _

theorem State.later_keeps (s : State) (l : Late) :
    Keeps s (State.later s l) := by
  unfold State.later
  with_reducible refine Keeps.upd_sched ?_ ?_
  on_goal 1 => exact fun h => h
  exact Keeps.refl _

theorem State.referenceEvent_keeps (s : State) (low : Nat) :
    Keeps s (State.referenceEvent s low) := by
  unfold State.referenceEvent
  with_reducible refine Keeps.ite ?_ ?_
  · exact Keeps.refl _
  · with_reducible refine Keeps.ite ?_ ?_
    · with_reducible refine Keeps.step (State.later_keeps ..) ?_
      exact Keeps.refl _
    · with_reducible refine Keeps.step (State.takeEvent_keeps ..) ?_
      exact Keeps.refl _

theorem State.quadratureStep_keeps (s : State) (q : QuadStep) :
    Keeps s (State.quadratureStep s q) := by
  unfold State.quadratureStep
  with_reducible refine Keeps.ite ?_ ?_
  · exact Keeps.refl _
  · with_reducible refine Keeps.ite ?_ ?_
    · with_reducible refine Keeps.step (State.later_keeps ..) ?_
      exact Keeps.refl _
    · with_reducible refine Keeps.step (Keeps.of_same (State.takeStep_same ..) rfl) ?_
      exact Keeps.refl _

theorem State.setSlot_keeps (s : State) (i : Fin 16) (v : Option Slot) :
    Keeps s (State.setSlot s i v) := by
  unfold State.setSlot
  exact ⟨fun e => ⟨e.chan, e.chain, e.eng, (List.length_set ..).trans e.sched, e.out⟩, id⟩

theorem State.arm_keeps (s : State) (i : Fin 16) (t : Task) :
    Keeps s (State.arm s i t) := by
  unfold State.arm
  with_reducible refine Keeps.step (State.setSlot_keeps ..) ?_
  exact Keeps.refl _

theorem State.landCommand_keeps (s : State) (i : Fin 16) (x0 : Option Task) :
    Keeps s (State.landCommand s i x0) := by
  unfold State.landCommand
  split
  · with_reducible refine Keeps.ite ?_ ?_
    · exact Keeps.refl _
    · with_reducible refine Keeps.step (State.arm_keeps ..) ?_
      exact Keeps.refl _
  · with_reducible refine Keeps.upd_sched ?_ ?_
    on_goal 1 => exact fun h => h
    with_reducible refine Keeps.step (State.setSlot_keeps ..) ?_
    exact Keeps.refl _

theorem State.toSlot_keeps (s : State) (i : Fin 16) (t : Option Task) :
    Keeps s (State.toSlot s i t) := by
  unfold State.toSlot
  with_reducible refine Keeps.ite ?_ ?_
  · with_reducible refine Keeps.step (State.later_keeps ..) ?_
    exact Keeps.refl _
  · with_reducible refine Keeps.step (State.landCommand_keeps ..) ?_
    exact Keeps.refl _

theorem State.slotCommand_keeps (s : State) (i : Fin 16) (t : Option Task) :
    Keeps s (State.slotCommand s i t) := by
  unfold State.slotCommand
  with_reducible refine Keeps.ite ?_ ?_
  · with_reducible refine Keeps.step (State.toSlot_keeps ..) ?_
    exact Keeps.refl _
  · with_reducible refine Keeps.ite ?_ ?_
    · with_reducible refine Keeps.upd_sched ?_ ?_
      on_goal 1 => exact fun h => h
      exact Keeps.refl _
    · exact Keeps.refl _

theorem State.landOwed_keeps (s : State) :
    Keeps s (State.landOwed s) := by
  unfold State.landOwed
  with_reducible refine Keeps.foldl (fun _ _ => ?_) ?_
  · with_reducible refine Keeps.step (State.toSlot_keeps ..) ?_
    exact Keeps.refl _
  with_reducible refine Keeps.upd_sched ?_ ?_
  on_goal 1 => exact fun h => h
  exact Keeps.refl _

theorem State.armCommand_keeps (s : State) (i : Fin 16) (t : Task) :
    Keeps s (State.armCommand s i t) := by
  unfold State.armCommand
  with_reducible refine Keeps.step (State.slotCommand_keeps ..) ?_
  exact Keeps.refl _

theorem State.cancelSlot_keeps (s : State) (i : Fin 16) :
    Keeps s (State.cancelSlot s i) := by
  unfold State.cancelSlot
  with_reducible refine Keeps.step (State.slotCommand_keeps ..) ?_
  exact Keeps.refl _

theorem State.armStartup_keeps (s : State) :
    Keeps s (State.armStartup s) := by
  unfold State.armStartup
  exact ⟨fun e => ⟨e.chan, e.chain, e.eng, rfl, e.out⟩, id⟩

theorem State.issue_keeps (s : State) (i : Fin 16) :
    Keeps s (State.issue s i) := by
  unfold State.issue
  with_reducible refine Keeps.upd_sched ?_ ?_
  on_goal 1 => exact fun h => h
  exact Keeps.refl _

theorem State.sourceValue_keeps (s : State) (o : OutNo) (v : Rat) (at_ : Nat) :
    Keeps s (State.sourceValue s o v at_) := by
  unfold State.sourceValue
  with_reducible refine Keeps.ite ?_ ?_
  · with_reducible refine Keeps.step (Keeps.of_same (State.logAt_same ..) rfl) ?_
    with_reducible refine Keeps.modOut ?_ ?_
    on_goal 1 => exact fun _ h => h
    with_reducible refine Keeps.modOut ?_ ?_
    on_goal 1 => exact fun _ h => h
    exact Keeps.refl _
  · with_reducible refine Keeps.modOut ?_ ?_
    on_goal 1 => exact fun _ h => h
    exact Keeps.refl _

theorem State.sourceFormed_keeps (s : State) (src : AoSource) (v : Rat) (at_ : Nat) :
    Keeps s (State.sourceFormed s src v at_) := by
  unfold State.sourceFormed
  with_reducible refine Keeps.eachOut (fun _ _ => ?_) ?_
  · with_reducible refine Keeps.ite ?_ ?_
    · with_reducible refine Keeps.step (State.sourceValue_keeps ..) ?_
      exact Keeps.refl _
    · exact Keeps.refl _
  exact Keeps.refl _

theorem State.endGate_keeps (s : State) (n : Chan) (fin : Nat) (count : BitVec 48) (atYarnEnd : Bool) (adoption : Bool) :
    Keeps s (State.endGate s n fin count atYarnEnd adoption) := by
  unfold State.endGate
  split
  · with_reducible refine Keeps.upd_eng ?_ ?_
    on_goal 1 => exact fun h => h
    with_reducible refine Keeps.step (Keeps.of_same (State.modStat_same ..) rfl) ?_
    exact Keeps.refl _
  · exact Keeps.refl _

theorem State.noYarnHead_keeps (s : State) (n : Chan) (fin : Nat) (count : BitVec 48) (adoption : Bool) :
    Keeps s (State.noYarnHead s n fin count adoption) := by
  unfold State.noYarnHead
  with_reducible refine Keeps.upd_eng ?_ ?_
  on_goal 1 => exact fun h => h
  exact Keeps.refl _

theorem State.closeInterval_keeps (s : State) (n : Chan) (fin : Nat) (count : BitVec 48) (adoption : Bool) :
    Keeps s (State.closeInterval s n fin count adoption) := by
  unfold State.closeInterval
  with_reducible refine Keeps.ite ?_ ?_
  · with_reducible refine Keeps.step (State.endGate_keeps ..) ?_
    exact Keeps.refl _
  · with_reducible refine Keeps.ite ?_ ?_
    · exact Keeps.refl _
    · with_reducible refine Keeps.step (State.noYarnHead_keeps ..) ?_
      exact Keeps.refl _

theorem State.summaryBoundary_keeps (s : State) :
    Keeps s (State.summaryBoundary s) := by
  unfold State.summaryBoundary
  split
  · with_reducible refine Keeps.ite ?_ (Keeps.refl _)
    with_reducible refine Keeps.upd_eng ?_ ?_
    on_goal 1 => intro h; simpa only [Engine.Fits] using h
    with_reducible refine Keeps.eachChan (fun _ _ => ?_) (Keeps.refl _)
    with_reducible refine Keeps.ite ?_ ?_
    · with_reducible refine Keeps.upd_eng ?_ ?_
      on_goal 1 => intro h; simpa only [Engine.Fits] using h
      with_reducible refine Keeps.step (Keeps.of_same (State.openInterval_same ..) rfl) ?_
      with_reducible refine Keeps.upd_eng ?_ ?_
      on_goal 1 => intro h; simpa only [Engine.Fits] using h
      with_reducible refine Keeps.step (State.closeInterval_keeps ..) ?_
      with_reducible exact Keeps.of_same (State.countAt_same ..) rfl
    · with_reducible exact Keeps.of_same (State.modStat_same ..) rfl
  · exact Keeps.refl _

theorem State.statYarnEnd_keeps (s : State) (n : Chan) (fin : Nat) (count : BitVec 48) :
    Keeps s (State.statYarnEnd s n fin count) := by
  unfold State.statYarnEnd
  with_reducible refine Keeps.step (Keeps.of_same (State.cutSamples_same ..) rfl) ?_
  with_reducible refine Keeps.step (State.endGate_keeps ..) ?_
  exact Keeps.refl _

theorem State.modGateAt_keeps (s : State) (n : Chan) (session : BitVec 16) (t : Nat) (f : Gate → Gate) :
    Keeps s (State.modGateAt s n session t f) := by
  unfold State.modGateAt
  with_reducible refine Keeps.ite ?_ ?_
  · with_reducible refine Keeps.step (Keeps.of_same (State.modStat_same ..) rfl) ?_
    exact Keeps.refl _
  · with_reducible refine Keeps.upd_eng ?_ ?_
    on_goal 1 => exact fun h => h
    exact Keeps.refl _

theorem State.trySample_keeps (s : State) (n : Chan) (at_ : Nat) :
    Keeps s (State.trySample s n at_) := by
  unfold State.trySample
  split
  · with_reducible refine Keeps.step (State.sourceFormed_keeps ..) ?_
    with_reducible refine Keeps.ite ?_ ?_
    · with_reducible refine Keeps.step (Keeps.of_same (State.modStat_same ..) rfl) ?_
      with_reducible refine Keeps.step (Keeps.of_same (State.modStat_same ..) rfl) ?_
      with_reducible refine Keeps.step (State.modGateAt_keeps ..) ?_
      exact Keeps.refl _
    · with_reducible refine Keeps.step (Keeps.of_same (State.modStat_same ..) rfl) ?_
      with_reducible refine Keeps.step (State.modGateAt_keeps ..) ?_
      exact Keeps.refl _
  · exact Keeps.refl _

theorem State.addTerms_keeps (s : State) (n : Chan) (session : BitVec 16) (l : List (Nat × Rat)) (base : Nat) (last : Nat) (tau0 : Nat) (t : Nat) :
    Keeps s (State.addTerms s n session l base last tau0 t) := by
  unfold State.addTerms
  with_reducible refine Keeps.step (State.modGateAt_keeps ..) ?_
  exact Keeps.refl _

theorem State.diffPoint_keeps (s : State) (n : Chan) (k : Nat) (tau0 : Nat) (t : Nat) :
    Keeps s (State.diffPoint s n k tau0 t) := by
  unfold State.diffPoint
  try dsimp only
  split
  · with_reducible refine Keeps.ite ?_ ?_
    · exact Keeps.refl _
    · with_reducible refine Keeps.step (State.addTerms_keeps ..) ?_
      with_reducible refine Keeps.step (Keeps.of_same (State.modStat_same ..) rfl) ?_
      exact Keeps.refl _
  · exact Keeps.refl _

theorem State.phasePoint_keeps (s : State) (n : Chan) (c : StampRec) (slots : List (Fin 16)) :
    Keeps s (State.phasePoint s n c slots) := by
  unfold State.phasePoint
  split
  · with_reducible refine Keeps.ite ?_ ?_
    · with_reducible refine Keeps.ite ?_ ?_
      · with_reducible refine Keeps.step (State.diffPoint_keeps ..) ?_
        with_reducible refine Keeps.step (Keeps.of_same (State.modStat_same ..) rfl) ?_
        exact Keeps.refl _
      · with_reducible refine Keeps.ite ?_ ?_
        · with_reducible refine Keeps.eachChan (fun _ _ => ?_) ?_
          · with_reducible refine Keeps.ite ?_ ?_
            · exact Keeps.refl _
            · with_reducible refine Keeps.step (State.diffPoint_keeps ..) ?_
              exact Keeps.refl _
          split
          · with_reducible refine Keeps.step (State.addTerms_keeps ..) ?_
            with_reducible refine Keeps.step (Keeps.of_same (State.modStat_same ..) rfl) ?_
            exact Keeps.refl _
          · with_reducible refine Keeps.step (Keeps.of_same (State.modStat_same ..) rfl) ?_
            exact Keeps.refl _
        · split
          · with_reducible refine Keeps.step (State.addTerms_keeps ..) ?_
            with_reducible refine Keeps.step (Keeps.of_same (State.modStat_same ..) rfl) ?_
            exact Keeps.refl _
          · with_reducible refine Keeps.step (Keeps.of_same (State.modStat_same ..) rfl) ?_
            exact Keeps.refl _
    · exact Keeps.refl _
  · exact Keeps.refl _

theorem State.statInput_keeps (s : State) (n : Chan) (c : StampRec) (slots : List (Fin 16)) (at_ : Nat) :
    Keeps s (State.statInput s n c slots at_) := by
  unfold State.statInput
  with_reducible refine Keeps.ite ?_ ?_
  · with_reducible refine Keeps.eachChan (fun _ _ => ?_) ?_
    · with_reducible refine Keeps.ite ?_ ?_
      · with_reducible refine Keeps.step (State.trySample_keeps ..) ?_
        exact Keeps.refl _
      · exact Keeps.refl _
    with_reducible refine Keeps.ite ?_ ?_
    · with_reducible refine Keeps.step (State.phasePoint_keeps ..) ?_
      with_reducible refine Keeps.step (State.modGateAt_keeps ..) ?_
      with_reducible refine Keeps.step (Keeps.of_same (State.takeStamp_same ..) rfl) ?_
      exact Keeps.refl _
    · with_reducible refine Keeps.step (Keeps.of_same (State.takeStamp_same ..) rfl) ?_
      exact Keeps.refl _
  · exact Keeps.refl _

theorem State.publish_keeps (s : State) (g : Gate) :
    Keeps s (State.publish s g) := by
  unfold State.publish
  with_reducible refine Keeps.ite ?_ ?_
  · with_reducible refine Keeps.step (Keeps.of_same (State.modStat_same ..) rfl) ?_
    exact Keeps.refl _
  · with_reducible refine Keeps.ite ?_ ?_
    · split
      · with_reducible refine Keeps.ite ?_ ?_
        · with_reducible refine Keeps.step (State.sourceFormed_keeps ..) ?_
          with_reducible refine Keeps.step (State.sourceFormed_keeps ..) ?_
          with_reducible refine Keeps.step (Keeps.of_same (State.modStat_same ..) rfl) ?_
          with_reducible refine Keeps.step (Keeps.of_same (State.modStat_same ..) rfl) ?_
          exact Keeps.refl _
        · with_reducible refine Keeps.step (Keeps.of_same (State.modStat_same ..) rfl) ?_
          with_reducible refine Keeps.step (Keeps.of_same (State.modStat_same ..) rfl) ?_
          exact Keeps.refl _
      · with_reducible refine Keeps.step (Keeps.of_same (State.modStat_same ..) rfl) ?_
        with_reducible refine Keeps.step (Keeps.of_same (State.modStat_same ..) rfl) ?_
        exact Keeps.refl _
    · with_reducible refine Keeps.step (Keeps.of_same (State.modStat_same ..) rfl) ?_
      exact Keeps.refl _

theorem State.summaryComplete_keeps (s : State) :
    Keeps s (State.summaryComplete s) := by
  unfold State.summaryComplete
  with_reducible refine Keeps.ite ?_ ?_
  · exact ⟨fun e => ⟨e.chan, e.chain, Engine.refill_fits e.eng, e.sched, e.out⟩, id⟩
  · split
    · exact Keeps.refl _
    · rename_i g _
      have k : Keeps s (if g.ch = 0 then (s.publish g).modStat 0 fun st =>
          { st with closed := (st.closed.filter fun z => z.interval == g.interval) ++ [g] } else s.publish g) :=
        Keeps.ite (Keeps.trans (State.publish_keeps ..) (Keeps.of_same (m := [.stat]) (State.modStat_same _ _ _) rfl))
          (State.publish_keeps ..)
      exact Keeps.ite (Keeps.refl _) (k.trans ⟨fun e => ⟨e.chan, e.chain, Engine.refill_fits e.eng, e.sched, e.out⟩, id⟩)

theorem State.unjoin_keeps (s : State) (x0 : HeavyOp) :
    Keeps s (State.unjoin s x0) := by
  unfold State.unjoin
  split
  · with_reducible refine Keeps.modChan ?_ ?_
    on_goal 1 => exact fun _ h => h
    exact Keeps.refl _
  · with_reducible refine Keeps.modChan ?_ ?_
    on_goal 1 => exact fun _ h => h
    exact Keeps.refl _
  · exact Keeps.refl _

theorem State.giveBack_keeps (s : State) :
    Keeps s (State.giveBack s) := by
  unfold State.giveBack
  split
  · with_reducible refine Keeps.ite ?_ ?_
    · exact Keeps.refl _
    · with_reducible refine Keeps.step (Keeps.of_same (State.settleWait_same ..) rfl) ?_
      with_reducible refine Keeps.step (Keeps.of_same (State.modLeave_same ..) rfl) ?_
      with_reducible refine Keeps.step (Keeps.of_same (State.releaseLeave_same ..) rfl) ?_
      with_reducible refine Keeps.step (State.unjoin_keeps ..) ?_
      exact Keeps.refl _
  · exact Keeps.refl _

theorem State.dropHold_keeps (s : State) :
    Keeps s (State.dropHold s) := by
  unfold State.dropHold
  split
  · with_reducible refine Keeps.ite ?_ ?_
    · exact Keeps.refl _
    · with_reducible refine Keeps.ite ?_ ?_
      · with_reducible refine Keeps.step (Keeps.of_same (State.releaseLeave_same ..) rfl) ?_
        exact Keeps.refl _
      · with_reducible refine Keeps.step (State.giveBack_keeps ..) ?_
        exact Keeps.refl _
  · exact Keeps.refl _

theorem State.enterJoin_keeps (s : State) (x0 : HeavyOp) :
    Keeps s (State.enterJoin s x0) := by
  unfold State.enterJoin
  split
  · with_reducible refine Keeps.modChan ?_ ?_
    on_goal 1 => exact fun _ h => h
    exact Keeps.refl _
  · with_reducible refine Keeps.modChan ?_ ?_
    on_goal 1 => exact fun _ h => h
    exact Keeps.refl _
  · exact Keeps.refl _

theorem State.winLeave_keeps (s : State) :
    Keeps s (State.winLeave s) := by
  unfold State.winLeave
  split
  · with_reducible refine Keeps.ite ?_ ?_
    · with_reducible refine Keeps.step (Keeps.of_same (State.startWon_same ..) rfl) ?_
      with_reducible refine Keeps.step (State.enterJoin_keeps ..) ?_
      with_reducible refine Keeps.step (Keeps.of_same (State.clearFault_same ..) rfl) ?_
      with_reducible refine Keeps.step (Keeps.of_same (State.modLeave_same ..) rfl) ?_
      exact Keeps.refl _
    · exact Keeps.refl _
  · exact Keeps.refl _

theorem State.blurTally_keeps (s : State) (p : Nat) :
    Keeps s (State.blurTally s p) := by
  unfold State.blurTally
  with_reducible refine Keeps.upd_free  ?_
  with_reducible refine Keeps.foldl (fun _ _ => ?_) ?_
  · with_reducible refine Keeps.step (State.flashProgram_keeps ..) ?_
    exact Keeps.refl _
  with_reducible refine Keeps.step (State.flashEraseSector_keeps ..) ?_
  exact Keeps.refl _

theorem State.spoilErase_keeps (s : State) (p : Nat) :
    Keeps s (State.spoilErase s p) := by
  unfold State.spoilErase
  with_reducible refine Keeps.ite ?_ ?_
  · with_reducible refine Keeps.step (State.blurTally_keeps ..) ?_
    exact Keeps.refl _
  · with_reducible refine Keeps.step (Keeps.of_same (State.markBad_same ..) rfl) ?_
    with_reducible refine Keeps.step (State.flashEraseSector_keeps ..) ?_
    exact Keeps.refl _

theorem State.spoilProgram_keeps (s : State) (x : Nat) (bs : List Byte) :
    Keeps s (State.spoilProgram s x bs) := by
  unfold State.spoilProgram
  with_reducible refine Keeps.ite ?_ ?_
  · with_reducible refine Keeps.step (State.flashProgram_keeps ..) ?_
    with_reducible refine Keeps.upd_free  ?_
    exact Keeps.refl _
  · with_reducible refine Keeps.step (Keeps.of_same (State.markBad_same ..) rfl) ?_
    with_reducible refine Keeps.step (State.flashProgram_keeps ..) ?_
    exact Keeps.refl _

theorem State.eraseNow_keeps (s : State) (p : Nat) :
    Keeps s (State.eraseNow s p) := by
  unfold State.eraseNow
  with_reducible refine Keeps.step (Keeps.of_same (State.retried_same ..) rfl) ?_
  with_reducible refine Keeps.step (Keeps.of_same (State.noteTook_same ..) rfl) ?_
  with_reducible refine Keeps.ite ?_ ?_
  · with_reducible refine Keeps.step (State.spoilErase_keeps ..) ?_
    with_reducible refine Keeps.step (Keeps.of_same (State.drawNat_same ..) rfl) ?_
    exact Keeps.refl _
  · with_reducible refine Keeps.step (State.flashEraseSector_keeps ..) ?_
    with_reducible refine Keeps.step (Keeps.of_same (State.drawNat_same ..) rfl) ?_
    exact Keeps.refl _

theorem State.programNow_keeps (s : State) (x : Nat) (bs : List Byte) :
    Keeps s (State.programNow s x bs) := by
  unfold State.programNow
  with_reducible refine Keeps.step (Keeps.of_same (State.retried_same ..) rfl) ?_
  with_reducible refine Keeps.ite ?_ ?_
  · with_reducible refine Keeps.step (State.spoilProgram_keeps ..) ?_
    with_reducible refine Keeps.step (Keeps.of_same (State.drawNat_same ..) rfl) ?_
    exact Keeps.refl _
  · with_reducible refine Keeps.step (State.flashProgram_keeps ..) ?_
    with_reducible refine Keeps.step (Keeps.of_same (State.drawNat_same ..) rfl) ?_
    exact Keeps.refl _

theorem State.journalPut_keeps (s : State) (w : Nat) :
    Keeps s (State.journalPut s w) := by
  unfold State.journalPut
  with_reducible refine Keeps.upd_flash ?_ ?_
  on_goal 1 => exact fun h => h
  with_reducible refine Keeps.step (State.programNow_keeps ..) ?_
  exact Keeps.refl _

theorem State.journalComplete_keeps (s : State) (i : Nat) :
    Keeps s (State.journalComplete s i) := by
  unfold State.journalComplete
  with_reducible refine Keeps.step (State.programNow_keeps ..) ?_
  with_reducible refine Keeps.upd_flash ?_ ?_
  on_goal 1 => exact fun h => h
  exact Keeps.refl _

theorem State.completeErased_keeps (s : State) (i : Nat) (p : Nat) :
    Keeps s (State.completeErased s i p) := by
  unfold State.completeErased
  with_reducible refine Keeps.ite ?_ ?_
  · with_reducible refine Keeps.step (State.journalComplete_keeps ..) ?_
    exact Keeps.refl _
  · exact Keeps.refl _

theorem State.journalRoom_keeps (s : State) :
    Keeps s (State.journalRoom s) := by
  unfold State.journalRoom
  with_reducible refine Keeps.ite ?_ ?_
  · exact Keeps.refl _
  · with_reducible refine Keeps.step (State.completeErased_keeps ..) ?_
    with_reducible refine Keeps.step (State.eraseNow_keeps ..) ?_
    with_reducible refine Keeps.step (State.journalPut_keeps ..) ?_
    with_reducible refine Keeps.foldl (fun _ _ => ?_) ?_
    · split
      · with_reducible refine Keeps.step (State.journalPut_keeps ..) ?_
        exact Keeps.refl _
      · exact Keeps.refl _
    exact Keeps.refl _

theorem State.journalBegin_keeps (s : State) (w : Nat) :
    Keeps s (State.journalBegin s w).2 := by
  unfold State.journalBegin
  with_reducible refine Keeps.step (State.journalPut_keeps ..) ?_
  with_reducible refine Keeps.step (State.journalRoom_keeps ..) ?_
  exact Keeps.refl _

theorem State.journaledErase_keeps (s : State) (area : Nat) (p : Nat) :
    Keeps s (State.journaledErase s area p) := by
  unfold State.journaledErase
  with_reducible refine Keeps.step (State.completeErased_keeps ..) ?_
  with_reducible refine Keeps.step (State.eraseNow_keeps ..) ?_
  with_reducible refine Keeps.step (State.journalBegin_keeps ..) ?_
  exact Keeps.refl _

theorem State.appendCarry_keeps (s : State) (p : Nat) (carry : Nat) (cleared : Byte) :
    Keeps s (State.appendCarry s p carry cleared) := by
  unfold State.appendCarry
  split
  · with_reducible refine Keeps.step (State.programNow_keeps ..) ?_
    exact Keeps.refl _
  · with_reducible refine Keeps.step (State.programNow_keeps ..) ?_
    with_reducible refine Keeps.step (State.journaledErase_keeps ..) ?_
    exact Keeps.refl _

theorem State.setCleared_keeps (s : State) (p : Nat) :
    Keeps s (State.setCleared s p) := by
  unfold State.setCleared
  split
  · with_reducible refine Keeps.step (State.programNow_keeps ..) ?_
    exact Keeps.refl _
  · exact Keeps.refl _

theorem State.clearTally_keeps (s : State) (q : Nat × Nat × Nat) :
    Keeps s (State.clearTally s q) := by
  unfold State.clearTally
  with_reducible refine Keeps.step (State.setCleared_keeps ..) ?_
  with_reducible refine Keeps.step (State.setCleared_keeps ..) ?_
  with_reducible refine Keeps.step (State.journaledErase_keeps ..) ?_
  exact Keeps.refl _

theorem State.rowCarry_keeps (s : State) (q : Nat × Nat × Nat) :
    Keeps s (State.rowCarry s q) := by
  unfold State.rowCarry
  with_reducible refine Keeps.step (State.clearTally_keeps ..) ?_
  with_reducible refine Keeps.step (State.appendCarry_keeps ..) ?_
  with_reducible refine Keeps.step (State.appendCarry_keeps ..) ?_
  exact Keeps.refl _

theorem State.rowIncrement_keeps (s : State) (c : RowId) :
    Keeps s (State.rowIncrement s c) := by
  unfold State.rowIncrement
  with_reducible refine Keeps.ite ?_ ?_
  · with_reducible refine Keeps.step (State.rowCarry_keeps ..) ?_
    with_reducible refine Keeps.step (State.programNow_keeps ..) ?_
    exact Keeps.refl _
  · with_reducible refine Keeps.step (State.programNow_keeps ..) ?_
    exact Keeps.refl _

theorem State.rowAdvance_keeps (c : RowId) : ∀ (x0 : Nat) (x1 : State),
    Keeps x1 (State.rowAdvance c x0 x1)
  | 0, s => Keeps.refl s
  | n + 1, s => (State.rowIncrement_keeps s c).trans (State.rowAdvance_keeps c n (s.rowIncrement c))

theorem State.reconcileRow_keeps (s : State) (c : RowId) :
    Keeps s (State.reconcileRow s c) := by
  unfold State.reconcileRow
  with_reducible refine Keeps.ite ?_ ?_
  · with_reducible refine Keeps.step (Keeps.of_same (State.resolved_same ..) rfl) ?_
    with_reducible refine Keeps.step (State.rowCarry_keeps ..) ?_
    with_reducible refine Keeps.ite ?_ ?_
    · with_reducible refine Keeps.ite ?_ ?_
      · with_reducible refine Keeps.step (Keeps.of_same (State.resolved_same ..) rfl) ?_
        with_reducible refine Keeps.step (State.clearTally_keeps ..) ?_
        with_reducible refine Keeps.ite ?_ ?_
        · with_reducible refine Keeps.step (Keeps.of_same (State.resolved_same ..) rfl) ?_
          with_reducible refine Keeps.step (State.appendCarry_keeps ..) ?_
          exact Keeps.refl _
        · with_reducible refine Keeps.ite ?_ ?_
          · with_reducible refine Keeps.step (Keeps.of_same (State.resolved_same ..) rfl) ?_
            with_reducible refine Keeps.step (State.appendCarry_keeps ..) ?_
            exact Keeps.refl _
          · exact Keeps.refl _
      · with_reducible refine Keeps.ite ?_ ?_
        · with_reducible refine Keeps.step (Keeps.of_same (State.resolved_same ..) rfl) ?_
          with_reducible refine Keeps.step (State.appendCarry_keeps ..) ?_
          exact Keeps.refl _
        · with_reducible refine Keeps.ite ?_ ?_
          · with_reducible refine Keeps.step (Keeps.of_same (State.resolved_same ..) rfl) ?_
            with_reducible refine Keeps.step (State.appendCarry_keeps ..) ?_
            exact Keeps.refl _
          · exact Keeps.refl _
    · with_reducible refine Keeps.step (Keeps.of_same (State.resolved_same ..) rfl) ?_
      with_reducible refine Keeps.foldl (fun _ _ => ?_) ?_
      · with_reducible refine Keeps.step (State.programNow_keeps ..) ?_
        exact Keeps.refl _
      with_reducible refine Keeps.ite ?_ ?_
      · with_reducible refine Keeps.step (Keeps.of_same (State.resolved_same ..) rfl) ?_
        with_reducible refine Keeps.step (State.clearTally_keeps ..) ?_
        with_reducible refine Keeps.ite ?_ ?_
        · with_reducible refine Keeps.step (Keeps.of_same (State.resolved_same ..) rfl) ?_
          with_reducible refine Keeps.step (State.appendCarry_keeps ..) ?_
          exact Keeps.refl _
        · with_reducible refine Keeps.ite ?_ ?_
          · with_reducible refine Keeps.step (Keeps.of_same (State.resolved_same ..) rfl) ?_
            with_reducible refine Keeps.step (State.appendCarry_keeps ..) ?_
            exact Keeps.refl _
          · exact Keeps.refl _
      · with_reducible refine Keeps.ite ?_ ?_
        · with_reducible refine Keeps.step (Keeps.of_same (State.resolved_same ..) rfl) ?_
          with_reducible refine Keeps.step (State.appendCarry_keeps ..) ?_
          exact Keeps.refl _
        · with_reducible refine Keeps.ite ?_ ?_
          · with_reducible refine Keeps.step (Keeps.of_same (State.resolved_same ..) rfl) ?_
            with_reducible refine Keeps.step (State.appendCarry_keeps ..) ?_
            exact Keeps.refl _
          · exact Keeps.refl _
  · with_reducible refine Keeps.ite ?_ ?_
    · with_reducible refine Keeps.ite ?_ ?_
      · with_reducible refine Keeps.step (Keeps.of_same (State.resolved_same ..) rfl) ?_
        with_reducible refine Keeps.step (State.clearTally_keeps ..) ?_
        with_reducible refine Keeps.ite ?_ ?_
        · with_reducible refine Keeps.step (Keeps.of_same (State.resolved_same ..) rfl) ?_
          with_reducible refine Keeps.step (State.appendCarry_keeps ..) ?_
          exact Keeps.refl _
        · with_reducible refine Keeps.ite ?_ ?_
          · with_reducible refine Keeps.step (Keeps.of_same (State.resolved_same ..) rfl) ?_
            with_reducible refine Keeps.step (State.appendCarry_keeps ..) ?_
            exact Keeps.refl _
          · exact Keeps.refl _
      · with_reducible refine Keeps.ite ?_ ?_
        · with_reducible refine Keeps.step (Keeps.of_same (State.resolved_same ..) rfl) ?_
          with_reducible refine Keeps.step (State.appendCarry_keeps ..) ?_
          exact Keeps.refl _
        · with_reducible refine Keeps.ite ?_ ?_
          · with_reducible refine Keeps.step (Keeps.of_same (State.resolved_same ..) rfl) ?_
            with_reducible refine Keeps.step (State.appendCarry_keeps ..) ?_
            exact Keeps.refl _
          · exact Keeps.refl _
    · with_reducible refine Keeps.step (Keeps.of_same (State.resolved_same ..) rfl) ?_
      with_reducible refine Keeps.foldl (fun _ _ => ?_) ?_
      · with_reducible refine Keeps.step (State.programNow_keeps ..) ?_
        exact Keeps.refl _
      with_reducible refine Keeps.ite ?_ ?_
      · with_reducible refine Keeps.step (Keeps.of_same (State.resolved_same ..) rfl) ?_
        with_reducible refine Keeps.step (State.clearTally_keeps ..) ?_
        with_reducible refine Keeps.ite ?_ ?_
        · with_reducible refine Keeps.step (Keeps.of_same (State.resolved_same ..) rfl) ?_
          with_reducible refine Keeps.step (State.appendCarry_keeps ..) ?_
          exact Keeps.refl _
        · with_reducible refine Keeps.ite ?_ ?_
          · with_reducible refine Keeps.step (Keeps.of_same (State.resolved_same ..) rfl) ?_
            with_reducible refine Keeps.step (State.appendCarry_keeps ..) ?_
            exact Keeps.refl _
          · exact Keeps.refl _
      · with_reducible refine Keeps.ite ?_ ?_
        · with_reducible refine Keeps.step (Keeps.of_same (State.resolved_same ..) rfl) ?_
          with_reducible refine Keeps.step (State.appendCarry_keeps ..) ?_
          exact Keeps.refl _
        · with_reducible refine Keeps.ite ?_ ?_
          · with_reducible refine Keeps.step (Keeps.of_same (State.resolved_same ..) rfl) ?_
            with_reducible refine Keeps.step (State.appendCarry_keeps ..) ?_
            exact Keeps.refl _
          · exact Keeps.refl _

theorem State.appendRecs_keeps (s : State) (rs : List (List Byte)) :
    Keeps s (State.appendRecs s rs) := by
  unfold State.appendRecs
  with_reducible refine Keeps.foldl (fun _ _ => ?_) ?_
  · with_reducible refine Keeps.upd_flash ?_ ?_
    on_goal 1 => exact fun h => h
    with_reducible refine Keeps.step (State.programNow_keeps ..) ?_
    exact Keeps.refl _
  exact Keeps.refl _

theorem State.tickStamp_keeps (s : State) (n : Chan) (inst : Nat) (slot : Fin 16) :
    Keeps s (State.tickStamp s n inst slot) := by
  unfold State.tickStamp
  with_reducible refine Keeps.modChan ?_ ?_
  on_goal 1 => exact fun _ h => h
  with_reducible refine Keeps.step (Keeps.of_same (State.countAt_same ..) rfl) ?_
  exact Keeps.refl _

theorem State.edgeStamp_keeps (s : State) (n : Chan) (full : Nat) (captureAt : Nat) :
    Keeps s (State.edgeStamp s n full captureAt) := by
  unfold State.edgeStamp
  with_reducible refine Keeps.modChan ?_ ?_
  on_goal 1 => exact fun _ h => h
  exact Keeps.refl _

theorem State.takeCaptures_keeps (s : State) (k : Nat) :
    Keeps s (State.takeCaptures s k) := by
  unfold State.takeCaptures
  refine ⟨fun e => ⟨fun m => ?_, e.chain, e.eng, e.sched, e.out⟩, id⟩
  simp only [Per8.get_map]
  exact e.chan m

theorem State.land_keeps (s : State) (n : Chan) (f : Flight) :
    Keeps s (State.land s n f) := by
  unfold State.land
  with_reducible refine Keeps.step (State.statInput_keeps ..) ?_
  with_reducible refine Keeps.step (State.arrive_keeps ..) ?_
  with_reducible refine Keeps.ite ?_ ?_
  · with_reducible refine Keeps.modChan ?_ ?_
    on_goal 1 => exact fun _ h => h
    with_reducible refine Keeps.modChan ?_ ?_
    on_goal 1 => exact fun _ h => h
    exact Keeps.refl _
  · with_reducible refine Keeps.modChan ?_ ?_
    on_goal 1 => exact fun _ h => h
    exact Keeps.refl _

theorem State.settle_keeps : ∀ (fuel : Nat) (s : State), Keeps s (State.settle fuel s)
  | 0, s => Keeps.refl s
  | fuel + 1, s => by
    unfold State.settle
    split
    · with_reducible refine Keeps.ite ?_ (Keeps.refl _)
      with_reducible exact (State.land_keeps ..).trans (State.settle_keeps fuel _)
    · exact Keeps.refl _

theorem State.settleAll_keeps (s : State) :
    Keeps s (State.settleAll s) := by
  unfold State.settleAll
  with_reducible refine Keeps.step (State.settle_keeps ..) ?_
  exact Keeps.refl _

theorem State.tickChannel_keeps (s : State) (n : Chan) (inst : Nat) (slot : Fin 16) :
    Keeps s (State.tickChannel s n inst slot) := by
  unfold State.tickChannel
  have h : Keeps s (if (s.chan.get n).pending then s.modChan n fun c => { c with expired := c.expired + 1 } else s) :=
    Keeps.ite (Keeps.modChan (fun _ h => h) (Keeps.refl _)) (Keeps.refl _)
  refine Keeps.ite (Keeps.refl _) (Keeps.ite ?_ (Keeps.ite (Keeps.refl _) ?_))
  · refine Keeps.modChan (fun c h => ?_) (Keeps.refl _)
    split <;> exact h
  · refine Keeps.modChan (fun _ h => h) (Keeps.ite ?_ h)
    exact (State.tickStamp_keeps ..).step (Keeps.modChan (fun _ h => h) h)

theorem State.tickAll_keeps (s : State) (inst : Nat) (slot : Fin 16) :
    Keeps s (State.tickAll s inst slot) := by
  unfold State.tickAll
  with_reducible refine Keeps.eachChan (fun _ _ => ?_) ?_
  · with_reducible refine Keeps.step (State.tickChannel_keeps ..) ?_
    exact Keeps.refl _
  exact Keeps.refl _

theorem State.timeTick_keeps (s : State) (slot : Fin 16) :
    Keeps s (State.timeTick s slot) := by
  unfold State.timeTick
  split
  · with_reducible refine Keeps.ite ?_ ?_
    · split
      · with_reducible refine Keeps.step (State.issue_keeps ..) ?_
        with_reducible refine Keeps.step (State.tickAll_keeps ..) ?_
        exact Keeps.refl _
      · exact Keeps.refl _
    · exact Keeps.refl _
  · exact Keeps.refl _

theorem State.angleTick_keeps (s : State) :
    Keeps s (State.angleTick s) := by
  unfold State.angleTick
  split
  · with_reducible refine Keeps.ite ?_ ?_
    · with_reducible refine Keeps.step (State.issue_keeps ..) ?_
      with_reducible refine Keeps.step (State.tickAll_keeps ..) ?_
      exact Keeps.refl _
    · exact Keeps.refl _
  · exact Keeps.refl _

theorem State.goAbsentUp_keeps (s : State) (n : Chan) :
    Keeps s (State.goAbsentUp s n) := by
  unfold State.goAbsentUp
  with_reducible refine Keeps.modChan ?_ ?_
  on_goal 1 => exact fun _ h => h
  exact Keeps.refl _

theorem State.withdrawJoin_keeps (s : State) (n : Chan) :
    Keeps s (State.withdrawJoin s n) := by
  unfold State.withdrawJoin
  with_reducible refine Keeps.step (Keeps.of_same (State.settleBoot_same ..) rfl) ?_
  with_reducible refine Keeps.step (Keeps.of_same (State.settleJoin_same ..) rfl) ?_
  with_reducible refine Keeps.step (Keeps.of_same (State.log_same ..) rfl) ?_
  with_reducible refine Keeps.step (Keeps.of_same (State.dropRequest_same ..) rfl) ?_
  with_reducible refine Keeps.step (Keeps.of_same (State.dropRequest_same ..) rfl) ?_
  with_reducible refine Keeps.modChan ?_ ?_
  on_goal 1 => exact fun _ h => h
  exact Keeps.refl _

theorem State.presence_keeps (s : State) (n : Chan) (stable : Bool) :
    Keeps s (State.presence s n stable) := by
  unfold State.presence
  try dsimp only
  split
  · with_reducible refine Keeps.ite ?_ ?_
    · with_reducible refine Keeps.modChan ?_ ?_
      on_goal 1 => exact fun _ h => h
      exact Keeps.refl _
    · with_reducible refine Keeps.ite ?_ ?_
      · with_reducible refine Keeps.modChan ?_ ?_
        on_goal 1 => exact fun _ h => h
        exact Keeps.refl _
      · with_reducible refine Keeps.modChan ?_ ?_
        on_goal 1 => exact fun _ h => h
        exact Keeps.refl _
  · with_reducible refine Keeps.ite ?_ ?_
    · with_reducible refine Keeps.modChan ?_ ?_
      on_goal 1 => exact fun _ h => h
      exact Keeps.refl _
    · with_reducible refine Keeps.ite ?_ ?_
      · with_reducible refine Keeps.modChan ?_ ?_
        on_goal 1 => exact fun _ h => h
        exact Keeps.refl _
      · with_reducible refine Keeps.modChan ?_ ?_
        on_goal 1 => exact fun _ h => h
        exact Keeps.refl _
  · with_reducible refine Keeps.ite ?_ ?_
    · exact Keeps.refl _
    · with_reducible refine Keeps.step (State.withdrawJoin_keeps ..) ?_
      exact Keeps.refl _
  · with_reducible refine Keeps.ite ?_ ?_
    · exact Keeps.refl _
    · with_reducible refine Keeps.modChan ?_ ?_
      on_goal 1 => exact fun _ h => h
      exact Keeps.refl _
  · exact Keeps.refl _
  · exact Keeps.refl _
  · exact Keeps.refl _

theorem State.countEdge_keeps (s : State) (n : Chan) (bin : Byte) (narrow : Bool) (pos : Int) (neg : Int) :
    Keeps s (State.countEdge s n bin narrow pos neg) := by
  unfold State.countEdge
  try dsimp only
  split
  · with_reducible refine Keeps.ite ?_ ?_
    · with_reducible refine Keeps.step (State.edgeStamp_keeps ..) ?_
      with_reducible refine Keeps.step (State.presence_keeps ..) ?_
      with_reducible refine Keeps.modChan ?_ ?_
      on_goal 1 => exact fun _ h => h
      exact Keeps.refl _
    · with_reducible refine Keeps.step (State.presence_keeps ..) ?_
      with_reducible refine Keeps.modChan ?_ ?_
      on_goal 1 => exact fun _ h => h
      exact Keeps.refl _
  · with_reducible refine Keeps.step (State.presence_keeps ..) ?_
    with_reducible refine Keeps.modChan ?_ ?_
    on_goal 1 => exact fun _ h => h
    exact Keeps.refl _

theorem State.activeEdge_keeps (s : State) (n : Chan) (bin : Byte) (pulse : Nat) (pos : Int) (neg : Int) :
    Keeps s (State.activeEdge s n bin pulse pos neg) := by
  unfold State.activeEdge
  with_reducible refine Keeps.ite ?_ ?_
  · exact Keeps.refl _
  · with_reducible refine Keeps.ite ?_ ?_
    · with_reducible refine Keeps.step (State.countEdge_keeps ..) ?_
      with_reducible refine Keeps.ite ?_ ?_
      · with_reducible refine Keeps.step (Keeps.of_same (State.logLimited_same ..) rfl) ?_
        with_reducible refine Keeps.ite_snd ?_ ?_
        · with_reducible refine Keeps.ite_snd ?_ ?_
          · with_reducible refine Keeps.step (Keeps.of_same (State.drawBit_same ..) rfl) ?_
            exact Keeps.refl _
          · exact Keeps.refl _
        · with_reducible refine Keeps.ite_snd ?_ ?_
          · with_reducible refine Keeps.step (Keeps.of_same (State.drawBit_same ..) rfl) ?_
            with_reducible refine Keeps.ite_snd ?_ ?_
            · with_reducible refine Keeps.step (Keeps.of_same (State.drawBit_same ..) rfl) ?_
              exact Keeps.refl _
            · exact Keeps.refl _
          · with_reducible refine Keeps.ite_snd ?_ ?_
            · with_reducible refine Keeps.step (Keeps.of_same (State.drawBit_same ..) rfl) ?_
              exact Keeps.refl _
            · exact Keeps.refl _
      · with_reducible refine Keeps.ite_snd ?_ ?_
        · with_reducible refine Keeps.ite_snd ?_ ?_
          · with_reducible refine Keeps.step (Keeps.of_same (State.drawBit_same ..) rfl) ?_
            exact Keeps.refl _
          · exact Keeps.refl _
        · with_reducible refine Keeps.ite_snd ?_ ?_
          · with_reducible refine Keeps.step (Keeps.of_same (State.drawBit_same ..) rfl) ?_
            with_reducible refine Keeps.ite_snd ?_ ?_
            · with_reducible refine Keeps.step (Keeps.of_same (State.drawBit_same ..) rfl) ?_
              exact Keeps.refl _
            · exact Keeps.refl _
          · with_reducible refine Keeps.ite_snd ?_ ?_
            · with_reducible refine Keeps.step (Keeps.of_same (State.drawBit_same ..) rfl) ?_
              exact Keeps.refl _
            · exact Keeps.refl _
    · with_reducible refine Keeps.ite ?_ ?_
      · with_reducible refine Keeps.step (Keeps.of_same (State.logLimited_same ..) rfl) ?_
        with_reducible refine Keeps.ite_snd ?_ ?_
        · with_reducible refine Keeps.ite_snd ?_ ?_
          · with_reducible refine Keeps.step (Keeps.of_same (State.drawBit_same ..) rfl) ?_
            exact Keeps.refl _
          · exact Keeps.refl _
        · with_reducible refine Keeps.ite_snd ?_ ?_
          · with_reducible refine Keeps.step (Keeps.of_same (State.drawBit_same ..) rfl) ?_
            with_reducible refine Keeps.ite_snd ?_ ?_
            · with_reducible refine Keeps.step (Keeps.of_same (State.drawBit_same ..) rfl) ?_
              exact Keeps.refl _
            · exact Keeps.refl _
          · with_reducible refine Keeps.ite_snd ?_ ?_
            · with_reducible refine Keeps.step (Keeps.of_same (State.drawBit_same ..) rfl) ?_
              exact Keeps.refl _
            · exact Keeps.refl _
      · with_reducible refine Keeps.ite_snd ?_ ?_
        · with_reducible refine Keeps.ite_snd ?_ ?_
          · with_reducible refine Keeps.step (Keeps.of_same (State.drawBit_same ..) rfl) ?_
            exact Keeps.refl _
          · exact Keeps.refl _
        · with_reducible refine Keeps.ite_snd ?_ ?_
          · with_reducible refine Keeps.step (Keeps.of_same (State.drawBit_same ..) rfl) ?_
            with_reducible refine Keeps.ite_snd ?_ ?_
            · with_reducible refine Keeps.step (Keeps.of_same (State.drawBit_same ..) rfl) ?_
              exact Keeps.refl _
            · exact Keeps.refl _
          · with_reducible refine Keeps.ite_snd ?_ ?_
            · with_reducible refine Keeps.step (Keeps.of_same (State.drawBit_same ..) rfl) ?_
              exact Keeps.refl _
            · exact Keeps.refl _

theorem State.stopStamping_keeps (s : State) (n : Chan) :
    Keeps s (State.stopStamping s n) := by
  unfold State.stopStamping
  with_reducible refine Keeps.step (Keeps.of_same (State.cutSamples_same ..) rfl) ?_
  with_reducible refine Keeps.modChan ?_ ?_
  on_goal 1 => exact fun _ h => h
  exact Keeps.refl _

theorem State.enterPresent_keeps (s : State) (n : Chan) (inst : Nat) :
    Keeps s (State.enterPresent s n inst) := by
  unfold State.enterPresent
  with_reducible refine Keeps.step (Keeps.of_same (State.clearFault_same ..) rfl) ?_
  with_reducible refine Keeps.modChan ?_ ?_
  on_goal 1 => exact fun _ h => h
  exact Keeps.refl _

theorem State.startYarn_keeps (s : State) (n : Chan) (inst : Nat) :
    Keeps s (State.startYarn s n inst) := by
  unfold State.startYarn
  with_reducible refine Keeps.step (State.enterPresent_keeps ..) ?_
  with_reducible refine Keeps.step (Keeps.of_same (State.statYarnStart_same ..) rfl) ?_
  with_reducible refine Keeps.step (State.fwMarkerItem_keeps ..) ?_
  with_reducible refine Keeps.modChan ?_ ?_
  on_goal 1 => exact fun _ h => h
  exact Keeps.refl _

theorem State.capture_keeps (s : State) (n : Chan) :
    Keeps s (State.capture s n) := by
  unfold State.capture
  with_reducible refine Keeps.modChan ?_ ?_
  on_goal 1 => exact fun _ h => h
  exact Keeps.refl _

theorem State.gapMarkers_keeps (s : State) (n : Chan) (rejoin : Bool) (inst1 : Nat) :
    Keeps s (State.gapMarkers s n rejoin inst1) := by
  unfold State.gapMarkers
  split
  · with_reducible refine Keeps.step (State.fwMarkerItem_keeps ..) ?_
    with_reducible refine Keeps.step (State.fwMarkerItem_keeps ..) ?_
    with_reducible refine Keeps.modChan ?_ ?_
    on_goal 1 => exact fun _ h => h
    exact Keeps.refl _
  · exact Keeps.refl _

theorem State.beginRejoin_keeps (s : State) (n : Chan) :
    Keeps s (State.beginRejoin s n) := by
  unfold State.beginRejoin
  with_reducible refine Keeps.upd_cal  ?_
  with_reducible refine Keeps.step (State.capture_keeps ..) ?_
  exact Keeps.refl _

theorem State.startRejoin_keeps (s : State) (n : Chan) :
    Keeps s (State.startRejoin s n) := by
  unfold State.startRejoin
  with_reducible refine Keeps.ite ?_ ?_
  · with_reducible refine Keeps.step (State.beginRejoin_keeps ..) ?_
    exact Keeps.refl _
  · with_reducible refine Keeps.upd_cal  ?_
    exact Keeps.refl _

theorem State.landOne_keeps (s : State) (x0 : Late) :
    Keeps s (State.landOne s x0) := by
  unfold State.landOne
  split
  · with_reducible refine Keeps.step (State.landCommand_keeps ..) ?_
    exact Keeps.refl _
  · with_reducible refine Keeps.step (State.takeEvent_keeps ..) ?_
    exact Keeps.refl _
  · with_reducible refine Keeps.step (Keeps.of_same (State.takeStep_same ..) rfl) ?_
    exact Keeps.refl _
  · with_reducible refine Keeps.step (State.gapMarkers_keeps ..) ?_
    exact Keeps.refl _
  · with_reducible refine Keeps.ite ?_ ?_
    · with_reducible refine Keeps.step (State.startRejoin_keeps ..) ?_
      with_reducible refine Keeps.modChan ?_ ?_
      on_goal 1 => exact fun _ h => h
      exact Keeps.refl _
    · with_reducible refine Keeps.ite ?_ ?_
      · with_reducible refine Keeps.modChan ?_ ?_
        on_goal 1 => exact fun _ h => h
        exact Keeps.refl _
      · with_reducible refine Keeps.step (Keeps.of_same (State.releaseFor_same ..) rfl) ?_
        with_reducible refine Keeps.modChan ?_ ?_
        on_goal 1 => exact fun _ h => h
        exact Keeps.refl _

theorem State.landLate_keeps (s : State) :
    Keeps s (State.landLate s) := by
  unfold State.landLate
  with_reducible refine Keeps.foldl (fun _ _ => State.landOne_keeps _ _) ?_
  exact ⟨fun q => ⟨q.chan, q.chain, q.eng, q.sched, q.out⟩, id⟩

theorem State.flow_keeps (dt : Nat) (s : State) :
    Keeps s (State.flow dt s) := by
  unfold State.flow
  with_reducible refine Keeps.step (State.settleAll_keeps ..) ?_
  with_reducible refine Keeps.step (Keeps.of_same (State.pass_same ..) rfl) ?_
  with_reducible refine Keeps.ite ?_ ?_
  · with_reducible refine Keeps.step (State.takeCaptures_keeps ..) ?_
    exact Keeps.refl _
  · exact Keeps.refl _

theorem advance_keeps (dt : Nat) (s : State) :
    Keeps s (advance dt s) := by
  unfold advance
  with_reducible refine Keeps.ite ?_ ?_
  · with_reducible refine Keeps.step (State.flow_keeps ..) ?_
    exact Keeps.refl _
  · with_reducible refine Keeps.step (State.flow_keeps ..) ?_
    with_reducible refine Keeps.step (State.landLate_keeps ..) ?_
    with_reducible refine Keeps.step (State.flow_keeps ..) ?_
    exact Keeps.refl _

theorem State.useSet_keeps (s : State) (w : CalSet) :
    Keeps s (State.useSet s w) := by
  unfold State.useSet
  with_reducible refine Keeps.upd_cal  ?_
  with_reducible refine Keeps.eachOut (fun _ _ => ?_) ?_
  · with_reducible refine Keeps.modOut ?_ ?_
    on_goal 1 => exact fun _ h => h
    exact Keeps.refl _
  exact Keeps.refl _

theorem State.rebuild_keeps (s : State) :
    Keeps s (State.rebuild s) := by
  unfold State.rebuild
  with_reducible refine Keeps.ite ?_ ?_
  · exact Keeps.refl _
  · with_reducible refine Keeps.step (State.useSet_keeps ..) ?_
    exact Keeps.refl _

theorem State.suspend_keeps (s : State) (n : Chan) :
    Keeps s (State.suspend s n) := by
  unfold State.suspend
  with_reducible refine Keeps.ite ?_ ?_
  · with_reducible refine Keeps.step (Keeps.of_same (State.modStat_same ..) rfl) ?_
    with_reducible refine Keeps.modChan ?_ ?_
    on_goal 1 => exact fun _ h => h
    with_reducible refine Keeps.step (State.stopStamping_keeps ..) ?_
    with_reducible refine Keeps.step (State.capture_keeps ..) ?_
    exact Keeps.refl _
  · exact Keeps.refl _

theorem State.resumeChan_keeps (s : State) (n : Chan) (inst : Nat) :
    Keeps s (State.resumeChan s n inst) := by
  unfold State.resumeChan
  with_reducible refine Keeps.ite ?_ ?_
  · with_reducible refine Keeps.ite ?_ ?_
    · with_reducible refine Keeps.modChan ?_ ?_
      on_goal 1 => exact fun _ h => h
      with_reducible refine Keeps.step (State.goAbsentUp_keeps ..) ?_
      exact Keeps.refl _
    · with_reducible refine Keeps.step (State.enterPresent_keeps ..) ?_
      exact Keeps.refl _
  · exact Keeps.refl _

theorem State.endSuspension_keeps (s : State) (inst : Nat) :
    Keeps s (State.endSuspension s inst) := by
  unfold State.endSuspension
  with_reducible refine Keeps.eachChan (fun _ _ => ?_) ?_
  · with_reducible refine Keeps.step (State.gapMarkers_keeps ..) ?_
    exact Keeps.refl _
  with_reducible refine Keeps.eachChan (fun _ _ => ?_) ?_
  · with_reducible refine Keeps.step (State.resumeChan_keeps ..) ?_
    exact Keeps.refl _
  exact Keeps.refl _

theorem State.lateGap_keeps (s : State) (n : Chan) (rejoin : Bool) :
    Keeps s (State.lateGap s n rejoin) := by
  unfold State.lateGap
  with_reducible refine Keeps.ite ?_ ?_
  · with_reducible refine Keeps.step (State.later_keeps ..) ?_
    exact Keeps.refl _
  · exact Keeps.refl _

theorem State.endCalStep_keeps (s : State) :
    Keeps s (State.endCalStep s) := by
  unfold State.endCalStep
  with_reducible refine Keeps.upd_ao_cal ?_ ?_
  on_goal 1 => exact fun h => h
  exact Keeps.refl _

theorem State.ready_keeps (s : State) :
    Keeps s (State.ready s) := by
  unfold State.ready
  with_reducible refine Keeps.step (State.endCalStep_keeps ..) ?_
  with_reducible refine Keeps.upd_core  ?_
  exact Keeps.refl _

theorem State.startYarns_keeps (s : State) (inst : Nat) :
    Keeps s (State.startYarns s inst) := by
  unfold State.startYarns
  with_reducible refine Keeps.eachChan (fun _ _ => ?_) ?_
  · with_reducible refine Keeps.ite ?_ ?_
    · with_reducible refine Keeps.step (State.startYarn_keeps ..) ?_
      exact Keeps.refl _
    · exact Keeps.refl _
  exact Keeps.refl _

theorem State.startupAbandoned_keeps (s : State) (inst : Nat) :
    Keeps s (State.startupAbandoned s inst) := by
  unfold State.startupAbandoned
  with_reducible refine Keeps.ite ?_ ?_
  · with_reducible refine Keeps.step (Keeps.of_same (State.raise_same ..) rfl) ?_
    with_reducible refine Keeps.upd_cal  ?_
    with_reducible refine Keeps.step (State.endCalStep_keeps ..) ?_
    exact Keeps.refl _
  · with_reducible refine Keeps.upd_cal  ?_
    with_reducible refine Keeps.step (State.ready_keeps ..) ?_
    with_reducible refine Keeps.step (State.startYarns_keeps ..) ?_
    with_reducible refine Keeps.step (State.rebuild_keeps ..) ?_
    exact Keeps.refl _

theorem State.startupRunAbandon_keeps (s : State) :
    Keeps s (State.startupRunAbandon s) := by
  unfold State.startupRunAbandon
  with_reducible refine Keeps.ite ?_ ?_
  · with_reducible refine Keeps.step (State.startupAbandoned_keeps ..) ?_
    with_reducible refine Keeps.upd_cal  ?_
    exact Keeps.refl _
  · exact Keeps.refl _

theorem State.fullRunStart_keeps (s : State) :
    Keeps s (State.fullRunStart s) := by
  unfold State.fullRunStart
  split
  · with_reducible refine Keeps.ite ?_ ?_
    · with_reducible refine Keeps.upd_cal  ?_
      with_reducible refine Keeps.eachChan (fun _ _ => ?_) ?_
      · with_reducible refine Keeps.step (State.suspend_keeps ..) ?_
        exact Keeps.refl _
      exact Keeps.refl _
    · exact Keeps.refl _
  · exact Keeps.refl _

theorem State.fullRunEnd_keeps (s : State) (m : FullMeas) :
    Keeps s (State.fullRunEnd s m) := by
  unfold State.fullRunEnd
  split
  · with_reducible refine Keeps.ite ?_ ?_
    · exact Keeps.refl _
    · with_reducible refine Keeps.ite ?_ ?_
      · with_reducible refine Keeps.step (State.ready_keeps ..) ?_
        with_reducible refine Keeps.step (State.startYarns_keeps ..) ?_
        with_reducible refine Keeps.step (Keeps.of_same (State.clearFault_same ..) rfl) ?_
        with_reducible refine Keeps.step (Keeps.of_same (State.clearFault_same ..) rfl) ?_
        with_reducible refine Keeps.step (Keeps.of_same (State.clearFault_same ..) rfl) ?_
        with_reducible refine Keeps.step (Keeps.of_same (State.releaseFor_same ..) rfl) ?_
        with_reducible refine Keeps.step (State.endSuspension_keeps ..) ?_
        with_reducible refine Keeps.upd_cal  ?_
        with_reducible refine Keeps.step (State.useSet_keeps ..) ?_
        with_reducible refine Keeps.eachOut (fun _ _ => ?_) ?_
        · with_reducible refine Keeps.ite ?_ ?_
          · with_reducible refine Keeps.step (Keeps.of_same (State.judgeSegs_same ..) rfl) ?_
            exact Keeps.refl _
          · exact Keeps.refl _
        with_reducible refine Keeps.eachChan (fun _ _ => ?_) ?_
        · with_reducible refine Keeps.ite ?_ ?_
          · with_reducible refine Keeps.step (Keeps.of_same (State.judgeCells_same ..) rfl) ?_
            exact Keeps.refl _
          · exact Keeps.refl _
        exact Keeps.refl _
      · with_reducible refine Keeps.step (State.startYarns_keeps ..) ?_
        with_reducible refine Keeps.step (Keeps.of_same (State.clearFault_same ..) rfl) ?_
        with_reducible refine Keeps.step (Keeps.of_same (State.clearFault_same ..) rfl) ?_
        with_reducible refine Keeps.step (Keeps.of_same (State.clearFault_same ..) rfl) ?_
        with_reducible refine Keeps.step (Keeps.of_same (State.releaseFor_same ..) rfl) ?_
        with_reducible refine Keeps.step (State.endSuspension_keeps ..) ?_
        with_reducible refine Keeps.upd_cal  ?_
        with_reducible refine Keeps.step (State.useSet_keeps ..) ?_
        with_reducible refine Keeps.eachOut (fun _ _ => ?_) ?_
        · with_reducible refine Keeps.ite ?_ ?_
          · with_reducible refine Keeps.step (Keeps.of_same (State.judgeSegs_same ..) rfl) ?_
            exact Keeps.refl _
          · exact Keeps.refl _
        with_reducible refine Keeps.eachChan (fun _ _ => ?_) ?_
        · with_reducible refine Keeps.ite ?_ ?_
          · with_reducible refine Keeps.step (Keeps.of_same (State.judgeCells_same ..) rfl) ?_
            exact Keeps.refl _
          · exact Keeps.refl _
        exact Keeps.refl _
  · exact Keeps.refl _

theorem State.resumeJoin_keeps (s : State) :
    Keeps s (State.resumeJoin s) := by
  unfold State.resumeJoin
  split
  · with_reducible refine Keeps.ite ?_ ?_
    · with_reducible refine Keeps.step (State.startRejoin_keeps ..) ?_
      exact Keeps.refl _
    · exact Keeps.refl _
  · exact Keeps.refl _

theorem State.rejoinRunEnd_keeps (s : State) (n : Chan) (m : ChanMeas) (temp : Int) :
    Keeps s (State.rejoinRunEnd s n m temp) := by
  unfold State.rejoinRunEnd
  split
  · with_reducible refine Keeps.ite ?_ ?_
    · exact Keeps.refl _
    · with_reducible refine Keeps.ite ?_ ?_
      · with_reducible refine Keeps.step (State.startYarn_keeps ..) ?_
        with_reducible refine Keeps.step (State.gapMarkers_keeps ..) ?_
        with_reducible refine Keeps.step (Keeps.of_same (State.releaseFor_same ..) rfl) ?_
        with_reducible refine Keeps.upd_cal  ?_
        with_reducible refine Keeps.step (State.useSet_keeps ..) ?_
        with_reducible refine Keeps.step (Keeps.of_same (State.judgeCells_same ..) rfl) ?_
        exact Keeps.refl _
      · with_reducible refine Keeps.step (Keeps.of_same (State.log_same ..) rfl) ?_
        with_reducible refine Keeps.step (State.goAbsentUp_keeps ..) ?_
        with_reducible refine Keeps.step (State.gapMarkers_keeps ..) ?_
        with_reducible refine Keeps.step (Keeps.of_same (State.releaseFor_same ..) rfl) ?_
        with_reducible refine Keeps.upd_cal  ?_
        with_reducible refine Keeps.step (State.useSet_keeps ..) ?_
        with_reducible refine Keeps.step (Keeps.of_same (State.judgeCells_same ..) rfl) ?_
        exact Keeps.refl _
  · exact Keeps.refl _

theorem State.abandonRun_keeps (s : State) :
    Keeps s (State.abandonRun s) := by
  unfold State.abandonRun
  split
  · try dsimp only
    split
    · with_reducible refine Keeps.step (Keeps.of_same (State.log_same ..) rfl) ?_
      with_reducible refine Keeps.step (State.lateGap_keeps ..) ?_
      with_reducible refine Keeps.step (State.goAbsentUp_keeps ..) ?_
      with_reducible refine Keeps.step (Keeps.of_same (State.releaseFor_same ..) rfl) ?_
      with_reducible refine Keeps.upd_cal  ?_
      with_reducible refine Keeps.step (Keeps.of_same (State.drawNat_same ..) rfl) ?_
      with_reducible refine Keeps.step (Keeps.of_same (State.drawNat_same ..) rfl) ?_
      exact Keeps.refl _
    · with_reducible refine Keeps.ite ?_ ?_
      · with_reducible refine Keeps.step (State.startupAbandoned_keeps ..) ?_
        with_reducible refine Keeps.step (Keeps.of_same (State.log_same ..) rfl) ?_
        with_reducible refine Keeps.step (Keeps.of_same (State.releaseFor_same ..) rfl) ?_
        with_reducible refine Keeps.eachChan (fun _ _ => ?_) ?_
        · with_reducible refine Keeps.step (State.lateGap_keeps ..) ?_
          exact Keeps.refl _
        with_reducible refine Keeps.eachChan (fun _ _ => ?_) ?_
        · with_reducible refine Keeps.step (State.resumeChan_keeps ..) ?_
          exact Keeps.refl _
        with_reducible refine Keeps.upd_cal  ?_
        with_reducible refine Keeps.step (Keeps.of_same (State.drawNat_same ..) rfl) ?_
        with_reducible refine Keeps.step (Keeps.of_same (State.drawNat_same ..) rfl) ?_
        exact Keeps.refl _
      · with_reducible refine Keeps.ite ?_ ?_
        · with_reducible refine Keeps.step (Keeps.of_same (State.requestRun_same ..) rfl) ?_
          with_reducible refine Keeps.step (Keeps.of_same (State.log_same ..) rfl) ?_
          with_reducible refine Keeps.step (Keeps.of_same (State.releaseFor_same ..) rfl) ?_
          with_reducible refine Keeps.eachChan (fun _ _ => ?_) ?_
          · with_reducible refine Keeps.step (State.lateGap_keeps ..) ?_
            exact Keeps.refl _
          with_reducible refine Keeps.eachChan (fun _ _ => ?_) ?_
          · with_reducible refine Keeps.step (State.resumeChan_keeps ..) ?_
            exact Keeps.refl _
          with_reducible refine Keeps.upd_cal  ?_
          with_reducible refine Keeps.step (Keeps.of_same (State.drawNat_same ..) rfl) ?_
          with_reducible refine Keeps.step (Keeps.of_same (State.drawNat_same ..) rfl) ?_
          exact Keeps.refl _
        · with_reducible refine Keeps.step (Keeps.of_same (State.log_same ..) rfl) ?_
          with_reducible refine Keeps.step (Keeps.of_same (State.releaseFor_same ..) rfl) ?_
          with_reducible refine Keeps.eachChan (fun _ _ => ?_) ?_
          · with_reducible refine Keeps.step (State.lateGap_keeps ..) ?_
            exact Keeps.refl _
          with_reducible refine Keeps.eachChan (fun _ _ => ?_) ?_
          · with_reducible refine Keeps.step (State.resumeChan_keeps ..) ?_
            exact Keeps.refl _
          with_reducible refine Keeps.upd_cal  ?_
          with_reducible refine Keeps.step (Keeps.of_same (State.drawNat_same ..) rfl) ?_
          with_reducible refine Keeps.step (Keeps.of_same (State.drawNat_same ..) rfl) ?_
          exact Keeps.refl _
  · exact Keeps.refl _

theorem State.powerJoin_keeps (s : State) (n : Chan) :
    Keeps s (State.powerJoin s n) := by
  unfold State.powerJoin
  with_reducible refine Keeps.modChan ?_ ?_
  on_goal 1 => exact fun _ h => h
  exact Keeps.refl _

theorem State.joinStart_keeps (s : State) (n : Chan) :
    Keeps s (State.joinStart s n) := by
  unfold State.joinStart
  with_reducible refine Keeps.ite ?_ ?_
  · with_reducible refine Keeps.ite ?_ ?_
    · with_reducible refine Keeps.step (State.startRejoin_keeps ..) ?_
      exact Keeps.refl _
    · with_reducible refine Keeps.step (State.powerJoin_keeps ..) ?_
      exact Keeps.refl _
  · exact Keeps.refl _

theorem State.startupJoin_keeps (s : State) (n : Chan) :
    Keeps s (State.startupJoin s n) := by
  unfold State.startupJoin
  with_reducible refine Keeps.ite ?_ ?_
  · with_reducible refine Keeps.step (State.powerJoin_keeps ..) ?_
    exact Keeps.refl _
  · exact Keeps.refl _

theorem State.domainReady_keeps (s : State) (n : Chan) :
    Keeps s (State.domainReady s n) := by
  unfold State.domainReady
  with_reducible refine Keeps.ite ?_ ?_
  · exact Keeps.refl _
  · with_reducible refine Keeps.ite ?_ ?_
    · with_reducible refine Keeps.step (Keeps.of_same (State.settleBoot_same ..) rfl) ?_
      with_reducible refine Keeps.step (Keeps.of_same (State.releaseFor_same ..) rfl) ?_
      with_reducible refine Keeps.modChan ?_ ?_
      on_goal 1 => exact fun _ h => h
      exact Keeps.refl _
    · with_reducible refine Keeps.ite ?_ ?_
      · with_reducible refine Keeps.step (State.later_keeps ..) ?_
        exact Keeps.refl _
      · with_reducible refine Keeps.ite ?_ ?_
        · with_reducible refine Keeps.modChan ?_ ?_
          on_goal 1 => exact fun _ h => h
          exact Keeps.refl _
        · with_reducible refine Keeps.step (Keeps.of_same (State.releaseFor_same ..) rfl) ?_
          with_reducible refine Keeps.modChan ?_ ?_
          on_goal 1 => exact fun _ h => h
          exact Keeps.refl _

theorem State.drawerCommit_keeps (s : State) :
    Keeps s (State.drawerCommit s) := by
  unfold State.drawerCommit
  split
  · with_reducible refine Keeps.ite ?_ ?_
    · exact Keeps.refl _
    · with_reducible refine Keeps.ite ?_ ?_
      · with_reducible refine Keeps.step (Keeps.of_same (State.closeReport_same ..) rfl) ?_
        with_reducible refine Keeps.step (Keeps.of_same (State.dropResult_same ..) rfl) ?_
        exact Keeps.refl _
      · with_reducible refine Keeps.ite ?_ ?_
        · with_reducible refine Keeps.step (Keeps.of_same (State.closeReport_same ..) rfl) ?_
          with_reducible refine Keeps.step (Keeps.of_same (State.dropResult_same ..) rfl) ?_
          with_reducible refine Keeps.upd_cal  ?_
          exact Keeps.refl _
        · with_reducible refine Keeps.ite ?_ ?_
          · with_reducible refine Keeps.step (Keeps.of_same (State.closeReport_same ..) rfl) ?_
            with_reducible refine Keeps.step (Keeps.of_same (State.dropResult_same ..) rfl) ?_
            with_reducible refine Keeps.step (Keeps.of_same (State.releaseFor_same ..) rfl) ?_
            with_reducible refine Keeps.step (State.appendRecs_keeps ..) ?_
            with_reducible refine Keeps.step (State.rowIncrement_keeps ..) ?_
            exact Keeps.refl _
          · exact Keeps.refl _
  · exact Keeps.refl _

theorem State.loseChannel_keeps (s : State) (n : Chan) :
    Keeps s (State.loseChannel s n) := by
  unfold State.loseChannel
  with_reducible refine Keeps.ite ?_ ?_
  · with_reducible refine Keeps.modChan ?_ ?_
    on_goal 1 => exact fun _ h => h
    with_reducible refine Keeps.step (State.goAbsentUp_keeps ..) ?_
    with_reducible refine Keeps.modChan ?_ ?_
    on_goal 1 => exact fun _ h => h
    with_reducible refine Keeps.step (State.statYarnEnd_keeps ..) ?_
    with_reducible refine Keeps.step (State.stopStamping_keeps ..) ?_
    exact Keeps.refl _
  · with_reducible refine Keeps.modChan ?_ ?_
    on_goal 1 => exact fun _ h => h
    with_reducible refine Keeps.step (State.statYarnEnd_keeps ..) ?_
    with_reducible refine Keeps.step (State.stopStamping_keeps ..) ?_
    exact Keeps.refl _

theorem State.channelLoss_keeps (s : State) (n : Chan) (cause : LossCause) :
    Keeps s (State.channelLoss s n cause) := by
  unfold State.channelLoss
  with_reducible refine Keeps.ite ?_ ?_
  · with_reducible refine Keeps.step (State.loseChannel_keeps ..) ?_
    exact Keeps.refl _
  · exact Keeps.refl _

theorem State.domainDown_keeps (s : State) (n : Chan) :
    Keeps s (State.domainDown s n) := by
  unfold State.domainDown
  with_reducible refine Keeps.ite ?_ ?_
  · with_reducible refine Keeps.modChan ?_ ?_
    on_goal 1 => exact fun _ h => h
    exact Keeps.refl _
  · exact Keeps.refl _

theorem State.idleTimeout_keeps (s : State) (n : Chan) :
    Keeps s (State.idleTimeout s n) := by
  unfold State.idleTimeout
  with_reducible refine Keeps.ite ?_ ?_
  · with_reducible refine Keeps.step (State.domainDown_keeps ..) ?_
    with_reducible refine Keeps.modChan ?_ ?_
    on_goal 1 => exact fun _ h => h
    exact Keeps.refl _
  · exact Keeps.refl _

theorem State.autoLevelUpdate_keeps (s : State) (n : Chan) (pos : Int) (neg : Int) :
    Keeps s (State.autoLevelUpdate s n pos neg) := by
  unfold State.autoLevelUpdate
  have k : ∀ (p q : Int) (l d : Bool) (g : Int → Int), (∀ d, -2048 ≤ d ∧ d ≤ 2047 → -2048 ≤ g d ∧ g d ≤ 2047) →
      Keeps s (s.modChan n fun c => { c with peakPos := p, peakNeg := q, levelled := l, clipped := d, dac := g c.dac }) :=
    fun p q l d g hg => Keeps.modChan (fun c h => ⟨h.1, hg _ h.2⟩) (Keeps.refl _)
  have k' := k pos neg ((s.chan.get n).levelled || decide (50000 ≤ pos - neg))
    (((s.chan.get n).levelled || decide (50000 ≤ pos - neg)) && decide (2500000 < (pos + neg).natAbs))
    (fun x => if ((s.chan.get n).levelled || decide (50000 ≤ pos - neg)) = true then
      dacStep x (dacCode (clipInt (-2500000) 2500000 (pos + neg)) 2000) else x)
    (fun d hd => by
      show _ ≤ (if _ then _ else _) ∧ (if _ then _ else _) ≤ _
      split
      · exact dacStep_fits hd (dacCode_fits _ _)
      · exact hd)
  exact Keeps.ite (Keeps.ite (k'.trans (Keeps.of_same (m := [.faults]) (State.log_same _ _ _ _ _) rfl)) k') (Keeps.refl _)

theorem State.peakReport_keeps (s : State) (n : Chan) (pos : Int) (neg : Int) :
    Keeps s (State.peakReport s n pos neg) := by
  unfold State.peakReport
  with_reducible refine Keeps.ite ?_ ?_
  · with_reducible refine Keeps.modChan ?_ ?_
    on_goal 1 => exact fun _ h => h
    exact Keeps.refl _
  · exact Keeps.refl _

theorem State.lossHandling_keeps (s : State) (n : Chan) :
    Keeps s (State.lossHandling s n) := by
  unfold State.lossHandling
  try dsimp only
  split
  · with_reducible refine Keeps.ite ?_ ?_
    · with_reducible refine Keeps.step (Keeps.of_same (State.writeFw_same ..) rfl) ?_
      with_reducible refine Keeps.step (Keeps.of_same (State.logAt_same ..) rfl) ?_
      with_reducible refine Keeps.step (State.fwMarkerItem_keeps ..) ?_
      with_reducible refine Keeps.modChan ?_ ?_
      on_goal 1 => exact fun _ h => h
      exact Keeps.refl _
    · exact Keeps.refl _
  · exact Keeps.refl _

theorem State.writeCode_keeps (s : State) (o : OutNo) (connecting : Bool) :
    Keeps s (State.writeCode s o connecting) := by
  unfold State.writeCode
  with_reducible refine Keeps.modOut ?_ ?_
  on_goal 1 => exact fun _ h => h
  try dsimp only
  split
  · with_reducible refine Keeps.step (Keeps.of_same (State.codeOf_same ..) rfl) ?_
    exact Keeps.refl _
  · exact Keeps.refl _

theorem State.updateOutput_keeps (s : State) (o : OutNo) :
    Keeps s (State.updateOutput s o) := by
  unfold State.updateOutput
  with_reducible refine Keeps.modOut ?_ ?_
  on_goal 1 => exact fun _ h => h
  with_reducible refine Keeps.ite ?_ ?_
  · exact Keeps.refl _
  · with_reducible refine Keeps.ite ?_ ?_
    · with_reducible refine Keeps.step (State.writeCode_keeps ..) ?_
      exact Keeps.refl _
    · with_reducible refine Keeps.ite ?_ ?_
      · with_reducible refine Keeps.modOut ?_ ?_
        on_goal 1 => exact fun _ h => h
        with_reducible refine Keeps.step (State.writeCode_keeps ..) ?_
        exact Keeps.refl _
      · exact Keeps.refl _

theorem State.outputUpdate_keeps (s : State) :
    Keeps s (State.outputUpdate s) := by
  unfold State.outputUpdate
  split
  · with_reducible refine Keeps.ite ?_ ?_
    · with_reducible refine Keeps.upd_sched ?_ ?_
      on_goal 1 => exact fun h => h
      with_reducible refine Keeps.step (State.issue_keeps ..) ?_
      with_reducible refine Keeps.eachOut (fun _ _ => ?_) ?_
      · with_reducible refine Keeps.step (State.updateOutput_keeps ..) ?_
        exact Keeps.refl _
      exact Keeps.refl _
    · exact Keeps.refl _
  · exact Keeps.refl _

theorem State.faultOutput_keeps (s : State) (o : OutNo) (code : Byte) (a : BitVec 32) (b : BitVec 32) :
    Keeps s (State.faultOutput s o code a b) := by
  unfold State.faultOutput
  with_reducible refine Keeps.step (Keeps.of_same (State.raise_same ..) rfl) ?_
  with_reducible refine Keeps.step (Keeps.of_same (State.releaseFor_same ..) rfl) ?_
  with_reducible refine Keeps.step (Keeps.of_same (State.dropRequest_same ..) rfl) ?_
  refine ⟨fun e => ⟨e.chan, e.chain, e.eng, e.sched, fun m => ?_⟩, id⟩
  by_cases hm : m = o
  · subst hm
    simp only [State.modOut, Per2.get_set_same]
    have := e.out m
    unfold Output.Fits at this ⊢
    simp only [State.nextWait]
    split <;> omega
  · simp only [State.modOut, Per2.get_set_ne _ _ _ _ hm]
    exact e.out m

theorem State.headroomFault_keeps (s : State) (o : OutNo) (sensed : Nat) (vpin : Nat) :
    Keeps s (State.headroomFault s o sensed vpin) := by
  unfold State.headroomFault
  with_reducible refine Keeps.ite ?_ ?_
  · with_reducible refine Keeps.step (State.faultOutput_keeps ..) ?_
    exact Keeps.refl _
  · exact Keeps.refl _

theorem State.readBack_keeps (s : State) (o : OutNo) (measured : Int) :
    Keeps s (State.readBack s o measured) := by
  unfold State.readBack
  with_reducible refine Keeps.ite ?_ ?_
  · with_reducible refine Keeps.ite ?_ ?_
    · with_reducible refine Keeps.step (State.faultOutput_keeps ..) ?_
      with_reducible refine Keeps.modOut ?_ ?_
      on_goal 1 => exact fun _ h => h
      exact Keeps.refl _
    · with_reducible refine Keeps.modOut ?_ ?_
      on_goal 1 => exact fun _ h => h
      exact Keeps.refl _
  · exact Keeps.refl _

theorem State.establish_keeps (s : State) (o : OutNo) :
    Keeps s (State.establish s o) := by
  unfold State.establish
  with_reducible refine Keeps.ite ?_ ?_
  · with_reducible refine Keeps.step (Keeps.of_same (State.requestLeave_same ..) rfl) ?_
    with_reducible refine Keeps.modOut ?_ ?_
    on_goal 1 => exact fun _ h => h
    exact Keeps.refl _
  · with_reducible refine Keeps.modOut ?_ ?_
    on_goal 1 => exact fun _ h => h
    exact Keeps.refl _

theorem State.outputEstablish_keeps (s : State) (o : OutNo) :
    Keeps s (State.outputEstablish s o) := by
  unfold State.outputEstablish
  with_reducible refine Keeps.ite ?_ ?_
  · with_reducible refine Keeps.ite ?_ ?_
    · with_reducible refine Keeps.step (State.establish_keeps ..) ?_
      exact Keeps.refl _
    · with_reducible refine Keeps.ite ?_ ?_
      · with_reducible refine Keeps.step (Keeps.of_same (State.raise_same ..) rfl) ?_
        exact Keeps.refl _
      · exact Keeps.refl _
  · exact Keeps.refl _

theorem State.stageReady_keeps (s : State) (o : OutNo) (vpos : Int) (vneg : Int) :
    Keeps s (State.stageReady s o vpos vneg) := by
  unfold State.stageReady
  with_reducible refine Keeps.ite ?_ ?_
  · exact Keeps.refl _
  · with_reducible refine Keeps.ite ?_ ?_
    · with_reducible refine Keeps.ite ?_ ?_
      · with_reducible refine Keeps.modOut ?_ ?_
        on_goal 1 => exact fun _ h => h
        with_reducible refine Keeps.step (Keeps.of_same (State.releaseFor_same ..) rfl) ?_
        exact Keeps.refl _
      · exact Keeps.refl _
    · with_reducible refine Keeps.ite ?_ ?_
      · with_reducible refine Keeps.ite ?_ ?_
        · with_reducible refine Keeps.modOut ?_ ?_
          on_goal 1 => exact fun _ h => h
          exact Keeps.refl _
        · with_reducible refine Keeps.step (State.faultOutput_keeps ..) ?_
          exact Keeps.refl _
      · exact Keeps.refl _

theorem State.breakExpiry_keeps (s : State) (o : OutNo) :
    Keeps s (State.breakExpiry s o) := by
  unfold State.breakExpiry
  with_reducible refine Keeps.ite ?_ ?_
  · with_reducible refine Keeps.modOut ?_ ?_
    on_goal 1 => exact fun _ h => h
    exact Keeps.refl _
  · exact Keeps.refl _

theorem State.outputRetry_keeps (s : State) (o : OutNo) :
    Keeps s (State.outputRetry s o) := by
  unfold State.outputRetry
  with_reducible refine Keeps.ite ?_ ?_
  · with_reducible refine Keeps.step (State.outputEstablish_keeps ..) ?_
    with_reducible refine Keeps.modOut ?_ ?_
    on_goal 1 => exact fun _ h => h
    exact Keeps.refl _
  · exact Keeps.refl _

theorem State.outputFaultClear_keeps (s : State) (o : OutNo) :
    Keeps s (State.outputFaultClear s o) := by
  unfold State.outputFaultClear
  with_reducible refine Keeps.ite ?_ ?_
  · refine Keeps.modOut (fun _ _ => ⟨Nat.le_refl 1, (by decide : 1 ≤ 64)⟩) ?_
    with_reducible refine Keeps.foldl (fun _ _ => ?_) (Keeps.refl _)
    with_reducible exact Keeps.of_same (State.clearFault_same ..) rfl
  · exact Keeps.refl _

theorem State.dropOutputs_keeps (s : State) :
    Keeps s (State.dropOutputs s) := by
  unfold State.dropOutputs
  with_reducible refine Keeps.eachOut (fun _ _ => ?_) ?_
  · with_reducible refine Keeps.modOut ?_ ?_
    on_goal 1 => exact fun _ h => h
    with_reducible refine Keeps.step (Keeps.of_same (State.releaseFor_same ..) rfl) ?_
    with_reducible refine Keeps.step (Keeps.of_same (State.dropRequest_same ..) rfl) ?_
    exact Keeps.refl _
  exact Keeps.refl _

theorem State.dieRead_keeps (s : State) (t : Int) :
    Keeps s (State.dieRead s t) := by
  unfold State.dieRead
  with_reducible refine Keeps.ite ?_ ?_
  · with_reducible refine Keeps.step (Keeps.of_same (State.writeFw_same ..) rfl) ?_
    with_reducible refine Keeps.step (State.sourceFormed_keeps ..) ?_
    with_reducible refine Keeps.upd_cab_cal_sens  ?_
    exact Keeps.refl _
  · exact Keeps.refl _

theorem State.storeReset_keeps (s : State) (st : StoreId) :
    Keeps s (State.storeReset s st) := by
  unfold State.storeReset
  split
  · with_reducible refine Keeps.step (Keeps.of_same (State.log_same ..) rfl) ?_
    with_reducible refine Keeps.upd_chain_cab_port ?_ ?_
    on_goal 1 => exact fun h => h
    with_reducible refine Keeps.step (Keeps.of_same (State.modStore_same ..) rfl) ?_
    with_reducible refine Keeps.step (Keeps.of_same (State.closeDropRun_same ..) rfl) ?_
    with_reducible refine Keeps.step (Keeps.of_same (State.dropTx_same ..) rfl) ?_
    exact Keeps.refl _
  · exact Keeps.refl _

theorem State.flush_keeps (s : State) :
    Keeps s (State.flush s) := by
  unfold State.flush
  with_reducible refine Keeps.ite ?_ ?_
  · with_reducible refine Keeps.step (State.hwMarker_keeps ..) ?_
    with_reducible refine Keeps.upd_cab_port  ?_
    with_reducible refine Keeps.step (Keeps.of_same (State.closeDropRun_same ..) rfl) ?_
    with_reducible refine Keeps.step (Keeps.of_same (State.closeDropRun_same ..) rfl) ?_
    with_reducible refine Keeps.step (Keeps.of_same (State.checkStore_same ..) rfl) ?_
    with_reducible refine Keeps.step (Keeps.of_same (State.checkStore_same ..) rfl) ?_
    exact Keeps.refl _
  · exact Keeps.refl _

theorem State.cutOff_keeps (s : State) (partly : Bool) :
    Keeps s (State.cutOff s partly) := by
  unfold State.cutOff
  split
  · with_reducible refine Keeps.ite ?_ ?_
    · exact Keeps.refl _
    · with_reducible refine Keeps.step (Keeps.of_same (State.log_same ..) rfl) ?_
      with_reducible refine Keeps.step (State.hwMarker_keeps ..) ?_
      with_reducible refine Keeps.step (Keeps.of_same (State.modPort_same ..) rfl) ?_
      exact Keeps.refl _
  · exact Keeps.refl _

theorem State.streamDown_keeps (s : State) (st : Port) :
    Keeps s (State.streamDown s st) := by
  unfold State.streamDown
  with_reducible refine Keeps.step (Keeps.of_same (State.modPort_same ..) rfl) ?_
  with_reducible refine Keeps.step (State.cutOff_keeps ..) ?_
  exact Keeps.refl _

theorem State.streamStandby_keeps (s : State) :
    Keeps s (State.streamStandby s) := by
  unfold State.streamStandby
  with_reducible refine Keeps.ite ?_ ?_
  · exact Keeps.refl _
  · with_reducible refine Keeps.step (State.streamDown_keeps ..) ?_
    exact Keeps.refl _

theorem State.flushMore_keeps (s : State) (src : Src) :
    Keeps s (State.flushMore s src) := by
  unfold State.flushMore
  split
  · exact ⟨fun e => ⟨e.chan, ⟨by simpa using e.chain.1, by simpa using e.chain.2⟩, e.eng, e.sched, e.out⟩, id⟩
  · exact Keeps.refl _

theorem State.reopen_keeps (s : State) :
    Keeps s (State.reopen s) := by
  unfold State.reopen
  split
  · with_reducible refine Keeps.ite ?_ ?_
    · with_reducible refine Keeps.step (Keeps.of_same (State.modPort_same ..) rfl) ?_
      exact Keeps.refl _
    · with_reducible refine Keeps.ite ?_ ?_
      · with_reducible refine Keeps.step (State.flushMore_keeps ..) ?_
        with_reducible refine Keeps.step (Keeps.of_same (State.modPort_same ..) rfl) ?_
        exact Keeps.refl _
      · split
        · with_reducible refine Keeps.upd_cab  ?_
          with_reducible refine Keeps.step (Keeps.of_same (State.modPort_same ..) rfl) ?_
          exact Keeps.refl _
        · with_reducible refine Keeps.upd_cab  ?_
          with_reducible refine Keeps.step (Keeps.of_same (State.modStore_same ..) rfl) ?_
          with_reducible refine Keeps.step (Keeps.of_same (State.modPort_same ..) rfl) ?_
          exact Keeps.refl _
  · exact Keeps.refl _

theorem State.hostLow_keeps (s : State) :
    Keeps s (State.hostLow s) := by
  unfold State.hostLow
  with_reducible refine Keeps.ite ?_ ?_
  · exact Keeps.refl _
  · with_reducible refine Keeps.ite ?_ ?_
    · with_reducible refine Keeps.step (Keeps.of_same (State.modPort_same ..) rfl) ?_
      with_reducible refine Keeps.step (State.cutOff_keeps ..) ?_
      with_reducible refine Keeps.step (Keeps.of_same (State.modPort_same ..) rfl) ?_
      with_reducible refine Keeps.step (State.reopen_keeps ..) ?_
      exact Keeps.refl _
    · with_reducible refine Keeps.step (Keeps.of_same (State.modPort_same ..) rfl) ?_
      with_reducible refine Keeps.step (State.reopen_keeps ..) ?_
      exact Keeps.refl _

theorem State.partnerLoss_keeps (s : State) :
    Keeps s (State.partnerLoss s) := by
  unfold State.partnerLoss
  with_reducible refine Keeps.ite ?_ ?_
  · with_reducible refine Keeps.step (Keeps.of_same (State.log_same ..) rfl) ?_
    with_reducible refine Keeps.step (State.streamDown_keeps ..) ?_
    exact Keeps.refl _
  · exact Keeps.refl _

theorem State.shortCircuit_keeps (s : State) (lane : Fin 5) :
    Keeps s (State.shortCircuit s lane) := by
  unfold State.shortCircuit
  with_reducible refine Keeps.ite ?_ ?_
  · with_reducible refine Keeps.step (Keeps.of_same (State.raise_same ..) rfl) ?_
    with_reducible refine Keeps.step (Keeps.of_same (State.modPort_same ..) rfl) ?_
    with_reducible refine Keeps.step (State.streamDown_keeps ..) ?_
    exact Keeps.refl _
  · exact Keeps.refl _

theorem State.flashErase_keeps (s : State) (p : Nat) :
    Keeps s (State.flashErase s p) := by
  unfold State.flashErase
  with_reducible refine Keeps.ite ?_ ?_
  · split
    · with_reducible refine Keeps.ite ?_ ?_
      · exact Keeps.refl _
      · with_reducible refine Keeps.step (Keeps.of_same (State.startOp_same ..) rfl) ?_
        with_reducible refine Keeps.ite_snd ?_ ?_
        · with_reducible refine Keeps.step (State.journalPut_keeps ..) ?_
          exact Keeps.refl _
        · with_reducible refine Keeps.step (State.journalBegin_keeps ..) ?_
          exact Keeps.refl _
    · with_reducible refine Keeps.step (Keeps.of_same (State.startOp_same ..) rfl) ?_
      exact Keeps.refl _
  · exact Keeps.refl _

theorem State.landOp_keeps (s : State) (o : FlashOp) (verified : Bool) :
    Keeps s (State.landOp s o verified) := by
  unfold State.landOp
  split
  · with_reducible refine Keeps.ite ?_ ?_
    · with_reducible refine Keeps.step (State.flashEraseSector_keeps ..) ?_
      exact Keeps.refl _
    · with_reducible refine Keeps.step (State.spoilErase_keeps ..) ?_
      exact Keeps.refl _
  · with_reducible refine Keeps.ite ?_ ?_
    · with_reducible refine Keeps.step (State.flashProgram_keeps ..) ?_
      exact Keeps.refl _
    · with_reducible refine Keeps.step (State.spoilProgram_keeps ..) ?_
      exact Keeps.refl _

theorem State.noteErase_keeps (s : State) (o : FlashOp) (verified : Bool) (took : Nat) :
    Keeps s (State.noteErase s o verified took) := by
  unfold State.noteErase
  split
  · try dsimp only
    split
    · with_reducible refine Keeps.ite ?_ ?_
      · with_reducible refine Keeps.step (State.journalComplete_keeps ..) ?_
        with_reducible refine Keeps.step (Keeps.of_same (State.noteTook_same ..) rfl) ?_
        exact Keeps.refl _
      · with_reducible refine Keeps.step (Keeps.of_same (State.noteTook_same ..) rfl) ?_
        exact Keeps.refl _
    · with_reducible refine Keeps.step (Keeps.of_same (State.noteTook_same ..) rfl) ?_
      exact Keeps.refl _
  · exact Keeps.refl _

theorem State.landHalt_keeps (s : State) :
    Keeps s (State.landHalt s) := by
  unfold State.landHalt
  with_reducible refine Keeps.ite ?_ ?_
  · with_reducible refine Keeps.step (State.dropHold_keeps ..) ?_
    with_reducible refine Keeps.upd_core  ?_
    exact Keeps.refl _
  · exact Keeps.refl _

theorem State.endStall_keeps (s : State) (o : FlashOp) :
    Keeps s (State.endStall s o) := by
  unfold State.endStall
  with_reducible refine Keeps.step (Keeps.of_same (State.resumeLeave_same ..) rfl) ?_
  with_reducible refine Keeps.step (State.landOwed_keeps ..) ?_
  with_reducible refine Keeps.step (Keeps.of_same (State.withdrawLeave_same ..) rfl) ?_
  with_reducible refine Keeps.step (State.landHalt_keeps ..) ?_
  with_reducible refine Keeps.step (Keeps.of_same (State.stallCost_same ..) rfl) ?_
  exact Keeps.refl _

theorem State.flashEnd_keeps (s : State) (verified : Bool) (took : Nat) :
    Keeps s (State.flashEnd s verified took) := by
  unfold State.flashEnd
  split
  · with_reducible refine Keeps.ite ?_ ?_
    · exact Keeps.refl _
    · with_reducible refine Keeps.ite ?_ ?_
      · with_reducible refine Keeps.ite ?_ ?_
        · with_reducible refine Keeps.step (Keeps.of_same (State.retryFault_same ..) rfl) ?_
          with_reducible refine Keeps.upd_flash ?_ ?_
          on_goal 1 => exact fun h => h
          exact Keeps.refl _
        · with_reducible refine Keeps.step (Keeps.of_same (State.raise_same ..) rfl) ?_
          with_reducible refine Keeps.step (Keeps.of_same (State.retryFault_same ..) rfl) ?_
          with_reducible refine Keeps.upd_flash ?_ ?_
          on_goal 1 => exact fun h => h
          exact Keeps.refl _
      · with_reducible refine Keeps.step (State.endStall_keeps ..) ?_
        with_reducible refine Keeps.step (Keeps.of_same (State.checkSpares_same ..) rfl) ?_
        with_reducible refine Keeps.step (Keeps.of_same (State.releaseOp_same ..) rfl) ?_
        with_reducible refine Keeps.upd_flash ?_ ?_
        on_goal 1 => exact fun h => h
        with_reducible refine Keeps.step (Keeps.of_same (State.wear_same ..) rfl) ?_
        with_reducible refine Keeps.step (State.noteErase_keeps ..) ?_
        with_reducible refine Keeps.step (State.landOp_keeps ..) ?_
        exact Keeps.refl _
  · exact Keeps.refl _

theorem State.eraseSuspend_keeps (s : State) :
    Keeps s (State.eraseSuspend s) := by
  unfold State.eraseSuspend
  split
  · split
    · with_reducible refine Keeps.ite ?_ ?_
      · with_reducible refine Keeps.step (State.endStall_keeps ..) ?_
        with_reducible refine Keeps.step (Keeps.of_same (State.releaseOp_same ..) rfl) ?_
        with_reducible refine Keeps.upd_flash ?_ ?_
        on_goal 1 => exact fun h => h
        exact Keeps.refl _
      · exact Keeps.refl _
    · exact Keeps.refl _
  · exact Keeps.refl _

theorem State.programStop_keeps (s : State) :
    Keeps s (State.programStop s) := by
  unfold State.programStop
  split
  · split
    · with_reducible refine Keeps.ite ?_ ?_
      · with_reducible refine Keeps.step (State.endStall_keeps ..) ?_
        with_reducible refine Keeps.step (Keeps.of_same (State.releaseOp_same ..) rfl) ?_
        with_reducible refine Keeps.upd_flash ?_ ?_
        on_goal 1 => exact fun h => h
        with_reducible refine Keeps.step (State.flashProgram_keeps ..) ?_
        with_reducible refine Keeps.step (Keeps.of_same (State.drawNat_same ..) rfl) ?_
        exact Keeps.refl _
      · exact Keeps.refl _
    · exact Keeps.refl _
  · exact Keeps.refl _

theorem State.cutOp_keeps (s : State) :
    Keeps s (State.cutOp s) := by
  unfold State.cutOp
  split
  · with_reducible refine Keeps.upd_flash ?_ ?_
    on_goal 1 => exact fun h => h
    split
    · with_reducible refine Keeps.step (State.spoilErase_keeps ..) ?_
      with_reducible refine Keeps.step (Keeps.of_same (State.drawNat_same ..) rfl) ?_
      exact Keeps.refl _
    · with_reducible refine Keeps.ite ?_ ?_
      · with_reducible refine Keeps.step (Keeps.of_same (State.drawNat_same ..) rfl) ?_
        exact Keeps.refl _
      · with_reducible refine Keeps.ite ?_ ?_
        · with_reducible refine Keeps.step (State.spoilProgram_keeps ..) ?_
          with_reducible refine Keeps.step (Keeps.of_same (State.drawNat_same ..) rfl) ?_
          exact Keeps.refl _
        · with_reducible refine Keeps.ite ?_ ?_
          · with_reducible refine Keeps.step (Keeps.of_same (State.markBad_same ..) rfl) ?_
            with_reducible refine Keeps.step (State.flashProgram_keeps ..) ?_
            with_reducible refine Keeps.step (Keeps.of_same (State.drawNat_same ..) rfl) ?_
            exact Keeps.refl _
          · with_reducible refine Keeps.step (State.flashProgram_keeps ..) ?_
            with_reducible refine Keeps.step (Keeps.of_same (State.drawNat_same ..) rfl) ?_
            exact Keeps.refl _
  · exact Keeps.refl _

theorem State.compact_keeps (s : State) :
    Keeps s (State.compact s) := by
  unfold State.compact
  with_reducible refine Keeps.tail ?_
  with_reducible refine Keeps.step (State.journalComplete_keeps ..) ?_
  with_reducible refine Keeps.step (State.journalComplete_keeps ..) ?_
  with_reducible refine Keeps.foldl (fun _ _ => ?_) ?_
  · with_reducible refine Keeps.step (State.journaledErase_keeps ..) ?_
    exact Keeps.refl _
  with_reducible refine Keeps.step (State.journalBegin_keeps ..) ?_
  with_reducible refine Keeps.step (State.appendRecs_keeps ..) ?_
  with_reducible refine Keeps.step (State.journalBegin_keeps ..) ?_
  with_reducible refine Keeps.upd_flash ?_ ?_
  on_goal 1 => exact fun h => h
  exact Keeps.refl _

theorem State.compaction_keeps (s : State) :
    Keeps s (State.compaction s) := by
  unfold State.compaction
  with_reducible refine Keeps.ite ?_ ?_
  · with_reducible refine Keeps.step (Keeps.of_same (State.releaseFor_same ..) rfl) ?_
    with_reducible refine Keeps.step (State.compact_keeps ..) ?_
    exact Keeps.refl _
  · exact Keeps.refl _

theorem State.rowCounterIncrement_keeps (s : State) (c : RowId) :
    Keeps s (State.rowCounterIncrement s c) := by
  unfold State.rowCounterIncrement
  with_reducible refine Keeps.ite ?_ ?_
  · with_reducible refine Keeps.step (Keeps.of_same (State.releaseFor_same ..) rfl) ?_
    with_reducible refine Keeps.step (State.rowIncrement_keeps ..) ?_
    exact Keeps.refl _
  · exact Keeps.refl _

theorem State.mapRetired_keeps (s : State) (old : Nat) (new : Nat) (p : Nat) :
    Keeps s (State.mapRetired s old new p) := by
  unfold State.mapRetired
  with_reducible refine Keeps.ite ?_ ?_
  · exact Keeps.refl _
  · try dsimp only
    split
    · with_reducible refine Keeps.step (State.programNow_keeps ..) ?_
      exact Keeps.refl _
    · exact Keeps.refl _

theorem State.recoverEntry_keeps (s : State) (i : Nat) :
    Keeps s (State.recoverEntry s i).2.2 := by
  unfold State.recoverEntry
  with_reducible refine Keeps.ite_snd2 ?_ ?_
  · with_reducible refine Keeps.ite ?_ ?_
    · with_reducible refine Keeps.step (State.journalComplete_keeps ..) ?_
      exact Keeps.refl _
    · with_reducible refine Keeps.step (State.completeErased_keeps ..) ?_
      with_reducible refine Keeps.step (State.eraseNow_keeps ..) ?_
      exact Keeps.refl _
  · with_reducible refine Keeps.ite_snd2 ?_ ?_
    · with_reducible refine Keeps.step (State.journalComplete_keeps ..) ?_
      with_reducible refine Keeps.step (State.mapRetired_keeps ..) ?_
      with_reducible refine Keeps.step (State.mapRetired_keeps ..) ?_
      exact Keeps.refl _
    · try dsimp only
      split
      · with_reducible refine Keeps.step (State.journalComplete_keeps ..) ?_
        with_reducible refine Keeps.step (State.journalComplete_keeps ..) ?_
        with_reducible refine Keeps.foldl (fun _ _ => ?_) ?_
        · with_reducible refine Keeps.ite ?_ ?_
          · exact Keeps.refl _
          · with_reducible refine Keeps.step (State.journaledErase_keeps ..) ?_
            exact Keeps.refl _
        exact Keeps.refl _
      · with_reducible refine Keeps.step (State.journalComplete_keeps ..) ?_
        with_reducible refine Keeps.foldl (fun _ _ => ?_) ?_
        · with_reducible refine Keeps.step (State.journaledErase_keeps ..) ?_
          exact Keeps.refl _
        exact Keeps.refl _

theorem State.recoverOne_keeps (s : State) (i : Nat) :
    Keeps s (State.recoverOne s i) := by
  unfold State.recoverOne
  with_reducible refine Keeps.step (Keeps.of_same (State.log_same ..) rfl) ?_
  with_reducible refine Keeps.step (State.recoverEntry_keeps ..) ?_
  exact Keeps.refl _

theorem State.restartIndex_keeps (s : State) :
    Keeps s (State.restartIndex s) := by
  unfold State.restartIndex
  with_reducible refine Keeps.ite ?_ ?_
  · with_reducible refine Keeps.ite ?_ ?_
    · with_reducible refine Keeps.step (State.rebuild_keeps ..) ?_
      with_reducible refine Keeps.step (Keeps.of_same (State.buildIndex_same ..) rfl) ?_
      exact Keeps.refl _
    · with_reducible refine Keeps.step (Keeps.of_same (State.buildIndex_same ..) rfl) ?_
      exact Keeps.refl _
  · exact Keeps.refl _

theorem State.journalRecovery_keeps (s : State) :
    Keeps s (State.journalRecovery s) := by
  unfold State.journalRecovery
  with_reducible refine Keeps.ite ?_ ?_
  · try dsimp only
    split
    · with_reducible refine Keeps.ite ?_ ?_
      · with_reducible refine Keeps.step (Keeps.of_same (State.releaseFor_same ..) rfl) ?_
        with_reducible refine Keeps.step (State.recoverOne_keeps ..) ?_
        with_reducible refine Keeps.step (Keeps.of_same (State.checkSpares_same ..) rfl) ?_
        exact Keeps.refl _
      · with_reducible refine Keeps.step (Keeps.of_same (State.checkSpares_same ..) rfl) ?_
        exact Keeps.refl _
    · with_reducible refine Keeps.ite ?_ ?_
      · with_reducible refine Keeps.upd_core  ?_
        with_reducible refine Keeps.step (Keeps.of_same (State.checkSpares_same ..) rfl) ?_
        exact Keeps.refl _
      · with_reducible refine Keeps.step (State.restartIndex_keeps ..) ?_
        with_reducible refine Keeps.upd_core  ?_
        with_reducible refine Keeps.step (Keeps.of_same (State.checkSpares_same ..) rfl) ?_
        exact Keeps.refl _
  · exact Keeps.refl _

theorem State.reconcile_keeps (s : State) :
    Keeps s (State.reconcile s) := by
  unfold State.reconcile
  with_reducible refine Keeps.step (State.reconcileRow_keeps ..) ?_
  with_reducible refine Keeps.step (State.reconcileRow_keeps ..) ?_
  exact Keeps.refl _

theorem State.rowReconcile_keeps (s : State) :
    Keeps s (State.rowReconcile s) := by
  unfold State.rowReconcile
  with_reducible refine Keeps.ite ?_ ?_
  · with_reducible refine Keeps.ite ?_ ?_
    · with_reducible refine Keeps.step (Keeps.of_same (State.endRecovery_same ..) rfl) ?_
      with_reducible refine Keeps.step (State.reconcile_keeps ..) ?_
      exact Keeps.refl _
    · with_reducible refine Keeps.ite ?_ ?_
      · with_reducible refine Keeps.step (Keeps.of_same (State.endRecovery_same ..) rfl) ?_
        with_reducible refine Keeps.step (Keeps.of_same (State.releaseFor_same ..) rfl) ?_
        with_reducible refine Keeps.step (State.reconcile_keeps ..) ?_
        exact Keeps.refl _
      · exact Keeps.refl _
  · exact Keeps.refl _

theorem State.moveBytes_keeps (s : State) (old : Nat) (new : Nat) (f : Nat → Bool) :
    Keeps s (State.moveBytes s old new f) := by
  unfold State.moveBytes
  with_reducible refine Keeps.step (State.programNow_keeps ..) ?_
  with_reducible refine Keeps.foldl (fun _ _ => ?_) ?_
  · with_reducible refine Keeps.ite ?_ ?_
    · with_reducible refine Keeps.step (State.flashProgram_keeps ..) ?_
      exact Keeps.refl _
    · exact Keeps.refl _
  exact Keeps.refl _

theorem State.moveContent_keeps (s : State) (old : Nat) (new : Nat) (orig : Nat) :
    Keeps s (State.moveContent s old new orig) := by
  unfold State.moveContent
  with_reducible refine Keeps.ite ?_ ?_
  · with_reducible refine Keeps.step (State.moveBytes_keeps ..) ?_
    exact Keeps.refl _
  · with_reducible refine Keeps.ite ?_ ?_
    · with_reducible refine Keeps.step (State.moveBytes_keeps ..) ?_
      exact Keeps.refl _
    · with_reducible refine Keeps.ite ?_ ?_
      · with_reducible refine Keeps.step (State.moveBytes_keeps ..) ?_
        exact Keeps.refl _
      · with_reducible refine Keeps.ite ?_ ?_
        · split
          · with_reducible refine Keeps.step (State.programNow_keeps ..) ?_
            exact Keeps.refl _
          · exact Keeps.refl _
        · with_reducible refine Keeps.step (State.moveBytes_keeps ..) ?_
          exact Keeps.refl _

theorem State.retire_keeps (s : State) (p : Nat) :
    Keeps s (State.retire s p) := by
  unfold State.retire
  try dsimp only
  split
  · with_reducible refine Keeps.ite ?_ ?_
    · try dsimp only
      split
      · with_reducible refine Keeps.step (Keeps.of_same (State.checkSpares_same ..) rfl) ?_
        with_reducible refine Keeps.step (Keeps.of_same (State.releaseFor_same ..) rfl) ?_
        with_reducible refine Keeps.upd_flash ?_ ?_
        on_goal 1 => exact fun h => h
        with_reducible refine Keeps.step (Keeps.of_same (State.log_same ..) rfl) ?_
        with_reducible refine Keeps.step (State.recoverEntry_keeps ..) ?_
        with_reducible refine Keeps.step (State.moveContent_keeps ..) ?_
        with_reducible refine Keeps.ite ?_ ?_
        · with_reducible refine Keeps.step (State.journalBegin_keeps ..) ?_
          exact Keeps.refl _
        · with_reducible refine Keeps.step (State.eraseNow_keeps ..) ?_
          with_reducible refine Keeps.step (State.journalBegin_keeps ..) ?_
          exact Keeps.refl _
      · with_reducible refine Keeps.step (Keeps.of_same (State.releaseFor_same ..) rfl) ?_
        with_reducible refine Keeps.upd_flash ?_ ?_
        on_goal 1 => exact fun h => h
        with_reducible refine Keeps.step (Keeps.of_same (State.raise_same ..) rfl) ?_
        exact Keeps.refl _
    · exact Keeps.refl _
  · exact Keeps.refl _

theorem State.braceMarker_keeps (s : State) (back : Bool) (duration : BitVec 40) :
    Keeps s (State.braceMarker s back duration) := by
  unfold State.braceMarker
  with_reducible refine Keeps.ite ?_ ?_
  · with_reducible refine Keeps.step (State.hwMarker_keeps ..) ?_
    exact Keeps.refl _
  · with_reducible refine Keeps.upd_power  ?_
    exact Keeps.refl _

theorem State.braceEntry_keeps (s : State) :
    Keeps s (State.braceEntry s) := by
  unfold State.braceEntry
  with_reducible refine Keeps.ite ?_ ?_
  · with_reducible refine Keeps.step (Keeps.of_same (State.settleWait_same ..) rfl) ?_
    with_reducible refine Keeps.step (Keeps.of_same (State.modLeave_same ..) rfl) ?_
    with_reducible refine Keeps.step (State.programStop_keeps ..) ?_
    with_reducible refine Keeps.step (Keeps.of_same (State.braceScrub_same ..) rfl) ?_
    with_reducible refine Keeps.step (State.giveBack_keeps ..) ?_
    with_reducible refine Keeps.step (Keeps.of_same (State.occurs_same ..) rfl) ?_
    with_reducible refine Keeps.step (State.braceMarker_keeps ..) ?_
    with_reducible refine Keeps.upd_power  ?_
    exact Keeps.refl _
  · exact Keeps.refl _

theorem State.braceReturn_keeps (s : State) (lowest : Nat) :
    Keeps s (State.braceReturn s lowest) := by
  unfold State.braceReturn
  with_reducible refine Keeps.ite ?_ ?_
  · with_reducible refine Keeps.step (Keeps.of_same (State.resumeLeave_same ..) rfl) ?_
    with_reducible refine Keeps.step (Keeps.of_same (State.resumeOp_same ..) rfl) ?_
    with_reducible refine Keeps.step (Keeps.of_same (State.event_same ..) rfl) ?_
    with_reducible refine Keeps.step (State.braceMarker_keeps ..) ?_
    with_reducible refine Keeps.upd_power  ?_
    exact Keeps.refl _
  · exact Keeps.refl _

theorem State.standbyEntry_keeps (s : State) :
    Keeps s (State.standbyEntry s) := by
  unfold State.standbyEntry
  with_reducible refine Keeps.ite ?_ ?_
  · with_reducible refine Keeps.step (State.dropOutputs_keeps ..) ?_
    with_reducible refine Keeps.step (State.streamStandby_keeps ..) ?_
    with_reducible refine Keeps.upd_power  ?_
    exact Keeps.refl _
  · exact Keeps.refl _

theorem State.standbyExit_keeps (s : State) :
    Keeps s (State.standbyExit s) := by
  unfold State.standbyExit
  with_reducible refine Keeps.ite ?_ ?_
  · with_reducible refine Keeps.ite ?_ ?_
    · with_reducible refine Keeps.step (Keeps.of_same (State.powered_same ..) rfl) ?_
      with_reducible refine Keeps.upd_ao ?_ ?_
      on_goal 1 => exact fun h => h
      with_reducible refine Keeps.step (Keeps.of_same (State.streamResume_same ..) rfl) ?_
      with_reducible refine Keeps.upd_power  ?_
      exact Keeps.refl _
    · with_reducible refine Keeps.step (Keeps.of_same (State.streamResume_same ..) rfl) ?_
      with_reducible refine Keeps.upd_power  ?_
      exact Keeps.refl _
  · exact Keeps.refl _

theorem State.aoDown_keeps (s : State) :
    Keeps s (State.aoDown s) := by
  unfold State.aoDown
  with_reducible refine Keeps.ite ?_ ?_
  · with_reducible refine Keeps.upd_ao ?_ ?_
    on_goal 1 => exact fun h => h
    exact Keeps.refl _
  · exact Keeps.refl _

theorem State.fullReset_keeps (s : State) (cause : ResetCause) :
    Keeps s (State.fullReset s cause) := by
  unfold State.fullReset
  with_reducible refine Keeps.ite (Keeps.ite ?_ ?_) ?_
  · exact ⟨fun q => ⟨q.chan, q.chain, q.eng, q.sched, q.out⟩, id⟩
  · exact ⟨fun q => ⟨q.chan, q.chain, q.eng, q.sched, q.out⟩, id⟩
  · exact ⟨fun _ => ⟨State.reset_fits.chan, State.reset_fits.chain, State.reset_fits.eng, State.reset_fits.sched,
      State.reset_fits.out⟩, fun e => (State.cutOp_keeps s).2 e⟩

theorem State.resetBy_keeps (s : State) (cause : ResetCause) :
    Keeps s (State.resetBy s cause) := by
  unfold State.resetBy
  split
  · unfold State.onPin
    exact Keeps.when (fun t => State.fullReset_keeps t _) (Keeps.of_same (State.takes_same _ _ _ _) rfl)
  · exact State.fullReset_keeps _ _

theorem State.startChannel_keeps (s : State) (n : Chan) :
    Keeps s (State.startChannel s n) := by
  unfold State.startChannel
  with_reducible refine Keeps.ite ?_ (Keeps.refl _)
  refine Keeps.modChan (fun c h => ⟨h.1, ?_⟩) (Keeps.refl _)
  dsimp only
  split
  · decide
  · exact dacCode_fits _ _

theorem State.strapLatch_keeps (s : State) (r : StrapRead) :
    Keeps s (State.strapLatch s r) := by
  unfold State.strapLatch
  with_reducible refine Keeps.ite ?_ (Keeps.refl _)
  with_reducible refine Keeps.upd_fol_port_snap_flash_core ?_ ?_
  on_goal 1 => intro h; simpa only [Flash.wf] using h
  with_reducible refine Keeps.step (Keeps.of_same (State.strapFaults_same ..) rfl) ?_
  with_reducible refine Keeps.eachChan (fun _ _ => State.startChannel_keeps ..) ?_
  exact ⟨fun q => ⟨q.chan, q.chain, q.eng, q.sched, q.out⟩, id⟩

theorem State.sessionCommit_keeps (s : State) :
    Keeps s (State.sessionCommit s) := by
  unfold State.sessionCommit
  with_reducible refine Keeps.ite ?_ ?_
  · with_reducible refine Keeps.ite ?_ ?_
    · with_reducible refine Keeps.step (State.armStartup_keeps ..) ?_
      with_reducible refine Keeps.step (Keeps.of_same (State.releaseFor_same ..) rfl) ?_
      with_reducible refine Keeps.upd_tb_keep_core  ?_
      with_reducible refine Keeps.step (State.rowAdvance_keeps ..) ?_
      exact Keeps.refl _
    · with_reducible refine Keeps.step (Keeps.of_same (State.log_same ..) rfl) ?_
      with_reducible refine Keeps.step (State.armStartup_keeps ..) ?_
      with_reducible refine Keeps.step (Keeps.of_same (State.releaseFor_same ..) rfl) ?_
      with_reducible refine Keeps.upd_tb_keep_core  ?_
      with_reducible refine Keeps.step (State.rowAdvance_keeps ..) ?_
      exact Keeps.refl _
  · exact Keeps.refl _

theorem State.pllUnlock_keeps (s : State) :
    Keeps s (State.pllUnlock s) := by
  unfold State.pllUnlock
  with_reducible refine Keeps.ite ?_ ?_
  · exact Keeps.refl _
  · with_reducible refine Keeps.ite ?_ ?_
    · with_reducible refine Keeps.step (Keeps.of_same (State.releaseFor_same ..) rfl) ?_
      with_reducible refine Keeps.step (Keeps.of_same (State.dropRequest_same ..) rfl) ?_
      with_reducible refine Keeps.step (State.abandonRun_keeps ..) ?_
      with_reducible refine Keeps.step (Keeps.of_same (State.raise_same ..) rfl) ?_
      with_reducible refine Keeps.step (Keeps.of_same (State.flagGates_same ..) rfl) ?_
      with_reducible refine Keeps.upd_tb_cal  ?_
      exact Keeps.refl _
    · with_reducible refine Keeps.ite ?_ ?_
      · with_reducible refine Keeps.upd_tb_core  ?_
        exact Keeps.refl _
      · exact Keeps.refl _

theorem State.pllRelock_keeps (s : State) :
    Keeps s (State.pllRelock s) := by
  unfold State.pllRelock
  with_reducible refine Keeps.ite ?_ ?_
  · with_reducible refine Keeps.step (State.resumeJoin_keeps ..) ?_
    with_reducible refine Keeps.step (Keeps.of_same (State.clearFault_same ..) rfl) ?_
    with_reducible refine Keeps.upd_tb  ?_
    exact Keeps.refl _
  · exact Keeps.refl _

theorem State.chanAtEpoch_keeps (s : State) (n : Chan) :
    Keeps s (State.chanAtEpoch s n) := by
  unfold State.chanAtEpoch
  with_reducible refine Keeps.step (Keeps.of_same (State.modStat_same ..) rfl) ?_
  with_reducible refine Keeps.modChan ?_ ?_
  on_goal 1 => exact fun _ h => h
  exact Keeps.refl _

theorem State.stepSix_keeps (s : State) :
    Keeps s (State.stepSix s) := by
  unfold State.stepSix
  with_reducible refine Keeps.ite ?_ (Keeps.refl _)
  with_reducible refine Keeps.step (Keeps.of_same (State.settleBoot_same ..) rfl) ?_
  refine ⟨fun q => ⟨fun m => ?_, q.chain, q.eng, q.sched, q.out⟩, id⟩
  simp only [Per8.get_map]
  exact q.chan m

theorem State.setEpoch_keeps (s : State) (source : BitVec 2) (epoch : Nat) :
    Keeps s (State.setEpoch s source epoch) := by
  unfold State.setEpoch
  with_reducible refine Keeps.step (State.stepSix_keeps ..) ?_
  with_reducible refine Keeps.upd_power  ?_
  with_reducible refine Keeps.step (Keeps.of_same (State.write_same ..) rfl) ?_
  with_reducible refine Keeps.foldl (fun _ _ => ?_) ?_
  · with_reducible refine Keeps.step (State.hwMarker_keeps ..) ?_
    exact Keeps.refl _
  with_reducible refine Keeps.step (Keeps.of_same (State.write_same ..) rfl) ?_
  with_reducible refine Keeps.eachChan (fun _ _ => ?_) ?_
  · with_reducible refine Keeps.step (State.chanAtEpoch_keeps ..) ?_
    exact Keeps.refl _
  with_reducible refine Keeps.upd_tb_keep_fol_core  ?_
  with_reducible refine Keeps.step (advance_keeps ..) ?_
  exact Keeps.refl _

theorem State.epochFree_keeps (s : State) :
    Keeps s (State.epochFree s) := by
  unfold State.epochFree
  with_reducible refine Keeps.ite ?_ ?_
  · with_reducible refine Keeps.step (State.setEpoch_keeps ..) ?_
    exact Keeps.refl _
  · exact Keeps.refl _

theorem State.epochTimeout_keeps (s : State) :
    Keeps s (State.epochTimeout s) := by
  unfold State.epochTimeout
  with_reducible refine Keeps.ite ?_ ?_
  · with_reducible refine Keeps.step (State.setEpoch_keeps ..) ?_
    with_reducible refine Keeps.step (Keeps.of_same (State.log_same ..) rfl) ?_
    exact Keeps.refl _
  · exact Keeps.refl _

theorem State.ppsEdge_keeps (s : State) :
    Keeps s (State.ppsEdge s) := by
  unfold State.ppsEdge
  with_reducible refine Keeps.ite ?_ ?_
  · exact Keeps.refl _
  · with_reducible refine Keeps.ite ?_ ?_
    · with_reducible refine Keeps.step (Keeps.of_same (State.ppsLater_same ..) rfl) ?_
      exact Keeps.refl _
    · with_reducible refine Keeps.ite ?_ ?_
      · with_reducible refine Keeps.ite ?_ ?_
        · with_reducible refine Keeps.step (Keeps.of_same (State.ppsLater_same ..) rfl) ?_
          with_reducible refine Keeps.step (State.epochTimeout_keeps ..) ?_
          exact Keeps.refl _
        · with_reducible refine Keeps.step (Keeps.of_same (State.tetherSecond_same ..) rfl) ?_
          with_reducible refine Keeps.ite ?_ ?_
          · with_reducible refine Keeps.step (Keeps.of_same (State.ppsNote_same ..) rfl) ?_
            with_reducible refine Keeps.step (State.setEpoch_keeps ..) ?_
            exact Keeps.refl _
          · with_reducible refine Keeps.step (State.setEpoch_keeps ..) ?_
            exact Keeps.refl _
      · exact Keeps.refl _

theorem State.beginRestart_keeps (s : State) (pc : Option (BitVec 32)) :
    Keeps s (State.beginRestart s pc) := by
  unfold State.beginRestart
  with_reducible refine Keeps.ite ?_ ?_
  · with_reducible refine Keeps.step (State.fullReset_keeps ..) ?_
    exact Keeps.refl _
  · with_reducible refine Keeps.step (Keeps.of_same (State.withdrawLeave_same ..) rfl) ?_
    with_reducible refine Keeps.step (State.dropHold_keeps ..) ?_
    with_reducible refine Keeps.upd_core  ?_
    exact Keeps.refl _

theorem State.fetchError_keeps (s : State) (sector : Nat) (offset : Nat) :
    Keeps s (State.fetchError s sector offset) := by
  unfold State.fetchError
  with_reducible refine Keeps.ite ?_ ?_
  · with_reducible refine Keeps.step (State.beginRestart_keeps ..) ?_
    with_reducible refine Keeps.step (Keeps.of_same (State.log_same ..) rfl) ?_
    with_reducible refine Keeps.step (Keeps.of_same (State.markBad_same ..) rfl) ?_
    exact Keeps.refl _
  · exact Keeps.refl _

theorem State.restartRecovery_keeps (s : State) :
    Keeps s (State.restartRecovery s) := by
  unfold State.restartRecovery
  with_reducible refine Keeps.ite ?_ ?_
  · exact Keeps.refl _
  · with_reducible refine Keeps.ite ?_ ?_
    · with_reducible refine Keeps.step (Keeps.of_same (State.requestLeave_same ..) rfl) ?_
      with_reducible refine Keeps.upd_core  ?_
      exact Keeps.refl _
    · with_reducible refine Keeps.step (State.restartIndex_keeps ..) ?_
      exact Keeps.refl _

theorem State.restartJoin_keeps (s : State) (n : Chan) :
    Keeps s (State.restartJoin s n) := by
  unfold State.restartJoin
  with_reducible refine Keeps.ite ?_ ?_
  · with_reducible refine Keeps.step (Keeps.of_same (State.log_same ..) rfl) ?_
    with_reducible refine Keeps.step (Keeps.of_same (State.releaseFor_same ..) rfl) ?_
    with_reducible refine Keeps.step (Keeps.of_same (State.releaseFor_same ..) rfl) ?_
    with_reducible refine Keeps.step (State.gapMarkers_keeps ..) ?_
    with_reducible refine Keeps.step (State.goAbsentUp_keeps ..) ?_
    exact Keeps.refl _
  · exact Keeps.refl _

theorem State.restartRun_keeps (s : State) :
    Keeps s (State.restartRun s) := by
  unfold State.restartRun
  with_reducible refine Keeps.step (Keeps.of_same (State.settleBoot_same ..) rfl) ?_
  with_reducible refine Keeps.eachChan (fun _ _ => ?_) ?_
  · with_reducible refine Keeps.step (State.restartJoin_keeps ..) ?_
    exact Keeps.refl _
  split
  · with_reducible refine Keeps.step (Keeps.of_same (State.releaseFor_same ..) rfl) ?_
    with_reducible refine Keeps.step (State.endSuspension_keeps ..) ?_
    with_reducible refine Keeps.upd_cal  ?_
    with_reducible refine Keeps.upd_cal  ?_
    exact Keeps.refl _
  · with_reducible refine Keeps.upd_cal  ?_
    exact Keeps.refl _

theorem State.restartLosses_keeps (s : State) :
    Keeps s (State.restartLosses s) := by
  unfold State.restartLosses
  with_reducible refine Keeps.upd_strap_chain_pack_sched_port_cal ?_ ?_ ?_
  iterate 2 on_goal 1 => exact fun h => h
  exact Keeps.refl _

theorem State.restartOutput_keeps (s : State) (o : OutNo) :
    Keeps s (State.restartOutput s o) := by
  unfold State.restartOutput
  with_reducible refine Keeps.ite ?_ ?_
  · with_reducible refine Keeps.step (Keeps.of_same (State.releaseFor_same ..) rfl) ?_
    with_reducible refine Keeps.step (Keeps.of_same (State.dropRequest_same ..) rfl) ?_
    exact Keeps.modOut (fun _ _ => ⟨Nat.le_refl 1, (by decide : 1 ≤ 64)⟩) (Keeps.refl _)
  · exact Keeps.refl _

theorem State.restartSteps_keeps (s : State) :
    Keeps s (State.restartSteps s) := by
  unfold State.restartSteps
  with_reducible refine Keeps.step (Keeps.of_same (State.resumeLeave_same ..) rfl) ?_
  with_reducible refine Keeps.eachOut (fun _ _ => ?_) ?_
  · with_reducible refine Keeps.step (State.restartOutput_keeps ..) ?_
    exact Keeps.refl _
  with_reducible refine Keeps.step (State.restartRun_keeps ..) ?_
  with_reducible refine Keeps.step (State.restartRecovery_keeps ..) ?_
  with_reducible refine Keeps.step (State.restartLosses_keeps ..) ?_
  with_reducible refine Keeps.upd_core  ?_
  exact Keeps.refl _

theorem State.coreRestart_keeps (s : State) :
    Keeps s (State.coreRestart s) := by
  unfold State.coreRestart
  with_reducible refine Keeps.ite ?_ ?_
  · try dsimp only
    split
    · with_reducible refine Keeps.step (Keeps.of_same (State.log_same ..) rfl) ?_
      with_reducible refine Keeps.upd_core  ?_
      with_reducible refine Keeps.step (State.restartSteps_keeps ..) ?_
      exact Keeps.refl _
    · with_reducible refine Keeps.step (State.restartSteps_keeps ..) ?_
      exact Keeps.refl _
  · exact Keeps.refl _

theorem State.dropJoin_keeps (s : State) (n : Chan) :
    Keeps s (State.dropJoin s n) := by
  unfold State.dropJoin
  with_reducible refine Keeps.step (Keeps.of_same (State.settleBoot_same ..) rfl) ?_
  with_reducible refine Keeps.step (Keeps.of_same (State.settleJoin_same ..) rfl) ?_
  with_reducible refine Keeps.step (Keeps.of_same (State.log_same ..) rfl) ?_
  with_reducible refine Keeps.step (State.goAbsentUp_keeps ..) ?_
  with_reducible refine Keeps.step (State.gapMarkers_keeps ..) ?_
  with_reducible refine Keeps.step (Keeps.of_same (State.releaseFor_same ..) rfl) ?_
  with_reducible refine Keeps.step (Keeps.of_same (State.releaseFor_same ..) rfl) ?_
  with_reducible refine Keeps.ite ?_ ?_
  · with_reducible refine Keeps.upd_cal  ?_
    exact Keeps.refl _
  · exact Keeps.refl _

theorem State.takeDown_keeps (s : State) (dom : Nat) :
    Keeps s (State.takeDown s dom) := by
  unfold State.takeDown
  with_reducible refine Keeps.ite ?_ ?_
  · with_reducible refine Keeps.modChan ?_ ?_
    on_goal 1 => exact fun _ h => h
    with_reducible refine Keeps.ite ?_ ?_
    · with_reducible refine Keeps.step (State.loseChannel_keeps ..) ?_
      exact Keeps.refl _
    · with_reducible refine Keeps.ite ?_ ?_
      · with_reducible refine Keeps.step (State.dropJoin_keeps ..) ?_
        exact Keeps.refl _
      · exact Keeps.refl _
  · with_reducible refine Keeps.ite ?_ ?_
    · with_reducible refine Keeps.step (State.streamDown_keeps ..) ?_
      exact Keeps.refl _
    · with_reducible refine Keeps.ite ?_ ?_
      · with_reducible refine Keeps.upd_ao ?_ ?_
        on_goal 1 => exact fun h => h
        with_reducible refine Keeps.step (State.dropOutputs_keeps ..) ?_
        exact Keeps.refl _
      · with_reducible refine Keeps.step (Keeps.of_same (State.modSnap_same ..) rfl) ?_
        exact Keeps.refl _

theorem State.domainFault_keeps (s : State) (dom : Nat) :
    Keeps s (State.domainFault s dom) := by
  unfold State.domainFault
  with_reducible refine Keeps.ite ?_ ?_
  · with_reducible refine Keeps.step (State.takeDown_keeps ..) ?_
    with_reducible refine Keeps.step (Keeps.of_same (State.raiseAgain_same ..) rfl) ?_
    with_reducible refine Keeps.upd_power  ?_
    exact Keeps.refl _
  · exact Keeps.refl _

theorem State.bringUp_keeps (s : State) (dom : Nat) :
    Keeps s (State.bringUp s dom) := by
  unfold State.bringUp
  with_reducible refine Keeps.ite ?_ ?_
  · with_reducible refine Keeps.ite ?_ ?_
    · with_reducible refine Keeps.step (Keeps.of_same (State.powered_same ..) rfl) ?_
      with_reducible refine Keeps.step (State.goAbsentUp_keeps ..) ?_
      with_reducible refine Keeps.modChan ?_ ?_
      on_goal 1 => exact fun _ h => h
      exact Keeps.refl _
    · with_reducible refine Keeps.step (Keeps.of_same (State.powered_same ..) rfl) ?_
      with_reducible refine Keeps.modChan ?_ ?_
      on_goal 1 => exact fun _ h => h
      exact Keeps.refl _
  · with_reducible refine Keeps.ite ?_ ?_
    · exact Keeps.refl _
    · with_reducible refine Keeps.ite ?_ ?_
      · with_reducible refine Keeps.ite ?_ ?_
        · exact Keeps.refl _
        · with_reducible refine Keeps.step (Keeps.of_same (State.powered_same ..) rfl) ?_
          with_reducible refine Keeps.upd_ao ?_ ?_
          on_goal 1 => exact fun h => h
          exact Keeps.refl _
      · with_reducible refine Keeps.step (Keeps.of_same (State.powered_same ..) rfl) ?_
        with_reducible refine Keeps.step (Keeps.of_same (State.modSnap_same ..) rfl) ?_
        exact Keeps.refl _

theorem State.domainRestore_keeps (s : State) (dom : Nat) :
    Keeps s (State.domainRestore s dom) := by
  unfold State.domainRestore
  split
  · with_reducible refine Keeps.ite ?_ ?_
    · with_reducible refine Keeps.step (State.bringUp_keeps ..) ?_
      with_reducible refine Keeps.upd_power  ?_
      exact Keeps.refl _
    · exact Keeps.refl _
  · exact Keeps.refl _

theorem State.driftRead_keeps (s : State) (pin : Nat) (reading : Nat) :
    Keeps s (State.driftRead s pin reading) := by
  unfold State.driftRead
  split
  · with_reducible refine Keeps.ite ?_ ?_
    · exact Keeps.refl _
    · with_reducible refine Keeps.ite ?_ ?_
      · with_reducible refine Keeps.upd_strap  ?_
        exact Keeps.refl _
      · split
        · with_reducible refine Keeps.ite ?_ ?_
          · with_reducible refine Keeps.step (Keeps.of_same (State.writeFw_same ..) rfl) ?_
            with_reducible refine Keeps.ite ?_ ?_
            · with_reducible refine Keeps.step (Keeps.of_same (State.log_same ..) rfl) ?_
              with_reducible refine Keeps.ite ?_ ?_
              · with_reducible refine Keeps.step (State.fwMarker_keeps ..) ?_
                with_reducible refine Keeps.upd_strap  ?_
                exact Keeps.refl _
              · with_reducible refine Keeps.upd_strap  ?_
                exact Keeps.refl _
            · with_reducible refine Keeps.ite ?_ ?_
              · with_reducible refine Keeps.step (State.fwMarker_keeps ..) ?_
                with_reducible refine Keeps.upd_strap  ?_
                exact Keeps.refl _
              · with_reducible refine Keeps.upd_strap  ?_
                exact Keeps.refl _
          · with_reducible refine Keeps.upd_strap  ?_
            exact Keeps.refl _
  · exact Keeps.refl _

theorem State.closeFault_keeps (s : State) :
    Keeps s (State.closeFault s) := by
  unfold State.closeFault
  split
  · with_reducible refine Keeps.ite ?_ ?_
    · with_reducible refine Keeps.step (Keeps.of_same (State.writeFw_same ..) rfl) ?_
      with_reducible refine Keeps.step (State.stepSix_keeps ..) ?_
      with_reducible refine Keeps.step (Keeps.of_same (State.control_same ..) rfl) ?_
      with_reducible refine Keeps.upd_faults  ?_
      exact Keeps.refl _
    · exact Keeps.refl _
  · exact Keeps.refl _

theorem State.adoptChan_keeps (s : State) (n : Chan) (old : Nat) (new : Nat) (w : Nat) :
    Keeps s (State.adoptChan s n old new w) := by
  unfold State.adoptChan
  with_reducible refine Keeps.modChan ?_ ?_
  on_goal 1 => exact fun _ h => h
  with_reducible refine Keeps.step (Keeps.of_same (State.modStat_same ..) rfl) ?_
  with_reducible refine Keeps.step (Keeps.of_same (State.cutSamples_same ..) rfl) ?_
  with_reducible refine Keeps.ite ?_ ?_
  · with_reducible refine Keeps.step (State.closeInterval_keeps ..) ?_
    exact Keeps.refl _
  · exact Keeps.refl _

theorem State.adoptCounts_keeps (s : State) :
    Keeps s (State.adoptCounts s) := by
  unfold State.adoptCounts
  with_reducible refine Keeps.upd_chain_fol_cal_faults ?_ ?_
  on_goal 1 => exact fun h => h
  exact Keeps.refl _

theorem State.adoptIntervals_keeps (s : State) (old : Nat) (new : Nat) (w : Nat) :
    Keeps s (State.adoptIntervals s old new w) := by
  unfold State.adoptIntervals
  with_reducible refine Keeps.eachChan (fun _ _ => ?_) ?_
  · with_reducible exact Keeps.of_same (State.openInterval_same ..) rfl
  have k : Keeps s (s.eachChan fun n t => t.adoptChan n old new w) := by
    with_reducible exact Keeps.eachChan (fun _ _ => State.adoptChan_keeps ..) (Keeps.refl _)
  generalize (s.eachChan fun n t => t.adoptChan n old new w) = t at k
  exact k.trans ⟨fun q => ⟨q.chan, q.chain, q.eng, q.sched, q.out⟩, id⟩

theorem State.switchTo_keeps (s : State) (f : Frame) (w : Nat) (d : Nat) :
    Keeps s (State.switchTo s f w d) := by
  unfold State.switchTo
  with_reducible refine Keeps.step (Keeps.of_same (State.adoptSkeins_same ..) rfl) ?_
  with_reducible refine Keeps.step (State.adoptCounts_keeps ..) ?_
  with_reducible refine Keeps.step (Keeps.of_same (State.adoptMarkers_same ..) rfl) ?_
  with_reducible refine Keeps.step (Keeps.of_same (State.adoptPacker_same ..) rfl) ?_
  with_reducible refine Keeps.step (Keeps.of_same (State.closeDropRun_same ..) rfl) ?_
  with_reducible refine Keeps.step (Keeps.of_same (State.closeDropRun_same ..) rfl) ?_
  with_reducible refine Keeps.step (State.adoptIntervals_keeps ..) ?_
  with_reducible refine Keeps.upd_tb_keep_tether  ?_
  exact Keeps.refl _

theorem State.epochAdoption_keeps (s : State) :
    Keeps s (State.epochAdoption s) := by
  unfold State.epochAdoption
  split
  · split
    · with_reducible refine Keeps.ite ?_ ?_
      · with_reducible refine Keeps.step (State.switchTo_keeps ..) ?_
        exact Keeps.refl _
      · exact Keeps.refl _
  · exact Keeps.refl _

theorem State.adoptionCommit_keeps (s : State) :
    Keeps s (State.adoptionCommit s) := by
  unfold State.adoptionCommit
  with_reducible refine Keeps.ite ?_ ?_
  · with_reducible refine Keeps.step (Keeps.of_same (State.releaseFor_same ..) rfl) ?_
    with_reducible refine Keeps.upd_tb  ?_
    with_reducible refine Keeps.step (State.rowAdvance_keeps ..) ?_
    exact Keeps.refl _
  · exact Keeps.refl _

theorem State.halt_keeps (s : State) :
    Keeps s (State.halt s) := by
  unfold State.halt
  with_reducible refine Keeps.step (Keeps.of_same (State.reply_same ..) rfl) ?_
  with_reducible refine Keeps.step (Keeps.of_same (State.withdrawLeave_same ..) rfl) ?_
  with_reducible refine Keeps.ite ?_ ?_
  · with_reducible refine Keeps.upd_core  ?_
    with_reducible refine Keeps.ite ?_ ?_
    · exact Keeps.refl _
    · with_reducible refine Keeps.modSvc ?_
      exact Keeps.refl _
  · with_reducible refine Keeps.step (State.dropHold_keeps ..) ?_
    with_reducible refine Keeps.upd_core  ?_
    with_reducible refine Keeps.ite ?_ ?_
    · exact Keeps.refl _
    · with_reducible refine Keeps.modSvc ?_
      exact Keeps.refl _

end Sys2Proof.Machine
end

