-- ==== Sys2Proof/Laws/Leave.lean ====
section
/-! SUPPORT. What the shared operations of leave (R572 to R576) and the chain's R215 check can do, said once. -/

namespace Sys2Proof.Machine
open Sys2Proof

/-- The count of R576 is all that settling changes. -/
theorem State.settleWait_eq (s : State) : ∃ (w : Nat) (f : Option Nat),
    s.settleWait = { s with leave := { s.leave with waited := w, waitFrom := f } } := by
  unfold State.settleWait State.modLeave
  split
  · exact ⟨_, _, rfl⟩
  · split <;> exact ⟨_, _, rfl⟩

/-- The first step of R572 changes the phase and, where the unit calls, what the line shows and the end of the call pulse. -/
theorem State.startRequest_eq (s : State) : ∃ (p : LeavePhase) (i : Bool) (f c : Nat),
    s.startRequest = { s with leave := { s.leave with phase := p, idle := i, fellAt := f, callTo := c } } := by
  unfold State.startRequest State.modLeave
  dsimp only
  repeat' split
  all_goals exact ⟨_, _, _, _, rfl⟩

/-- Right after a release the first step of R572 only waits for the holdoff. -/
theorem State.startRequest_holdoff (s : State) (h : s.leave.releasedAt = some s.clock) :
    ∃ p : LeavePhase, s.startRequest = { s with leave := { s.leave with phase := p } } := by
  have e : ∀ {α : Type} (b : Bool) (x y : α), (if (b || (match s.leave.releasedAt with
      | some t => decide (s.clock < t + 100 * Config.us)
      | none => false)) = true then x else y) = x := by
    intro α b x y
    rw [h]
    have : 0 < 100 * Config.us := by decide
    simp [this]
  unfold State.startRequest
  split
  · exact ⟨_, rfl⟩
  · split
    · exact ⟨s.leave.phase, rfl⟩
    · exact ⟨.deferred, e _ _ _⟩

/-- A request not yet known goes behind those waiting; LEAVE is not won by asking. -/
theorem State.requestLeave_eq (s : State) (op : HeavyOp) (hc : s.leave.reqs.contains op = false)
    (hh : s.leave.holding ≠ some op) : ∃ (p : LeavePhase) (i : Bool) (l c w : Nat) (f : Option Nat),
    s.requestLeave op = { s with leave := { s.leave with
      reqs := s.leave.reqs ++ [op], phase := p, idle := i, fellAt := l, callTo := c, waited := w, waitFrom := f } } := by
  have hb : (s.leave.holding == some op) = false := by simpa using hh
  unfold State.requestLeave
  simp only [hc, hb, Bool.or_self, Bool.false_eq_true, if_false]
  split
  · obtain ⟨p, i, l, c, h⟩ := State.startRequest_eq (s.modLeave fun l => { l with reqs := l.reqs ++ [op] })
    obtain ⟨w, f, h'⟩ := State.settleWait_eq (State.startRequest (s.modLeave fun l => { l with reqs := l.reqs ++ [op] }))
    rw [h', h]
    exact ⟨p, i, l, c, w, f, rfl⟩
  · obtain ⟨w, f, h'⟩ := State.settleWait_eq (s.modLeave fun l => { l with reqs := l.reqs ++ [op] })
    rw [h']
    exact ⟨s.leave.phase, s.leave.idle, s.leave.fellAt, s.leave.callTo, w, f, rfl⟩

/-- A request already known is not made again. -/
theorem State.requestLeave_known (s : State) (op : HeavyOp)
    (h : s.leave.reqs.contains op = true ∨ s.leave.holding = some op) : s.requestLeave op = s := by
  unfold State.requestLeave
  rcases h with h | h
  · rw [h]; rfl
  · simp [h]

/-- Held for the operation, LEAVE is released: the holdoff of R572 begins; no request is lost, and what the line shows is left
to its next change (R571). -/
theorem State.releaseFor_held (s : State) (op : HeavyOp) (h : s.leave.holding = some op) :
    ∃ (p : LeavePhase) (w : Nat) (f : Option Nat),
    s.releaseFor op = { s with leave := { s.leave with
      holding := none, releasedAt := some s.clock, phase := p, waited := w, waitFrom := f } } := by
  unfold State.releaseFor State.releaseLeave
  simp only [h, Option.isSome_some, if_true]
  generalize hu : (s.modLeave fun l => { l with holding := none, phase := .idle, releasedAt := some s.clock }) = u
  obtain ⟨p, h1⟩ := State.startRequest_holdoff u (by rw [← hu]; rfl)
  obtain ⟨w, f, h2⟩ := State.settleWait_eq u.startRequest
  rw [h2, h1, ← hu]
  exact ⟨p, w, f, rfl⟩

/-- Not held for the operation, nothing is released. -/
theorem State.releaseFor_other (s : State) (op : HeavyOp) (h : s.leave.holding ≠ some op) : s.releaseFor op = s := by
  simp [State.releaseFor, h]

/-- The check of R215 can only set `mismatch`. -/
theorem State.checkChain_eq (s : State) : ∃ m, s.checkChain.chain = { s.chain with mismatch := m } := by
  unfold State.checkChain
  split
  · exact ⟨s.chain.mismatch, rfl⟩
  · exact ⟨_, rfl⟩

end Sys2Proof.Machine
end

