-- ==== Sys2Proof/Laws/Pins.lean ====
section
/-! SUPPORT. What a pin, or the LEAVE line, that stands at a level for a width can do (R97, R571), said once. -/

namespace Sys2Proof.Machine
open Sys2Proof

/-- Below the lower limit a pin is ignored. -/
theorem State.onPin_ignored (s : State) (p : DigitalPin) (level : Bool) (width : Nat) (f : State → State)
    (h : width < (p.limits level).1) : s.onPin p level width f = s := by
  simp only [State.onPin, State.takes, if_pos h]
  rfl

/-- From the upper limit on it takes effect, and draws no free value. -/
theorem State.onPin_taken (s : State) (p : DigitalPin) (level : Bool) (width : Nat) (f : State → State)
    (h : (p.limits level).2 ≤ width) (hl : (p.limits level).1 ≤ (p.limits level).2) : s.onPin p level width f = f s := by
  have h1 : ¬width < (p.limits level).1 := by omega
  have h2 : ¬width < (p.limits level).2 := by omega
  simp only [State.onPin, State.takes, if_neg h1, if_neg h2]
  rfl

/-- HOSTRDY is taken or ignored (R407): nothing lies between its limits. -/
theorem State.onPin_hostrdy (s : State) (level : Bool) (width : Nat) (f : State → State) :
    s.onPin .hostrdy level width f = if width < (DigitalPin.limits .hostrdy level).1 then s else f s := by
  by_cases h : width < (DigitalPin.limits .hostrdy level).1
  · rw [if_pos h, State.onPin_ignored s .hostrdy level width f h]
  · rw [if_neg h]
    cases level <;> exact State.onPin_taken s .hostrdy _ width f (Nat.le_of_not_lt h) (Nat.le_refl _)

/-- Between the limits it draws one free bit, which decides. -/
theorem State.onPin_cases (s : State) (p : DigitalPin) (level : Bool) (width : Nat) (f : State → State) :
    s.onPin p level width f = s ∨ s.onPin p level width f = f s ∨
      s.onPin p level width f = s.drawBit.2 ∨ s.onPin p level width f = f s.drawBit.2 := by
  simp only [State.onPin, State.takes]
  split
  · exact .inl rfl
  · split
    · cases h : s.drawBit.1 with
      | true => exact .inr (.inr (.inr (by simp [State.when])))
      | false => exact .inr (.inr (.inl (by simp [State.when])))
    · exact .inr (.inl rfl)

/-- A level of the LEAVE line that lasted 400 ns is recognised, and draws no free value (R571). -/
theorem State.lineSeen_seen (s : State) (width : Nat) (h : 400000 ≤ width) : s.lineSeen width = (true, s) := by
  have h1 : ¬width ≤ 200000 := by omega
  have h2 : ¬width < 400000 := by omega
  simp only [State.lineSeen, if_neg h1, if_neg h2]

/-- One of up to 200 ns is not. -/
theorem State.lineSeen_ignored (s : State) (width : Nat) (h : width ≤ 200000) : s.lineSeen width = (false, s) := by
  simp only [State.lineSeen, if_pos h]

end Sys2Proof.Machine
end

