-- ==== Sys2Proof/WellFormed.lean ====
section
/-! DEFINITION. Which commands are well formed: the lists an operand carries have the lengths the manual gives, and a
task has the parameters it needs. A command that is not well formed is nothing the block's surroundings can present;
the meanings read an absent entry as 0 (log 5). -/

namespace Sys2Proof

/-- One strap read covers the 22 coded pins in both passes (R86). -/
def StrapRead.wellFormed (r : StrapRead) : Bool :=
  r.pass1.length == 22 && r.pass2.length == 22

/-- 144 delay cells, 256 bins, 15 MSB legs and 4 spares (R489). -/
def ChanMeas.wellFormed (m : ChanMeas) : Bool :=
  m.widths.length == 144 && m.hits.length == 256 && m.legDev.length == 19

/-- 67 segments of which 63 are in use (R489). -/
def OutMeas.wellFormed (m : OutMeas) : Bool :=
  m.segDev.length == 67

def FullMeas.wellFormed (m : FullMeas) : Bool :=
  m.chans.toList.all ChanMeas.wellFormed && m.outs.o0.wellFormed && m.outs.o1.wellFormed

/-- A time task has a period, a divider counts from 1 (R237). -/
def Task.wellFormed : Task → Bool
  | .time p _ _ => decide (0 < p)
  | .angle _ _ _ => true
  | .divider n => decide (0 < n)

/-- Two levels for each of 96 bit cells, or a violation (R606, R611). -/
def FrameIn.wellFormed : FrameIn → Bool
  | .levels l => l.length == 192
  | .violation => true

/-- Well-formed commands. Every command not named here is well formed as it stands. -/
def Instr.wellFormed : Instr → Bool
  | .strapLatch _ r => r.wellFormed
  | .rejoinRunEnd _ _ m _ => m.wellFormed
  | .fullRunEnd _ m => m.wellFormed
  | .taskArm _ _ t => t.wellFormed
  | .taskChange _ _ t => t.wellFormed
  | .flashProgram _ _ data => decide (1 ≤ data.length) && decide (data.length ≤ 4096)
  | .tetherFrameReceived _ _ f => f.wellFormed
  | .program _ _ data _ => data.length == 256
  | .serviceUnknownOpcode _ opcode => !knownOpcode opcode
  | .logPeriodExpiry _ code _ =>
    code == 0x13 || code == 0x2C || code == 0x30 || code == 0x37 || code == 0xA2
  | .activeEdge .. | .timeTick .. | .angleTick .. | .outputUpdate .. | .mergeMove .. | .dropRunClose ..
  | .markerEntry .. | .firmwareMarkerPlace .. | .queueReset .. | .packerTakeItem .. | .closeTimerExpiry ..
  | .packerTakeResult .. | .controlSkeinClose .. | .summaryBoundary .. | .summaryComplete .. | .timeCounterWrap
  | .keepTick .. | .resetAssert .. | .resetRelease .. | .journalRecovery .. | .rowCounterReconcile ..
  | .sessionCommit .. | .pllLock .. | .refinActivityTimeout .. | .pllLockTimeout .. | .epochSet ..
  | .epochPpsTimeout .. | .ppsEdge .. | .ppsGapTimeout .. | .pllUnlock .. | .pllRelock ..
  | .channelStartupJoin .. | .startupRunAbandon .. | .watchdogExpiry .. | .coreRestart ..
  | .firmwareFetchError .. | .domainPowerFault .. | .domainRestore .. | .domainFaultClear ..
  | .driftCheckRead .. | .channelLoss .. | .lossHandling .. | .channelIdleTimeout ..
  | .channelDomainPowerDown .. | .probeAbsentTimeout .. | .swingOverload .. | .swingOverloadClear ..
  | .autoLevelUpdate .. | .peakReport .. | .joinStart .. | .channelDomainReady .. | .workingSetRebuild ..
  | .dieTemperatureRead .. | .cthRead .. | .referenceEvent .. | .quadratureStep .. | .referenceEventTimeout ..
  | .phaseLoss .. | .phaseLockTimeout .. | .referenceSpacingFault .. | .referenceSpacingClear ..
  | .sineAmplitudeFault .. | .sineAmplitudeClear .. | .taskCancel .. | .skeinTakeUp .. | .droppedSkeinMarker ..
  | .refreshBurst .. | .refreshBurstEnd .. | .scrubRequest .. | .scrubBurst .. | .storeReset ..
  | .flushRequest .. | .flush .. | .hostrdyHigh .. | .hostrdyLow .. | .discovery .. | .introductionClose ..
  | .alignmentDone .. | .skeinTransmitStart .. | .transmissionComplete .. | .partnerLoss ..
  | .streamShortCircuit .. | .statusSkeinTimer .. | .faultSkeinClose .. | .snapshotPresentation ..
  | .snapshotGroupTimeout .. | .outputEstablish .. | .outputStageReady .. | .breakBeforeMakeExpiry ..
  | .readBack .. | .outputHeadroomFault .. | .outputOvercurrent .. | .outputRailFault ..
  | .outputOvertemperature .. | .outputRetry .. | .outputFaultClear .. | .calRequest ..
  | .temperatureTriggerEval .. | .precheckStart .. | .precheckResult .. | .fullRunStart .. | .drawerCommit ..
  | .compaction .. | .rowCounterIncrement .. | .flashErase .. | .flashOperationEnd .. | .sectorRetirement ..
  | .braceEntry .. | .braceReturn .. | .standbyEntry .. | .standbyExit .. | .aoDomainPowerDown ..
  | .leaveRequest .. | .leaveLineChange .. | .leaveWindowExpiry .. | .leaveRequestWithdrawal ..
  | .leaveStarvation .. | .leaveStuck .. | .leaveStuckClear .. | .v33RangeFault .. | .v33RangeClear ..
  | .vinOvervoltage .. | .vinOvervoltageClear .. | .vbatCheck .. | .dieOvertemperature ..
  | .dieOvertemperatureClear .. | .tetherSlot .. | .adoptionArm .. | .epochAdoption ..
  | .adoptionSessionCommit .. | .tetherLeadCheck .. | .tetherStuck .. | .tetherStuckClear ..
  | .tetherIdClashClear .. | .ident .. | .openPort .. | .read .. | .halt .. | .resume .. | .reset ..
  | .erase .. | .verify .. | .blow .. | .fuseBlowDone .. | .serviceFrameAbort ..
  | .refinActivityChange .. | .keepDomainVbatLoss .. | .leaveHoldoffEnd .. | .eraseHoldEnd ..
  | .flashEraseSuspend .. | .scrubBurstEnd .. => true

end Sys2Proof
end

