-- ==== Sys2Proof/Tests/Slice0.lean ====
section
/-! SUPPORT. Small tests: the ill-formed commands `WellFormed` refuses, worked figures of the manual, and for every statement
with hypotheses a state and operands that meet them together. -/

namespace Sys2Proof.Tests
open Sys2Proof Sys2Proof.Machine

set_option maxRecDepth 20000

/-! ### States the witnesses start from -/

/-- The part is ready, its straps latched and every coded pin at its safe default. -/
def run : State :=
  { State.reset with core := { Core.reset with boot := .ready }, strap := { Strap.reset with latched := true } }

/-- The same 10¹⁸ qps on. -/
def late : State := { run with clock := 10 ^ 18 }

/-- The epoch is set. -/
def timed (s : State) : State := { s with tb := { s.tb with epochSet := true, locked := true } }

/-- A step of start-up. -/
def inBoot (b : Boot) (s : State) : State := { s with core := { s.core with boot := b } }

/-- These coded pins have these codes, the others their safe default 15. -/
def coded (l : List (Nat × Nat)) (s : State) : State :=
  let image (i : Nat) : PinImage :=
    let c := BitVec.ofNat 4 (((l.find? fun p => p.1 == i).map (·.2)).getD 15)
    { raw := c, applied := c, amb := false, reading := 0 }
  { s with strap := { s.strap with pins := (List.range 22).map image } }

/-- Channel 0 as given. -/
def ch0 (c : Channel) (s : State) : State := { s with chan := s.chan.set 0 c }

def inSt (st : ChanState) : Channel := { Channel.reset with st := st }

/-- LEAVE is held. -/
def held (op : HeavyOp) (s : State) : State := { s with leave := { s.leave with holding := some op, idle := false, phase := .won } }

/-- Output 0 as given. -/
def out0 (a : Output) (s : State) : State := { s with ao := { s.ao with up := true, outs := s.ao.outs.set 0 a } }

/-- A skein of the given type and number, with an empty body. -/
def skein (typ : BitVec 6) (seq : Nat) : Skein :=
  { typ := typ, session := 0, era := 0, seq := BitVec.ofNat 32 seq, unit := 0, tsb := 0, tsh := 0, reason := 7, cont := false,
    body := .bytes [], intro := false, closeNo := seq, inCycle := 0 }

def mark (t : Nat) : Item := { st := .brace (BitVec.ofNat 64 t) false 0, session := 0, full := t }

def stamp (t : Nat) : Item := { st := .edge 0 0 (BitVec.ofNat 64 t) 0 0, session := 0, full := t }

/-- Every one of these holds of the state once no time has passed. -/
def holds (s : State) (f : State → List Bool) : Bool := (f (advance 0 s)).all id


/-- The command answers exactly this state. -/
def gives (i : Instr) (s t : State) : Bool := match exec i s with | .next u => u == t | _ => false


/-! ### Lanes and TETHER's line code -/

/-- Code groups of IEEE 802.3 Clause 36: D0.0 at negative disparity, D21.5 at either, D17.7 with its alternate form, D7.3 at
positive disparity; K28.5 at both (R399, R400). -/
theorem test_code_groups :
    (codeGroup false 0x00).1 = 0b1001110100#10 ∧ codeGroup false 0xB5 = (0b1010101010#10, false) ∧
      codeGroup true 0xB5 = (0b1010101010#10, true) ∧ (codeGroup false 0xF1).1 = 0b1000110111#10 ∧
      (codeGroup true 0x67).1 = 0b0001110011#10 ∧ idleGroup false = 0b0011111010#10 ∧
      idleGroup true = ~~~(idleGroup false) := by decide

/-- R401: with four lanes, byte 5 is lane 1's second; R19, R606: the byte 0xA5 begins with a 1, which rises. -/
theorem test_lane_and_line :
    laneBytes 4 1 [10, 11, 12, 13, 14, 15, 16, 17] = [11, 15] ∧
      (frameLevels [0xA5]).take 4 = [false, true, true, false] ∧
      bytesOfLevels (frameLevels [0xA5, 0x0C]) = some [0xA5, 0x0C] ∧ bytesOfLevels [true, true] = none := by decide
/-! ### The whole machine -/

/-- `StepKeepsFlashForm`, `StepKeepsRoom`, `CommandFrames`, `IdleStepPassesTime`: a state that fits takes a step. -/
theorem test_step_answers :
    [(match step { run with pending := [.leaveStuckClear 0] } with | .next u => u == run | _ => false),
     gives (.leaveStuckClear 0) run run, run.flash.wf, run.pending.isEmpty].all id = true := by decide

theorem test_run_fits : run.Fits where
  chan := fun n => by unfold Channel.Fits; revert n; decide
  chain := by unfold Chain.Fits; decide
  eng := by unfold Engine.Fits; decide
  sched := by unfold Sched.Fits; decide
  out := fun o => by unfold Output.Fits; revert o; decide

/-- `EpochNeverMoves`, `StrapImageHolds`: a command of a session. -/
theorem test_session_goes_on :
    [gives (.leaveStuckClear 0) (timed run) (timed run), (timed run).tb.epochSet,
     !(Instr.leaveStuckClear 0).canReset].all id = true := by decide

/-- `CountersOutliveAdoption`: the strap step; an adoption with none armed answers. -/
theorem test_counters_hyps :
    [decide ((inBoot .straps run).core.boot = .straps), gives (.epochAdoption 0) run run].all id = true := by decide

/-- `ChangedHaltHolds`. -/
theorem test_changed_halt :
    let s := { run with core := { run.core with halted := true }, svc := { run.svc with changed := true } }
    [gives (.leaveStuckClear 0) s s, s.core.halted, s.svc.changed].all id = true := by decide

/-! ### Edges, ticks and the merge -/

/-- A channel block of a working correction set, and the set that holds it for channel 0. -/
def block0 : ChanBlock :=
  { cells := [], table := List.replicate 256 0, interTerm := 0, bias := 0, legs := 0, offsetTrim := 0 }

def work0 (s : State) : State :=
  { s with cal := { s.cal with
      work := some { temp := 0, chans := (Per8.const none).set 0 (some block0), outs := .const none } } }

/-- `ActiveEdgeCounts`: the front part down; the narrowest pulse that counts for certain; a channel without a block; an
eligible edge 40 ns after the stamp before it. -/
theorem test_edge_hyps :
    [holds State.reset fun u => [!u.frontOn 0],
     holds run fun u => [u.frontOn 0],
     holds (ch0 (inSt .present) run) fun u => [decide ((u.chan.get 0).st = .present), (u.workChan 0).isNone],
     holds (work0 { ch0 { inSt .present with pending := true, stampedAt := some 0 } run with clock := 160000 }) fun u =>
       [u.frontOn 0, decide ((u.chan.get 0).st = .present), (u.chan.get 0).pending, u.workChan 0 == some block0,
        decide ((u.chan.get 0).tickAt = 0), decide (0 + 160000 ≤ u.clock)]].all id = true := by decide

/-- An edge at any instant is eligible for a tick at the epoch. -/
theorem test_edge_eligible (u : State) (b : ChanBlock) (bin : Byte) (h : (u.chan.get 0).tickAt = 0) :
    (u.chan.get 0).tickAt ≤ u.edgeTime 0 b bin := by
  rw [h]
  exact Nat.zero_le _

/-- A stitch under way from an edge at the epoch, captured at the coarse boundary behind it. -/
def flight0 : Flight :=
  { stamp := { full := 900, count := 1, angle := 0, angleState := 0, tick := 0, isEdge := true, session := 0, yarn := 0,
               segs := .const 0 }
    slots := [], no := 0, captureAt := 1600, taken := false, at_ := 505200 }

/-- `StitchesArrive`: room in the merge and none; the capture's cycle is over and the stitch due. -/
theorem test_flight_hyps :
    let one (m : List MergeEntry) : State := ch0 { inSt .present with flights := [flight0], merge := m } (timed run)
    let e : MergeEntry := { item := stamp 5, no := 0 }
    [[], [e, e, e, e]].all (fun m => let s := one m
      [s.sched.late.isEmpty, (s.chan.get 0).flights == [flight0],
       Chan.all.all fun n => n == 0 || (s.chan.get n).flights.isEmpty,
       decide (s.cycleAt flight0.captureAt < s.cycleAt (s.clock + 600000)),
       decide (s.cycle < s.cycleAt (s.clock + 600000)), decide (flight0.at_ ≤ s.clock + 600000),
       flight0.stamp.session == s.tb.session, flight0.stamp.yarn == (s.chan.get 0).yarn,
       (s.chan.get 0).mirrorNext.isEmpty].all id) = true := by decide

/-- `StableEdgesQualify`: the 63rd and the 64th stable edge, and one that is not stable. -/
theorem test_stable_edge_hyps :
    [holds (ch0 { inSt .absentDown with stable := 62 } run) fun u =>
       [u.frontOn 0, u.stableEdge 0 false 50000 0, decide ((u.chan.get 0).stable + 1 < 64)],
     holds (ch0 { inSt .absentUp with stable := 63 } run) fun u =>
       [u.stableEdge 0 false 50000 0, decide (64 ≤ (u.chan.get 0).stable + 1)],
     holds (ch0 { inSt .absentUp with stable := 63 } run) fun u =>
       [!u.stableEdge 0 false 49999 0]].all id = true := by decide

/-- A task stands in slot 0, armed in an earlier cycle. -/
def tasked (t : Task) (s : State) : State :=
  { s with clock := 128000, tb := { s.tb with time := 128000 }, sched := { s.sched with slots := s.sched.slots.set 0 (some { task := t, after := 0, prev := none }) } }

/-- `TicksFall`: a time tick of slot 0 at its fourth instant, and an angle tick of a follower in lock at its index. -/
theorem test_tick_hyps :
    [holds (timed (tasked (.time 32000 true false) run)) fun u =>
       [u.tb.epochSet, u.slotTask 0 == some (.time 32000 true false), u.slotActive 0, !u.cancelledNow 0,
        u.gridInstant 32000 == some (4, 128000)],
     holds { timed (tasked (.angle true true false) (coded [(3, 12), (6, 5)] run)) with
         fol := { Follower.reset with st := 2, period := 4000000000, phaseAt := 128000, heldAt := 11, heldAngle := 65530 } } fun u =>
       [u.slotTask 0 == some (.angle true true false), u.angleActive, !u.cancelledNow 0,
        u.crossedForward 65536]].all id = true := by decide

/-- Two channels with stitches of equal time. -/
def merging : State :=
  let e : MergeEntry := { item := stamp 5, no := 0 }
  { run with chan := (run.chan.set 0 { inSt .present with merge := [e] }).set 1 { inSt .present with merge := [e] } }

/-- `MergeMoves`: of equal times channel 0's goes; with 62 items held it enters, with 63 it is refused; no entry is
free while a mismatch waits. -/
theorem test_merge_hyps :
    let at62 : State := { merging with chain := { merging.chain with items := List.replicate 62 (stamp 1) } }
    let at63 : State := { merging with chain := { merging.chain with items := List.replicate 63 (stamp 1) } }
    [holds merging fun u => [u.mergePick == some (0, { item := stamp 5, no := 0 }), u.mergeRate, !u.mergeDeferred, u.entryFree,
       Chan.all.all fun m => (((u.chan.get m).movable true u.cycle).map fun d => d.item.session == u.tb.session).getD true],
     holds at62 fun u => [u.mergePick.isSome, u.mergeRate, !u.mergeDeferred, u.entryFree, decide (u.chain.items.length ≤ 62)],
     holds at63 fun u => [u.mergePick.isSome, u.mergeRate, !u.mergeDeferred, u.entryFree, decide (62 < u.chain.items.length)],
     holds { merging with chain := { merging.chain with mismatch := some 0 } } fun u => [!u.entryFree]].all id = true := by
  decide

/-! ### Markers, drop runs and the packer -/

def gap : GapReg := { item := mark 3, lowNo := 0, highNo := 0, since := 0 }

def run1 : DropRun := { time := 9, count := 2, refused := 3, lowNo := 0, highNo := 2, session := 0 }

/-- `MarkersEnterAndTell`: a queue reset marker, a gap marker and a buffered marker waiting at 63 items; a full chain
stitch; a firmware marker; a run that ends; a mismatch. -/
theorem test_marker_hyps :
    let full (s : State) (n : Nat) : State := { s with chain := { s.chain with items := List.replicate n (stamp 1) } }
    [holds { full run 63 with chain := { (full run 63).chain with resets := [mark 1] } } fun u =>
       [u.entryFree, decide (u.chain.items.length ≤ 63), u.chain.resets == [mark 1]],
     holds (ch0 { inSt .present with gapReg := some gap } run) fun u =>
       [u.entryFree, u.chain.resets.isEmpty, (u.chan.get 0).gapOffered u.cycle, (u.chan.get 0).gapReg == some gap],
     holds { run with chain := { run.chain with buffer := [mark 1] } } fun u =>
       [u.entryFree, Chan.all.all fun m => !(u.chan.get m).gapOffered u.cycle, u.chain.buffer == [mark 1]],
     holds (full run 64) fun u => [decide (63 < u.chain.items.length)],
     holds { run with chain := { run.chain with fwWait := [mark 1] } } fun u => [u.chain.fwWait == [mark 1], u.fwRuns],
     holds (ch0 { inSt .present with run := some run1 } (full run 62)) fun u =>
       [(u.chan.get 0).run == some run1, decide (u.itemsBefore ≤ 62), decide ((u.chan.get 0).mergeBefore u.cycle < 4),
        (u.chan.get 0).refusedAt != some u.cycle, (u.chan.get 0).gapReg.isNone, (u.faults.period 0x30 0).isNone],
     holds { run with chain := { run.chain with mismatch := some 7 } } fun u => [u.chain.mismatch == some 7]].all id = true := by
  decide

def opened (s : BitVec 16) (n : Nat) : RawOpen :=
  { session := s, era := 0, recs := List.replicate n (Stitch.flush 0 0 true true), high := .const none, firstAt := 0 }

def queued (recs : Option RawOpen) : State :=
  { run with chain := { run.chain with items := [stamp 4] }, pack := { run.pack with rawOpen := recs, echoDone := true } }

/-- `PackerWorks`, the head item: none open, one it joins, and the 254th record that closes it first. -/
theorem test_packer_item_hyps :
    [holds (queued none) fun u => [u.chain.items == [stamp 4], u.readSide, u.rawBuffer, u.chain.mismatch.isNone, !u.headFalls,
       !(stamp 4).st.isBrace, u.pack.rawOpen.isNone],
     holds (queued (some (opened 0 253))) fun u => [u.readSide, u.rawBuffer, (u.closeReason (opened 0 253) (stamp 4)).isNone],
     holds (queued (some (opened 0 254))) fun u => [u.readSide, u.rawBuffer,
       u.closeReason (opened 0 254) (stamp 4) == some 0, u.pack.closedCount Skein.isRaw == 0,
       (opened 0 254).session == u.tb.session, u.pack.echoDone],
     holds { queued none with pack := { run.pack with takenAt := some 1 } } fun u => [!u.readSide],
     holds { queued none with chain := { (queued none).chain with entered := some 1 } } fun u => [u.headFalls]].all id = true := by decide

def result (last : Bool) : Result :=
  { st := .headEnd 0 0 0 0, last := last, ch := 0, yarn := 0, session := 0, era := 0 }

def withResult (last : Bool) : State :=
  { run with eng := { run.eng with queue := [result last] }, pack := { run.pack with echoDone := true } }

/-- `PackerWorks`: the close timer just short and run out, the control buffer free and not, and a result that is the last
of its summary or is not. -/
theorem test_packer_close_hyps :
    let late (i : Item) (n : Nat) : State := { queued (some (opened 0 n)) with
      clock := 10 ^ 18, chain := { run.chain with items := [i] } }
    [holds (late (stamp 4) 1) fun u =>
       [decide (u.closeTimerQps ≤ u.clock - 0), decide ((opened 0 1).session = u.tb.session), u.pack.echoDone, u.takeable,
        (u.closeReason (opened 0 1) (stamp 4)).isNone, !(stamp 4).st.isBrace],
     holds (late (stamp 4) 254) fun u => [u.takeable, u.closeReason (opened 0 254) (stamp 4) == some 0],
     holds (late (mark 4) 1) fun u => [u.takeable, (u.closeReason (opened 0 1) (mark 4)).isNone, (mark 4).st.isBrace],
     holds (queued (some (opened 0 1))) fun u => [decide (u.clock - 0 < u.closeTimerQps)],
     holds { run with pack := { run.pack with ctlQueue := [{ typ := typeStatus, body := [1], intro := false }] } } fun u =>
       [u.fwRuns, u.ctlFree, u.readIdle, !u.pack.ctlOld, typeStatus != typeEcho, typeStatus != typeSummary],
     holds { queued (some (opened 0 1)) with clock := 10 ^ 18, pack := { (queued (some (opened 0 1))).pack with
         takenAt := some (10 ^ 18 / 12800 + 1), released := [{ skein typeFault 1 with inCycle := 10 ^ 18 / 12800 + 1 }] } } fun u =>
       [!u.takeable, decide (u.pack.released = [] ++ [{ skein typeFault 1 with inCycle := u.cycle }]),
        decide ((skein typeFault 1).session = u.tb.session), decide (0 < (skein typeFault 1).rank)],
     holds { run with pack := { run.pack with released := [skein typeFault 1] } } fun u => [!u.ctlFree],
     holds (withResult false) fun u => [u.eng.queue == [result false], u.readSide, u.sumBuffer, !u.rawWaits, u.pack.sumOpen.isNone],
     holds (withResult true) fun u => [u.readSide, u.sumBuffer, !u.rawWaits, u.pack.sumOpen.isNone, u.pack.echoDone],
     holds { withResult true with chain := { run.chain with items := [stamp 1] } } fun u => [u.rawWaits]].all id = true := by decide

/-! ### Statistics -/

def gate0 : Gate :=
  { ch := 0, interval := 0, start := 5, startCount := 0, fin := 9, finCount := 0, yarn := 1, noYarn := false, atYarnStart := false,
    atYarnEnd := false, cal := false, holdover := false, adoption := false, phaseLoss := false, saturated := false,
    stamps := [], samples := 0, sum := 0, sumSq := 0, minV := none, maxV := none, excluded := 0, bins := [], taus := [],
    rRatio := none, session := 0, lastPhase := none, tRef := none }

/-- `SummariesForm`: the first boundary of a 10 s interval, on a channel with a gate and on one without; and an ended gate
of the interval before, with the result queue at its 16 places. -/
theorem test_summary_hyps :
    let s : State := timed (coded [(5, 7)] run)
    [holds { s with tb := { s.tb with time := 40000000000000 }, stat := s.stat.set 0 { Stat.reset with gate := some gate0 } } fun u =>
       [u.gridInstant u.intervalQps == some (1, 40000000000000), u.tb.epochSet,
        decide ((u.stat.get 0).boundAt < 40000000000000), u.enabled 0, (u.stat.get 0).gate == some gate0,
        (u.stat.get 1).gate.isNone, !(u.stat.get 1).gated],
     holds { s with eng := { interval := 1, ended := [gate0], outgoing := [], queue := List.replicate 16 (result false) } } fun u =>
       [u.eng.outgoing.isEmpty, u.eng.next == some gate0, decide (u.eng.queue.length ≤ 16)]].all id = true := by decide

/-! ### Time, reset and start-up -/

/-- The off-tick counter stops at its highest value, 33,554,432 s of 2⁻¹⁵ s ticks (R64). -/
theorem test_keep_tick_saturates :
    let s : State := { State.reset with keep := { Keep.reset with offTicks := 0xFFFFFFFFFE } }
    [gives (.keepTick 0) s { s with keep := { Keep.reset with offTicks := 0xFFFFFFFFFF } },
     gives (.keepTick 0) { s with keep := { Keep.reset with offTicks := 0xFFFFFFFFFF } }
       { s with keep := { Keep.reset with offTicks := 0xFFFFFFFFFF } }].all id = true := by decide

/-- The last value of every band of R78 beside the first one past it. -/
theorem test_bands :
    [decodeReading 199, decodeReading 200, decodeReading 919, decodeReading 920, decodeReading 43416, decodeReading 47999,
     decodeReading 48000] = [some 0, none, none, some 1, some 14, none, some 15] := by decide

/-- `KeepDomainLoses`, `FullResetAsserts`: in a reset and out of one, two causes in one cycle. -/
theorem test_reset_hyps :
    [holds State.reset fun u => [decide (u.core.boot = .inReset)],
     holds run fun u => [decide (u.core.boot ≠ .inReset), u.flash.op.isNone],
     holds { State.reset with keep := { Keep.reset with cause := 0x03, assertedTo := 1 } } fun u =>
       [decide (u.core.boot = .inReset), decide (u.clock < u.keep.assertedTo), decide ((0x01 : Byte) < u.keep.cause)]].all
      id = true := by decide

/-- An open erase entry of the journal in its first place. -/
def journalled : State :=
  let s := coded [(12, 5)] (inBoot .recovery run)
  { s with flash := { s.flash with
    mem := s.flash.mem ++ ((List.range 8).map fun i => (4096 * 0x1C0 + i, (le 8 0x01800001).getD i 0)) } }

/-- `ThirdRestartResets`, `CoreAndDomainsRestart`: with two restarts in 60 s, and with one of them 60 s back; an expiry too
early; a restart that ends, its recovery owed, and one that a halt outlives. -/
theorem test_restart_hyps :
    let s (l : List Nat) : State := { late with core := { late.core with restarts := l } }
    [holds (s [10 ^ 18, 10 ^ 18 - 239999999999999]) fun u =>
       [u.fwRuns, decide (u.core.dogAt ≤ u.clock), decide (2 ≤ (u.core.restarts.filter fun r => decide (u.clock - r < 240000000000000)).length)],
     holds (s [10 ^ 18, 10 ^ 18 - 240000000000000]) fun u =>
       [u.fwRuns, decide ((u.core.restarts.filter fun r => decide (u.clock - r < 240000000000000)).length < 2)],
     holds { run with core := { run.core with dogAt := 1 } } fun u => [u.fwRuns, decide (u.clock < u.core.dogAt)],
     holds { journalled with core := { run.core with restarting := some 3, restartPc := some 5, recovered := true } } fun u =>
       [u.core.restarting == some 3, !u.core.halted, u.core.restartPc == some 5, u.core.recovered, u.nextOpen.isSome],
     holds { run with core := { run.core with restarting := some 3, halted := true } } fun u => [u.core.halted]].all id = true := by
  decide

/-- `StartUpRuns`: a reset still held and one no longer, the two recoveries with nothing to do, and the session commit. -/
theorem test_startup_hyps :
    [holds { State.reset with clock := 399999999, core := { Core.reset with heldTo := 400000000 } } fun u =>
       [decide (u.core.boot = .inReset), decide (u.clock < u.core.heldTo)],
     holds { State.reset with clock := 400000000, core := { Core.reset with heldTo := 400000000 } } fun u =>
       [decide (u.core.boot = .inReset), decide (u.core.heldTo ≤ u.clock)],
     holds (held .flashProgram (inBoot .commit run)) fun u =>
       [u.fwRuns, decide (u.core.boot = .commit), decide (u.leave.holding = some .flashProgram), !u.power.brace, u.flash.op.isNone,
        !u.core.recovering, u.rowReady .session],
     holds (inBoot .straps run) fun u => [decide (u.core.boot = .straps)]].all id = true := by decide

/-- `StartUpRuns`, the journal with no entry open. -/
theorem test_no_journal_hyps :
    let s := inBoot .recovery run
    [holds { s with flash := { s.flash with mem := [] } } fun u =>
       [u.fwRuns, !u.core.recovered, decide (4 < u.spares), decide (u.retirements < 508), u.nextOpen.isNone]].all id = true := by
  decide

/-- `StartUpRuns`, row counters: nothing to reconcile. -/
theorem test_reconcile_hyps :
    let s := { inBoot .recovery run with core := { (inBoot .recovery run).core with recovered := true } }
    [holds s fun u => [u.fwRuns, u.core.recovered, !u.core.reconciled, u.reconcile == u]].all id = true := by decide

/-- `StartUpRuns`, the journal: an open entry under its hold and without it. -/
theorem test_journal_hyps :
    [holds (held .flashErase journalled) fun u =>
       [u.fwRuns, !u.core.recovered, u.nextOpen == some 0, decide (u.leave.holding = some .flashErase), !u.power.brace,
        decide ((u.journalWord 0 0).getD 0 % 256 = 1)],
     holds journalled fun u => [u.nextOpen == some 0, decide (u.leave.holding ≠ some .flashErase)]].all id = true := by decide

def rejoin0 : Run :=
  { rejoin := some 0, trigger := .join, startTime := 0, startClock := 0, mask := .const false, outMask := .const false, dieSum := 0, dieN := 0 }

/-- `PllStepRunsAndHoldsOver`, `PllRelocks`: the PLL step at both limits, a loss of lock with and without a run. -/
theorem test_pll_hyps :
    let pll (t : Nat) : State := { inBoot .pll run with clock := t, tb := { run.tb with pllOn := true } }
    let r : Run := { rejoin0 with rejoin := none, trigger := .calPin }
    [holds (pll 20000000000) fun u => [decide (u.core.boot = .pll), u.tb.pllOn, decide (20000000000 ≤ u.clock - u.tb.refinAt)],
     holds (pll 400000000000) fun u => [decide (400000000000 ≤ u.clock - u.tb.refinAt)],
     holds { pll 0 with tb := { (pll 0).tb with refin := true } } fun u => [decide (u.core.boot = .pll), u.tb.refin],
     holds run fun u => [decide (u.core.boot ≠ .pll)],
     holds (inBoot .epoch { run with tb := { run.tb with locked := true } }) fun u =>
       [u.tb.locked, !u.tb.epochSet, decide (u.core.boot = .epoch)],
     holds { held (.join 0) (ch0 (inSt .joining) (timed run)) with
         tb := { (timed run).tb with holdover := true }, cal := { run.cal with joinWaits := some 0 } } fun u =>
       [u.tb.epochSet, u.tb.holdover, u.cal.joinWaits == some 0, u.fwRuns, decide (u.leave.holding = some (.join 0)),
        decide ((u.chan.get 0).st = .joining), u.cal.run.isNone],
     holds (timed run) fun u => [u.tb.locked, u.tb.epochSet, u.cal.run.isNone],
     holds { timed run with cal := { run.cal with run := some r } } fun u => [u.tb.locked, u.tb.epochSet, u.cal.run == some r],
     holds { timed run with tb := { (timed run).tb with holdover := true } } fun u => [u.tb.epochSet, u.tb.holdover]].all id = true := by
  decide

/-- `EpochsAndPpsEdges`: the epoch 1 ms and 2.5 s after lock, an edge that sets it and one too late for that, a checked edge
and a gap. -/
theorem test_epoch_hyps :
    let at_ (t : Nat) (s : State) : State :=
      { inBoot .epoch s with clock := t, tb := { s.tb with locked := true } }
    let pps : State := coded [(0, 11)] run
    [holds (at_ 4000000000 run) fun u => [decide (u.core.boot = .epoch), !u.tb.epochSet, u.tb.locked, u.ppsUse == 0,
       decide (4000000000 ≤ u.clock - u.tb.lockAt)],
     holds (at_ 10000000000000 pps) fun u => [u.ppsUse != 0, decide (10000000000000 ≤ u.clock - u.tb.lockAt),
       decide (u.clock - u.tb.lockAt ≤ 10000000000000), u.strap.latched],
     holds (at_ 10000000000001 pps) fun u => [decide (10000000000000 < u.clock - u.tb.lockAt), u.tb.locked, !u.tb.epochSet],
     holds (timed pps) fun u => [u.ppsUse == 2, u.strap.latched, u.tb.epochSet],
     holds { timed pps with clock := 6000000000001, tb := { (timed pps).tb with lastPps := some 0 } } fun u =>
       [u.tb.lastPps == some 0, u.ppsUse == 2, !u.tb.gapSaid, decide (6000000000000 < u.clock - 0)]].all id = true := by decide

/-- `EpochsAndPpsEdges`, step 6: the epoch with nothing before its skeins, the echo alone in the queue, and a pre-epoch fault. -/
theorem test_start_skein_hyps :
    let e : FaultEvent := { code := 0x91, raised := true, held := true, time := 0, subject := 0, detailA := 0, detailB := 0, occ := 1 }
    let echo : Ctl := { typ := typeEcho, body := [], intro := false }
    let s : State := inBoot .skeins (timed run)
    [holds (inBoot .epoch { run with clock := 4000000000, tb := { run.tb with locked := true } }) fun u =>
       [u.ppsUse == 0, u.sched.late.isEmpty, Chan.all.all fun n => (u.chan.get n).flights.isEmpty, u.fwRuns, u.chain.items.isEmpty,
        u.eng.queue.isEmpty, u.pack.takenAt.isNone, u.pack.ctlQueue.isEmpty, !u.pack.ctlOld, u.pack.released.isEmpty,
        !u.pack.echoDone],
     holds { s with pack := { s.pack with ctlQueue := [echo] } } fun u =>
       [decide (u.core.boot = .skeins), u.fwRuns, u.ctlFree, u.readIdle, !u.pack.ctlOld, u.pack.ctlQueue == [echo]],
     holds { s with pack := { s.pack with echoDone := true }, faults := { s.faults with events := [e] } } fun u =>
       [u.ctlFree, u.readIdle, u.pack.ctlQueue.isEmpty, u.pack.echoDone, u.faults.events == [e]]].all id = true := by decide

/-! ### Presence, joins and loss -/

/-- `JoinsRun`, the beginning: a start-up join, a join with its domain down and up, the PLL unlocked, a domain that is ready
under either hold, and the run that begins in the cycle after. -/
theorem test_join_hyps :
    let r : State := coded [(12, 5)] (timed run)
    let up : Channel := { inSt .joining with up := true }
    let ready : State := ch0 { up with settling := true } r
    let next : State := held (.join 0) ready
    let soon : State := { next with sched := { next.sched with late := [.rejoin 0] } }
    [holds (held (.startupPower 0) (inBoot .chans (ch0 { inSt .joining with startJoin := true } r))) fun u =>
       [u.fwRuns, decide (u.core.boot = .chans), decide (u.leave.holding = some (.startupPower 0)),
        decide ((u.chan.get 0).st = .joining), (u.chan.get 0).startJoin, !(u.chan.get 0).settling, !u.domainHeld 0],
     holds (held (.join 0) (ch0 (inSt .joining) r)) fun u =>
       [u.fwRuns, decide (u.leave.holding = some (.join 0)), u.cal.run.isNone, u.cal.joinWaits.isNone,
        !(u.chan.get 0).settling, !u.domainHeld 0, !(u.chan.get 0).up],
     holds (held (.join 0) (ch0 up r)) fun u => [(u.chan.get 0).up, u.tb.locked],
     holds (held (.join 0) (ch0 up { r with tb := { r.tb with locked := false } })) fun u => [(u.chan.get 0).up, !u.tb.locked],
     holds (held (.startupPower 0) ready) fun u =>
       [(u.chan.get 0).settling, u.sched.late.isEmpty, decide (u.leave.holding = some (.startupPower 0))],
     holds next fun u => [decide (u.leave.holding = some (.join 0)), u.cal.run.isNone, (u.chan.get 0).settling],
     soon.sched.late == [.rejoin 0], Chan.all.all fun m => (soon.chan.get m).flights.isEmpty, decide (soon.toNext ≤ 12800),
     soon.fwRuns, decide (soon.leave.holding = some (.join 0)), decide ((soon.chan.get 0).st = .joining), soon.cal.run.isNone,
     soon.tb.locked].all id = true := by decide

/-- `JoinsRun`, the end of a rejoin run on a channel with 64 stable edges and with 63; `JoinsTouchOneChannel`. -/
theorem test_rejoin_hyps :
    let s (n : Nat) : State := { held (.join 0) (ch0 { inSt .joining with stable := n } run) with
      cal := { run.cal with run := some rejoin0 } }
    [holds (s 64) fun u => [u.fwRuns, u.cal.run == some rejoin0, decide (u.leave.holding = some (.join 0)),
       decide (64 ≤ (u.chan.get 0).stable)],
     holds (s 63) fun u => [decide ((u.chan.get 0).stable < 64)],
     gives (.joinStart 0 0) run run].all id = true := by decide

/-- `LossStopsStamping`: a swing that is lost, and an edge missing for just over 10 µs on a suspended channel. -/
theorem test_loss_hyps :
    [holds (ch0 (inSt .present) run) fun u => [(u.chan.get 0).loss.isNone, decide ((u.chan.get 0).st = .present)],
     holds { ch0 { inSt .suspended with lastEdge := some 0 } run with clock := 40000001 } fun u =>
       [(u.chan.get 0).loss.isNone, decide ((u.chan.get 0).st = .suspended), (u.chan.get 0).lastEdge == some 0,
        decide (max 40000000 (min 40000000000000 (4 * (u.chan.get 0).intervals.foldl max 0)) < u.clock - 0)]].all id = true := by
  decide

/-- `LossesAndInputFaults`. -/
theorem test_loss_handling_hyps :
    let r : LossRec := { time := 1, full := 1, count := 2, session := 0 }
    [holds (ch0 { inSt .absentUp with loss := some r } run) fun u =>
       [(u.chan.get 0).loss == some r, u.fwRuns, decide ((u.chan.get 0).st ≠ .suspended)],
     holds { ch0 (inSt .absentUp) run with clock := 40000000000000 } fun u =>
       [decide ((u.chan.get 0).st = .absentUp), decide (40000000000000 ≤ u.clock - (u.chan.get 0).absentAt)],
     holds { ch0 (inSt .absentUp) run with clock := 39999999999999 } fun u =>
       [decide (u.clock - (u.chan.get 0).absentAt < 40000000000000)],
     holds (ch0 { inSt .absentDown with up := true } run) fun u =>
       [(u.chan.get 0).up, decide ((u.chan.get 0).st = .absentDown), !u.inPath 0],
     holds (ch0 (inSt .absentDown) (timed (coded [(14, 5)] run))) fun u =>
       [u.tb.epochSet, u.declared 0, decide ((u.chan.get 0).st ≠ .present), decide ((u.chan.get 0).st ≠ .suspended), u.frontOn 0]].all
      id = true := by decide

def set0 : CalSet := { temp := 0, chans := .const none, outs := .const none }

/-- `MeasurementsAct`. -/
theorem test_measure_hyps :
    [holds (coded [(1, 4)] run) fun u => [u.frontOn 0, u.autoLevel],
     holds { run with cal := { run.cal with work := some set0, sessionDrawer := some set0 } } fun u =>
       [u.fwRuns, u.cal.work.isSome, !u.calSets.isEmpty],
     holds run fun u => [u.outOfReset, u.strap.latched, u.fwRuns, !u.ntc],
     holds (coded [(12, 12)] run) fun u => [u.fwRuns, u.strap.latched, u.ntc]].all id = true := by decide

/-! ### Core, domains, drift, follower, tasks -/

/-- The stream port in a state, its domain up and its host ready. -/
def port (st : Port) (s : State) : State := { s with port := { s.port with st := st, up := true, host := true } }

/-- `CoreAndDomainsRestart`, the domains: the third failure of a channel's domain in each state it may be in, of the stream
port's, the outputs' and the snapshot port's, a restoration 10 ms after the fault, one too early, a clear. -/
theorem test_domain_hyps :
    let p (n : Nat) : Power := { Power.reset with fails := (List.replicate 11 0).set 0 n }
    [holds (ch0 { inSt .absentDown with up := true } { run with power := p 2 }) fun u =>
       [u.outOfReset, u.domainUp 0, decide (u.power.fails.length = 11)],
     [ChanState.present, .suspended, .joining].all fun st =>
       holds (ch0 { inSt st with up := true } run) fun u => [u.domainUp 0, (u.chan.get 0).loss.isNone],
     holds (port .drain run) fun u => [u.domainUp 8],
     holds { run with snap := { run.snap with up := true }, ao := { run.ao with up := true } } fun u => [u.domainUp 9, u.domainUp 10],
     holds { run with clock := 40000000000, power := { p 2 with downAt := [(0, 0)] } } fun u =>
       [u.power.downAt.find? (fun d => d.1 == 0) == some (0, 0), decide (40000000000 ≤ u.clock - 0),
        decide (u.power.fails.getD 0 0 < 3)],
     holds { run with clock := 39999999999, power := { p 3 with downAt := [(0, 0)] } } fun u =>
       [decide (u.clock - 0 < 40000000000), decide (3 ≤ u.power.fails.getD 0 0)],
     holds (ch0 { inSt .absentDown with up := true } { run with power := { p 1 with upAt := [(0, 0)] } }) fun u =>
       [u.power.upAt.find? (fun d => d.1 == 0) == some (0, 0), u.domainUp 0]].all id = true := by decide

/-- `DriftReads`: a first read that differs, the second in a row, a skipped one, one whose turn is over, and one that a stall
has carried past its second. -/
theorem test_drift_hyps :
    let s (d : DriftPin) : State := let c := coded [] run; { c with strap := { c.strap with drift := List.replicate 23 d } }
    [holds (s { prev := none, inDrift := false }) fun u =>
       [u.fwRuns, u.strap.latched, !u.power.brace, u.cal.run.isNone, u.strap.drift[0]? == some { prev := none, inDrift := false },
        (u.driftStates 0 0).2 != (u.driftStates 0 0).1, u.strap.driftOwed.isNone, decide (u.strap.driftDone ≤ 0)],
     holds (s { prev := some true, inDrift := false }) fun u => [u.strap.drift[0]? == some { prev := some true, inDrift := false }],
     holds (let d := s { prev := none, inDrift := false }; { d with strap := { d.strap with driftDone := 1 } }) fun u =>
       [u.strap.driftOwed.isNone, decide (u.strap.driftSec = (u.clock - u.strap.at_) / 4000000000000),
        decide (0 < u.strap.driftDone)],
     holds (let d := s { prev := none, inDrift := false }; { d with strap := { d.strap with driftDone := 1, driftOwed := some 0 } })
       fun u => [u.strap.driftOwed == some 0],
     holds { s { prev := none, inDrift := false } with power := { Power.reset with brace := true } } fun u => [u.power.brace]].all
      id = true := by decide

def tach (f : Follower) : State := { timed (coded [(6, 5)] late) with fol := f }

/-- `FollowerWorks`, events: good in lock, bad in lock, the second good one while coasting, the one that acquires, one too
weak and one too close to count. -/
theorem test_event_hyps :
    let f : Follower := { Follower.reset with period := 4000000000, phaseAt := 10 ^ 18, goodAt := 10 ^ 18 - 4000000000 }
    [holds (tach { f with st := 2 }) fun u =>
       [u.tb.epochSet, u.phaseType == 2, !u.angleIssued, u.fol.st == 2, decide ((u.pulseEvent 0).err.natAbs ≤ 1024),
        decide (2 * (u.clock - u.fol.goodAt) ≤ 3 * u.fol.period), !u.fol.weak,
        goodInterval (u.pulseEvent 0).interval],
     holds (tach { f with st := 2, goodAt := 0 }) fun u => [decide (3 * u.fol.period < 2 * (u.clock - u.fol.goodAt))],
     holds (tach { f with st := 3, goodRun := 1 }) fun u =>
       [u.fol.st == 3, u.fol.goodRun == 1, decide ((u.pulseEvent 0).err.natAbs ≤ 64), !u.fol.weak,
        goodInterval (u.pulseEvent 0).interval],
     holds (tach { f with st := 1, acquired := 7 }) fun u =>
       [u.fol.st == 1, u.fol.acquired == 7, goodInterval (u.pulseEvent 0).interval, decide ((u.pulseEvent 0).err.natAbs ≤ 64), !u.fol.weak],
     holds (tach { f with st := 1, weak := true }) fun u => [u.fol.st == 1, u.fol.weak],
     holds { tach f with sched := { Sched.reset with
         slots := Sched.reset.slots.set 0 (some { task := .angle true true false, after := 0, prev := none })
         ticked := [(0, 10 ^ 18 / 12800 + 1)] } } fun u => [u.angleIssued],
     holds (tach { f with st := 1, events := [10 ^ 18 - 799999999] }) fun u =>
       [u.fol.st == 1, (u.pulseEvent 0).interval == some 799999999, decide (799999999 < 800000000)]].all id = true := by decide

/-- `FollowerWorks`, the rest: quadrature steps, a late event, a coast that has run its 8 turns, the fault commands. -/
theorem test_follower_hyps :
    [holds { timed (coded [(6, 0)] run) with fol := { Follower.reset with st := 2 } } fun u =>
       [u.tb.epochSet, u.phaseType == 1, !u.angleIssued, u.fol.st == 2, (u.faults.period 0x2C 0).isNone],
     holds (tach { Follower.reset with st := 2 }) fun u => [u.phaseType == 2, u.fol.st == 2],
     holds (tach { Follower.reset with st := 3, lockedPeriod := 10 ^ 18 / 8 }) fun u =>
       [u.fol.st == 3, decide (2 ^ u.coastLog2 * u.fol.lockedPeriod ≤ u.clock - u.fol.goodAt)],
     holds (tach { Follower.reset with st := 1 }) fun u => [u.tb.epochSet, u.hasPhase, u.fol.st == 1, u.outOfReset],
     holds (coded [(6, 10)] run) fun u => [u.outOfReset, u.phaseType == 3]].all id = true := by decide

/-- A flash operation of the firmware runs, so that the core is stalled. -/
def stalled : State :=
  { run with flash := { run.flash with op := some {
      kind := .erase 0x1CC, service := false, journal := none, startedAt := 0, used := 0, done := 0, retries := 0, running := true } } }

/-- `TasksArmAndCancel`: a slot cancelled in this cycle and one that is not, one that has issued in it, and a stall. -/
theorem test_task_hyps :
    [holds run fun u => [u.fwRuns, decide (u.sched.slots.length = 16), !u.issued 3,
       !u.cancelledNow 3, !u.slotClosed 3, advance 0 u == u],
     holds { run with sched := { Sched.reset with cancelled := [(3, 1)] } } fun u => [u.cancelledNow 3, !u.slotClosed 3],
     holds { run with sched := { Sched.reset with ticked := [(3, 1)] } } fun u => [u.issued 3, u.slotClosed 3],
     holds stalled fun u => [!u.fwRuns, u.stalled, decide (u.sched.slots.length = 16)]].all
      id = true := by decide

/-! ### The cabinet and the ports -/

/-- The raw ring and the shelf as given. -/
def stored (raw shelf : List Skein) (s : State) : State :=
  { s with cab := { s.cab with raw := { s.cab.raw with held := raw }, shelf := { s.cab.shelf with held := shelf } } }

def raw1 : Skein := { skein typeLive 1 with body := .raw (.const 0) [] }

/-- The transmission of a skein. -/
def tx (k : Skein) (src : Src) (low : Bool) : Tx := { src := src, skein := k, again := false, lowSeen := low, gone := false }

/-- A transmission out of DRAIN that ended in the first cycle. -/
def justEnded (src : Src) (flushed : Bool) : Ended :=
  { cycle := 1, tx := tx raw1 src false, st := .drain, readA := 0, readB := 0, holes := [], scrubPos := 0, freed := 0,
    scrubLeft := 0, flushed := flushed }

/-- `StoresTakeSkeins`: a raw skein, one of the introduction, a status skein at the last place it fits on the shelf and one byte
past it, the same thinned, kept for its start record, and kept for its ten minutes. -/
theorem test_take_up_hyps :
    let st : Skein := skein typeStatus 2
    let s (k : Skein) (n : Nat) : State :=
      { run with pack := { run.pack with released := [k] }
                 cab := { run.cab with shelf := { Store.reset with bytes := n } } }
    let top : Nat := run.capacity .shelf - 65536 - st.size
    [holds (s raw1 0) fun u => [u.pack.released == [raw1], !u.cab.burst, !raw1.intro, !u.thins raw1,
       (u.store raw1.home).mismatch.isNone, raw1.home == .raw, decide ((u.store .raw).bytes + raw1.size ≤ u.capacity .raw)],
     holds (s st top) fun u => [!u.thins st, (u.store st.home).mismatch.isNone, st.home == .shelf,
       decide ((u.store .shelf).bytes + st.size + 65536 ≤ u.capacity .shelf)],
     holds (s st (top + 1)) fun u => [decide (u.capacity .shelf < (u.store .shelf).bytes + st.size + 65536)],
     holds (s { raw1 with intro := true } 0) fun u => [!u.cab.burst, u.pack.released == [{ raw1 with intro := true }]],
     holds (s { st with body := .bytes (le 8 1 ++ le 4 0) } 0) fun u =>
       [!u.partner, !(leNat (((le 8 1 ++ le 4 0).drop 8).take 4)).testBit 0,
        fullOf 0 (BitVec.ofNat 64 (leNat ((le 8 1 ++ le 4 0).take 8))) % 2400000000000000 != 0],
     (leNat (((le 8 1 ++ le 4 1).drop 8).take 4)).testBit 0,
     fullOf 0 (BitVec.ofNat 64 (leNat ((le 8 2400000000000000 ++ le 4 0).take 8))) % 2400000000000000 == 0,
     holds { s raw1 0 with cab := { run.cab with burst := true } } fun u => [u.cab.burst]].all id = true := by decide

/-- `StoresAreKept`. -/
theorem test_store_hyps :
    let r : StoreRun := { time := 1, firstSeq := 2, n := 3 }
    let b (t : Nat) : State := { run with clock := t, cab := { run.cab with extRefresh := true, burstAt := some 0 } }
    let m : State := { run with cab := { run.cab with raw := { Store.reset with held := [raw1], mismatch := some 4 } } }
    [holds { run with cab := { run.cab with runsClosed := [(.raw, r)] } } fun u =>
       [u.cab.runsClosed == [(.raw, r)], u.fwRuns, u.pack.ctlQueue.isEmpty, u.ctlFree, u.readIdle, !u.pack.ctlOld],
     holds (b 128000000000) fun u => [u.cab.extRefresh, !u.cab.burst, u.cab.burstAt == some 0, decide (128000000000 ≤ u.clock - 0)],
     holds (b 127999999999) fun u => [decide (u.clock - 0 < 128000000000)],
     holds { stored [raw1] [] run with clock := 256000000000000 } fun u =>
       [u.fwRuns, !u.cab.scrubbing, !u.cab.raw.held.isEmpty, u.leave.holding.isNone, !u.leave.reqs.contains .scrub,
        decide (256000000000000 ≤ u.clock - u.cab.scrubAt)],
     holds (stored [raw1] [] run) fun u => [decide (u.clock - u.cab.scrubAt < 256000000000000)],
     holds (held .scrub (stored [raw1] [] run)) fun u =>
       [u.fwRuns, decide (u.leave.holding = some .scrub), !u.cab.scrubbing, u.cab.raw.held == [raw1],
        !u.cab.burst, !u.power.brace, decide (0 < u.scrubReads 0)],
     holds (held .scrub run) fun u => [decide (u.leave.holding = some .scrub), !u.cab.scrubbing,
        u.cab.raw.sound (u.capacity .raw), u.cab.shelf.sound (u.capacity .shelf)],
     holds (held .scrub { run with cab := { run.cab with scrubbing := true } }) fun u =>
       [decide (u.leave.holding = some .scrub), u.cab.scrubbing],
     holds { m with port := { m.port with tx := some (tx raw1 (.store .raw) false) } } fun u =>
       [(u.store .raw).mismatch == some 4, u.cab.scrubIn == .raw, u.port.tx.isSome]].all id = true := by decide

def flushing : State := { stored [raw1] [skein typeStatus 2] (timed run) with
  cab := { (stored [raw1] [skein typeStatus 2] run).cab with flushing := true } }

/-- `FlushRequestsJoin`, `FlushesDiscard`: a flush with the port idle, one in the cycle in which a skein has ended, and one
that waits for a transmission. -/
theorem test_flush_hyps :
    [holds flushing fun u => [u.tb.epochSet, u.cab.flushing, u.port.tx.isNone, u.chain.hwWait.isEmpty, decide (u.chain.buffer.length < 8)],
     holds { flushing with port := { flushing.port with ended := some (justEnded (.store .raw) false) } } fun u =>
       [u.port.tx.isNone, u.port.ended == some (justEnded (.store .raw) false)],
     holds { flushing with port := { flushing.port with tx := some (tx raw1 (.store .raw) false) } } fun u => [u.port.tx.isSome]].all
      id = true := by decide

/-- `PortFollowsItsHost`: a high in each state it finds, among the lows one with nothing in flight, one that cuts a skein off,
and three in the cycle in which a skein has ended: of a store, of a store flushed since, of the introduction. -/
theorem test_port_hyps :
    let low (t : Nat) : State := { port .paused run with clock := t, port := { (port .paused run).port with host := false } }
    let back (st : Port) : State := { low 0 with port := { (low 0).port with pausedFrom := st } }
    let three : List Ended := [justEnded (.store .raw) false, justEnded (.store .raw) true, justEnded .intro false]
    [[Port.align, .introducing, .drain].all fun st => holds (back st) fun u =>
       [u.outOfReset, !u.port.host, decide (u.port.st = .paused), decide (u.port.pausedFrom = st)],
     holds run fun u => [!u.port.host, decide (u.port.st ≠ .paused)],
     holds (port .drain run) fun u => [decide (u.port.st ≠ .paused), decide (u.port.st = .drain), u.port.tx.isNone, u.port.up, u.port.ended.isNone],
     three.all fun e => holds { port .drain run with port := { (port .drain run).port with ended := some e } } fun u =>
       [u.port.host, u.port.ended == some e, e.cycle == u.cycle, u.port.tx.isNone, decide (e.st = .drain), !e.tx.gone,
        !e.tx.lowSeen],
     holds { port .introducing run with port := { (port .introducing run).port with tx := some (tx raw1 (.store .raw) false) } } fun u =>
       [decide (u.port.st = .introducing), u.port.tx == some (tx raw1 (.store .raw) false), u.chain.hwWait.isEmpty,
        decide (u.chain.buffer.length < 8)],
     holds { run with port := { run.port with host := true }, pack := { run.pack with echoDone := true } } fun u =>
       [u.fwRuns, decide (u.port.st = .down), u.port.host, !u.port.shorted, u.pack.echoDone, !u.power.standby, !u.streamOff,
        !u.domainHeld 8],
     holds (low 40000000000000) fun u =>
       [u.fwRuns, decide (u.port.st = .paused), !u.port.host, decide (40000000000000 ≤ u.clock - u.port.lowAt), u.port.tx.isNone],
     holds (low 39999999999999) fun u => [decide (u.clock - u.port.lowAt < 40000000000000)]].all id = true := by decide

/-- `PortSends`, introduction: with a report and without one, the columns sent before and after. -/
theorem test_intro_hyps :
    let s : State := port .align run
    [holds s fun u => [u.port.up, decide (u.port.st = .align), u.fwRuns, !u.port.introClosed, !u.port.introOwed, !u.introHeld,
       u.pack.ctlQueue.isEmpty, u.ctlFree, u.readIdle, !u.pack.ctlOld, u.cal.report.isNone],
     holds { s with cal := { s.cal with report := some [1] } } fun u => [u.cal.report.isSome, !u.introHeld],
     holds { s with port := { s.port with introClosed := true } } fun u => [u.port.introClosed, !u.introWaits]].all id = true := by
  decide

/-- `PortSends`, the drain: both stores hold a skein, in close order, interleaved, and with one cut off. -/
theorem test_drain_hyps :
    let s : State := port .drain (stored [raw1] [skein typeStatus 2] run)
    let i : State := coded [(11, 2)] s
    let c : State := { s with port := { s.port with cut := [(.store .shelf, 0, 2)] } }
    [holds s fun u => [u.port.up, u.port.host, u.port.tx.isNone, decide (u.port.st = .drain), !u.cab.burst, !u.cab.flushing,
       u.drainChoice == some (.raw, raw1), (u.store .raw).mismatch.isNone, u.port.cut.isEmpty, !u.interleaved,
       decide (u.port.freeAt ≤ u.clock), (u.store .raw).sound (u.capacity .raw), decide (raw1.closeNo ≠ (skein typeStatus 2).closeNo)],
     holds i fun u => [u.interleaved, u.port.cut.isEmpty, u.drainChoice == some (.shelf, skein typeStatus 2)],
     holds c fun u => [u.port.cut == [(.store .shelf, 0, 2)], u.drainChoice == some (.shelf, skein typeStatus 2)],
     holds { s with port := { s.port with tx := some (tx raw1 (.store .raw) false) } } fun u =>
       [u.port.tx == some (tx raw1 (.store .raw) false), (u.store .raw).held == [raw1]],
     holds { s with port := { s.port with tx := some (tx raw1 .intro false) } } fun u => [u.port.tx == some (tx raw1 .intro false)],
     holds { s with port := { s.port with tx := some (tx raw1 .intro true) } } fun u =>
       [u.port.tx == some (tx raw1 .intro true)],
     holds { s with port := { s.port with tx := some { tx raw1 (.store .raw) false with gone := true }, freeAt := 1, idleMin := 2,
                                            prompt := true } } fun u =>
       [u.port.tx == some { tx raw1 (.store .raw) false with gone := true }, decide (u.clock < u.port.freeAt),
        decide (u.port.idleMin = 2), u.port.prompt]].all id = true := by decide

/-- `FirmwareSkeinsClose`: 10 s of session time, a fault waiting, and a period that is over with and without occurrences. -/
theorem test_firmware_skein_hyps :
    let e : FaultEvent := { code := 0x12, raised := true, held := false, time := 0, subject := 0, detailA := 0, detailB := 0, occ := 1 }
    let p (n : Nat) : LogPeriod := { code := 0x30, ch := 0, since := 0, acc := n, firstTime := 1, subject := 1, detailB := 0 }
    let f (n : Nat) : State := { late with faults := { late.faults with periods := [p n] } }
    [holds { timed run with tb := { (timed run).tb with time := 40000000000000 } } fun u =>
       [u.tb.epochSet, u.gridInstant 40000000000000 == some (1, 40000000000000), u.fwRuns, u.pack.ctlQueue.isEmpty, u.ctlFree,
        u.readIdle, !u.pack.ctlOld],
     holds { run with faults := { run.faults with events := [e] }, pack := { run.pack with echoDone := true } } fun u =>
       [u.faults.events == [e], u.fwRuns, u.pack.echoDone, u.pack.ctlQueue.isEmpty, u.ctlFree, u.readIdle, !u.pack.ctlOld],
     holds { queued none with faults := { run.faults with events := [e] } } fun u =>
       [u.faults.events == [e], u.fwRuns, u.pack.echoDone, u.pack.ctlQueue.isEmpty, u.ctlFree, !u.readIdle,
        decide (u.core.boot ≠ .skeins)],
     holds { run with faults := { run.faults with events := [e] } } fun u => [!u.pack.echoDone],
     holds (f 0) fun u => [u.outOfReset, u.faults.period 0x30 0 == some (p 0), decide (logPeriod 0x30 ≤ u.clock - (p 0).since)],
     holds (f 5) fun u => [u.faults.period 0x30 0 == some (p 5), decide ((p 5).acc ≠ 0)]].all id = true := by decide

/-- `SnapshotsLatch`: the last word of channel 0's stitch group, in 8-bit mode the low byte of it, a reserved address, a group
that times out, the word of it that releases it and one that does not; at the board's 30 pF and at 60 pF. -/
theorem test_snapshot_hyps :
    let s : State := { run with snap := { run.snap with up := true } }
    let l : Latch := { g := .pps, words := [1, 2, 3, 4], readLow := [0xB0, 0xB1, 0xB2], readHigh := [0xB0, 0xB1, 0xB2], lastAt := 0 }
    let at60 : State := { s with snap := { s.snap with load := 60 } }
    [holds run fun u => [!u.snap.up],
     holds s fun u => [u.snap.up, !u.strap.sbyte, groupOf ((14 : BitVec 9).toNat / 2) == some (.stitch 0),
       (groupWords (.stitch 0))[7]? == some 7, u.snap.latches.isEmpty, (groupOf ((0x1FF : BitVec 9).toNat / 2)).isSome,
       (groupOf ((0x10C : BitVec 9).toNat / 2)).isNone, decide (u.snap.load ≤ 60), decide (12000 + 80 * (u.snap.load - 30) ≤ 12000),
       decide (u.snap.selectedTo ≤ u.clock)],
     holds at60 fun u => [decide (u.snap.load ≤ 60), decide (12000 + 80 * (u.snap.load - 30) ≤ 14400)],
     holds { s with strap := { s.strap with sbyte := true } } fun u => [u.strap.sbyte, !(14 : BitVec 9).getLsbD 0],
     holds { s with snap := { s.snap with latches := [l] } } fun u =>
       [u.snap.latches.find? (fun l => l.g == .pps) == some l, decide (u.clock ≤ l.lastAt + 8200000),
        groupOf ((0x166 : BitVec 9).toNat / 2) == some .pps, groupOf ((0x164 : BitVec 9).toNat / 2) == some .pps,
        (groupWords .pps).all fun x => (x == (0x166 : BitVec 9).toNat / 2) || (l.readLow.contains x && l.readHigh.contains x),
        (groupWords .pps).any fun x => !((x == (0x164 : BitVec 9).toNat / 2) || (l.readLow.contains x && l.readHigh.contains x))]].all
      id = true := by decide

/-! ### Analog outputs -/

def inOut (st : OutState) : Output := { Output.reset with st := st }

/-- `OutputsUpdateAndReadBack`, the update: a driven output with no value, with one, and one ready to connect. -/
theorem test_update_hyps :
    let s : State := timed (tasked (.time 32000 false true) (coded [(7, 0), (9, 3)] run))
    [holds (out0 (inOut .driven) s) fun u => [u.tb.epochSet, u.updateDue == some (0, 128000), !u.power.brace,
       decide ((u.ao.outs.get 0).st = .driven), (u.updateValue 0 false).isNone],
     holds (out0 { inOut .driven with last := some 3, centre := some 2 } s) fun u =>
       [u.updateValue 0 false == some 3, decide (u.aoSource 0 ≠ .dieTemp), (u.deviation 0 3).isSome],
     holds (coded [(9, 1)] (out0 (inOut .idle) { s with ao := { s.ao with outs := s.ao.outs.set 1 { inOut .driven with last := some 25 } } })) fun u =>
       [decide (u.aoSource 1 = .dieTemp), u.updateValue 1 false == some 25],
     holds (out0 (inOut .ready) s) fun u => [decide ((u.ao.outs.get 0).st = .ready)],
     holds (out0 (inOut .driven) { s with power := { Power.reset with brace := true } }) fun u => [u.power.brace]].all id = true := by
  decide

/-- `OutputsUpdateAndReadBack`, the read-back at 20 µs, within 0.5 % of span and outside, at the second and the third mismatch. -/
theorem test_read_back_hyps :
    let s (n t : Nat) : State := out0 { inOut .driven with code := 131072, mismatches := n } { coded [(7, 0)] run with clock := t }
    [holds (s 1 40000000000) fun u => [decide (80000000 ≤ u.clock - (u.ao.outs.get 0).codeAt), !u.power.brace,
       decide (40000000000 ≤ u.clock - u.power.returnAt), u.cal.run.isNone, decide ((u.ao.outs.get 0).st = .driven),
       decide ((u.ao.outs.get 0).mismatches < 2)],
     holds (s 2 40000000000) fun u => [decide (2 ≤ (u.ao.outs.get 0).mismatches), u.aoSpan 0 == 0],
     holds (s 0 79999999) fun u => [decide (u.clock - (u.ao.outs.get 0).codeAt < 80000000)]].all id = true := by decide

/-- The level at mid code of a 0 to 5 V output: 10 mV beside it lies within 0.5 % of span, 26 mV outside. -/
theorem test_read_back_span (s : State) (h : s.aoSpan 0 = 0) :
    ¬((spanHigh (s.aoSpan 0) - spanLow (s.aoSpan 0) : Int) : Rat) / 200 < |((2510000 : Int) : Rat) - s.level 0 131072| ∧
      ((spanHigh (s.aoSpan 0) - spanLow (s.aoSpan 0) : Int) : Rat) / 200 < |((2526000 : Int) : Rat) - s.level 0 131072| := by
  unfold State.level
  rw [h, show (131072 : BitVec 18).toNat = 131072 from by decide]
  norm_num [spanLow, spanHigh, pickInt, abs_of_nonneg]

/-- Full scale of a 0 to 20 mA output lies above the 0.5 mA the headroom detector needs. -/
theorem test_headroom_level (s : State) (h : s.aoSpan 0 = 4) : (500000 : Rat) ≤ s.level 0 262143 := by
  unfold State.level
  rw [h, show (262143 : BitVec 18).toNat = 262143 from by decide]
  norm_num [spanLow, spanHigh, pickInt]

/-- `OutputsAreEstablished`: a voltage and a current output that start, one that lacks trims, stages that are ready, a retry. -/
theorem test_establish_hyps :
    let v : State := coded [(7, 0), (9, 3), (4, 1)] { late with cal := { late.cal with trims := true } }
    let c : State := coded [(7, 4), (9, 3), (4, 1)] { late with cal := { late.cal with trims := true } }
    let a : Output := { inOut .idle with last := some 2 }
    [holds (out0 a v) fun u => [u.fwRuns, decide ((u.ao.outs.get 0).st = .idle), u.almostEnabled 0, u.cal.trims, !u.aoCurrent 0],
     holds (out0 a c) fun u => [u.almostEnabled 0, u.cal.trims, u.aoCurrent 0],
     holds (out0 a { v with cal := { v.cal with trims := false }, faults := { v.faults with active := [(0x65, 0xFF)] } }) fun u =>
       [u.almostEnabled 0, !u.cal.trims, u.faultActive 0x65 0xFF],
     holds (held (.stagePower 0) (out0 (inOut .leaving) c)) fun u =>
       [u.aoCurrent 0, decide ((u.ao.outs.get 0).st = .leaving), decide (u.leave.holding = some (.stagePower 0))],
     holds (out0 (inOut .powering) v) fun u => [!u.aoCurrent 0, decide ((u.ao.outs.get 0).st = .powering),
       u.railsMeet 0 7500 0, !u.railsMeet 0 7499 0],
     holds (out0 (inOut .breaking) v) fun u => [decide ((u.ao.outs.get 0).st = .breaking)],
     holds { out0 { a with st := .faulted } v with clock := 4000000000000 } fun u =>
       [u.fwRuns, decide ((u.ao.outs.get 0).st = .faulted), u.almostEnabled 0,
        decide ((u.ao.outs.get 0).wait * 4000000000000 ≤ u.clock - (u.ao.outs.get 0).faultAt)],
     holds { out0 { a with st := .faulted } v with clock := 3999999999999 } fun u =>
       [decide (u.clock - (u.ao.outs.get 0).faultAt < (u.ao.outs.get 0).wait * 4000000000000)],
     holds { out0 (inOut .driven) v with clock := 4000000000000 } fun u =>
       [decide ((u.ao.outs.get 0).st = .driven), decide (4000000000000 ≤ u.clock - (u.ao.outs.get 0).connectedAt)]].all id = true := by
  decide

/-- `OutputFaults`, one witness for each of the four commands. -/
theorem test_output_fault_hyps :
    let v : State := out0 { inOut .driven with code := 262143 } (coded [(7, 0)] late)
    let c : State := out0 { inOut .driven with code := 262143 } (coded [(7, 4)] late)
    [holds v fun u => [!u.aoCurrent 0, decide ((u.ao.outs.get 0).st = .driven), !u.railsMeet 0 7499 0,
       u.stagePowered 0],
     holds c fun u => [u.aoCurrent 0, decide ((u.ao.outs.get 0).st = .driven), !u.power.brace,
       decide (40000000000 ≤ u.clock - u.power.returnAt), u.aoSpan 0 == 4, (u.ao.outs.get 0).code == 262143]].all id = true := by
  decide

/-! ### Calibration and flash -/

def fullRun : Run := { rejoin0 with rejoin := none, trigger := .calPin }

/-- `RunRequestsMerge`: a request with none pending and with one, before the epoch, and temperatures beyond and at the delta. -/
theorem test_request_hyps :
    let s : State := coded [(12, 5)] (timed late)
    let w (r : Run) : State := { s with cal := { s.cal with run := some r } }
    let t (l : Option Nat) : State := { s with cal := { s.cal with lastTemp := some 0, lastEnd := l } }
    [holds s fun u => [u.outOfReset, u.tb.epochSet, u.cal.pending.isNone],
     holds { s with cal := { s.cal with pending := some .startup } } fun u => [u.cal.pending.isSome],
     holds run fun u => [!u.tb.epochSet, u.outOfReset],
     holds { stalled with tb := s.tb } fun u => [!u.fwRuns, u.stalled, u.outOfReset],
     holds (w fullRun) fun u => [u.cal.run == some fullRun, fullRun.rejoin.isNone],
     holds (w rejoin0) fun u => [u.cal.run == some rejoin0, rejoin0.rejoin.isSome],
     holds (t (some (10 ^ 18 - 40000000000000))) fun u =>
       [u.fwRuns, u.delta128 == some 32, u.cal.lastTemp == some 0, decide (((32 : Nat) : Int) < ((33 : Int) - 0).natAbs),
        decide (((32 : Int) - 0).natAbs ≤ ((32 : Nat) : Int)), u.cal.lastEnd == some (10 ^ 18 - 40000000000000),
        decide (40000000000000 ≤ u.clock - (10 ^ 18 - 40000000000000))],
     holds (t (some (10 ^ 18 - 39999999999999))) fun u => [decide (u.clock - (10 ^ 18 - 39999999999999) < 40000000000000)]].all
      id = true := by decide

/-- `RunsAreChecked`: the pre-check begins at once, 1 s after a failed one, and for a join; it waits for a report; a reading
comes with a run pending and without; the first second of the calibration step. -/
theorem test_check_hyps :
    let s (f : Option Nat) : State := { run with clock := 4000000000000, cal := { run.cal with pending := some .startup, failedAt := f } }
    let c (t : Nat) : State := { inBoot .calib run with clock := t }
    [holds (s none) fun u => [u.fwRuns, u.cal.checking.isNone, !u.cal.passed, u.cal.run.isNone, !u.reportWaits,
       u.cal.pending.isSome, u.cal.failedAt.isNone],
     holds (s (some 0)) fun u => [u.cal.failedAt == some 0, decide (4000000000000 ≤ u.clock - 0)],
     holds (s (some 1)) fun u => [decide (u.clock - 1 < 4000000000000)],
     holds (ch0 (inSt .qualified) run) fun u => [u.cal.checking.isNone, u.cal.run.isNone, u.cal.pending.isNone, u.joinAhead],
     holds { s none with pack := { run.pack with ctlQueue := [{ typ := typeReport, body := [], intro := false }] } } fun u =>
       [u.cal.pending.isSome, u.reportWaits, u.cal.checking.isNone, u.cal.run.isNone],
     holds { run with clock := 8000000002, cal := { run.cal with checking := some 2 } } fun u =>
       [u.cal.checking == some 2, u.cal.pending.isNone, decide (8000000000 ≤ u.clock - 2)],
     holds { run with clock := 8000000002, cal := { run.cal with pending := some .startup, checking := some 2 } } fun u =>
       [u.fwRuns, u.cal.checking == some 2, u.cal.pending.isSome],
     holds { run with clock := 8000000001, cal := { run.cal with checking := some 2 } } fun u => [decide (u.clock - 2 < 8000000000)],
     holds (inBoot .chans run) fun u => [u.fwRuns, decide (u.core.boot ≠ .calib), decide (u.core.boot ≠ .ready)],
     holds (c 4000000000000) fun u => [decide (u.core.boot = .calib), !u.cal.startupDone, u.cal.run.isNone, !u.cal.passed,
       decide (4000000000000 ≤ u.clock - u.cal.stepAt)],
     holds (c 3999999999999) fun u => [decide (u.clock - u.cal.stepAt < 4000000000000)],
     holds { c 4000000000000 with flash := { run.flash with mem := [] } } fun u => [u.drawers.isEmpty]].all id = true := by decide

def settled (a : Bool) : RunResult :=
  { rejoin := none, trigger := .calPin, startTime := 0, endTime := 0, mask := .const true, outMask := .const true, rref := 1,
    temp := 0, set := set0, chans := .const none, outs := .const none, session := 0, abandoned := a }

/-- `FullRunsSuspendAndSettle`: a run that begins and one that ends, with a channel of each kind. -/
theorem test_full_run_hyps :
    let s : State := held .fullRun (ch0 (inSt .present) (timed run))
    [holds { s with cal := { s.cal with pending := some .calPin, passed := true } } fun u =>
       [u.fwRuns, u.cal.pending == some .calPin, decide (u.leave.holding = some .fullRun), u.tb.locked, u.cal.passed,
        decide (u.core.boot = .ready), u.cal.run.isNone, decide ((u.chan.get 0).st = .present)],
     holds { held .fullRun (ch0 (inSt .suspended) (timed run)) with cal := { run.cal with run := some fullRun } } fun u =>
       [u.fwRuns, u.cal.run == some fullRun, fullRun.rejoin.isNone, decide (u.leave.holding = some .fullRun),
        decide ((u.chan.get 0).st = .suspended), !(u.chan.get 0).startJoin, (u.chan.get 0).loss.isNone],
     holds { held .fullRun (ch0 { inSt .joining with startJoin := true } (inBoot .calib (timed run))) with
         cal := { run.cal with run := some fullRun } } fun u =>
       [decide (u.core.boot = .calib), decide ((u.chan.get 0).st = .joining), (u.chan.get 0).startJoin]].all id = true := by decide

/-- A result waits for its settlement, with nothing stored. -/
def settling (a : Bool) (s : State) : State :=
  { s with flash := { s.flash with mem := [] }, cal := { s.cal with results := [settled a] } }

/-- `FullRunsSuspendAndSettle`, the settlement: abandoned, read-only, written under its hold, and first to be compacted, with
54 sectors of the drawer area in use. -/
theorem test_settle_hyps :
    [holds (settling true run) fun u => [u.fwRuns, u.nextCommit == some (settled true, 0, none), !u.gapOnTheWay, (settled true).abandoned],
     holds (settling false run) fun u => [u.nextCommit == some (settled false, 0, none), !(settled false).abandoned, u.readOnly],
     holds (held .flashProgram (settling false (coded [(12, 5)] run))) fun u =>
       [!u.readOnly, decide (u.leave.holding = some .flashProgram), u.flash.op.isNone, !u.power.brace,
        !u.needsCompaction u.commitLengths, !u.drawersErasing],
     holds (let s := held .flashProgram (settling false (coded [(12, 5)] run))
         { s with flash := { s.flash with head := 54, mem := (List.range 54).map fun i => (4096 * (0x180 + i), 0) } }) fun u =>
       [u.nextCommit == some (settled false, 0, none), !u.readOnly, u.needsCompaction u.commitLengths, !u.drawersErasing,
        !u.core.recovering, u.journalReady],
     holds { settling true run with chain := { run.chain with fwWait := [{ mark 1 with st := .calGap 0 0 0 false false }] } } fun u =>
       [u.gapOnTheWay]].all id = true := by decide

def oper (k : FlashKind) (started : Nat) (running : Bool) : FlashOp :=
  { kind := k, service := false, journal := none, startedAt := started, used := 0, done := 0, retries := 1, running := running }

/-- `FlashOperationsWork`, what begins: an erase of a sector no area holds a journal for, and of the journal sector to reclaim;
a program of eight bytes, and one that is not whole words; a row counter step, and a sector out of the firmware's reach. -/
theorem test_flash_start_hyps :
    let s : State := coded [(12, 5)] { run with flash := { run.flash with mem := [] } }
    [holds (held .flashErase s) fun u => [u.mayOperate .flashErase 0x1C1, areaOf (u.original 0x1C1) == some 2, u.reclaims 0x1C1,
       areaOf (u.original 0x1C2) == some 2, !u.reclaims 0x1C2],
     holds (held .flashErase s) fun u => [u.mayOperate .flashErase 0x1CC, (areaOf (u.original 0x1CC)).isNone, u.journalReady, decide (0x17F < 0x180)],
     holds (held .flashProgram s) fun u => [u.mayOperate .flashProgram 0x1CC, sectorsOf 0x1CC000 8 == [0x1CC],
       u.mayUse 0x1CC, !u.erasing 0x1CC, u.programShape 0x1CC000 8, !u.programShape 0x1CC000 7, decide ((0x1CC000 : BitVec 22).toNat / 4096 = 0x1CC)],
     holds (held .flashProgram s) fun u => [u.fwRuns, u.flash.op.isNone, !u.power.brace, u.flash.wf,
       !u.core.recovering, u.rowReady .session, decide ((u.rowSectors .session).1 < 1024), decide (u.tally (u.rowSectors .session).1 + 1 < 4096)],
     holds { held .flashProgram s with power := { Power.reset with brace := true } } fun u => [u.power.brace]].all id = true := by
  decide

/-- `FlashOperationsWork`, what ends or yields: an erase, a program at the top of the array, the 50 ms of a hold, brace, a
worn sector with a spare. -/
theorem test_flash_end_hyps :
    let s (o : FlashOp) (t : Nat) : State := { run with clock := t, flash := { run.flash with op := some o } }
    let e : FlashOp := oper (.erase 0x1CC) 0 true
    let p : FlashOp := oper (.program 4194296 [1, 2, 3, 4, 5, 6, 7, 8]) 0 true
    let w : State := coded [(12, 5)] { run with flash := { run.flash with mem := [], worn := [0x1C4] } }
    [holds (held .flashErase (s e 200000000000)) fun u => [u.flash.op == some e, e.running, e.journal.isNone,
       decide (u.leave.holding = some .flashErase), decide (50 * 4000000000 ≤ e.used + (u.clock - e.startedAt)),
       decide (e.retries < 2), !u.power.brace],
     holds (held .flashErase (s e 199999999999)) fun u => [decide (e.used + (u.clock - e.startedAt) < 50 * 4000000000)],
     holds (held .flashProgram (s p 0)) fun u => [u.flash.op == some p, p.running, decide (p.done = 0), u.flash.wf,
       decide (4194296 + 8 ≤ 4194304), decide (p.retries < 2)],
     holds (held .flashErase (s { e with retries := 2 } 0)) fun u => [u.flash.op == some { e with retries := 2 },
       !u.keepsRetrying 0x1CC],
     holds { held .flashErase (s e 5) with power := { Power.reset with brace := true } } fun u => [u.power.brace, u.flash.op == some e],
     holds (held .flashProgram w) fun u => [u.fwRuns, areaOf (u.original 0x1C4) == some 3, u.flash.worn.contains 0x1C4,
       decide (u.leave.holding = some .flashProgram), u.flash.op.isNone, !u.power.brace, u.nextSpare == some 0x1CC, !u.core.recovering,
        u.journalReady]].all id = true := by
  decide

/-! ### Power, leave, the tether -/

/-- `BraceAndStandby`. -/
theorem test_power_hyps :
    let b : State := { run with power := { Power.reset with brace := true } }
    let y : State := { port .standby run with power := { Power.reset with standby := true } }
    [holds (timed run) fun u => [u.outOfReset, !u.power.brace, u.tb.epochSet, u.chain.hwWait.isEmpty, decide (u.chain.buffer.length < 8)],
     holds run fun u => [u.outOfReset, !u.power.brace, !u.tb.epochSet],
     holds (timed b) fun u => [u.power.brace, u.tb.epochSet, u.chain.hwWait.isEmpty, decide (u.chain.buffer.length < 8)],
     holds run fun u => [u.outOfReset, !u.power.standby, decide (u.port.st ≠ .off), u.port.tx.isNone, u.fwRuns],
     holds y fun u => [u.power.standby, decide (u.port.st = .standby), decide (u.core.boot = .ready), !u.domainHeld 9,
       OutNo.all.all fun o => decide ((u.ao.outs.get o).st ≠ .driven)],
     holds { coded [(7, 0), (9, 3), (4, 1)] y with cal := { y.cal with startupDone := true } } fun u =>
       [u.aoWanted, u.cal.startupDone]].all id = true := by decide

/-- `LeaveIsWon`, `BraceAndStandby`: a request, a window just over and one not yet, two channels of which the lower one wins though
the other's request came alone, a window nothing can be won in, the holdoff just over and one not yet, the line low and high. -/
theorem test_leave_hyps :
    let l (r : List HeavyOp) (p : LeavePhase) : Leave := { Leave.reset with reqs := r, phase := p }
    let s (t : Nat) (l : Leave) : State := { coded [(13, 2)] run with clock := t, leave := l }
    [holds { run with cal := { run.cal with pending := some .calPin, passed := true } } fun u =>
       [u.fwRuns, u.wants .fullRun, !u.leave.reqs.contains .fullRun, decide (u.leave.holding ≠ some .fullRun)],
     holds (s 80000000 (l [.scrub, .flashErase] .window)) fun u =>
       [u.winner == some .flashErase, decide (u.leave.phase = .window), u.leave.idle, u.leave.holding.isNone, !u.power.brace,
        decide (u.leave.roseAt + 4000000 * (10 + 5 * u.unitId) ≤ u.clock)],
     holds (s 79999999 (l [.scrub] .window)) fun u => [u.winner == some .scrub, decide (u.clock < u.leave.roseAt + 4000000 * (10 + 5 * u.unitId))],
     holds { timed (s 80000000 (l [.join 2] .window)) with
         chan := (run.chan.set 1 (inSt .qualified)).set 2 (inSt .qualified), cal := { run.cal with joinPassed := true } } fun u =>
       [u.winner == some (.join 1), u.canWin (.join 2)],
     holds (s 80000000 (l [.fullRun] .window)) fun u => [u.winner.isNone],
     holds { run with leave := { Leave.reset with idle := false } } fun u =>
       [!u.leave.idle, u.leave.holding.isNone, decide (u.leave.callTo ≤ u.clock)],
     holds (s 400000000 { l [.scrub] .deferred with releasedAt := some 0 }) fun u =>
       [u.leave.releasedAt == some 0, decide (u.leave.phase = .deferred), u.leave.holding.isNone, !u.power.brace,
        !u.liveReqs.isEmpty, decide (0 + 400000000 ≤ u.clock), u.leave.idle,
        decide (4000000 * (10 + 5 * u.unitId) < u.clock - u.leave.roseAt)],
     holds (s 399999999 { l [.scrub] .deferred with releasedAt := some 0 }) fun u => [decide (u.clock < 0 + 400000000)],
     holds { run with core := { run.core with halted := true } } fun u => [!u.fwRuns, u.leave.holding.isNone, u.liveReqs.isEmpty],
     holds { run with leave := { run.leave with withdrawn := true } } fun u => [u.fwRuns, u.leave.withdrawn],
     holds (s 8000000000000 { l [.scrub] .window with waitFrom := some 0 }) fun u =>
       [u.nextReq == some .scrub, u.starving, decide (8000000000000 ≤ u.waitedNow)],
     holds { late with leave := { late.leave with idle := false } } fun u =>
       [u.outOfReset, !u.leave.idle, decide (400000000000 ≤ u.clock - u.leave.fellAt)],
     holds { late with power := { late.power with vbatDone := 69 }, sens := { late.sens with hotFrom := some 0, coolFrom := some 0 } }
       fun u => [u.outOfReset, u.fwRuns, decide ((u.clock - u.core.releasedAt) / 14400000000000000 = 69), u.sens.hotFrom == some 0,
         u.sens.coolFrom == some 0, decide (4000000000000 ≤ u.clock - 0)],
     holds { run with power := { run.power with vbatDone := 1 } } fun u =>
       [u.fwRuns, decide ((u.clock - u.core.releasedAt) / 14400000000000000 < u.power.vbatDone)]].all id = true := by decide

/-- Tethered, unit 3 of a rack, aligned to PPS. -/
def rack : State :=
  let s := timed (coded [(0, 5), (13, 3)] late)
  { s with tb := { s.tb with ppsCount := 3, start := { StartRecord.reset with source := 1 } } }

/-- The twelve bytes chapter 19's worked rack puts on the line in the second before 86,402: unit 4, origin (1, 0x0140). -/
def worked : List Byte := frameBytes 4 1 0x0140 86402

/-- Bytes 1 to 3 and 6 to 10 as the worked rack gives them. -/
theorem test_worked_frame :
    worked.take 4 = [0xA5, 0x0C, 0x40, 0x01] ∧ (worked.drop 6).take 5 = [0x82, 0x51, 0x01, 0x00, 0x00] := by decide

/-- `TetherSpeaks`: the first and the last instant of the cycle the slot begins in, a frame that begins 20 µs before or after
a slot's start and one just outside, a frame of a lower slot, one in the wrong slot. -/
theorem test_tether_hyps :
    let s (t : Nat) : State := { rack with tether := { Tether.reset with openedAt := some (10 ^ 18 - t) } }
    let b : List Byte := frameBytes 2 1 0x0140 86402
    [holds (s 415000000000) fun u => [u.mayLead, u.tether.lowest.isNone, !u.tether.sent, decide (u.unitId = 3),
       decide (400000000000 + 5000000000 * u.unitId ≤ u.clock - (10 ^ 18 - 415000000000))],
     holds (s 415000012799) fun u => [decide (u.clock - (10 ^ 18 - 415000012799) < 400000012800 + 5000000000 * u.unitId)],
     holds (s 440000000000) fun u => [u.slotBegun 29920000000 == some 2, u.slotBegun 30080000000 == some 2,
       (u.slotBegun 29919999999).isNone, (u.slotBegun 30080000001).isNone, u.tethered, u.tb.epochSet,
       (u.faults.period 0xA2 0).isNone],
     holds (s 0) fun u => [u.tethered, u.tb.epochSet, (frameReason (some 2) (.levels (frameLevels b))).isNone,
       bytesOfLevels (frameLevels b) == some b, decide ((2 : Fin 8).val < u.unitId),
       u.foreign (frameOf b (10 ^ 18)), u.tether.kept.isNone, frameReason (some 1) (.levels (frameLevels b)) == some 3,
       (u.faults.period 0xA2 0).isNone, decide (eraOfSeconds 86402 < 2 ^ 16)],
     holds { rack with tether := { (s 440000000000).tether with lowest := some 4, history := [some 4, some 1] } } fun u =>
       [u.tethered, !u.tether.checked, decide (440000000000 ≤ u.clock - (10 ^ 18 - 440000000000))],
     holds { rack with tether := { (s 440000000000).tether with history := [none] } } fun u =>
       [u.tether.lowest.isNone, u.tether.history == [none], u.strap.latched]].all id = true := by decide

/-- `AdoptionsSwitch`: a frame kept, one armed whose switch instant has come, and the commit that follows. -/
theorem test_adoption_hyps :
    let f : Frame := frameOf worked 0
    [holds { rack with tether := { Tether.reset with kept := some f } } fun u =>
       [u.tether.kept == some f, u.tb.epochSet, u.foreign f, !u.faultActive 0xA3 0xFF, u.fwRuns, u.cal.run.isNone,
        !u.tb.commitOwed],
     holds { rack with tether := { Tether.reset with armed := some f, edgeAt := some (10 ^ 18 - 12800) },
                       tb := { rack.tb with time := BitVec.ofNat 64 (10 ^ 18) } } fun u =>
       [u.tether.armed == some f, u.tether.edgeAt == some (10 ^ 18 - 12800), u.tb.epochSet, !u.tb.commitOwed,
        decide ((u.switchOf (10 ^ 18 - 12800)).1 ≤ u.clock)],
     holds { rack with tether := { Tether.reset with armed := some f, edgeAt := some (10 ^ 18 - 1) },
                       tb := { rack.tb with time := BitVec.ofNat 64 (10 ^ 18), epochClock := 1601 } } fun u =>
       [u.tether.armed == some f, decide (u.clock < (u.switchOf (10 ^ 18 - 1)).1)],
     holds { held .flashProgram rack with tb := { rack.tb with commitOwed := true } } fun u =>
       [u.fwRuns, u.tb.commitOwed, decide (u.leave.holding = some .flashProgram), u.flash.op.isNone, !u.power.brace,
        !u.core.recovering, u.rowReady .session, decide (u.keep.copy ≤ u.rowValue .session)]].all id = true := by
  decide

/-! ### The service port -/

/-- CRC-8 of the check string 123456789 with polynomial 0x07, and CRC-32 of the same (R8, R608). -/
theorem test_crcs :
    crc8 [0x31, 0x32, 0x33, 0x34, 0x35, 0x36, 0x37, 0x38, 0x39] = 0xF4 ∧
      crc32 [0x31, 0x32, 0x33, 0x34, 0x35, 0x36, 0x37, 0x38, 0x39] = 0xCBF43926 := by decide

/-- `ServiceErrorsChangeNothing`, `BlownPortIsDead`, `ServiceWorks`: an intact port that is opened, halted, verified; one that
drives its fuse; one blown. -/
theorem test_service_hyps :
    let p (h : Bool) : State := { run with
      core := { run.core with halted := h }, svc := { run.svc with opened := true, verified := true } }
    let f (f : Fuse) : State := { run with svc := { run.svc with fuse := f } }
    [holds (p true) fun u => [u.outOfReset, decide (u.svc.fuse = .intact), u.svc.opened, u.core.halted, !u.svc.changed, !u.svcBusy,
       u.svc.verified, u.flash.bad.isEmpty, u.flash.op.isNone, !u.power.brace, !u.leave.reqs.contains .service,
       decide (u.leave.holding ≠ some .service), (Instr.halt 0 0).isFrame 0],
     holds (f .driving) fun u => [decide (u.svc.fuse = .driving)],
     holds (f .blown) fun u => [decide (u.svc.fuse = .blown)],
     gives (.halt 0 0xFF) (f .blown) { f .blown with svc := { (f .blown).svc with wire := svcLine [0x10] 0xFF [] } },
     holds { p false with flash := stalled.flash } fun u => [u.svc.opened, u.flash.op.isSome],
     knownOpcode 0x30, !knownOpcode 0x31,
     gives (.leaveStuckClear 0) (f .blown) (f .blown)].all id = true := by decide

/-! ### Ill-formed commands, and words -/

def reading : StrapRead :=
  { pass1 := List.replicate 22 100, pass2 := List.replicate 22 100, check1Low := 2700, check1High := 22000, check2Low := 2700,
    check2High := 22000, sbyte := false }

def meas : ChanMeas :=
  { widths := List.replicate 144 278, hits := List.replicate 256 100, interTerm := 0, bias := 0, legDev := List.replicate 19 0,
    offsetTrim := 0 }

/-- `StrapsLatch`: a read whose check readings hold, one whose low check fails, an ambiguous pin and a plain one. -/
theorem test_strap_read_hyps :
    [!strapReadFailed reading, strapReadFailed { reading with check1Low := 2960 }, (decodeReading 200).isNone,
     decodeReading (pick reading.pass1 0) == some 0].all id = true := by decide

/-- For each check of `WellFormed` a command it refuses. -/
theorem test_ill_formed :
    [(Instr.strapLatch 0 { reading with pass1 := [] }).wellFormed, (Instr.rejoinRunEnd 0 0 { meas with hits := [] } 0).wellFormed,
     (Instr.taskArm 0 0 (.time 0 true true)).wellFormed, (Instr.taskChange 0 0 (.divider 0)).wellFormed,
     (Instr.flashProgram 0 0 []).wellFormed, (Instr.tetherFrameReceived 0 0 (.levels [])).wellFormed,
     (Instr.program 0 0 [] 0).wellFormed, (Instr.logPeriodExpiry 0 0x12 0).wellFormed].any id = false := by decide

theorem test_well_formed :
    [(Instr.strapLatch 0 reading).wellFormed, (Instr.rejoinRunEnd 0 0 meas 0).wellFormed,
     (Instr.tetherFrameReceived 0 0 (.levels (frameLevels worked))).wellFormed, (Instr.logPeriodExpiry 0 0x13 0).wellFormed].all id = true := by
  decide

/-- The table gives no row bits: no word spells a command, and the state stays as it is. -/
theorem test_no_words : decodeTableWord 32 0 = none ∧ State.withFetchWord run 32 0 = run := by decide

end Sys2Proof.Tests
end

section
/-! The announcement frame: its levels on the line are read back whole (R19, R606), and its bytes say what it was built from
(R607 to R611). -/

namespace Sys2Proof.Machine
open Sys2Proof

/-! ### The line code (R19, R606) -/

/-- The bits of a byte in the order of the line, bit 0 first (R606). -/
def byteBits (b : Byte) : List Bool := (List.range 8).map b.toNat.testBit

theorem frameLevels_eq_flatMap_byteBits (bs : List Byte) : frameLevels bs = (bs.flatMap byteBits).flatMap cellLevels := by
  simp only [frameLevels, byteBits, List.flatMap_assoc, List.flatMap_map]

/-- Each cell of a sent frame reads as the bit it was sent for. -/
theorem cellBits_flatMap_cellLevels : ∀ l : List Bool, cellBits (l.flatMap cellLevels) = some l
  | [] => rfl
  | x :: l => by
    have hx : cellBit (!x, x) = some x := by cases x <;> rfl
    have hl := cellBits_flatMap_cellLevels l
    simp only [List.flatMap_cons, cellLevels, List.cons_append, List.nil_append] at hl ⊢
    simp only [cellBits, hx, hl, Option.bind_some, Option.map_some]

/-- A byte's eight bits spell it. -/
theorem bytesOfBits_byteBits : ∀ b : Byte, bytesOfBits (byteBits b) = [b] := by decide

theorem bytesOfBits_byteBits_append (b : Byte) (l : List Bool) : bytesOfBits (byteBits b ++ l) = b :: bytesOfBits l := by
  have hb := bytesOfBits_byteBits b
  simp only [byteBits, List.range, List.range.loop, List.map_cons, List.map_nil, List.cons_append, List.nil_append, bytesOfBits,
    List.cons.injEq, and_true] at hb ⊢
  exact hb

theorem bytesOfBits_flatMap_byteBits : ∀ bs : List Byte, bytesOfBits (bs.flatMap byteBits) = bs
  | [] => rfl
  | b :: bs => by rw [List.flatMap_cons, bytesOfBits_byteBits_append, bytesOfBits_flatMap_byteBits bs]

/-- What is put on the line is read back whole. -/
theorem bytesOfLevels_frameLevels (bs : List Byte) : bytesOfLevels (frameLevels bs) = some bs := by
  rw [bytesOfLevels, frameLevels_eq_flatMap_byteBits, cellBits_flatMap_cellLevels, Option.map_some,
    bytesOfBits_flatMap_byteBits]

/-! ### Little-endian numbers (R6) -/

@[simp] theorem le_length : ∀ n v : Nat, (le n v).length = n
  | 0, _ => rfl
  | n + 1, v => by rw [le, List.length_cons, le_length n]

@[simp] theorem leNat_le : ∀ n v : Nat, leNat (le n v) = v % 256 ^ n
  | 0, v => (Nat.mod_one v).symm
  | n + 1, v => by rw [le, leNat, leNat_le n, BitVec.toNat_ofNat, Nat.pow_succ' (m := 256), Nat.mod_mul]

@[simp] theorem leNat_append : ∀ a b : List Byte, leNat (a ++ b) = leNat a + 256 ^ a.length * leNat b
  | [], b => by simp [leNat]
  | x :: a, b => by
    rw [List.cons_append, leNat, leNat, leNat_append a b, List.length_cons, Nat.pow_succ', Nat.mul_add, Nat.mul_assoc,
      Nat.add_assoc]

/-! ### The fields of a frame (R607 to R611) -/

/-- The eleven bytes of a frame that its CRC is over (R607, R608). -/
def frameBody (lead origin : Nat) (session : BitVec 16) (seconds : Nat) : List Byte :=
  [0xA5] ++ le 1 (lead + 8 * origin) ++ le 2 session.toNat ++ le 2 (eraOfSeconds seconds) ++ le 5 seconds

theorem frameBytes_eq_body_crc (lead origin : Nat) (session : BitVec 16) (seconds : Nat) :
    frameBytes lead origin session seconds =
      frameBody lead origin session seconds ++ [crc8 (frameBody lead origin session seconds)] := rfl

theorem frameBody_length (lead origin : Nat) (session : BitVec 16) (seconds : Nat) :
    (frameBody lead origin session seconds).length = 11 := by
  simp [frameBody]

/-- A built frame as one number: its fields at the bytes of R607, under its CRC. -/
theorem leNat_frameBytes {lead origin seconds : Nat} (session : BitVec 16) (hlead : lead < 8) (horigin : origin < 8)
    (hseconds : seconds < 2 ^ 40) (hera : eraOfSeconds seconds < 2 ^ 16) :
    ∃ crc : Nat, leNat (frameBytes lead origin session seconds) =
      0xA5 + 2 ^ 8 * (lead + 8 * origin) + 2 ^ 16 * session.toNat + 2 ^ 32 * eraOfSeconds seconds + 2 ^ 48 * seconds +
        2 ^ 88 * crc := by
  refine ⟨(crc8 (frameBody lead origin session seconds)).toNat, ?_⟩
  have hsession : session.toNat < 2 ^ 16 := session.isLt
  rw [frameBytes_eq_body_crc, leNat_append, frameBody_length]
  simp only [frameBody, leNat_append, leNat_le, leNat, List.length_append, le_length, List.length_cons, List.length_nil,
    BitVec.reduceToNat]
  omega

/-- A frame says what it was built from. -/
theorem frameOf_frameBytes {lead origin seconds : Nat} (session : BitVec 16) (second : Nat) (hlead : lead < 8)
    (horigin : origin < 8) (hseconds : seconds < 2 ^ 40) (hera : eraOfSeconds seconds < 2 ^ 16) :
    frameOf (frameBytes lead origin session seconds) second =
      { lead := BitVec.ofNat 3 lead, origin := BitVec.ofNat 3 origin, originSession := session
        era := BitVec.ofNat 16 (eraOfSeconds seconds), seconds := BitVec.ofNat 40 seconds, second := second } := by
  obtain ⟨crc, hn⟩ := leNat_frameBytes session hlead horigin hseconds hera
  have hsession : session.toNat < 2 ^ 16 := session.isLt
  simp only [frameOf, hn, Frame.mk.injEq, and_true]
  refine ⟨?_, ?_, ?_, ?_, ?_⟩ <;> apply BitVec.eq_of_toNat_eq <;> simp only [BitVec.toNat_ofNat] <;> omega

/-- A frame is valid in the slot of its lead (R611). -/
theorem frameReason_frameLevels_frameBytes (lead : Fin 8) {origin seconds : Nat} (session : BitVec 16) (horigin : origin < 8)
    (hseconds : seconds < 2 ^ 40) (hera : eraOfSeconds seconds < 2 ^ 16) :
    frameReason (some lead) (.levels (frameLevels (frameBytes lead.val origin session seconds))) = none := by
  have hfields := frameOf_frameBytes session 0 lead.isLt horigin hseconds hera
  have hlen := frameBody_length lead.val origin session seconds
  have hhead : (frameBytes lead.val origin session seconds).headD 0 = 0xA5 := rfl
  have hcrc : crc8 ((frameBytes lead.val origin session seconds).take 11) =
      (frameBytes lead.val origin session seconds).getD 11 0 := by
    rw [frameBytes_eq_body_crc, ← hlen]
    simp
  have hleadField : (BitVec.ofNat 3 lead.val).toNat = lead.val := by
    rw [BitVec.toNat_ofNat]; omega
  have heraField : (BitVec.ofNat 16 (eraOfSeconds seconds)).toNat = eraOfSeconds (BitVec.ofNat 40 seconds).toNat := by
    rw [BitVec.toNat_ofNat, BitVec.toNat_ofNat, Nat.mod_eq_of_lt hseconds, Nat.mod_eq_of_lt hera]
  simp only [frameReason, frameRead, bytesOfLevels_frameLevels, hfields, hhead, hcrc, hleadField, heraField, ne_eq,
    not_true_eq_false, or_self, if_false]

end Sys2Proof.Machine
end

section
/-! What each command of the tether does once its conditions hold (R605 to R619), and the obligation on them. -/

namespace Sys2Proof.Machine
open Sys2Proof

/-! ### What each command runs -/

theorem exec_tetherSlot (dt : Nat) (collision : Bool) (s : State) :
    exec (.tetherSlot dt collision) s = .next ((advance dt s).tetherSlot collision) := rfl

theorem exec_tetherFrameReceived (dt began : Nat) (f : FrameIn) (s : State) :
    exec (.tetherFrameReceived dt began f) s =
      .next ((advance dt s).when ((advance dt s).tethered && (advance dt s).tb.epochSet) fun t => t.frameReceived began f) :=
  rfl

theorem exec_tetherLeadCheck (dt : Nat) (s : State) : exec (.tetherLeadCheck dt) s = .next (advance dt s).leadCheck := rfl

theorem exec_tetherStuck (dt : Nat) (s : State) :
    exec (.tetherStuck dt) s =
      .next ((advance dt s).when ((advance dt s).strap.latched && (advance dt s).tethered) fun t => t.raise 0xA3 0xFF 0 0) :=
  rfl

theorem exec_tetherStuckClear (dt : Nat) (s : State) :
    exec (.tetherStuckClear dt) s = .next ((advance dt s).clearFault 0xA3 0xFF) := rfl

theorem exec_tetherIdClashClear (dt : Nat) (s : State) :
    exec (.tetherIdClashClear dt) s =
      .next ((advance dt s).when (decide (40000000000000 ≤ (advance dt s).clock - (advance dt s).tether.clashAt)) fun t =>
        t.clearFault 0xA4 t.idByte) := rfl

/-! ### The unit's own slot (R605, R610, R612, R619) -/

/-- Slot `i` starts 100 ms + 1.25 ms × `i` after the edge (R605). -/
theorem slotStart_eq (i : Nat) : slotStart i = 400000000000 + 5000000000 * i := by
  simp only [slotStart, Config.ms, Config.us, Nat.reduceMul]

/-- In the cycle its slot begins in, a unit that may lead and has neither heard nor sent a frame sends its own, or has it
aborted by a collision. -/
theorem State.tetherSlot_of_mayLead {u : State} {e : Nat} (collision : Bool) (hopen : u.tether.openedAt = some e)
    (hlead : u.mayLead = true) (hlowest : u.tether.lowest = none) (hsent : u.tether.sent = false)
    (hfrom : 400000000000 + 5000000000 * u.unitId ≤ u.clock - e)
    (hto : u.clock - e < 400000012800 + 5000000000 * u.unitId) :
    u.tetherSlot collision =
      if collision then (u.modTether fun t => { t with sent := true, line := [] }).clash 2
      else u.modTether fun t =>
        { t with sent := true, lowest := some u.ownSlot, line := frameLevels (u.ownFrame e) } := by
  have hcycle : u.clock - e < slotStart u.unitId + Config.cycle := by
    rw [slotStart_eq, Config.cycle]; omega
  rw [← slotStart_eq] at hfrom
  unfold State.tetherSlot
  simp only [hopen, hlead, hlowest, hsent, hfrom, hcycle, decide_true, Bool.not_false, Bool.and_self, if_true]
  cases collision
  · simp only [State.modTether, Tether.heard, hlowest, Bool.false_eq_true, if_false]
  · rfl

/-- A clash of IDs notes its instant and raises fault 0xA4. -/
theorem State.clash_eq (u : State) (detail : Nat) :
    u.clash detail = { u with
      tether := { u.tether with clashAt := u.clock }
      faults := u.faults.raised 0xA4 u.tb.time u.idByte (BitVec.ofNat 32 detail) 0 } := by
  rw [State.clash, State.raise_eq]
  rfl

/-! ### Frames received (R611, R613, R619) -/

/-- A valid frame of a lower slot and another origin is kept where none is. -/
theorem State.validFrame_of_lower {u : State} {i : Fin 8} {f : Frame} (hset : u.tb.epochSet = true) (hlower : i.val < u.unitId)
    (hforeign : u.foreign f = true) (hkept : u.tether.kept = none) :
    u.validFrame i f = u.modTether fun t => { t.heard i with kept := some f } := by
  have hnotOwn : ¬(i.val = u.unitId ∧ (!u.tether.sent) = true) := fun h => absurd h.1 (Nat.ne_of_lt hlower)
  unfold State.validFrame
  simp only [if_neg hnotOwn, hset, hforeign, hkept, State.adopts, hlower, decide_true, Bool.true_or, Bool.and_self,
    Option.isNone_none, if_true]
  rfl

/-- A frame with no reason against it is taken as valid, with the fields its bytes give. -/
theorem State.frameReceived_of_valid {u : State} {began e : Nat} {i : Fin 8} {f : FrameIn} {b : List Byte}
    (hopen : u.tether.openedAt = some e) (hslot : u.slotBegun began = some i) (hread : frameRead f = some b)
    (hvalid : frameReason (some i) f = none) : u.frameReceived began f = u.validFrame i (frameOf b e) := by
  unfold State.frameReceived
  simp only [hslot, hvalid, hread, hopen, Option.getD_some]

/-- A rejected frame counts under fault 0xA2 with its slot and its reason. -/
theorem State.frameReceived_of_rejected {u : State} {began r : Nat} {slot : Option (Fin 8)} {f : FrameIn}
    (hslot : u.slotBegun began = slot) (hbad : frameReason slot f = some r) :
    u.frameReceived began f = u.logLimited 0xA2 0 1 (slotByte slot) (BitVec.ofNat 32 r) := by
  unfold State.frameReceived
  simp only [hslot, hbad, Option.getD_some]
  rfl

/-- Outside a period one occurrence of a rate-limited code is logged at once (R667). -/
theorem State.logLimited_of_no_period {u : State} {code : Byte} {ch : Nat} (subj : Byte) (b : BitVec 32)
    (hperiod : u.faults.period code ch = none) :
    (u.logLimited code ch 1 subj b).faults.active = u.faults.active ∧
      (u.logLimited code ch 1 subj b).faults.events = (u.faults.logged code u.tb.time subj 1 b).events := by
  have hocc : ({ u.faults.bump code 1 with last := code } : Faults).count code = u.faults.count code + 1 :=
    Faults.count_bump ..
  unfold State.logLimited
  simp only [hperiod, ite_self, State.event, State.occur, hocc]
  exact ⟨rfl, rfl⟩

/-- A rejected frame outside a period logs fault 0xA2 and does nothing else. -/
theorem does_tetherFrameReceived_rejected {dt began r : Nat} {s u : State} {slot : Option (Fin 8)}
    {f : FrameIn} (hu : u = advance dt s)
    (htethered : u.tethered = true) (hset : u.tb.epochSet = true) (hperiod : u.faults.period 0xA2 0 = none)
    (hslot : u.slotBegun began = slot) (hbad : frameReason slot f = some r) :
    Does (.tetherFrameReceived dt began f) s u [.faults] fun t =>
      t.faults.active = u.faults.active ∧
        t.faults.events = (u.faults.logged 0xA2 u.tb.time (slotByte slot) 1 (BitVec.ofNat 32 r)).events := by
  have hexec : exec (.tetherFrameReceived dt began f) s =
      .next (u.logLimited 0xA2 0 1 (slotByte slot) (BitVec.ofNat 32 r)) := by
    rw [exec_tetherFrameReceived, ← hu, htethered, hset, Bool.and_self, State.when_true,
      State.frameReceived_of_rejected hslot hbad]
  exact ⟨_, hexec, State.logLimited_same _ _ _ _ _ _, State.logLimited_of_no_period _ _ hperiod⟩

/-- A frame began within 20 µs of the start of a slot, in qps (R611). -/
theorem slotWindow_iff (e began i : Nat) :
    (decide (e + slotStart i ≤ began + 20 * Config.us) && decide (began ≤ e + slotStart i + 20 * Config.us)) = true ↔
      e + 400000000000 + 5000000000 * i ≤ began + 80000000 ∧ began ≤ e + 400000000000 + 5000000000 * i + 80000000 := by
  rw [Bool.and_eq_true, decide_eq_true_eq, decide_eq_true_eq, slotStart_eq, Config.us]
  omega

/-- The slots lie 1.25 ms apart, so a frame began in the only slot whose start lies within 20 µs (R605, R611). -/
theorem State.slotBegun_eq_some_iff {u : State} {e : Nat} (began : Nat) (i : Fin 8) (hopen : u.tether.openedAt = some e) :
    u.slotBegun began = some i ↔
      e + 400000000000 + 5000000000 * i.val ≤ u.clock - began + 80000000 ∧
        u.clock - began ≤ e + 400000000000 + 5000000000 * i.val + 80000000 := by
  rw [State.slotBegun, hopen, Option.bind_some]
  constructor
  · intro hfind
    simpa only [slotWindow_iff] using List.find?_some hfind
  · intro hi
    cases hfind : List.find? _ (List.finRange 8) with
    | none =>
      have hno := List.find?_eq_none.mp hfind i (List.mem_finRange i)
      simp only [slotWindow_iff] at hno
      exact absurd hi hno
    | some j =>
      have hj := List.find?_some hfind
      simp only [slotWindow_iff] at hj
      have hij : j.val = i.val := by omega
      rw [Fin.ext hij]

/-! ### Loss of the lead (R618) -/

/-- The end of slot 7 takes the second into the history, and logs fault 0xA1 where the lead is lost. -/
theorem State.leadCheck_of_due {u : State} {e : Nat} {before : Option (Fin 8)} {rest : List (Option (Fin 8))}
    (hopen : u.tether.openedAt = some e) (htethered : u.tethered = true) (hset : u.tb.epochSet = true)
    (hunchecked : u.tether.checked = false) (hdue : 440000000000 ≤ u.clock - e) (hhistory : u.tether.history = before :: rest) :
    u.leadCheck = { u with
      tether := { u.tether with checked := true, history := (u.tether.lowest :: u.tether.history).take 3 }
      faults := if leadLost u.tether.lowest before rest.head? = true then
          u.faults.logged 0xA1 u.tb.time (slotByte rest.head?.join) ((slotByte u.tether.lowest).setWidth 32) 0
        else u.faults } := by
  unfold State.leadCheck
  simp only [hopen, htethered, hset, hunchecked, Config.ms, Nat.reduceMul, hdue, decide_true, Bool.not_false, Bool.and_self,
    if_true]
  rw [hhistory]
  dsimp only
  cases leadLost u.tether.lowest before rest.head?
  · simp only [State.modTether, remember, hhistory, hopen, Bool.false_eq_true, if_false]
  · simp only [State.modTether, remember, hhistory, hopen, State.log_eq, if_true]

/-- A slot in the detail of fault 0xA1. -/
theorem slotByte_setWidth (i : Fin 8) : (slotByte (some i)).setWidth 32 = BitVec.ofNat 32 i.val := by
  revert i; decide

end Sys2Proof.Machine

open Sys2Proof Sys2Proof.Machine

/-- Settles O56: the slot and what is received, the frame on the line, the loss of the lead and the tether's faults. -/
theorem tetherSpeaks : Obligations.TetherSpeaks := by
  unfold Obligations.TetherSpeaks
  refine ⟨⟨?slot, ?received, ?outside, ?began⟩, ?frame, ?lead, ?faults⟩
  case slot =>
    rintro dt e s u rfl hopen hlead hlowest hsent hfrom hto
    have hslot collision := State.tetherSlot_of_mayLead collision hopen hlead hlowest hsent hfrom hto
    constructor
    · exact ⟨_, (exec_tetherSlot ..).trans (congrArg _ (hslot false)), State.modTether_same _ _, rfl⟩
    · refine ⟨_, (exec_tetherSlot ..).trans (congrArg _ (hslot true)), ?_, ?_⟩
      · exact Same.step (State.clash_same _ _) rfl ((State.modTether_same _ _).mono rfl)
      · simp only [if_true, State.clash_eq]
        exact ⟨rfl, rfl⟩
  case received =>
    intro dt e began s u i l b hu htethered hread hset hopen hslot
    refine ⟨fun hvalid hlower hforeign hkept => ?_, fun hperiod => ?_, fun r hbad hperiod => ?_⟩
    · have hexec : exec (.tetherFrameReceived dt began (.levels l)) s =
          .next (u.modTether fun t => { t.heard i with kept := some (frameOf b e) }) := by
        rw [exec_tetherFrameReceived, ← hu, htethered, hset, Bool.and_self, State.when_true,
          State.frameReceived_of_valid hopen hslot (show frameRead (.levels l) = some b from hread) hvalid,
          State.validFrame_of_lower hset hlower hforeign hkept]
      exact ⟨_, hexec, State.modTether_same _ _, rfl⟩
    · exact does_tetherFrameReceived_rejected (r := 1) hu htethered hset hperiod hslot rfl
    · exact does_tetherFrameReceived_rejected hu htethered hset hperiod hslot hbad
  case outside =>
    intro dt began s u f hu htethered hset hslot hperiod
    exact does_tetherFrameReceived_rejected (r := 5) hu htethered hset hperiod hslot rfl
  case began => exact fun e began u i hopen => State.slotBegun_eq_some_iff began i hopen
  case frame =>
    intro lead origin seconds second session horigin hseconds hera
    exact ⟨bytesOfLevels_frameLevels, frameReason_frameLevels_frameBytes lead session horigin hseconds hera,
      frameOf_frameBytes session second lead.isLt horigin hseconds hera⟩
  case lead =>
    rintro dt e s u rfl hopen htethered hset hunchecked hdue
    constructor
    · intro p a b rest hlowest hhistory
      rw [exec_tetherLeadCheck, State.leadCheck_of_due hopen htethered hset hunchecked hdue hhistory, hlowest,
        slotByte_setWidth]
      simp only [leadLost, List.head?_cons, Option.join_some, Bool.and_eq_true, decide_eq_true_eq, and_comm]
      rfl
    · rintro h rest hlowest hhistory rfl
      rw [exec_tetherLeadCheck, State.leadCheck_of_due hopen htethered hset hunchecked hdue hhistory, hlowest]
      rcases rest with _ | ⟨_ | p, rest⟩ <;> rfl
  case faults =>
    rintro dt s u rfl
    refine ⟨fun hlatched htethered => ?_, ?_, ?_⟩
    · rw [exec_tetherStuck, hlatched, htethered, Bool.and_self, State.when_true, State.raise_eq]
    · rw [exec_tetherStuckClear, State.clearFault_eq]
    · rw [exec_tetherIdClashClear, State.when, State.clearFault_eq]
      simp only [decide_eq_true_eq]
      rfl
end

section
/-! What each command leaves unchanged: its frame is that of the operation it runs once its time has passed. -/

namespace Sys2Proof.Machine
open Sys2Proof

/-! ### Rules of frames -/

theorem Part.within_self (ps : List Part) : Part.within ps ps = true :=
  List.all_eq_true.mpr fun _ h => List.contains_iff_mem.mpr h

theorem Part.within_cons (p : Part) (ps : List Part) : Part.within ps (p :: ps) = true :=
  List.all_eq_true.mpr fun _ h => List.contains_iff_mem.mpr (List.mem_cons_of_mem p h)

theorem Part.agree_symm {p : Part} {s t : State} (h : p.agree s t) : p.agree t s := by
  cases p with
  | time => obtain ⟨htime, hera, hwrap⟩ := h; exact ⟨htime.symm, hera.symm, hwrap.symm⟩
  | session => obtain ⟨hsession, hvalid⟩ := h; exact ⟨hsession.symm, hvalid.symm⟩
  | counts | yarns => exact fun n => (h n).symm
  | _ => exact Eq.symm h

theorem Same.symm {ps : List Part} {s t : State} (h : Same ps s t) : Same ps t s := fun p hp => Part.agree_symm (h p hp)

/-- The rule of `Same.when` for a state itself. -/
theorem State.when_same {ps : List Part} {s : State} {b : Bool} {f : State → State} (hf : ∀ t, Same ps t (f t)) :
    Same ps s (s.when b f) :=
  Same.when hf (Same.refl ps s)

/-- A pin that takes effect may draw the free value that decides it (R97). -/
theorem State.onPin_same {ps : List Part} {s : State} {p : DigitalPin} {level : Bool} {width : Nat} {f : State → State}
    (hf : ∀ t, Same ps t (f t)) : Same (.free :: ps) s (s.onPin p level width f) :=
  Same.when (fun t => (hf t).mono (Part.within_cons ..))
    (Same.mono (State.takes_same s p level width) (List.all_eq_true.mpr (by simp)))

/-- HOSTRDY draws none (R407). -/
theorem State.onPin_hostrdy_same {ps : List Part} {s : State} {level : Bool} {width : Nat} {f : State → State}
    (hf : ∀ t, Same ps t (f t)) : Same ps s (s.onPin .hostrdy level width f) := by
  rw [State.onPin_hostrdy]
  exact Same.ite (Same.refl _ _) (hf s)

/-- A frame of the service port writes what its command writes, and its answer (R622). -/
theorem State.frame_same {ps : List Part} {s : State} {bytes : List Byte} {crc : Byte} {busy allowed : Bool}
    {act : State → State} (hact : Same ps s (act s)) (hsvc : ps.contains .svc = true) :
    Same ps s (s.frame bytes crc busy allowed act) := by
  have hreply (status : Byte) : Same ps s (s.reply status []) := Same.modSvc (.inr fun _ => rfl) hsvc (Same.refl _ _)
  have hsilent : Same ps s (s.modSvc fun v => { v with answer := [] }) :=
    Same.modSvc (.inr fun _ => rfl) hsvc (Same.refl _ _)
  unfold State.frame
  refine Same.ite (Same.refl _ _) (Same.modSvc (.inr fun _ => rfl) hsvc ?_)
  cases s.svc.fuse with
  | blown => exact hsilent
  | disturbed => exact hsilent
  | driving => exact hreply _
  | intact => exact Same.ite (hreply _) (Same.ite (hreply _) (Same.ite hact (hreply _)))

/-! ### The frame of every command -/

/-- A command's frame, from that of what it runs. -/
theorem does_of_same {m : List Part} {i : Instr} {s t : State} (h : Same m (advance i.dt s) t) (he : exec i s = .next t)
    (hw : Part.within m (touches i) = true) : Does i s (advance i.dt s) (touches i) fun _ => True :=
  ⟨t, he, h.mono hw, trivial⟩

theorem exec_timeCounterWrap_same (s : State) :
    Same (touches .timeCounterWrap) (advance 0 s) (if s.tb.epochSet then advance (2 ^ 64 - s.tb.time.toNat) s else s) := by
  have hpass (dt : Nat) : Same (touches .timeCounterWrap) s (advance dt s) := Same.mono (advance_same dt s) rfl
  exact (hpass 0).symm.trans (Same.ite (hpass _) (Same.refl _ _))

theorem does_touches (i : Instr) (s : State) : Does i s (advance i.dt s) (touches i) fun _ => True := by
  cases i with
  | activeEdge => exact does_of_same (State.activeEdge_same _ _ _ _ _ _) rfl rfl
  | timeTick => exact does_of_same (State.timeTick_same _ _) rfl rfl
  | angleTick => exact does_of_same (State.angleTick_same _) rfl rfl
  | outputUpdate => exact does_of_same (State.outputUpdate_same _) rfl rfl
  | mergeMove => exact does_of_same (State.mergeMove_same _ _) rfl rfl
  | dropRunClose => exact does_of_same (State.closeRun_same _ _) rfl rfl
  | markerEntry => exact does_of_same (State.markerEntry_same _ _) rfl rfl
  | firmwareMarkerPlace => exact does_of_same (State.placeFirmwareMarker_same _) rfl rfl
  | queueReset => exact does_of_same (State.queueReset_same _) rfl rfl
  | packerTakeItem => exact does_of_same (State.takeItem_same _ _) rfl rfl
  | closeTimerExpiry => exact does_of_same (State.closeTimer_expire_same _) rfl rfl
  | packerTakeResult => exact does_of_same (State.takeResult_same _) rfl rfl
  | controlSkeinClose =>
    exact does_of_same (Same.step (State.stepSix_same _) rfl (Same.mono (State.closeNextCtl_same _) rfl)) rfl (Part.within_self _)
  | summaryBoundary => exact does_of_same (State.summaryBoundary_same _) rfl rfl
  | summaryComplete => exact does_of_same (State.summaryComplete_same _) rfl rfl
  | timeCounterWrap => exact does_of_same (exec_timeCounterWrap_same s) rfl (Part.within_self _)
  | keepTick => exact does_of_same (State.keepTick_same _) rfl rfl
  | resetAssert => exact does_of_same (State.resetBy_same _ _) rfl rfl
  | resetRelease => exact does_of_same (State.resetRelease_same _ _) rfl rfl
  | strapLatch => exact does_of_same (State.strapLatch_same _ _) rfl rfl
  | journalRecovery => exact does_of_same (State.journalRecovery_same _) rfl rfl
  | rowCounterReconcile => exact does_of_same (State.rowReconcile_same _) rfl rfl
  | sessionCommit => exact does_of_same (State.sessionCommit_same _) rfl rfl
  | pllLock => exact does_of_same (State.pllLock_same _) rfl rfl
  | refinActivityTimeout => exact does_of_same (State.when_same fun _ => State.raise_same _ _ _ _ _) rfl rfl
  | pllLockTimeout => exact does_of_same (State.when_same fun _ => State.raise_same _ _ _ _ _) rfl rfl
  | epochSet => exact does_of_same (State.epochFree_same _) rfl rfl
  | epochPpsTimeout => exact does_of_same (State.epochTimeout_same _) rfl rfl
  | ppsEdge => exact does_of_same (State.ppsEdge_same _) rfl rfl
  | ppsGapTimeout => exact does_of_same (State.ppsGap_same _) rfl rfl
  | pllUnlock => exact does_of_same (State.pllUnlock_same _) rfl rfl
  | pllRelock => exact does_of_same (State.pllRelock_same _) rfl rfl
  | channelStartupJoin => exact does_of_same (State.startupJoin_same _ _) rfl rfl
  | startupRunAbandon => exact does_of_same (State.startupRunAbandon_same _) rfl rfl
  | watchdogExpiry => exact does_of_same (State.when_same fun _ => State.beginRestart_same _ _) rfl rfl
  | coreRestart => exact does_of_same (State.coreRestart_same _) rfl rfl
  | firmwareFetchError => exact does_of_same (State.fetchError_same _ _ _) rfl rfl
  | domainPowerFault => exact does_of_same (State.domainFault_same _ _) rfl rfl
  | domainRestore => exact does_of_same (State.domainRestore_same _ _) rfl rfl
  | domainFaultClear => exact does_of_same (State.domainClear_same _ _) rfl rfl
  | driftCheckRead => exact does_of_same (State.driftRead_same _ _ _) rfl rfl
  | channelLoss => exact does_of_same (State.channelLoss_same _ _ _) rfl rfl
  | lossHandling => exact does_of_same (State.lossHandling_same _ _) rfl rfl
  | channelIdleTimeout => exact does_of_same (State.idleTimeout_same _ _) rfl rfl
  | channelDomainPowerDown => exact does_of_same (State.domainDown_same _ _) rfl rfl
  | probeAbsentTimeout => exact does_of_same (State.when_same fun _ => State.raise_same _ _ _ _ _) rfl rfl
  | swingOverload => exact does_of_same (State.when_same fun _ => State.raise_same _ _ _ _ _) rfl rfl
  | swingOverloadClear => exact does_of_same (State.clearFault_same _ _ _) rfl rfl
  | autoLevelUpdate => exact does_of_same (State.autoLevelUpdate_same _ _ _ _) rfl rfl
  | peakReport => exact does_of_same (State.peakReport_same _ _ _ _) rfl rfl
  | joinStart => exact does_of_same (State.joinStart_same _ _) rfl rfl
  | channelDomainReady => exact does_of_same (State.domainReady_same _ _) rfl rfl
  | rejoinRunEnd => exact does_of_same (State.rejoinRunEnd_same _ _ _ _) rfl rfl
  | workingSetRebuild => exact does_of_same (State.when_same fun _ => State.rebuild_same _) rfl rfl
  | dieTemperatureRead => exact does_of_same (State.dieRead_same _ _) rfl rfl
  | cthRead => exact does_of_same (State.cthRead_same _ _) rfl rfl
  | referenceEvent => exact does_of_same (State.referenceEvent_same _ _) rfl rfl
  | quadratureStep => exact does_of_same (State.quadratureStep_same _ _) rfl rfl
  | referenceEventTimeout => exact does_of_same (State.referenceTimeout_same _) rfl rfl
  | phaseLoss => exact does_of_same (State.phaseLoss_same _) rfl rfl
  | phaseLockTimeout => exact does_of_same (State.when_same fun _ => State.raise_same _ _ _ _ _) rfl rfl
  | referenceSpacingFault => exact does_of_same (State.when_same fun _ => State.raise_same _ _ _ _ _) rfl rfl
  | referenceSpacingClear => exact does_of_same (State.clearFault_same _ _ _) rfl rfl
  | sineAmplitudeFault =>
    exact does_of_same (State.when_same fun _ => Same.step (State.raise_same _ _ _ _ _) rfl
      (Same.upd_fol (ps := [.fol, .faults]) rfl (Same.refl _ _))) rfl rfl
  | sineAmplitudeClear =>
    exact does_of_same (Same.step (State.clearFault_same _ _ _) rfl
      (Same.upd_fol (ps := [.fol, .faults]) rfl (Same.refl _ _))) rfl rfl
  | taskArm => exact does_of_same (State.armCommand_same _ _ _) rfl rfl
  | taskChange => exact does_of_same (State.armCommand_same _ _ _) rfl rfl
  | taskCancel => exact does_of_same (State.cancelSlot_same _ _) rfl rfl
  | skeinTakeUp => exact does_of_same (State.takeUp_same _ _) rfl rfl
  | droppedSkeinMarker => exact does_of_same (State.droppedMarker_same _) rfl rfl
  | refreshBurst => exact does_of_same (State.refreshBurst_same _) rfl rfl
  | refreshBurstEnd => exact does_of_same (Same.upd_cab (ps := [.cab]) rfl (Same.refl _ _)) rfl rfl
  | scrubRequest => exact does_of_same (State.scrubRequest_same _) rfl rfl
  | scrubBurst => exact does_of_same (State.scrubBurst_same _ _ _ _) rfl rfl
  | storeReset => exact does_of_same (State.storeReset_same _ _) rfl rfl
  | flushRequest =>
    exact does_of_same (State.onPin_same fun _ => State.when_same fun _ => Same.upd_cab rfl (Same.refl [.cab] _)) rfl rfl
  | flush => exact does_of_same (State.flush_same _) rfl rfl
  | hostrdyHigh =>
    exact does_of_same (State.onPin_hostrdy_same fun _ => State.when_same fun _ => State.hostHigh_same _) rfl rfl
  | hostrdyLow =>
    exact does_of_same (State.onPin_hostrdy_same fun _ => State.when_same fun _ => State.hostLow_same _) rfl rfl
  | discovery => exact does_of_same (State.discover_same _) rfl rfl
  | introductionClose => exact does_of_same (State.introductionClose_same _) rfl rfl
  | alignmentDone => exact does_of_same (State.alignmentDone_same _) rfl rfl
  | skeinTransmitStart => exact does_of_same (State.transmitStart_same _ _ _) rfl rfl
  | transmissionComplete => exact does_of_same (State.transmissionComplete_same _ _) rfl rfl
  | partnerLoss => exact does_of_same (State.partnerLoss_same _) rfl rfl
  | streamShortCircuit => exact does_of_same (State.shortCircuit_same _ _) rfl rfl
  | statusSkeinTimer => exact does_of_same (State.statusTimer_same _) rfl rfl
  | faultSkeinClose => exact does_of_same (State.closeFault_same _) rfl rfl
  | logPeriodExpiry => exact does_of_same (State.when_same fun _ => State.endPeriod_same _ _ _) rfl rfl
  | snapshotPresentation => exact does_of_same (State.presentation_same _ _ _) rfl rfl
  | snapshotGroupTimeout => exact does_of_same (State.groupTimeout_same _ _) rfl rfl
  | outputEstablish => exact does_of_same (State.outputEstablish_same _ _) rfl rfl
  | outputStageReady => exact does_of_same (State.stageReady_same _ _ _ _) rfl rfl
  | breakBeforeMakeExpiry => exact does_of_same (State.breakExpiry_same _ _) rfl rfl
  | readBack => exact does_of_same (State.readBack_same _ _ _) rfl rfl
  | outputHeadroomFault => exact does_of_same (State.headroomFault_same _ _ _ _) rfl rfl
  | outputOvercurrent => exact does_of_same (State.when_same fun _ => State.faultOutput_same _ _ _ _ _) rfl rfl
  | outputRailFault => exact does_of_same (State.when_same fun _ => State.faultOutput_same _ _ _ _ _) rfl rfl
  | outputOvertemperature => exact does_of_same (State.when_same fun _ => State.faultOutput_same _ _ _ _ _) rfl rfl
  | outputRetry => exact does_of_same (State.outputRetry_same _ _) rfl rfl
  | outputFaultClear => exact does_of_same (State.outputFaultClear_same _ _) rfl rfl
  | calRequest => exact does_of_same (State.onPin_same fun _ => State.when_same fun _ => State.requestRun_same _ _) rfl rfl
  | temperatureTriggerEval => exact does_of_same (State.temperatureEval_same _ _) rfl rfl
  | precheckStart => exact does_of_same (State.precheckStart_same _) rfl rfl
  | precheckResult => exact does_of_same (State.when_same fun _ => State.precheckResult_same _ _) rfl rfl
  | fullRunStart => exact does_of_same (State.fullRunStart_same _) rfl rfl
  | fullRunEnd => exact does_of_same (State.fullRunEnd_same _ _) rfl rfl
  | drawerCommit => exact does_of_same (State.drawerCommit_same _) rfl rfl
  | compaction => exact does_of_same (State.compaction_same _) rfl rfl
  | rowCounterIncrement => exact does_of_same (State.rowCounterIncrement_same _ _) rfl rfl
  | flashErase => exact does_of_same (State.flashErase_same _ _) rfl rfl
  | flashProgram => exact does_of_same (State.flashProgramStart_same _ _ _) rfl rfl
  | flashOperationEnd => exact does_of_same (State.flashEnd_same _ _ _) rfl rfl
  | sectorRetirement => exact does_of_same (State.retire_same _ _) rfl rfl
  | braceEntry => exact does_of_same (State.braceEntry_same _) rfl rfl
  | braceReturn => exact does_of_same (State.braceReturn_same _ _) rfl rfl
  | standbyEntry => exact does_of_same (State.onPin_same fun _ => State.standbyEntry_same _) rfl rfl
  | standbyExit => exact does_of_same (State.onPin_same fun _ => State.standbyExit_same _) rfl rfl
  | aoDomainPowerDown => exact does_of_same (State.aoDown_same _) rfl rfl
  | leaveRequest => exact does_of_same (State.when_same fun _ => State.requestLeave_same _ _) rfl rfl
  | leaveLineChange =>
    exact does_of_same (Same.when (ps := [.free, .leave]) (fun _ => Same.mono (State.lineChange_same _ _) rfl)
        (Same.mono (State.lineSeen_same _ _) rfl)) rfl rfl
  | leaveWindowExpiry => exact does_of_same (State.winLeave_same _) rfl rfl
  | leaveRequestWithdrawal => exact does_of_same (State.withdrawal_same _) rfl rfl
  | leaveStarvation => exact does_of_same (State.starve_same _) rfl rfl
  | leaveStuck => exact does_of_same (State.when_same fun _ => State.raise_same _ _ _ _ _) rfl rfl
  | leaveStuckClear => exact does_of_same (State.when_same fun _ => State.clearFault_same _ _ _) rfl rfl
  | v33RangeFault => exact does_of_same (State.when_same fun _ => State.raise_same _ _ _ _ _) rfl rfl
  | v33RangeClear => exact does_of_same (State.clearFault_same _ _ _) rfl rfl
  | vinOvervoltage => exact does_of_same (State.when_same fun _ => State.raise_same _ _ _ _ _) rfl rfl
  | vinOvervoltageClear => exact does_of_same (State.clearFault_same _ _ _) rfl rfl
  | vbatCheck => exact does_of_same (State.vbatCheck_same _ _) rfl rfl
  | dieOvertemperature => exact does_of_same (State.when_same fun _ => State.raise_same _ _ _ _ _) rfl rfl
  | dieOvertemperatureClear => exact does_of_same (State.when_same fun _ => State.clearFault_same _ _ _) rfl rfl
  | tetherSlot => exact does_of_same (State.tetherSlot_same _ _) rfl rfl
  | tetherFrameReceived => exact does_of_same (State.when_same fun _ => State.frameReceived_same _ _ _) rfl rfl
  | adoptionArm => exact does_of_same (State.adoptionArm_same _) rfl rfl
  | epochAdoption => exact does_of_same (State.epochAdoption_same _) rfl rfl
  | adoptionSessionCommit => exact does_of_same (State.adoptionCommit_same _) rfl rfl
  | tetherLeadCheck => exact does_of_same (State.leadCheck_same _) rfl rfl
  | tetherStuck => exact does_of_same (State.when_same fun _ => State.raise_same _ _ _ _ _) rfl rfl
  | tetherStuckClear => exact does_of_same (State.clearFault_same _ _ _) rfl rfl
  | tetherIdClashClear => exact does_of_same (State.when_same fun _ => State.clearFault_same _ _ _) rfl rfl
  | ident => exact does_of_same (State.frame_same (State.ident_same _) rfl) rfl rfl
  | openPort =>
    have hopened (t : State) : Same [.svc] t (t.modSvc fun v => { v with opened := true }) :=
      Same.modSvc (.inr fun _ => rfl) rfl (Same.refl _ _)
    exact does_of_same (State.frame_same ((hopened _).trans (State.reply_same _ _ _)) rfl) rfl rfl
  | read => exact does_of_same (State.frame_same (State.svcRead_same _ _ _) rfl) rfl rfl
  | halt => exact does_of_same (State.frame_same (State.halt_same _) rfl) rfl rfl
  | resume => exact does_of_same (State.frame_same (State.resume_same _) rfl) rfl rfl
  | reset =>
    exact does_of_same (State.frame_same (Same.step (State.reply_same _ _ _) rfl (State.fullReset_same _ _)) rfl) rfl rfl
  | erase => exact does_of_same (State.frame_same (State.svcStart_same _ _) rfl) rfl rfl
  | program => exact does_of_same (State.frame_same (State.svcStart_same _ _) rfl) rfl rfl
  | verify => exact does_of_same (State.frame_same (State.verify_same _) rfl) rfl rfl
  | blow =>
    exact does_of_same (State.frame_same (Same.step (State.reply_same _ _ _) rfl
      (Same.modSvc (ps := [.svc, .fuse]) (.inl rfl) rfl (Same.refl _ _))) rfl) rfl rfl
  | fuseBlowDone =>
    exact does_of_same (State.when_same fun _ => Same.modSvc (ps := [.svc, .fuse]) (.inl rfl) rfl (Same.refl _ _)) rfl rfl
  | serviceUnknownOpcode =>
    exact does_of_same (Same.ite (Same.refl _ _) (State.frame_same (State.reply_same _ _ _) rfl)) rfl rfl
  | serviceFrameAbort => exact does_of_same (Same.refl [] _) rfl rfl
  | refinActivityChange => exact does_of_same (State.refinChange_same _ _) rfl rfl
  | keepDomainVbatLoss => exact does_of_same (State.keepLoss_same _) rfl rfl
  | leaveHoldoffEnd => exact does_of_same (State.holdoffEnd_same _) rfl rfl
  | eraseHoldEnd => exact does_of_same (State.eraseHoldEnd_same _) rfl rfl
  | flashEraseSuspend => exact does_of_same (State.eraseSuspend_same _) rfl rfl
  | scrubBurstEnd => exact does_of_same (State.scrubEnd_same _) rfl rfl

end Sys2Proof.Machine

open Sys2Proof Sys2Proof.Machine

/-- Settles O7, by the frame of what each of the 161 commands runs. -/
theorem commandFrames : Obligations.CommandFrames := by
  intro i s t hexec
  obtain ⟨t', hexec', hsame, -⟩ := does_touches i s
  obtain rfl := Host.Outcome.next.inj (hexec'.symm.trans hexec)
  exact hsame
end

section
/-! What a command on a slot of the scheduler does (R28, R30, R243 to R245, R669, R670). -/

namespace Sys2Proof.Machine
open Sys2Proof

/-! ### Slots -/

theorem State.setSlot_slot_same (s : State) (i : Fin 16) (v : Option Slot) (h : s.sched.slots.length = 16) :
    (s.setSlot i v).slot i = v := by
  have hlt : i.val < s.sched.slots.length := by omega
  simp only [State.slot, State.setSlot, List.getElem?_set_self hlt, Option.join_some]

theorem State.setSlot_slot_ne (s : State) {i j : Fin 16} (v : Option Slot) (h : j ≠ i) : (s.setSlot i v).slot j = s.slot j := by
  simp only [State.slot, State.setSlot, List.getElem?_set_ne (fun e => h (Fin.ext e.symm))]

/-- What a slot with a divider runs on has issued in this cycle. -/
theorem State.slotClosed_iff (s : State) (i : Fin 16) :
    s.slotClosed i = true ↔ s.issued i = true ∨
      i = 0 ∧ s.issued 3 = true ∧ ∃ (o : Slot) (d : Nat), s.slot 3 = some o ∧ o.task = .divider d := by
  simp only [State.slotClosed, Bool.or_eq_true, Bool.and_eq_true, beq_iff_eq, and_assoc]
  refine or_congr_right (and_congr_right fun _ => and_congr_right fun _ => ?_)
  cases hslot : s.slot 3 with
  | none => simp
  | some o => cases htask : o.task <;> simp [htask]

/-! ### A command lands -/

theorem State.arm_slot_same (s : State) (i : Fin 16) (k : Task) (h : s.sched.slots.length = 16) :
    ((s.arm i k).slot i).map (fun o => (o.task, o.after)) = some (k, s.cycle) := by
  rw [State.arm, State.setSlot_slot_same _ _ _ h]
  rfl

theorem State.arm_slot_ne (s : State) {i j : Fin 16} (k : Task) (h : j ≠ i) : (s.arm i k).slot j = s.slot j :=
  State.setSlot_slot_ne s _ h

/-- In its landing cycle an armed task leaves the slot to the task it replaced (R241, R670). -/
theorem State.arm_slotTask (s : State) (i : Fin 16) (k : Task) (h : s.sched.slots.length = 16) :
    (s.arm i k).slotTask i = s.slotTask i := by
  have hcycle (v : Option Slot) : (s.setSlot i v).cycle = s.cycle := rfl
  simp only [State.slotTask, State.arm, State.setSlot_slot_same _ _ _ h, hcycle, Nat.le_refl, if_true]
  cases s.slot i with
  | none => exact ite_self none
  | some o => rfl

theorem State.landCancel_slot_same (s : State) (i : Fin 16) (h : s.sched.slots.length = 16) :
    (s.landCommand i none).slot i = none := State.setSlot_slot_same s i none h

theorem State.landCancel_slot_ne (s : State) {i j : Fin 16} (h : j ≠ i) : (s.landCommand i none).slot j = s.slot j :=
  State.setSlot_slot_ne s none h

theorem State.landCancel_cancelledNow (s : State) (i : Fin 16) : (s.landCommand i none).cancelledNow i = true :=
  List.contains_iff_mem.mpr (List.mem_cons_self ..)

/-- A cancel closes no slot that was open. -/
theorem State.landCancel_slotClosed (s : State) (i : Fin 16) (h : s.slotClosed i = false) :
    (s.landCommand i none).slotClosed i = false := by
  rw [Bool.eq_false_iff, ne_eq, State.slotClosed_iff] at h ⊢
  rintro (hissued | ⟨rfl, hissued, hdivider⟩)
  · exact h (.inl hissued)
  · rw [State.landCancel_slot_ne s (by decide)] at hdivider
    exact h (.inr ⟨rfl, hissued, hdivider⟩)

/-! ### A command of the firmware on a slot -/

theorem State.slotCommand_of_not_fwRuns {s : State} (i : Fin 16) (t : Option Task) (h : s.fwRuns = false) :
    s.slotCommand i t =
      if s.stalled then { s with sched := { s.sched with owed := s.sched.owed ++ [(i, t)] } } else s := by
  simp only [State.slotCommand, h, Bool.false_eq_true, if_false]

theorem State.slotCommand_of_closed {s : State} {i : Fin 16} (t : Option Task) (h : s.fwRuns = true)
    (hclosed : s.slotClosed i = true) :
    s.slotCommand i t = { s with sched := { s.sched with late := s.sched.late ++ [.slot i t] } } := by
  simp only [State.slotCommand, State.toSlot, h, hclosed, if_true]
  rfl

theorem State.slotCommand_of_open {s : State} {i : Fin 16} (t : Option Task) (h : s.fwRuns = true)
    (hopen : s.slotClosed i = false) : s.slotCommand i t = s.landCommand i t := by
  simp only [State.slotCommand, State.toSlot, h, hopen, Bool.false_eq_true, if_true, if_false]

theorem State.landCommand_of_cancelledNow {s : State} {i : Fin 16} (k : Task) (h : s.cancelledNow i = true) :
    s.landCommand i (some k) = s := if_pos h

theorem State.landCommand_of_not_cancelledNow {s : State} {i : Fin 16} (k : Task) (h : s.cancelledNow i = false) :
    s.landCommand i (some k) = s.arm i k := if_neg (Bool.eq_false_iff.mp h)

/-- TASK_ARM and TASK_CHANGE are one command on the slot. -/
theorem exec_taskArm_or_change {i : Instr} {dt : Nat} {slot : Fin 16} {k : Task}
    (hi : i = .taskArm dt slot k ∨ i = .taskChange dt slot k) (s : State) :
    exec i s = .next ((advance dt s).slotCommand slot (some k)) := by
  rcases hi with rfl | rfl <;> rfl

theorem exec_taskCancel (dt : Nat) (slot : Fin 16) (s : State) :
    exec (.taskCancel dt slot) s = .next ((advance dt s).slotCommand slot none) := rfl

/-- A task that follows its slot's cancel in one cycle is dropped: the cancel wins (R244, R670). -/
theorem exec_taskArm_of_landCancel {u : State} {slot : Fin 16} (k : Task) (hruns : u.fwRuns = true)
    (hopen : u.slotClosed slot = false) (hquiet : advance 0 (u.landCommand slot none) = u.landCommand slot none) :
    exec (.taskArm 0 slot k) (u.landCommand slot none) = .next (u.landCommand slot none) := by
  have hruns' : (u.landCommand slot none).fwRuns = true := hruns
  rw [exec_taskArm_or_change (.inl rfl), hquiet,
    State.slotCommand_of_open _ hruns' (State.landCancel_slotClosed u slot hopen),
    State.landCommand_of_cancelledNow k (State.landCancel_cancelledNow u slot)]

end Sys2Proof.Machine

open Sys2Proof Sys2Proof.Machine

/-- Settles O38: a command of the firmware on a slot waits for the end of a stall or for the next cycle, or lands. -/
theorem tasksArmAndCancel : Obligations.TasksArmAndCancel := by
  rintro dt s u slot k rfl hslots
  refine ⟨fun i hi => ?arm, ?stalledCancel, ?closedCancel, ?cancel, State.slotClosed_iff _ _⟩
  case arm =>
    rw [exec_taskArm_or_change hi]
    refine ⟨fun hruns => ?_, fun hruns hclosed => ?_, fun hruns hopen hcancelled => ?_, fun hruns hopen hcancelled => ?_⟩
    · rw [State.slotCommand_of_not_fwRuns _ _ hruns]
    · rw [State.slotCommand_of_closed _ hruns hclosed]
    · rw [State.slotCommand_of_open _ hruns hopen, State.landCommand_of_cancelledNow k hcancelled]
    · refine ⟨_, exec_taskArm_or_change hi s, State.slotCommand_same _ _ _, ?_⟩
      rw [State.slotCommand_of_open _ hruns hopen, State.landCommand_of_not_cancelledNow k hcancelled]
      exact ⟨State.arm_slot_same _ _ _ hslots, fun j hj => State.arm_slot_ne _ _ hj, State.arm_slotTask _ _ _ hslots⟩
  case stalledCancel =>
    intro hruns
    rw [exec_taskCancel, State.slotCommand_of_not_fwRuns _ _ hruns]
  case closedCancel =>
    intro hruns hclosed
    rw [exec_taskCancel, State.slotCommand_of_closed _ hruns hclosed]
  case cancel =>
    intro hruns hopen
    refine ⟨_, exec_taskCancel dt slot s, State.slotCommand_same _ _ _, ?_⟩
    rw [State.slotCommand_of_open _ hruns hopen]
    have hempty := State.landCancel_slot_same (advance dt s) slot hslots
    exact ⟨hempty, by rw [State.slotTask, hempty], fun j hj => State.landCancel_slot_ne _ hj,
      State.landCancel_cancelledNow _ _, exec_taskArm_of_landCancel k hruns hopen⟩
end

section
/-! What an active edge does to its channel (R20 to R24, R168, R175, R190, R197), and how its stitch sets out (R25, R671). -/

namespace Sys2Proof.Machine
open Sys2Proof

/-! ### One channel and no other -/

theorem OnlyChan.trans {n : Chan} {s t u : State} (h : OnlyChan n s t) (h' : OnlyChan n t u) : OnlyChan n s u :=
  fun m hm => (h' m hm).trans (h m hm)

theorem OnlyChan.of_same {ps : List Part} {n : Chan} {s t : State} (h : Same ps s t) (hps : ps.contains .chan = false) :
    OnlyChan n s t := fun m _ => congrArg (·.get m) (h .chan hps)

theorem State.modChan_onlyChan (s : State) (n : Chan) (f : Channel → Channel) : OnlyChan n s (s.modChan n f) :=
  fun m hm => Per8.get_set_ne s.chan n m _ hm

/-- What a channel's activity detector and counter hold of its edges (R20, R175). -/
def Channel.edges (c : Channel) : BitVec 48 × Option Nat × List Nat := (c.count, c.lastEdge, c.intervals)

/-- `t` differs from `s` in channel `n` at most, and not in what that holds of its edges. -/
def KeepsEdges (n : Chan) (s t : State) : Prop := OnlyChan n s t ∧ (t.chan.get n).edges = (s.chan.get n).edges

theorem KeepsEdges.refl (n : Chan) (s : State) : KeepsEdges n s s := ⟨fun _ _ => rfl, rfl⟩

theorem KeepsEdges.trans {n : Chan} {s t u : State} (h : KeepsEdges n s t) (h' : KeepsEdges n t u) : KeepsEdges n s u :=
  ⟨h.1.trans h'.1, h'.2.trans h.2⟩

theorem KeepsEdges.of_same {ps : List Part} {n : Chan} {s t : State} (h : Same ps s t) (hps : ps.contains .chan = false) :
    KeepsEdges n s t := ⟨.of_same h hps, congrArg (fun p => (p.get n).edges) (h .chan hps)⟩

theorem KeepsEdges.step {ps : List Part} {n : Chan} {s t u : State} (h' : Same ps t u) (hps : ps.contains .chan = false)
    (h : KeepsEdges n s t) : KeepsEdges n s u := h.trans (.of_same h' hps)

theorem KeepsEdges.ite {c : Prop} {_ : Decidable c} {n : Chan} {s t u : State} (ht : KeepsEdges n s t)
    (hu : KeepsEdges n s u) : KeepsEdges n s (if c then t else u) := by
  split
  · exact ht
  · exact hu

theorem KeepsEdges.modChan {n : Chan} {s : State} {f : Channel → Channel} (h : ∀ c, (f c).edges = c.edges) :
    KeepsEdges n s (s.modChan n f) := by
  refine ⟨State.modChan_onlyChan s n f, ?_⟩
  rw [State.modChan_chan, Per8.get_set_same, h]

/-! ### The edge counts -/

/-- The edge that arrives now has counted, with its interval and its peaks (R20, R168, R175). -/
def State.counted (s : State) (n : Chan) (pos neg : Int) : State :=
  s.modChan n fun c =>
    { c with
      count := c.count + 1, lastEdge := some s.clock, peakPos := pos, peakNeg := neg
      intervals := match c.lastEdge with
        | some e => remember 64 (s.clock - e) c.intervals
        | none => c.intervals }

theorem State.counted_chan (s : State) (n : Chan) (pos neg : Int) :
    ((s.counted n pos neg).chan.get n) =
      { s.chan.get n with
        count := (s.chan.get n).count + 1, lastEdge := some s.clock, peakPos := pos, peakNeg := neg
        intervals := ((s.counted n pos neg).chan.get n).intervals } := by
  simp only [State.counted, State.modChan_chan, Per8.get_set_same]

theorem State.counted_edges (s : State) (n : Chan) (pos neg : Int) :
    ((s.counted n pos neg).chan.get n).edges =
      ((s.chan.get n).count + 1, some s.clock,
        match (s.chan.get n).lastEdge with
        | some e => ((s.clock - e) :: (s.chan.get n).intervals).take 64
        | none => (s.chan.get n).intervals) := by
  simp only [State.counted, State.modChan_chan, Per8.get_set_same, Channel.edges, remember]

theorem State.counted_same (s : State) (n : Chan) (pos neg : Int) : Same [.chan, .counts] s (s.counted n pos neg) :=
  Same.modChan (.inl rfl) (.inr fun _ => rfl) rfl (Same.refl _ s)

theorem State.withdrawJoin_keepsEdges (s : State) (n : Chan) : KeepsEdges n s (s.withdrawJoin n) := by
  unfold State.withdrawJoin
  with_reducible refine KeepsEdges.step (State.settleBoot_same _) rfl ?_
  with_reducible refine KeepsEdges.step (State.settleJoin_same _) rfl ?_
  with_reducible refine KeepsEdges.step (State.log_same ..) rfl ?_
  with_reducible refine KeepsEdges.step (State.dropRequest_same ..) rfl ?_
  with_reducible refine KeepsEdges.step (State.dropRequest_same ..) rfl ?_
  exact KeepsEdges.modChan fun _ => rfl

/-- Presence follows the edges and changes none of what is held of them (R169, R173, R174). -/
theorem State.presence_keepsEdges (s : State) (n : Chan) (stable : Bool) : KeepsEdges n s (s.presence n stable) := by
  have hself := KeepsEdges.refl n s
  have hmark (f : Channel → Channel) (h : ∀ c, (f c).edges = c.edges) : KeepsEdges n s (s.modChan n f) := .modChan h
  simp only [State.presence]
  cases (s.chan.get n).st with
  | absentDown | absentUp =>
    refine KeepsEdges.ite (hmark _ fun _ => rfl) (KeepsEdges.ite (hmark _ fun _ => rfl) (hmark _ fun _ => rfl))
  | qualified => exact KeepsEdges.ite hself (State.withdrawJoin_keepsEdges s n)
  | joining => exact KeepsEdges.ite hself (hmark _ fun _ => rfl)
  | disabled | present | suspended => exact hself

theorem State.presence_of_present {s : State} {n : Chan} (stable : Bool) (h : (s.chan.get n).st = .present) :
    s.presence n stable = s := by
  simp only [State.presence, h]

theorem State.edgeStamp_keepsEdges (s : State) (n : Chan) (full captureAt : Nat) :
    KeepsEdges n s (s.edgeStamp n full captureAt) := KeepsEdges.modChan fun _ => rfl

/-! ### The stamp of an edge -/

/-- The edge that arrives now is stamped where its channel has a block and it is eligible (R32, R197). -/
def State.stampEdge (s : State) (n : Chan) (bin : Byte) : State :=
  match s.workChan n with
  | some b => if s.eligible n (s.edgeTime n b bin) then s.edgeStamp n (s.edgeTime n b bin) (s.captureAt n b) else s
  | none => s

theorem State.stampEdge_of_no_block {s : State} {n : Chan} (bin : Byte) (h : s.workChan n = none) : s.stampEdge n bin = s := by
  simp only [State.stampEdge, h]

theorem State.stampEdge_of_eligible {s : State} {n : Chan} {b : ChanBlock} (bin : Byte) (h : s.workChan n = some b)
    (heligible : s.eligible n (s.edgeTime n b bin) = true) :
    s.stampEdge n bin = s.edgeStamp n (s.edgeTime n b bin) (s.captureAt n b) := by
  simp only [State.stampEdge, h, heligible, if_true]

theorem State.stampEdge_keepsEdges (s : State) (n : Chan) (bin : Byte) : KeepsEdges n s (s.stampEdge n bin) := by
  unfold State.stampEdge
  split
  · exact KeepsEdges.ite (KeepsEdges.modChan fun _ => rfl) (KeepsEdges.refl n s)
  · exact KeepsEdges.refl n s

/-- An edge in state 5, behind its tick and outside the busy window, is eligible (R197). -/
theorem State.eligible_of_present {s : State} {n : Chan} {full : Nat} (hst : (s.chan.get n).st = .present)
    (hpending : (s.chan.get n).pending = true) (htick : (s.chan.get n).tickAt ≤ full)
    (hbusy : ∀ b : Nat, (s.chan.get n).stampedAt = some b → b + 160000 ≤ s.clock) : s.eligible n full = true := by
  simp only [State.eligible, hst, hpending, htick, decide_true, beq_self_eq_true, Bool.true_and]
  cases hstamped : (s.chan.get n).stampedAt with
  | none => rfl
  | some t => exact decide_eq_true (hbusy t hstamped)

/-- An edge counts, settles presence and may be stamped. -/
theorem State.countEdge_eq (s : State) (n : Chan) (bin : Byte) (narrow : Bool) (pos neg : Int) :
    s.countEdge n bin narrow pos neg =
      ((s.counted n pos neg).presence n (s.stableEdge n narrow pos neg)).stampEdge n bin := rfl

theorem State.countEdge_keepsEdges (s : State) (n : Chan) (bin : Byte) (narrow : Bool) (pos neg : Int) :
    KeepsEdges n (s.counted n pos neg) (s.countEdge n bin narrow pos neg) :=
  (State.presence_keepsEdges ..).trans (State.stampEdge_keepsEdges ..)

theorem State.countEdge_of_present {s : State} {n : Chan} (bin : Byte) (narrow : Bool) (pos neg : Int)
    (hst : (s.chan.get n).st = .present) :
    s.countEdge n bin narrow pos neg = (s.counted n pos neg).stampEdge n bin := by
  rw [State.countEdge_eq, State.presence_of_present _ (by rw [State.counted_chan, hst])]

/-- A stitch that forms sets out behind those ahead of it, 126.3 ns to 159.8 ns before it arrives (R25, R209, R671, R672). -/
theorem Channel.form_flight (c : Channel) (n : Chan) (r : StampRec) (slots : List (Fin 16)) (inst captureAt : Nat) :
    ∃ f : Flight, (c.form n r slots inst captureAt).flights = c.flights ++ [f] ∧ f.stamp = r ∧ f.slots = slots ∧
      f.no = c.formed ∧ f.taken = false ∧ f.captureAt = captureAt ∧ inst + 505200 ≤ f.at_ ∧
      (c.flights = [] → f.at_ ≤ inst + 639200) ∧ ∀ g : Flight, c.flights.getLast? = some g → g.at_ ≤ f.at_ := by
  have hextra : stageExtra n c.formed ≤ 134000 := Nat.min_le_left _ _
  refine ⟨_, rfl, rfl, rfl, rfl, rfl, rfl, ?_, fun hnone => ?_, fun g hg => ?_⟩
  · exact le_trans (by rw [mergeWait]; omega) (Nat.le_max_left _ _)
  · simp only [hnone, List.getLast?_nil, Option.map_none, Option.getD_none, mergeWait]
    omega
  · simp only [hg, Option.map_some, Option.getD_some]
    exact Nat.le_max_right _ _

/-- The stitch of a stamped edge has the count as it stands, and is captured where the edge's path ends (R189, R204). -/
theorem State.edgeStamp_formed (s : State) (n : Chan) (full captureAt : Nat) :
    ∃ f : Flight,
      FlightFormed s (s.edgeStamp n full captureAt) n true full (s.chan.get n).tickSlots s.clock f ∧
        f.stamp.count = (s.chan.get n).count ∧ f.stamp.tick = (s.chan.get n).tickAt ∧ f.captureAt = captureAt := by
  obtain ⟨f, hflights, hstamp, hslots, hno, htaken, hcapture, hfrom, hto, hlast⟩ :=
    Channel.form_flight (s.chan.get n) n (s.stampRec n full (s.chan.get n).count (s.chan.get n).tickAt true)
      (s.chan.get n).tickSlots s.clock captureAt
  refine ⟨f, ⟨?_, ?_, ?_, ?_, ?_, ?_, hslots, hno, htaken, hfrom, hto, hlast⟩, ?_, ?_, hcapture⟩
  · rw [State.edgeStamp, State.modChan_chan, Per8.get_set_same]
    exact hflights
  · rw [State.edgeStamp, State.modChan_chan, Per8.get_set_same]
    rfl
  all_goals rw [hstamp]; rfl

end Sys2Proof.Machine
end

section
/-! How a stitch on its way arrives as time passes (R25, R35, R204, R211, R212, R671, R672). -/

namespace Sys2Proof.Machine
open Sys2Proof

/-! ### Capture -/

/-- Once the cycle of its capture is over a stitch holds its angle and the follower's state (R204). -/
theorem State.capturedIn_of_over {s : State} {k : Nat} {f : Flight} (htaken : f.taken = false)
    (hover : s.cycleAt f.captureAt < k) :
    s.capturedIn k f =
      { f with stamp := { f.stamp with angle := s.angleIn (s.cycleAt f.captureAt), angleState := s.fol.st }, taken := true } := by
  have hopen : ¬(f.taken || decide (k ≤ s.cycleAt f.captureAt)) = true := by
    simp only [htaken, Bool.false_or, decide_eq_true_eq]
    omega
  simp only [State.capturedIn, if_neg hopen]

theorem State.takeCaptures_chan (s : State) (k : Nat) (n : Chan) :
    (s.takeCaptures k).chan.get n =
      { s.chan.get n with flights := (s.chan.get n).flights.map (s.capturedIn k) } := Per8.get_map ..

theorem State.takeCaptures_onlyChan {s : State} {n : Chan} (k : Nat)
    (h : ∀ m : Chan, m ≠ n → (s.chan.get m).flights = []) : OnlyChan n s (s.takeCaptures k) := by
  intro m hm
  have hnone := h m hm
  rw [State.takeCaptures_chan]
  cases hc : s.chan.get m
  simp only [hc] at hnone
  simp only [hnone, List.map_nil]

/-! ### Arrival at the mirror and the merge -/

/-- A stitch joins those on their way into the mirror, behind them (R35). -/
theorem Channel.mirrorPut_getLast (c : Channel) (now v : Nat) (st : Stitch) :
    ∃ w : Nat, (c.mirrorPut now v st).mirrorNext.getLast? = some (w, st) ∧ v ≤ w ∧ (c.mirrorNext = [] → w ≤ v) := by
  refine ⟨_, List.getLast?_concat .., Nat.le_max_left _ _, fun hnone => ?_⟩
  simp only [hnone, List.getLast?_nil, Option.map_none, Option.getD_none, Nat.max_zero, le_refl]

/-- A stitch of the present yarn has left those on their way and set out for the mirror (R35). -/
def State.leftFor (s : State) (n : Chan) (f : Flight) : State :=
  (s.modChan n fun c => { c with flights := c.flights.tail }).modChan n fun c =>
    c.mirrorPut f.at_ (f.at_ + mirrorExtra n f.no) (f.stitch n)

/-- The merge entry of a stitch. -/
def Flight.entry (f : Flight) (n : Chan) : MergeEntry :=
  { item := { st := f.stitch n, session := f.stamp.session, full := f.stamp.full }, no := f.no }

theorem State.leftFor_chan (s : State) (n : Chan) (f : Flight) :
    (s.leftFor n f).chan.get n =
      { s.chan.get n with flights := (s.chan.get n).flights.tail }.mirrorPut f.at_ (f.at_ + mirrorExtra n f.no)
        (f.stitch n) := by
  simp only [State.leftFor, State.modChan_chan, Per8.get_set_same]

theorem State.leftFor_onlyChan (s : State) (n : Chan) (f : Flight) : OnlyChan n s (s.leftFor n f) :=
  OnlyChan.trans (State.modChan_onlyChan _ _ _) (State.modChan_onlyChan _ _ _)

theorem State.land_of_current {s : State} {n : Chan} {f : Flight} (h : s.isCurrent n f.stamp = true) :
    ∃ k : Nat, Same [.stat, .eng, .ao, .faults] ((s.leftFor n f).arrive n (f.entry n) k) (s.land n f) := by
  refine ⟨(s.leftFor n f).cycleAt f.at_, ?_⟩
  have hland : s.land n f =
      ((s.leftFor n f).arrive n (f.entry n) ((s.leftFor n f).cycleAt f.at_)).statInput n f.stamp f.slots f.at_ := by
    rw [State.land]
    simp only [h, if_true]
    rfl
  rw [hland]
  exact State.statInput_same _ _ _ _ _

theorem State.arrive_of_room {s : State} {n : Chan} (e : MergeEntry) (k : Nat) (h : (s.chan.get n).merge.length < 4) :
    s.arrive n e k = s.modChan n fun c => { c.noteMerge k with merge := c.merge ++ [e] } := if_neg (Nat.not_le_of_lt h)

theorem State.arrive_of_full {s : State} {n : Chan} (e : MergeEntry) (k : Nat) (h : 4 ≤ (s.chan.get n).merge.length) :
    s.arrive n e k = s.refuse n e k := if_pos h

theorem State.arrive_onlyChan (s : State) (n : Chan) (e : MergeEntry) (k : Nat) : OnlyChan n s (s.arrive n e k) := by
  unfold State.arrive
  split
  · exact fun m hm => Per8.get_set_ne s.chan n m _ hm
  · exact State.modChan_onlyChan s n _

/-- Neither what is on its way to the merge nor what is on its way to the mirror changes as a stitch reaches the merge. -/
theorem State.arrive_flights (s : State) (n : Chan) (e : MergeEntry) (k : Nat) :
    ((s.arrive n e k).chan.get n).flights = (s.chan.get n).flights ∧
      ((s.arrive n e k).chan.get n).mirrorNext = (s.chan.get n).mirrorNext := by
  by_cases h : 4 ≤ (s.chan.get n).merge.length
  · simp only [State.arrive_of_full e k h, State.refuse, State.modChan_chan, Per8.get_set_same, and_self]
  · simp only [State.arrive_of_room e k (Nat.lt_of_not_le h), State.modChan_chan, Per8.get_set_same, Channel.noteMerge, and_self]

/-- A refused stitch joins its channel's drop run and the count of refusals, and no entry (R212, R292, R295). -/
theorem State.refuse_run (s : State) (n : Chan) (e : MergeEntry) (k : Nat) :
    ((s.refuse n e k).chan.get n).merge = (s.chan.get n).merge ∧
      (s.refuse n e k).chain.refusals = s.chain.refusals + 1 ∧
      ((s.refuse n e k).chan.get n).run.map (·.refused) =
        some (((s.chan.get n).run.map (·.refused)).getD 0 + 1) := by
  simp only [State.refuse, State.modChan_chan, State.modChan_chain, Per8.get_set_same, Option.map_some, true_and]
  cases (s.chan.get n).run <;> rfl

/-! ### The one stitch on its way -/

section
variable {s : State} {n : Chan} {f : Flight}

theorem State.nextFlight_of_single (hone : (s.chan.get n).flights = [f])
    (hnone : ∀ m : Chan, m ≠ n → (s.chan.get m).flights = []) : s.nextFlight = some (n, f) := by
  have hflights (m : Chan) : (s.chan.get m).flights = if m = n then [f] else [] := by
    split
    · rename_i h; rw [h, hone]
    · rename_i h; exact hnone m h
  simp only [State.nextFlight, hflights]
  fin_cases n <;> rfl

theorem State.inFlight_of_single (hone : (s.chan.get n).flights = [f])
    (hnone : ∀ m : Chan, m ≠ n → (s.chan.get m).flights = []) : s.inFlight = 1 := by
  have hflights (m : Chan) : (s.chan.get m).flights.length = if m = n then 1 else 0 := by
    split
    · rename_i h; rw [h, hone]; rfl
    · rename_i h; rw [hnone m h]; rfl
  simp only [State.inFlight, hflights]
  fin_cases n <;> rfl

theorem State.settleAll_of_single (hone : (s.chan.get n).flights = [f])
    (hnone : ∀ m : Chan, m ≠ n → (s.chan.get m).flights = []) (hdue : f.at_ ≤ s.clock) : s.settleAll = s.land n f := by
  rw [State.settleAll, State.inFlight_of_single hone hnone, State.settle, State.nextFlight_of_single hone hnone]
  exact if_pos hdue

end

/-- Where no command waits and one stitch of the present yarn is captured and due, time that passes lands it. -/
theorem advance_of_single {s : State} {n : Chan} {f : Flight} {dt : Nat} (hlate : s.sched.late = [])
    (hone : (s.chan.get n).flights = [f]) (hnone : ∀ m : Chan, m ≠ n → (s.chan.get m).flights = [])
    (hcycle : s.cycle < s.cycleAt (s.clock + dt)) (hdue : f.at_ ≤ s.clock + dt) :
    advance dt s =
      (State.pass dt (s.takeCaptures (s.cycleAt (s.clock + dt)))).land n (s.capturedIn (s.cycleAt (s.clock + dt)) f) := by
  have hat : (s.capturedIn (s.cycleAt (s.clock + dt)) f).at_ = f.at_ := by
    unfold State.capturedIn
    dsimp only
    split <;> rfl
  rw [advance, hlate, if_pos (by simp), State.flow]
  simp only [hcycle, if_true]
  refine State.settleAll_of_single ?_ (fun m hm => ?_) (hat ▸ hdue)
  · rw [State.pass_chan, State.takeCaptures_chan, hone]
    rfl
  · rw [State.pass_chan, State.takeCaptures_onlyChan _ hnone m hm, hnone m hm]

end Sys2Proof.Machine
end

section
/-! The obligation on active edges: what they count and stamp, and how their stitches arrive. -/

namespace Sys2Proof.Machine
open Sys2Proof

/-! ### What ACTIVE_EDGE runs -/

theorem exec_activeEdge (dt pulse : Nat) (pos neg : Int) (s : State) (n : Chan) (bin : Byte) :
    exec (.activeEdge dt n bin ⟨pulse, pos, neg⟩) s = .next ((advance dt s).activeEdge n bin pulse pos neg) := rfl

theorem State.activeEdge_of_down {u : State} {n : Chan} (bin : Byte) (pulse : Nat) (pos neg : Int)
    (h : u.frontOn n = false) : u.activeEdge n bin pulse pos neg = u := by
  simp only [State.activeEdge, h, Bool.not_false, if_true]

/-- A pulse of 300 ps counts for certain and is not too narrow (R154, R186). -/
theorem State.activeEdge_of_wide {u : State} {n : Chan} {pulse : Nat} (bin : Byte) (pos neg : Int)
    (h : u.frontOn n = true) (hwide : 300 ≤ pulse) :
    u.activeEdge n bin pulse pos neg = u.countEdge n bin false pos neg := by
  have h300 : ¬pulse < 300 := Nat.not_lt_of_le hwide
  have h200 : ¬pulse < 200 := by omega
  simp only [State.activeEdge, h, h300, h200, Bool.not_true, Bool.false_and, Bool.false_eq_true, if_true, if_false]

/-- Every edge that is wide enough counts, with its instant and its interval, whatever else it brings about. -/
theorem State.countEdge_counts (u : State) (n : Chan) (bin : Byte) (narrow : Bool) (pos neg : Int) :
    OnlyChan n u (u.countEdge n bin narrow pos neg) ∧
      ((u.countEdge n bin narrow pos neg).chan.get n).edges = ((u.counted n pos neg).chan.get n).edges := by
  obtain ⟨honly, hedges⟩ := State.countEdge_keepsEdges u n bin narrow pos neg
  exact ⟨OnlyChan.trans (State.modChan_onlyChan u n _) honly, hedges⟩

/-- What a channel without a block does with an edge in state 5 (R32). -/
theorem does_activeEdge_of_no_block {dt pulse : Nat} {pos neg : Int} {s u : State} {n : Chan} {bin : Byte}
    (hu : u = advance dt s) (hon : u.frontOn n = true) (hwide : 300 ≤ pulse) (hst : (u.chan.get n).st = .present)
    (hblock : u.workChan n = none) :
    Does (.activeEdge dt n bin ⟨pulse, pos, neg⟩) s u [.chan, .counts] fun t => t = u.counted n pos neg := by
  refine ⟨_, exec_activeEdge .., ?_⟩
  rw [← hu, State.activeEdge_of_wide bin pos neg hon hwide, State.countEdge_of_present bin false pos neg hst,
    State.stampEdge_of_no_block bin (show (u.counted n pos neg).workChan n = none from hblock)]
  exact ⟨State.counted_same u n pos neg, rfl⟩

/-- What a channel with a block does with the first eligible edge after a tick (R21, R197). -/
theorem does_activeEdge_of_eligible {dt pulse : Nat} {pos neg : Int} {s u : State} {n : Chan} {bin : Byte} {b : ChanBlock}
    (hu : u = advance dt s) (hon : u.frontOn n = true) (hwide : 300 ≤ pulse) (hst : (u.chan.get n).st = .present)
    (hpending : (u.chan.get n).pending = true) (hblock : u.workChan n = some b)
    (htick : (u.chan.get n).tickAt ≤ u.edgeTime n b bin)
    (hbusy : ∀ b : Nat, (u.chan.get n).stampedAt = some b → b + 160000 ≤ u.clock) :
    Does (.activeEdge dt n bin ⟨pulse, pos, neg⟩) s u [.chan, .counts] fun t =>
      t = (u.counted n pos neg).edgeStamp n (u.edgeTime n b bin) (u.captureAt n b) := by
  have heligible : (u.counted n pos neg).eligible n (u.edgeTime n b bin) = true := by
    have hcounted := State.counted_chan u n pos neg
    refine State.eligible_of_present ?_ ?_ ?_ ?_ <;> rw [hcounted]
    exacts [hst, hpending, htick, hbusy]
  refine ⟨_, exec_activeEdge .., ?_⟩
  rw [← hu, State.activeEdge_of_wide bin pos neg hon hwide, State.countEdge_of_present bin false pos neg hst,
    State.stampEdge_of_eligible bin (show (u.counted n pos neg).workChan n = some b from hblock) heligible]
  exact ⟨(State.counted_same u n pos neg).trans (Same.mono (State.edgeStamp_same _ _ _ _) rfl), rfl⟩

/-! ### What the arrival of a stitch leaves -/

theorem State.pass_session (dt : Nat) (s : State) : (State.pass dt s).tb.session = s.tb.session := by
  simp only [State.pass]
  split <;> rfl

theorem State.land_arrives {s : State} {n : Chan} {f : Flight} (h : s.isCurrent n f.stamp = true) :
    OnlyChan n s (s.land n f) ∧ ((s.land n f).chan.get n).flights = (s.chan.get n).flights.tail ∧
      (∃ v : Nat, ((s.land n f).chan.get n).mirrorNext.getLast? = some (v, f.stitch n) ∧ f.at_ + 51200 ≤ v ∧
        ((s.chan.get n).mirrorNext = [] → v ≤ f.at_ + 64000)) ∧
      ((s.chan.get n).merge.length < 4 →
        ((s.land n f).chan.get n).merge = (s.chan.get n).merge ++ [f.entry n] ∧ (s.land n f).chain = s.chain) ∧
      (4 ≤ (s.chan.get n).merge.length →
        ((s.land n f).chan.get n).merge = (s.chan.get n).merge ∧ (s.land n f).chain.refusals = s.chain.refusals + 1 ∧
          ((s.land n f).chan.get n).run.map (·.refused) = some (((s.chan.get n).run.map (·.refused)).getD 0 + 1)) := by
  obtain ⟨k, hsame⟩ := State.land_of_current h
  have hchan : (s.land n f).chan = ((s.leftFor n f).arrive n (f.entry n) k).chan := hsame .chan rfl
  have hchain : (s.land n f).chain = ((s.leftFor n f).arrive n (f.entry n) k).chain := hsame .chain rfl
  have hleft := State.leftFor_chan s n f
  obtain ⟨hflights, hmirror⟩ := State.arrive_flights (s.leftFor n f) n (f.entry n) k
  have hmerge : ((s.leftFor n f).chan.get n).merge = (s.chan.get n).merge := by rw [hleft]; rfl
  have hrun : ((s.leftFor n f).chan.get n).run = (s.chan.get n).run := by rw [hleft]; rfl
  refine ⟨?only, ?flights, ?mirror, fun hroom => ?room, fun hfull => ?full⟩
  case only =>
    intro m hm
    rw [hchan]
    exact (State.leftFor_onlyChan s n f).trans (State.arrive_onlyChan _ n _ k) m hm
  case flights => rw [hchan, hflights, hleft]; rfl
  case mirror =>
    obtain ⟨v, hlast, hfrom, hto⟩ := Channel.mirrorPut_getLast
      { s.chan.get n with flights := (s.chan.get n).flights.tail } f.at_ (f.at_ + mirrorExtra n f.no) (f.stitch n)
    have hextra : 51200 ≤ mirrorExtra n f.no ∧ mirrorExtra n f.no ≤ 64000 := by rw [mirrorExtra]; omega
    refine ⟨v, by rw [hchan, hmirror, hleft, hlast], by omega, fun hnone => ?_⟩
    have := hto hnone
    omega
  case room =>
    have hroom' : ((s.leftFor n f).chan.get n).merge.length < 4 := hmerge ▸ hroom
    rw [hchan, hchain, State.arrive_of_room _ k hroom', State.modChan_chan, Per8.get_set_same]
    exact ⟨congrArg (· ++ [f.entry n]) hmerge, rfl⟩
  case full =>
    have hfull' : 4 ≤ ((s.leftFor n f).chan.get n).merge.length := hmerge ▸ hfull
    rw [hchan, hchain, State.arrive_of_full _ k hfull', ← hmerge, ← hrun]
    exact State.refuse_run ..

end Sys2Proof.Machine

open Sys2Proof Sys2Proof.Machine

/-- Settles O12: an edge counts first, is stamped behind its tick, and its stitch lands in the merge and the mirror. -/
theorem activeEdgeCounts : Obligations.ActiveEdgeCounts := by
  refine ⟨fun dt pulse pos neg s u n bin hu => ⟨?down, ?counts, ?noBlock, ?stamped⟩, ?arrives⟩
  case down =>
    intro hdown
    rw [exec_activeEdge, ← hu, State.activeEdge_of_down bin pulse pos neg hdown]
  case counts =>
    intro hon hwide
    subst hu
    refine ⟨_, exec_activeEdge .., State.activeEdge_same _ _ _ _ _ _, ?_⟩
    rw [State.activeEdge_of_wide bin pos neg hon hwide]
    obtain ⟨honly, hedges⟩ := State.countEdge_counts (advance dt s) n bin false pos neg
    rw [State.counted_edges, Channel.edges, Prod.mk.injEq, Prod.mk.injEq] at hedges
    obtain ⟨hcount, hlast, hintervals⟩ := hedges
    exact ⟨hcount, hlast, hintervals, honly⟩
  case noBlock =>
    intro hon hwide hst hblock
    obtain ⟨t, hexec, hsame, rfl⟩ := does_activeEdge_of_no_block (bin := bin) (pos := pos) (neg := neg) hu hon hwide hst hblock
    refine ⟨_, hexec, hsame, State.modChan_onlyChan u n _, ?_⟩
    rw [State.counted_chan]
    exact ⟨rfl, rfl, rfl⟩
  case stamped =>
    intro b hon hwide hst hpending hblock htick hbusy
    obtain ⟨t, hexec, hsame, rfl⟩ :=
      does_activeEdge_of_eligible (pos := pos) (neg := neg) hu hon hwide hst hpending hblock htick hbusy
    have hstamp : KeepsEdges n (u.counted n pos neg) _ := State.edgeStamp_keepsEdges _ n (u.edgeTime n b bin) (u.captureAt n b)
    obtain ⟨f, hformed, hcount, hfTick, hcapture⟩ :=
      State.edgeStamp_formed (u.counted n pos neg) n (u.edgeTime n b bin) (u.captureAt n b)
    refine ⟨_, hexec, hsame, OnlyChan.trans (State.modChan_onlyChan u n _) hstamp.1, ?_, ?_, ?_, f, ?_⟩
    · rw [State.edgeStamp, State.modChan_chan, Per8.get_set_same]
    · rw [State.edgeStamp, State.modChan_chan, Per8.get_set_same]
    · rw [State.edgeStamp, State.modChan_chan, Per8.get_set_same]; rfl
    · rw [FlightFormed, State.counted_chan] at hformed
      rw [State.counted_chan] at hcount hfTick
      exact ⟨hformed, hcount, hfTick, hcapture⟩
  case arrives =>
    rintro dt s n f st hlate hone hnone htaken hover hcycle hdue hsession hyarn rfl
    have hland := advance_of_single hlate hone hnone hcycle hdue
    rw [State.capturedIn_of_over htaken hover] at hland
    have hbefore := State.takeCaptures_chan s (s.cycleAt (s.clock + dt)) n
    rw [← State.pass_chan dt] at hbefore
    have hcurrent : (State.pass dt (s.takeCaptures (s.cycleAt (s.clock + dt)))).isCurrent n f.stamp = true := by
      rw [State.isCurrent, hbefore, State.pass_session, hsession, hyarn]
      simp only [State.takeCaptures, beq_self_eq_true, Bool.and_self]
    obtain ⟨honly, hflights, hmirror, hroom, hfull⟩ :=
      State.land_arrives (f := { f with
        stamp := { f.stamp with angle := s.angleIn (s.cycleAt f.captureAt), angleState := s.fol.st }, taken := true }) hcurrent
    rw [hbefore] at hflights hmirror hroom hfull
    rw [hone] at hflights
    refine ⟨_, rfl, ?_⟩
    rw [hland]
    exact ⟨hflights, (State.takeCaptures_onlyChan _ hnone).trans honly, hmirror, hroom, hfull⟩
end

section
/-! How the time counter, the off-tick counter and the epoch go on as time passes (R44, R52, R57, R64, R66, R68). -/

namespace Sys2Proof.Machine
open Sys2Proof

/-! ### What each command runs -/

theorem exec_timeCounterWrap_of_epoch {s : State} (h : s.tb.epochSet = true) :
    exec .timeCounterWrap s = .next (advance (2 ^ 64 - s.tb.time.toNat) s) :=
  congrArg Host.Outcome.next (if_pos h)

theorem exec_keepTick (dt : Nat) (s : State) : exec (.keepTick dt) s = .next (advance dt s).keepTick := rfl

theorem exec_keepDomainVbatLoss (dt : Nat) (s : State) :
    exec (.keepDomainVbatLoss dt) s = .next (advance dt s).keepLoss := rfl

theorem exec_pllRelock (dt : Nat) (s : State) : exec (.pllRelock dt) s = .next (advance dt s).pllRelock := rfl

/-! ### The passing of time (R45, R46, R68) -/

/-- Where no stitch is on its way and nothing waits for the next cycle, the passing of time writes the clock, the time
counter and what the latches find. -/
theorem advance_same_of_quiet {s : State} (dt : Nat) (hlate : s.sched.late = [])
    (hflights : ∀ n : Chan, (s.chan.get n).flights = []) : Same [.clock, .tb, .time, .seen] s (advance dt s) := by
  have hrest : s.atRest = true := by simp [State.atRest, hlate, hflights]
  rw [advance_quiet dt s hrest]
  exact State.pass_same dt s

/-- The time up to the wrap leaves the time counter at 0, one era on (R68). -/
theorem Timebase.move_to_wrap (tb : Timebase) :
    tb.move (2 ^ 64 - tb.time.toNat) =
      { tb with time := 0, era := if tb.era = 0xFFFF then 0 else BitVec.ofNat 16 (tb.era.toNat + 1), wrapped := true } := by
  have hfull : tb.time.toNat + (2 ^ 64 - tb.time.toNat) = 2 ^ 64 := by
    have := tb.time.isLt
    omega
  have hera : tb.era + 1 = if tb.era = 0xFFFF then 0 else BitVec.ofNat 16 (tb.era.toNat + 1) := by
    split
    · rename_i h; rw [h]; rfl
    · apply BitVec.eq_of_toNat_eq
      simp [BitVec.toNat_add]
  rw [Timebase.move, hfull, ← hera]
  simp

/-- In a session the time counter moves by the time that passes, with the carry of its era (R46). -/
theorem advance_time_era {s : State} (dt : Nat) (h : s.tb.epochSet = true) :
    (advance dt s).tb.epochSet = true ∧ (advance dt s).tb.epochClock = s.tb.epochClock ∧
      (advance dt s).tb.time = s.tb.time + BitVec.ofNat 64 ((advance dt s).clock - s.clock) ∧
      (advance dt s).tb.era =
        s.tb.era + BitVec.ofNat 16 ((s.tb.time.toNat + ((advance dt s).clock - s.clock)) / 2 ^ 64) := by
  rw [advance_clock, Nat.add_sub_cancel_left, advance_tb, if_pos h]
  refine ⟨h, rfl, ?_, rfl⟩
  rw [Timebase.move, BitVec.ofNat_add, BitVec.ofNat_toNat, BitVec.setWidth_eq]

/-! ### The keep domain (R57, R63 to R66) -/

theorem State.keepTick_eq (u : State) :
    u.keepTick = { u with keep := { u.keep with
      offTicks :=
        if u.keep.counting = true ∧ u.keep.offTicks.toNat < 0xFFFFFFFFFF then BitVec.ofNat 40 (u.keep.offTicks.toNat + 1)
        else u.keep.offTicks } } := by
  have hmax : u.keep.offTicks = 0xFFFFFFFFFF ↔ ¬u.keep.offTicks.toNat < 0xFFFFFFFFFF := by
    rw [← BitVec.toNat_inj]
    have := u.keep.offTicks.isLt
    simp only [BitVec.reduceToNat]
    omega
  have hnext : u.keep.offTicks + 1 = BitVec.ofNat 40 (u.keep.offTicks.toNat + 1) := by
    rw [BitVec.ofNat_add, BitVec.ofNat_toNat, BitVec.setWidth_eq]
    rfl
  unfold State.keepTick
  dsimp only
  rw [hnext, ite_and, if_congr hmax rfl rfl, ite_not]
  by_cases hcounting : u.keep.counting = true
  · rw [if_pos hcounting, if_pos hcounting]
  · rw [if_neg hcounting, if_neg hcounting]

theorem State.keepLoss_of_inReset {u : State} (h : u.core.boot = .inReset) :
    u.keepLoss = { u with keep := { u.keep with valid := false, lost := true, offTicks := 0 } } := by
  rw [State.keepLoss, if_pos (beq_iff_eq.mpr h)]

theorem State.keepLoss_of_not_inReset {u : State} (h : u.core.boot ≠ .inReset) : u.keepLoss = u := by
  rw [State.keepLoss, if_neg fun e => h (beq_iff_eq.mp e)]

/-! ### The end of holdover (R44, R486) -/

/-- Holdover has ended at relock. -/
def State.relocked (u : State) : State :=
  { u with
    tb := { u.tb with locked := true, holdover := false, holdExit := u.tb.time }
    faults := u.faults.cleared 0x21 u.tb.time 0xFF }

theorem State.pllRelock_of_holdover {u : State} (hset : u.tb.epochSet = true) (hholdover : u.tb.holdover = true) :
    u.pllRelock = u.relocked.resumeJoin := by
  rw [State.pllRelock, hset, hholdover, State.clearFault_eq]
  rfl

theorem State.resumeJoin_of_none {s : State} (h : s.cal.joinWaits = none) : s.resumeJoin = s := by
  simp only [State.resumeJoin, h]

/-- The rejoin run that waited for the lock begins. -/
theorem State.resumeJoin_of_waiting {s : State} {n : Chan} (hwaits : s.cal.joinWaits = some n) (hruns : s.fwRuns = true)
    (hheld : s.leave.holding = some (.join n)) (hst : (s.chan.get n).st = .joining) (hnone : s.cal.run = none)
    (hlocked : s.tb.locked = true) : s.resumeJoin = s.beginRejoin n := by
  have hdue : (s.fwRuns && s.holds (.join n) && (s.chan.get n).st == .joining && s.cal.run.isNone) = true := by
    simp [State.holds, hruns, hheld, hst, hnone]
  simp only [State.resumeJoin, hwaits, hdue, if_true, State.startRejoin, hlocked]

/-- A rejoin run suspends its channel alone (R504). -/
theorem State.beginRejoin_suspends (s : State) (n : Chan) :
    OnlyChan n s (s.beginRejoin n) ∧ (((s.beginRejoin n).chan.get n).susp.isSome = true) ∧
      (s.beginRejoin n).cal.run.map (fun r => (r.rejoin, r.trigger, r.startClock)) = some (some n, .join, s.clock) := by
  refine ⟨fun m hm => Per8.get_set_ne s.chan n m _ hm, ?_, rfl⟩
  simp only [State.beginRejoin, State.capture, State.modChan_chan, Per8.get_set_same, Option.isSome_some]

end Sys2Proof.Machine

open Sys2Proof Sys2Proof.Machine

/-- Settles O3, by evaluating the machine as a reset leaves it. -/
theorem resetState : Obligations.ResetState :=
  ⟨rfl, rfl, rfl, rfl, rfl, rfl, rfl, rfl, rfl, rfl, rfl, fun n => by rw [State.reset, Per8.get_const]; rfl,
    State.reset_memWf, State.reset_fits⟩

/-- Settles O19: the time up to the wrap passes, and it moves the time counter to 0 with the era's carry. -/
theorem timeCounterWraps : Obligations.TimeCounterWraps := by
  intro s hset
  refine ⟨_, exec_timeCounterWrap_of_epoch hset, advance_same _ s, advance_clock _ s, ?_, advance_same_of_quiet _⟩
  rw [advance_tb, if_pos hset, Timebase.move_to_wrap]

/-- Settles O20: the off-tick counter counts in a break between sessions, and stops below its overflow. -/
theorem keepTicksSaturate : Obligations.KeepTicksSaturate := by
  rintro dt s u rfl
  rw [exec_keepTick, State.keepTick_eq]

/-- Settles O21: the keep domain can be lost in reset alone. -/
theorem keepDomainLoses : Obligations.KeepDomainLoses := by
  rintro dt s u rfl
  refine ⟨fun hreset => ?_, fun hnot => ?_⟩
  · rw [exec_keepDomainVbatLoss, State.keepLoss_of_inReset hreset]
  · rw [exec_keepDomainVbatLoss, State.keepLoss_of_not_inReset hnot]

/-- Settles O28: relock ends holdover on the scale as it stands, and a rejoin run that waited for it begins. -/
theorem pllRelocks : Obligations.PllRelocks := by
  rintro dt s u rfl hset hholdover
  have hexec := (exec_pllRelock dt s).trans (congrArg _ (State.pllRelock_of_holdover hset hholdover))
  have hframe := State.pllRelock_same (advance dt s)
  rw [State.pllRelock_of_holdover hset hholdover] at hframe
  refine ⟨⟨_, hexec, hframe, ?_, ?_, fun hnone => ?_⟩, fun n hwaits hruns hheld hst hnone => ?_⟩
  · exact State.resumeJoin_same _ .tb rfl
  · exact State.resumeJoin_same _ .faults rfl
  · rw [State.resumeJoin_of_none (s := (advance dt s).relocked) hnone]
    exact ⟨rfl, rfl⟩
  · refine ⟨_, hexec, hframe, ?_⟩
    rw [State.resumeJoin_of_waiting (s := (advance dt s).relocked) hwaits hruns hheld hst hnone rfl]
    exact State.beginRejoin_suspends _ n
end

section
/-! The epoch stands through a session (R52), whatever command comes: of the commands that write the timebase none but a
reset and an adoption writes the epoch or steps the time counter. -/

namespace Sys2Proof.Machine
open Sys2Proof

/-! ### What keeps the epoch -/

/-- `t` has the epoch of `s`. -/
def KeepsEpoch (s t : State) : Prop := t.tb.epochSet = s.tb.epochSet ∧ t.tb.epochClock = s.tb.epochClock

theorem KeepsEpoch.refl (s : State) : KeepsEpoch s s := ⟨rfl, rfl⟩

theorem KeepsEpoch.trans {s t u : State} (h : KeepsEpoch s t) (h' : KeepsEpoch t u) : KeepsEpoch s u :=
  ⟨h'.1.trans h.1, h'.2.trans h.2⟩

theorem KeepsEpoch.of_same {ps : List Part} {s t : State} (h : Same ps s t) (htb : ps.contains .tb = false) :
    KeepsEpoch s t := ⟨congrArg (·.epochSet) (h .tb htb), congrArg (·.epochClock) (h .tb htb)⟩

/-- One operation more, outside the timebase. -/
theorem KeepsEpoch.step {ps : List Part} {s t u : State} (h' : Same ps t u) (htb : ps.contains .tb = false)
    (h : KeepsEpoch s t) : KeepsEpoch s u := h.trans (.of_same h' htb)

theorem KeepsEpoch.ite {c : Prop} {_ : Decidable c} {s t u : State} (ht : KeepsEpoch s t) (hu : KeepsEpoch s u) :
    KeepsEpoch s (if c then t else u) := by
  split
  · exact ht
  · exact hu

/-- The session number is committed; LEAVE, the start-up tasks and fault 0x26 are still to come (R57, R58, R583). -/
def State.sessionTaken (s : State) : State :=
  let v := s.lastSession
  let t := State.rowAdvance .session (v + 1 - s.rowValue .session) s
  { t with
    keep := { t.keep with copy := v + 1, valid := true }
    tb := { t.tb with
      session := BitVec.ofNat 16 (v + 1), sessionValid := true, pllOn := true, refinAt := s.clock
      start := { StartRecord.reset with
        newSession := BitVec.ofNat 16 (v + 1), prevSession := BitVec.ofNat 16 v, keepLost := !s.keep.valid || s.keep.lost } }
    core := { t.core with boot := .pll } }

/-- Its step has come, under leave and with its row counter in order (R58, R544, R583). -/
def State.sessionDue (s : State) : Bool := s.core.boot == .commit && s.mayWork .flashProgram && s.rowReady .session

theorem State.sessionCommit_of_due {s : State} (h : s.sessionDue = true) :
    s.sessionCommit =
      if s.keep.valid then (s.sessionTaken.releaseFor .flashProgram).armStartup
      else (s.sessionTaken.releaseFor .flashProgram).armStartup.log 0x26 0xFF 0 0 := if_pos h

theorem State.sessionCommit_of_not_due {s : State} (h : s.sessionDue = false) : s.sessionCommit = s :=
  if_neg (Bool.eq_false_iff.mp h)

theorem State.sessionCommit_keepsEpoch (s : State) : KeepsEpoch s s.sessionCommit := by
  cases h : s.sessionDue with
  | false => rw [State.sessionCommit_of_not_due h]; exact .refl s
  | true =>
    have htaken : KeepsEpoch s s.sessionTaken :=
      (KeepsEpoch.of_same (State.rowAdvance_same .session (s.lastSession + 1 - s.rowValue .session) s) rfl).trans ⟨rfl, rfl⟩
    have harmed := KeepsEpoch.step (State.armStartup_same _) rfl (.step (State.releaseFor_same _ .flashProgram) rfl htaken)
    rw [State.sessionCommit_of_due h]
    exact .ite harmed (.step (State.log_same _ _ _ _ _) rfl harmed)

theorem State.pllLock_keepsEpoch (s : State) : KeepsEpoch s s.pllLock :=
  .ite (.step (State.clearFault_same _ _ _) rfl (.step (State.clearFault_same _ _ _) rfl ⟨rfl, rfl⟩)) (.refl s)

theorem State.refinChange_keepsEpoch (s : State) (active : Bool) : KeepsEpoch s (s.refinChange active) :=
  .ite (.refl s) (.ite (.step (State.clearFault_same _ _ _) rfl ⟨rfl, rfl⟩) (.step (State.clearFault_same _ _ _) rfl ⟨rfl, rfl⟩))

theorem State.pllUnlock_keepsEpoch (s : State) : KeepsEpoch s s.pllUnlock :=
  .ite (.refl s) <| .ite
    (.step (State.releaseFor_same _ _) rfl <| .step (State.dropRequest_same _ _) rfl <| .step (State.abandonRun_same _) rfl <|
      .step (State.raise_same _ _ _ _ _) rfl ⟨rfl, rfl⟩)
    (.ite ⟨rfl, rfl⟩ (.refl s))

theorem State.pllRelock_keepsEpoch (s : State) : KeepsEpoch s s.pllRelock :=
  .ite (.step (State.resumeJoin_same _) rfl <| .step (State.clearFault_same _ _ _) rfl ⟨rfl, rfl⟩) (.refl s)

theorem State.ppsNote_keepsEpoch (s : State) (d : Int) : KeepsEpoch s (s.ppsNote d) :=
  .ite (.step (State.log_same _ _ _ _ _) rfl ⟨rfl, rfl⟩) ⟨rfl, rfl⟩

/-- One more PPS edge after the epoch (R612). -/
def State.ppsCounted (s : State) : State := { s with tb := { s.tb with ppsCount := s.tb.ppsCount + 1 } }

theorem State.ppsLater_eq (s : State) :
    s.ppsLater =
      (if s.ppsUse = 2 then s.ppsCounted.ppsNote (ppsOffsetOf s.coarseNow) else s.ppsCounted).tetherSecond := rfl

theorem State.ppsLater_keepsEpoch (s : State) : KeepsEpoch s s.ppsLater := by
  have hcounted : KeepsEpoch s s.ppsCounted := ⟨rfl, rfl⟩
  rw [State.ppsLater_eq]
  exact .step (State.tetherSecond_same _) rfl (.ite (hcounted.trans (State.ppsNote_keepsEpoch _ _)) hcounted)

theorem State.ppsGap_keepsEpoch (s : State) : KeepsEpoch s s.ppsGap := by
  unfold State.ppsGap
  split
  · exact .ite (.step (State.log_same _ _ _ _ _) rfl ⟨rfl, rfl⟩) (.refl s)
  · exact .refl s

theorem State.adoptionCommit_keepsEpoch (s : State) : KeepsEpoch s s.adoptionCommit :=
  .ite (.step (State.releaseFor_same _ _) rfl <| (KeepsEpoch.of_same (State.rowAdvance_same _ _ _) rfl).trans ⟨rfl, rfl⟩) (.refl s)

/-! ### The commands that set an epoch find it set -/

theorem State.epochFree_of_epoch {s : State} (h : s.tb.epochSet = true) : s.epochFree = s :=
  if_neg (by simp [h])

theorem State.epochTimeout_of_epoch {s : State} (h : s.tb.epochSet = true) : s.epochTimeout = s :=
  if_neg (by simp [h])

theorem State.ppsEdge_of_epoch {s : State} (h : s.tb.epochSet = true) : s.ppsEdge = s ∨ s.ppsEdge = s.ppsLater := by
  unfold State.ppsEdge
  split
  · exact .inl rfl
  · exact .inr rfl

/-! ### Every command -/

/-- `t` stands where the time that passes leaves `s`: the same clock, on the same scale. -/
def SameTime (s t : State) : Prop := t.clock = s.clock ∧ Part.agree .time s t ∧ KeepsEpoch s t

/-- A command that steps neither clock nor time counter and keeps the epoch. -/
theorem SameTime.of_same {ps : List Part} {s t : State} (h : Same ps s t)
    (hparts : ps.contains .clock = false ∧ ps.contains .time = false) (hepoch : KeepsEpoch s t) : SameTime s t :=
  ⟨h .clock hparts.1, h .time hparts.2, hepoch⟩

/-- A command that does not write the timebase. -/
theorem SameTime.of_frame {ps : List Part} {s t : State} (h : Same ps s t)
    (hparts : (ps.contains .clock = false ∧ ps.contains .time = false) ∧ ps.contains .tb = false) : SameTime s t :=
  .of_same h hparts.1 (.of_same h hparts.2)

theorem SameTime.of_eq {s t : State} (h : t = s) : SameTime s t := h ▸ ⟨rfl, ⟨rfl, rfl, rfl⟩, .refl t⟩

/-- Within a session every command lets time pass and steps nothing. -/
theorem exec_sameTime {i : Instr} {s t : State} (hexec : exec i s = .next t) (hset : s.tb.epochSet = true)
    (hreset : i.canReset = false) (hadopt : ∀ dt, i ≠ .epochAdoption dt) : ∃ dt : Nat, SameTime (advance dt s) t := by
  have hframe : Same (touches i) (advance i.dt s) t := commandFrames i s t hexec
  have hset' : (advance i.dt s).tb.epochSet = true := (advance_time_era i.dt hset).1
  have hrun {u : State} (h : exec i s = .next u) : t = u := Host.Outcome.next.inj (hexec.symm.trans h)
  cases i with
  | resetAssert | watchdogExpiry | firmwareFetchError | reset => exact absurd hreset Bool.noConfusion
  | epochAdoption dt => exact absurd rfl (hadopt dt)
  | timeCounterWrap => exact ⟨_, .of_eq (hrun (exec_timeCounterWrap_of_epoch hset))⟩
  | epochSet dt => exact ⟨dt, .of_eq ((hrun rfl).trans (State.epochFree_of_epoch hset'))⟩
  | epochPpsTimeout dt => exact ⟨dt, .of_eq ((hrun rfl).trans (State.epochTimeout_of_epoch hset'))⟩
  | ppsEdge dt =>
    have hedge : t = (advance dt s).ppsEdge := hrun rfl
    refine ⟨dt, (State.ppsEdge_of_epoch hset').elim (fun h => .of_eq (hedge.trans h)) fun h => ?_⟩
    rw [hedge.trans h]
    exact .of_same (State.ppsLater_same _) ⟨rfl, rfl⟩ (State.ppsLater_keepsEpoch _)
  | sessionCommit dt => exact ⟨dt, .of_same hframe ⟨rfl, rfl⟩ (hrun rfl ▸ State.sessionCommit_keepsEpoch _)⟩
  | pllLock dt => exact ⟨dt, .of_same hframe ⟨rfl, rfl⟩ (hrun rfl ▸ State.pllLock_keepsEpoch _)⟩
  | refinActivityChange dt => exact ⟨dt, .of_same hframe ⟨rfl, rfl⟩ (hrun rfl ▸ State.refinChange_keepsEpoch _ _)⟩
  | pllUnlock dt => exact ⟨dt, .of_same hframe ⟨rfl, rfl⟩ (hrun rfl ▸ State.pllUnlock_keepsEpoch _)⟩
  | pllRelock dt => exact ⟨dt, .of_same hframe ⟨rfl, rfl⟩ (hrun rfl ▸ State.pllRelock_keepsEpoch _)⟩
  | ppsGapTimeout dt => exact ⟨dt, .of_same hframe ⟨rfl, rfl⟩ (hrun rfl ▸ State.ppsGap_keepsEpoch _)⟩
  | adoptionSessionCommit dt => exact ⟨dt, .of_same hframe ⟨rfl, rfl⟩ (hrun rfl ▸ State.adoptionCommit_keepsEpoch _)⟩
  | _ => exact ⟨_, .of_frame hframe ⟨⟨rfl, rfl⟩, rfl⟩⟩

end Sys2Proof.Machine

open Sys2Proof Sys2Proof.Machine

/-- Settles O8: within a session a command moves the time counter by the time that passes, and by nothing else. -/
theorem epochNeverMoves : Obligations.EpochNeverMoves := by
  intro i s t hexec hset hreset hadopt
  obtain ⟨dt, hclock, ⟨htime, hera, -⟩, hepochSet, hepochClock⟩ := exec_sameTime hexec hset hreset hadopt
  rw [hclock, htime, hera, hepochSet, hepochClock]
  exact advance_time_era dt hset
end

section
/-! What the event counters keep over an adoption and lose at a start (R61). -/

namespace Sys2Proof.Machine
open Sys2Proof

theorem exec_epochAdoption (dt : Nat) (s : State) : exec (.epochAdoption dt) s = .next (advance dt s).epochAdoption := rfl

theorem exec_strapLatch (dt : Nat) (r : StrapRead) (s : State) :
    exec (.strapLatch dt r) s = .next ((advance dt s).strapLatch r) := rfl

/-- An operation on each channel in turn, of which only the channel's own concerns what is said of the channel. -/
theorem State.eachChan_of_own {P : Chan → State → Prop} {f : Chan → State → State} (hself : ∀ n s, P n (f n s))
    (hother : ∀ n m s, m ≠ n → P m s → P m (f n s)) (s : State) (n : Chan) : P n (s.eachChan f) := by
  have hmem : n ∈ Chan.all := by revert n; decide
  have hfold (l : List Chan) (t : State) (h : n ∈ l ∨ P n t) : P n (l.foldl (fun t c => f c t) t) := by
    induction l generalizing t with
    | nil => exact h.resolve_left List.not_mem_nil
    | cons c l ih =>
      refine ih _ ?_
      by_cases hc : n = c
      · exact .inr (hc ▸ hself n t)
      · exact (h.imp_left fun hm => (List.mem_cons.mp hm).resolve_left hc).imp_right (hother c n t hc)
  exact hfold Chan.all s (.inl hmem)

theorem State.startChannel_of_enabled {s : State} {n : Chan} (h : s.enabled n = true) :
    s.startChannel n = s.modChan n fun c =>
      { c with st := .absentDown, count := 0, dac := if s.autoLevel then 0 else dacCode (s.fixedThreshold n) 1 } := if_pos h

theorem State.startChannel_of_disabled {s : State} {n : Chan} (h : s.enabled n = false) : s.startChannel n = s :=
  if_neg (Bool.eq_false_iff.mp h)

/-- The channel's counter stands at 0 if the channel is enabled. -/
def State.startedCount (s : State) (n : Chan) : Prop := s.enabled n = true → (s.chan.get n).count = 0

theorem State.startedCount_congr {s t : State} {n : Chan} (hstrap : t.strap = s.strap) (hchan : t.chan.get n = s.chan.get n) :
    t.startedCount n ↔ s.startedCount n := by
  simp only [State.startedCount, State.enabled, State.chanCode, State.code, hstrap, hchan]

theorem State.startChannel_startedCount (s : State) (n : Chan) : (s.startChannel n).startedCount n := by
  cases h : s.enabled n with
  | true =>
    intro _
    rw [State.startChannel_of_enabled h, State.modChan_chan, Per8.get_set_same]
  | false =>
    rw [State.startChannel_of_disabled h]
    exact fun h' => absurd (h.symm.trans h') Bool.noConfusion

theorem State.startChannel_onlyChan (s : State) (n : Chan) : OnlyChan n s (s.startChannel n) := by
  cases h : s.enabled n with
  | true => rw [State.startChannel_of_enabled h]; exact State.modChan_onlyChan s n _
  | false => rw [State.startChannel_of_disabled h]; exact fun _ _ => rfl

/-- The strap image with the channels it starts (R85, R112, R149). -/
def State.strapsRead (s : State) (r : StrapRead) : State :=
  ({ s with strap := strapImage r s.clock } : State).eachChan fun n t => t.startChannel n

theorem State.strapLatch_strap_chan {s : State} (r : StrapRead) (h : s.core.boot = .straps) :
    (s.strapLatch r).strap = (s.strapsRead r).strap ∧ (s.strapLatch r).chan = (s.strapsRead r).chan := by
  have hfaults := State.strapFaults_same (s.strapsRead r)
  rw [State.strapLatch, if_pos (beq_iff_eq.mpr h)]
  dsimp only
  exact ⟨hfaults .strap rfl, hfaults .chan rfl⟩

/-- The strap latch sets the counter of every enabled channel to 0 (R61). -/
theorem State.strapLatch_startedCount {s : State} (r : StrapRead) (h : s.core.boot = .straps) (n : Chan) :
    (s.strapLatch r).startedCount n := by
  obtain ⟨hstrap, hchan⟩ := State.strapLatch_strap_chan r h
  refine (State.startedCount_congr hstrap (congrArg (·.get n) hchan)).mpr ?_
  refine State.eachChan_of_own (P := fun n t => t.startedCount n) (fun n s => State.startChannel_startedCount s n)
    (fun n m s hm hs => ?_) _ n
  exact (State.startedCount_congr (State.startChannel_same s n .strap rfl) (State.startChannel_onlyChan s n m hm)).mpr hs

end Sys2Proof.Machine

open Sys2Proof Sys2Proof.Machine

/-- Settles O9: the frame of an adoption leaves the event counters out, and the strap latch starts them at 0. -/
theorem countersOutliveAdoption : Obligations.CountersOutliveAdoption := by
  refine ⟨fun dt s t n hexec => ?_, fun dt s r hboot => ?_⟩
  · exact (commandFrames _ s t hexec .counts rfl n).trans (advance_same dt s .counts rfl n)
  · have hboot' : (advance dt s).core.boot = .straps := (congrArg (·.boot) (advance_same dt s .core rfl)).trans hboot
    exact ⟨_, exec_strapLatch dt r s, State.strapLatch_startedCount r hboot'⟩
end

section
/-! What an armed adoption does (R59 to R61, R200, R295, R614, R615, R617), and the obligation on it. -/

namespace Sys2Proof.Machine
open Sys2Proof

/-! ### What each command runs -/

theorem exec_adoptionArm (dt : Nat) (s : State) : exec (.adoptionArm dt) s = .next (advance dt s).adoptionArm := rfl

theorem exec_adoptionSessionCommit (dt : Nat) (s : State) :
    exec (.adoptionSessionCommit dt) s = .next (advance dt s).adoptionCommit := rfl

/-! ### Shared operations -/

theorem State.holds_iff {s : State} {op : HeavyOp} : s.holds op = true ↔ s.leave.holding = some op := beq_iff_eq

/-- Work under leave may begin with LEAVE held, no operation of the flash, no brace and no entry to resolve (R520, R565, R591). -/
theorem State.mayWork_iff {s : State} {op : HeavyOp} :
    s.mayWork op = true ↔ s.fwRuns = true ∧ s.leave.holding = some op ∧ s.flash.op = none ∧ s.power.brace = false ∧
      s.core.recovering = false := by
  simp only [State.mayWork, Bool.and_eq_true, State.holds_iff, Option.isNone_iff_eq_none, Bool.not_eq_true', and_assoc]

theorem State.releaseFor_holding_none {s : State} {op : HeavyOp} (h : s.leave.holding = some op) :
    (s.releaseFor op).leave.holding = none := by
  obtain ⟨p, w, f, hreleased⟩ := State.releaseFor_held s op h
  rw [hreleased]

/-- An operation on each channel in turn writes each channel as it stood before. -/
theorem State.eachChan_chan {f : Chan → State → State} {g : Chan → Channel → Channel}
    (hf : ∀ n s, (f n s).chan = s.chan.set n (g n (s.chan.get n))) (s : State) (n : Chan) :
    (s.eachChan f).chan.get n = g n (s.chan.get n) := by
  have hmem : n ∈ Chan.all := by revert n; decide
  have hfold (l : List Chan) (hl : l.Nodup) (t : State) :
      (l.foldl (fun t c => f c t) t).chan.get n = if n ∈ l then g n (t.chan.get n) else t.chan.get n := by
    induction l generalizing t with
    | nil => simp
    | cons c l ih =>
      obtain ⟨hc, hl⟩ := List.nodup_cons.mp hl
      rw [List.foldl_cons, ih hl, hf]
      by_cases hn : n = c
      · subst hn
        simp [hc]
      · simp [hn, Per8.get_set_ne _ _ _ _ hn]
  rw [State.eachChan, hfold Chan.all (by decide), if_pos hmem]

/-! ### ADOPTION_ARM (R614) -/

theorem State.adoptionArm_of_kept {u : State} {f : Frame} (hkept : u.tether.kept = some f) (hset : u.tb.epochSet = true)
    (hforeign : u.foreign f = true) (hstuck : u.faultActive 0xA3 0xFF = false) :
    u.adoptionArm =
      if u.fwRuns && u.cal.run.isNone && !u.tb.commitOwed then
        { u with tether := { u.tether with kept := none, armed := some f } }
      else u := by
  simp only [State.adoptionArm, hkept, hset, hforeign, hstuck, Bool.not_false, Bool.and_true]
  rfl

/-! ### EPOCH_ADOPTION (R59, R61, R200, R295, R615, R617) -/

/-- An armed adoption switches at its instant and not before, and not while the number of the last one waits for the flash. -/
theorem State.epochAdoption_of_armed {u : State} {f : Frame} {e w d : Nat} (harmed : u.tether.armed = some f)
    (hedge : u.tether.edgeAt = some e) (hset : u.tb.epochSet = true) (hswitch : (w, d) = u.switchOf e) :
    u.epochAdoption = if decide (w ≤ u.clock) && !u.tb.commitOwed then u.switchTo f w d else u := by
  simp only [State.epochAdoption, harmed, hedge, ← hswitch, hset, Bool.and_true]

/-- The timebase, the session number and the tether at the switch instant (R59, R615). -/
def State.switched (s : State) (f : Frame) (w d : Nat) : State :=
  { s with
    tb := (s.adoptTimebase f (s.full - (s.clock - w)) (fullOf f.era (switchTime f d)) w d).move (s.clock - w)
    keep := { s.keep with copy := s.keep.copy + 1 }
    tether := { s.tether with armed := none, edgeAt := none } }

/-- What follows the intervals at the switch: drop runs, packer, counts and the first skeins of the session (R318, R370, R617). -/
def State.sessionBegun (s : State) (w : Nat) : State :=
  ((((s.closeDropRun .raw).closeDropRun .shelf).adoptPacker).adoptMarkers).adoptCounts.adoptSkeins w

theorem State.switchTo_eq (s : State) (f : Frame) (w d : Nat) :
    s.switchTo f w d =
      ((s.switched f w d).adoptIntervals (s.full - (s.clock - w)) (fullOf f.era (switchTime f d)) w).sessionBegun w := rfl

theorem State.sessionBegun_same (s : State) (w : Nat) : Same [.cab, .pack, .faults, .chain, .fol, .cal] s (s.sessionBegun w) := by
  unfold State.sessionBegun
  refine Same.step (State.adoptSkeins_same _ _) rfl (Same.step (State.adoptCounts_same _) rfl ?_)
  refine Same.step (State.adoptMarkers_same _) rfl (Same.step (State.adoptPacker_same _) rfl ?_)
  exact Same.step (State.closeDropRun_same _ _) rfl (Same.mono (State.closeDropRun_same _ _) rfl)

theorem State.switchTo_same_switched (s : State) (f : Frame) (w d : Nat) :
    Same [.chan, .stat, .eng, .cab, .pack, .faults, .chain, .fol, .cal] (s.switched f w d) (s.switchTo f w d) := by
  rw [State.switchTo_eq]
  exact Same.step (State.sessionBegun_same _ _) rfl (Same.mono (State.adoptIntervals_same _ _ _ _) rfl)

/-- The refusals count from 0 at the switch (R295). -/
theorem State.switchTo_refusals (s : State) (f : Frame) (w d : Nat) : (s.switchTo f w d).chain.refusals = 0 := by
  rw [State.switchTo_eq]
  exact congrArg (·.refusals) (State.adoptSkeins_same _ w .chain rfl)

/-- A channel at the switch: its tick grid re-anchors and its expiries count from 0 (R200, R617). -/
def Channel.adopted (old new : Nat) (c : Channel) : Channel :=
  { c with
    lastTick := c.lastTick.map (shiftTime old new), tickAt := shiftTime old new c.tickAt, presentAt := new, expired := 0 }

theorem State.adoptChan_chan (s : State) (n : Chan) (old new w : Nat) :
    (s.adoptChan n old new w).chan = s.chan.set n ((s.chan.get n).adopted old new) := by
  have hclosed (b : Bool) (c : BitVec 48) : ((if b then s.closeInterval n old c true else s).cutSamples n).chan = s.chan := by
    refine (State.cutSamples_same _ n .chan rfl).trans ?_
    cases b
    · rfl
    · exact State.closeInterval_same s n old c true .chan rfl
  simp only [State.adoptChan, State.modChan_chan, State.modStat_chan, hclosed, Channel.adopted]

theorem State.adoptIntervals_chan (s : State) (old new w : Nat) (n : Chan) :
    (s.adoptIntervals old new w).chan.get n = (s.chan.get n).adopted old new := by
  have hopened {g : Chan → State → State} (hg : ∀ n t, Same [.stat] t (g n t)) (t : State) : (t.eachChan g).chan = t.chan :=
    Same.eachChan hg (Same.refl _ t) .chan rfl
  rw [State.adoptIntervals, hopened fun _ _ => State.openInterval_same _ _ _ _ _]
  exact State.eachChan_chan (fun n s => State.adoptChan_chan s n old new w) s n

theorem State.switchTo_chan (s : State) (f : Frame) (w d : Nat) (n : Chan) :
    (s.switchTo f w d).chan.get n =
      (s.chan.get n).adopted (s.full - (s.clock - w)) (fullOf f.era (switchTime f d)) := by
  rw [State.switchTo_eq, State.sessionBegun_same _ w .chan rfl, State.adoptIntervals_chan]
  rfl

/-- The time counter stands on the frame's scale, moved on by what has passed since the switch instant (R615). -/
theorem State.switched_time (s : State) (f : Frame) (w d : Nat) :
    (s.switched f w d).tb.time =
      BitVec.ofNat 64 (4000000000000 * f.seconds.toNat + d) + BitVec.ofNat 64 (s.clock - w) := by
  rw [State.switched, Timebase.move, BitVec.ofNat_add, BitVec.ofNat_toNat, BitVec.setWidth_eq]
  rfl

/-! ### ADOPTION_SESSION_COMMIT (R59) -/

/-- The adopted number goes to flash. -/
def State.adoptionDue (s : State) : Bool := s.tb.commitOwed && s.mayWork .flashProgram && s.rowReady .session

theorem State.adoptionDue_iff {s : State} :
    s.adoptionDue = true ↔ s.tb.commitOwed = true ∧
      (s.fwRuns = true ∧ s.leave.holding = some .flashProgram ∧ s.flash.op = none ∧ s.power.brace = false ∧
        s.core.recovering = false) ∧ s.rowReady .session = true := by
  simp only [State.adoptionDue, Bool.and_eq_true, State.mayWork_iff, and_assoc]

theorem State.adoptionCommit_of_due {s : State} (h : s.adoptionDue = true) :
    s.adoptionCommit =
      State.releaseFor
        { State.rowAdvance .session (s.keep.copy - s.rowValue .session) s with
          tb := { (State.rowAdvance .session (s.keep.copy - s.rowValue .session) s).tb with commitOwed := false } }
        .flashProgram := if_pos h

theorem State.adoptionCommit_of_not_due {s : State} (h : s.adoptionDue = false) : s.adoptionCommit = s :=
  if_neg (Bool.eq_false_iff.mp h)

end Sys2Proof.Machine

open Sys2Proof Sys2Proof.Machine

/-- Settles O57: a kept frame arms, the switch takes its scale, and the adopted number goes to flash under leave. -/
theorem adoptionsSwitch : Obligations.AdoptionsSwitch := by
  refine ⟨?arm, ?adopt, ?commit⟩
  case arm =>
    rintro dt s u f rfl hkept hset hforeign hstuck
    have harm := (exec_adoptionArm dt s).trans (congrArg _ (State.adoptionArm_of_kept hkept hset hforeign hstuck))
    refine ⟨fun hruns hrun howed => ?_, fun hnot => ?_⟩
    · rw [harm, if_pos (by simp [hruns, hrun, howed])]
    · rw [harm, if_neg]
      rcases hnot with h | h | h
      · simp [h]
      · simp [Option.isSome_iff_ne_none.mp h]
      · simp [h]
  case adopt =>
    rintro dt e w d s u f rfl harmed hedge hset hswitch
    have hadopt := (exec_epochAdoption dt s).trans (congrArg _ (State.epochAdoption_of_armed harmed hedge hset hswitch))
    refine ⟨fun hdue howed => ?_, fun hnot => ?_⟩
    · rw [if_pos (by simp [hdue, howed])] at hadopt
      have hsame := State.switchTo_same_switched (advance dt s) f w d
      have htb : ((advance dt s).switchTo f w d).tb = ((advance dt s).switched f w d).tb := hsame .tb rfl
      refine ⟨hadopt, _, hadopt, State.switchTo_same _ f w d, ?_⟩
      dsimp only
      rw [htb, State.switched_time, State.switchTo_refusals, hsame .keep rfl, hsame .tether rfl]
      refine ⟨rfl, rfl, rfl, rfl, rfl, rfl, rfl, rfl, rfl, fun n => ?_⟩
      rw [State.switchTo_chan]
      exact ⟨rfl, rfl, rfl, rfl⟩
    · rw [hadopt, if_neg]
      rcases hnot with h | h
      · simp [h]
      · simp [h]
  case commit =>
    rintro dt s u rfl
    refine ⟨fun hruns howed hheld hop hbrace hrecovering hready => ?_, fun hnot => ?_⟩
    · have hdue := State.adoptionDue_iff.mpr ⟨howed, ⟨hruns, hheld, hop, hbrace, hrecovering⟩, hready⟩
      have hrow := State.rowAdvance_same .session ((advance dt s).keep.copy - (advance dt s).rowValue .session) (advance dt s)
      refine ⟨_, exec_adoptionSessionCommit dt s, State.adoptionCommit_same _, ?_⟩
      rw [State.adoptionCommit_of_due hdue]
      refine ⟨?_, ?_, fun hcopy => ?_⟩
      · refine (State.releaseFor_same _ _ .tb rfl).trans ?_
        dsimp only
        rw [hrow .tb rfl]
      · exact State.releaseFor_holding_none ((congrArg (·.holding) (hrow .leave rfl)).trans hheld)
      · refine (State.releaseFor_same _ _ .mem rfl).trans ?_
        rw [Nat.sub_eq_zero_of_le hcopy]
        rfl
    · have hdue : (advance dt s).adoptionDue = false := by
        refine Bool.eq_false_iff.mpr fun h => ?_
        obtain ⟨howed, ⟨hruns, hheld, hop, hbrace, hrecovering⟩, hready⟩ := State.adoptionDue_iff.mp h
        simp [howed, hruns, hheld, hop, hbrace, hrecovering, hready] at hnot
      rw [exec_adoptionSessionCommit, State.adoptionCommit_of_not_due hdue]
end

section
/-! The PLL step of start-up, and what the loss of lock does (R39, R42, R48, R75, R494, R505, R506, R508). -/

namespace Sys2Proof.Machine
open Sys2Proof

/-! ### What each command runs -/

theorem exec_pllLock (dt : Nat) (s : State) : exec (.pllLock dt) s = .next (advance dt s).pllLock := rfl

theorem exec_refinActivityTimeout (dt : Nat) (s : State) :
    exec (.refinActivityTimeout dt) s =
      .next ((advance dt s).when ((advance dt s).core.boot == .pll && !(advance dt s).tb.refin &&
        decide (100 * Config.ms ≤ (advance dt s).clock - (advance dt s).tb.refinAt)) fun t => t.raise 0x20 0xFF 0 0) := rfl

theorem exec_pllLockTimeout (dt : Nat) (s : State) :
    exec (.pllLockTimeout dt) s =
      .next ((advance dt s).when ((advance dt s).core.boot == .pll && (advance dt s).tb.refin &&
        decide (5 * Config.ms ≤ (advance dt s).clock - (advance dt s).tb.refinAt)) fun t => t.raise 0x22 0xFF 0 0) := rfl

theorem exec_refinActivityChange (dt : Nat) (active : Bool) (s : State) :
    exec (.refinActivityChange dt active) s = .next ((advance dt s).refinChange active) := rfl

theorem exec_pllUnlock (dt : Nat) (s : State) : exec (.pllUnlock dt) s = .next (advance dt s).pllUnlock := rfl

/-- A held fault that is raised where a condition holds. -/
theorem State.when_raise (u : State) (b : Bool) (code subj : Byte) (x y : BitVec 32) :
    (u.when b fun t => t.raise code subj x y) =
      if b = true then { u with faults := u.faults.raised code u.tb.time subj x y } else u := by
  rw [State.when, State.raise_eq]

/-! ### The PLL step (R39, R48, R75) -/

theorem State.pllLock_of_pll {u : State} (hboot : u.core.boot = .pll) (hon : u.tb.pllOn = true) :
    u.pllLock = { u with
      tb := { u.tb with locked := true, lockAt := u.clock, refin := true }
      core := { u.core with boot := .epoch }
      faults := (u.faults.cleared 0x20 u.tb.time 0xFF).cleared 0x22 u.tb.time 0xFF } := by
  rw [State.pllLock, if_pos (by simp [hboot, hon]), State.clearFault_eq, State.clearFault_eq]

theorem State.pllLock_of_not_pll {u : State} (hboot : u.core.boot ≠ .pll) : u.pllLock = u :=
  if_neg (by simp [hboot])

/-- Both counts of the PLL step restart with a change of REFIN activity, and the fault of the other wait clears (R75). -/
theorem State.refinChange_eq (u : State) (active : Bool) :
    u.refinChange active =
      if u.tb.refin = active then u
      else { u with
        tb := { u.tb with refin := active, refinAt := if u.core.boot = .pll then u.clock else u.tb.refinAt }
        faults := u.faults.cleared (if active then 0x20 else 0x22) u.tb.time 0xFF } := by
  unfold State.refinChange
  cases active <;> simp only [State.clearFault_eq, Bool.false_eq_true, if_true, if_false]

/-! ### Timebase holdover (R42, R75, R505) -/

/-- Lock is lost in a session: holdover begins, with fault 0x21, and every open gate has it to tell (R42, R263). -/
def State.heldOver (u : State) : State :=
  (State.flagGates { u with
    tb := { u.tb with locked := false, holdover := true, holdEntry := u.tb.time, holdExit := 0 }
    cal := { u.cal with passed := false }
    faults := u.faults.raised 0x21 u.tb.time 0xFF 0 0 } fun g => { g with holdover := true })

theorem State.pllUnlock_of_epoch {u : State} (hlocked : u.tb.locked = true) (hset : u.tb.epochSet = true) :
    u.pllUnlock = (u.heldOver.abandonRun.dropRequest .fullRun).releaseFor .fullRun := by
  rw [State.pllUnlock, hlocked, hset, Bool.not_true, if_neg Bool.false_ne_true, if_pos rfl]
  dsimp only
  rw [State.raise_eq]
  rfl

/-- Lock is lost before the epoch: start-up goes back to the PLL step (log 43). -/
theorem State.pllUnlock_before_epoch {u : State} (hlocked : u.tb.locked = true) (hset : u.tb.epochSet = false)
    (hboot : u.core.boot = .epoch) :
    u.pllUnlock = { u with tb := { u.tb with locked := false, refinAt := u.clock }, core := { u.core with boot := .pll } } := by
  rw [State.pllUnlock, hlocked, hset, hboot, Bool.not_true, if_neg Bool.false_ne_true, if_neg Bool.false_ne_true,
    if_pos (beq_self_eq_true _)]

/-! ### A run that is abandoned (R494, R505, R506, R508) -/

/-- What the calibration holds of runs: the one in progress, the results that wait, and whether a pre-check has passed. -/
def Cal.runs (c : Cal) : Option Run × List RunResult × Bool := (c.run, c.results, c.passed)

/-- `t` holds of runs what `s` does. -/
def KeepsRuns (s t : State) : Prop := t.cal.runs = s.cal.runs

theorem KeepsRuns.step {ps : List Part} {s t u : State} (h' : Same ps t u) (hps : ps.contains .cal = false)
    (h : KeepsRuns s t) : KeepsRuns s u := (congrArg Cal.runs (h' .cal hps)).trans h

theorem KeepsRuns.trans {s t u : State} (h : KeepsRuns s t) (h' : KeepsRuns t u) : KeepsRuns s u := Eq.trans h' h

theorem KeepsRuns.refl (s : State) : KeepsRuns s s := rfl

theorem KeepsRuns.ite {c : Prop} {_ : Decidable c} {s t u : State} (ht : KeepsRuns s t) (hu : KeepsRuns s u) :
    KeepsRuns s (if c then t else u) := by
  split
  · exact ht
  · exact hu

theorem State.rebuild_keepsRuns (s : State) : KeepsRuns s s.rebuild := by
  have hretrimmed {f : OutNo → State → State} (hf : ∀ o t, Same [.ao] t (f o t)) : KeepsRuns s (s.eachOut f) :=
    .step (Same.eachOut hf (Same.refl _ s)) rfl (.refl s)
  exact .ite (.refl s) ((hretrimmed fun _ _ => State.modOut_same _ _ _).trans rfl)

theorem State.ready_keepsRuns (s : State) : KeepsRuns s s.ready := rfl

theorem State.startupAbandoned_keepsRuns (s : State) (inst : Nat) : KeepsRuns s (s.startupAbandoned inst) := by
  unfold State.startupAbandoned
  have hstarted : KeepsRuns s (s.rebuild.startYarns inst) :=
    .step (State.startYarns_same _ _) rfl (State.rebuild_keepsRuns s)
  exact .ite (.step (State.raise_same _ _ _ _ _) rfl rfl) ((hstarted.trans (State.ready_keepsRuns _)).trans rfl)

/-- The run is over; its result waits, with nothing calibrated (R505, R506). -/
def State.runDropped (s : State) (r : Run) : State :=
  let d1 := s.drawNat
  let d2 := d1.2.drawNat
  let res := d2.2.abandonedResult r d1.1 s.nextCycle
  { d2.2 with cal := { d2.2.cal with
    run := none, results := d2.2.cal.results ++ [res], lastEndTime := res.endTime, lastDie := res.temp } }

theorem State.runDropped_runs (s : State) (r : Run) :
    ∃ res : RunResult, (s.runDropped r).cal.runs = (none, s.cal.results ++ [res], s.cal.passed) ∧ res.abandoned = true ∧
      res.rejoin = r.rejoin ∧ res.temp = s.meanDie r := ⟨_, rfl, rfl, rfl, rfl⟩

theorem State.abandonRun_of_none {s : State} (h : s.cal.run = none) : s.abandonRun = s := by
  simp only [State.abandonRun, h]

/-- The step of the run that fault 0x62 names (R505). -/
def State.stepDropped (s : State) (r : Run) : BitVec 32 :=
  BitVec.ofNat 32 (stepReached r.rejoin.isSome (s.clock - r.startClock) s.drawNat.2.drawNat.1)

/-- The channels of an abandoned full run go on and LEAVE is released, with fault 0x62 (R505, R506). -/
def State.fullRunBack (s : State) (inst : Nat) (step : BitVec 32) : State :=
  (((s.eachChan fun n t => t.resumeChan n inst).eachChan fun n t => t.lateGap n false).releaseFor .fullRun).log 0x62 0xFF 1 step

theorem State.abandonRun_of_rejoin {s : State} {r : Run} {n : Chan} (h : s.cal.run = some r) (hrejoin : r.rejoin = some n) :
    s.abandonRun =
      ((((s.runDropped r).releaseFor (.join n)).goAbsentUp n).lateGap n true).log 0x62 0xFF 2 (s.stepDropped r) := by
  simp only [State.abandonRun, h, hrejoin, State.runDropped, State.stepDropped]

theorem State.abandonRun_of_full {s : State} {r : Run} (h : s.cal.run = some r) (hrejoin : r.rejoin = none) :
    s.abandonRun =
      if s.core.boot == .calib then ((s.runDropped r).fullRunBack s.nextCycle (s.stepDropped r)).startupAbandoned s.nextCycle
      else if r.trigger = .temperature then
        ((s.runDropped r).fullRunBack s.nextCycle (s.stepDropped r)).requestRun .temperature
      else (s.runDropped r).fullRunBack s.nextCycle (s.stepDropped r) := by
  simp only [State.abandonRun, h, hrejoin, State.runDropped, State.stepDropped, State.fullRunBack]

theorem State.fullRunBack_keepsRuns (s : State) (inst : Nat) (step : BitVec 32) : KeepsRuns s (s.fullRunBack inst step) := by
  refine .step (State.log_same _ _ _ _ _) rfl (.step (State.releaseFor_same _ _) rfl ?_)
  refine .step (Same.eachChan (fun n t => State.lateGap_same t n false) (Same.refl _ _)) rfl ?_
  exact .step (Same.eachChan (fun n t => State.resumeChan_same t n inst) (Same.refl _ s)) rfl (.refl s)

theorem State.requestRun_keepsRuns (s : State) (g : Trigger) : KeepsRuns s (s.requestRun g) := rfl

theorem State.abandonRun_keepsRuns {s : State} {r : Run} (h : s.cal.run = some r) :
    KeepsRuns (s.runDropped r) s.abandonRun := by
  cases hrejoin : r.rejoin with
  | some n =>
    rw [State.abandonRun_of_rejoin h hrejoin]
    refine .step (State.log_same _ _ _ _ _) rfl (.step (State.lateGap_same _ _ _) rfl ?_)
    exact .step (State.goAbsentUp_same _ _) rfl (.step (State.releaseFor_same _ _) rfl (.refl _))
  | none =>
    have hback := State.fullRunBack_keepsRuns (s.runDropped r) s.nextCycle (s.stepDropped r)
    rw [State.abandonRun_of_full h hrejoin]
    exact .ite (hback.trans (State.startupAbandoned_keepsRuns _ _)) (.ite (hback.trans (State.requestRun_keepsRuns _ _)) hback)

/-- An abandoned run is over and reported as such, with the temperature of its suspension (R494, R505, R506). -/
theorem State.abandonRun_reports {s : State} {r : Run} (h : s.cal.run = some r) :
    ∃ res : RunResult, s.abandonRun.cal.runs = (none, s.cal.results ++ [res], s.cal.passed) ∧ res.abandoned = true ∧
      res.rejoin = r.rejoin ∧ res.temp = s.meanDie r := by
  obtain ⟨res, hruns, hres⟩ := State.runDropped_runs s r
  exact ⟨res, Eq.trans (State.abandonRun_keepsRuns h) hruns, hres⟩

/-- No run goes on, and no pre-check that has passed stands, in holdover. -/
theorem State.heldOver_abandonRun_runs (u : State) :
    u.heldOver.abandonRun.cal.run = none ∧ u.heldOver.abandonRun.cal.passed = false := by
  cases h : u.cal.run with
  | none => rw [State.abandonRun_of_none (s := u.heldOver) h]; exact ⟨h, rfl⟩
  | some r =>
    obtain ⟨res, hruns, -⟩ := State.abandonRun_reports (s := u.heldOver) h
    exact ⟨congrArg (·.1) hruns, congrArg (·.2.2) hruns⟩

end Sys2Proof.Machine

open Sys2Proof Sys2Proof.Machine

/-- Settles O27: the PLL step with its two faults, holdover with the run it abandons, and the way back before the epoch. -/
theorem pllStepRunsAndHoldsOver : Obligations.PllStepRunsAndHoldsOver := by
  refine ⟨?step, ?holdover, ?before⟩
  case step =>
    rintro dt s u rfl
    refine ⟨fun hboot hon => ?_, fun hboot => ?_, fun hboot => ?_, fun active => ?_, fun hboot => ⟨?_, ?_, ?_⟩⟩
    · rw [exec_pllLock, State.pllLock_of_pll hboot hon]
    · rw [exec_refinActivityTimeout, State.when_raise]
      simp only [hboot, beq_self_eq_true, Bool.true_and, Bool.and_eq_true, Bool.not_eq_true', decide_eq_true_eq, Config.ms,
        Nat.reduceMul]
    · rw [exec_pllLockTimeout, State.when_raise]
      simp only [hboot, beq_self_eq_true, Bool.true_and, Bool.and_eq_true, decide_eq_true_eq, Config.ms, Nat.reduceMul]
    · rw [exec_refinActivityChange, State.refinChange_eq]
    · rw [exec_pllLock, State.pllLock_of_not_pll hboot]
    · rw [exec_refinActivityTimeout, beq_false_of_ne hboot]; rfl
    · rw [exec_pllLockTimeout, beq_false_of_ne hboot]; rfl
  case holdover =>
    rintro dt s u rfl hlocked hset
    have hframe := State.pllUnlock_same (advance dt s)
    refine ⟨_, exec_pllUnlock dt s, hframe, ?_⟩
    rw [State.pllUnlock_of_epoch hlocked hset] at hframe ⊢
    generalize advance dt s = u at hframe
    have hleave : Same [.leave] u.heldOver.abandonRun ((u.heldOver.abandonRun.dropRequest .fullRun).releaseFor .fullRun) :=
      Same.step (State.releaseFor_same _ _) rfl (State.dropRequest_same _ _)
    obtain ⟨hrun, hpassed⟩ := State.heldOver_abandonRun_runs u
    have hcounts := hframe .counts rfl
    dsimp only
    rw [hleave .tb rfl, hleave .cal rfl, hleave .faults rfl]
    refine ⟨State.abandonRun_same _ .tb rfl, hcounts, hrun, hpassed, fun hnone => ?_, fun r hr => ?_⟩
    · rw [hleave .chan rfl, State.abandonRun_of_none (s := u.heldOver) hnone]
      exact ⟨rfl, rfl⟩
    · obtain ⟨res, hruns, habandoned, hrejoin, htemp⟩ := State.abandonRun_reports (s := u.heldOver) hr
      have hresults : u.heldOver.abandonRun.cal.results = u.cal.results ++ [res] := congrArg (·.2.1) hruns
      rw [hresults, List.map_append, List.map_singleton, habandoned, hrejoin, List.getLast?_concat, Option.map_some, htemp]
      exact ⟨rfl, rfl⟩
  case before =>
    rintro dt s u rfl hlocked hset hboot
    rw [exec_pllUnlock, State.pllUnlock_before_epoch hlocked hset hboot]
end

section
/-! The first steps of start-up: reset release, recovery and the session commit (R57, R58, R541, R544, R579, R582 to R584, R601,
R629, R632). -/

namespace Sys2Proof.Machine
open Sys2Proof

/-! ### What each command runs -/

theorem exec_resetRelease (dt : Nat) (sense : FuseSense) (s : State) :
    exec (.resetRelease dt sense) s = .next ((advance dt s).resetRelease sense) := rfl

theorem exec_journalRecovery (dt : Nat) (s : State) : exec (.journalRecovery dt) s = .next (advance dt s).journalRecovery := rfl

theorem exec_rowCounterReconcile (dt : Nat) (s : State) :
    exec (.rowCounterReconcile dt) s = .next (advance dt s).rowReconcile := rfl

theorem exec_sessionCommit (dt : Nat) (s : State) : exec (.sessionCommit dt) s = .next (advance dt s).sessionCommit := rfl

/-! ### Reset release (R579, R582, R601, R629, R632) -/

/-- A fuse counts as intact only where it was never blown and reads intact (R632). -/
theorem senseFuse_eq (f : Fuse) (sense : FuseSense) :
    senseFuse f sense = if f ≠ .blown ∧ sense = .intact then .intact else .blown := by
  by_cases hf : f = .blown
  · simp [senseFuse, hf]
  · cases sense <;> simp [senseFuse, hf]

theorem State.resetRelease_of_held {u : State} (sense : FuseSense) (hheld : u.clock < u.core.heldTo) :
    u.resetRelease sense = u :=
  if_neg (by simp [State.releaseDue, Nat.not_le_of_lt hheld])

/-- The release: start-up begins, or the core stays held where the image check fails. -/
theorem State.resetRelease_of_due {u : State} (sense : FuseSense) (hboot : u.core.boot = .inReset)
    (hdue : u.core.heldTo ≤ u.clock) :
    u.resetRelease sense = { u with
      core := { u.core with
        boot := if u.imageOk then .straps else .held, releasedAt := u.clock, dogAt := u.clock + 8000000000000 }
      cab := { u.cab with scrubAt := u.clock }
      svc := { u.svc with
        verified := u.imageOk
        fuse := if u.svc.fuse ≠ .blown ∧ sense = .intact then .intact else .blown }
      faults := if u.imageOk then u.faults else u.faults.raised 0xF1 u.tb.time 0xFF 0 0 } := by
  rw [State.resetRelease, if_pos (by simp [hboot, State.releaseDue, hdue]), senseFuse_eq]
  dsimp only
  cases u.imageOk with
  | true => rfl
  | false => rw [if_neg Bool.false_ne_true, if_neg Bool.false_ne_true, if_neg Bool.false_ne_true, State.raise_eq]; rfl

/-! ### Journal recovery (R541, R544, R584) -/

theorem State.checkSpares_of_enough {u : State} (hspares : 4 < u.spares) (hretired : u.retirements < 508) :
    u.checkSpares = u := if_neg (by omega)

/-- The recovery step resolves the oldest open entry under leave, and goes on where none is open. -/
theorem State.journalRecovery_of_step {u : State} (hruns : u.fwRuns = true) (hboot : u.core.boot = .recovery)
    (hopen : u.core.recovered = false) (hspares : 4 < u.spares) (hretired : u.retirements < 508) :
    (u.nextOpen = none → u.journalRecovery = { u with core := { u.core with recovered := true } }) ∧
      ∀ i : Nat, u.nextOpen = some i →
        u.journalRecovery =
          if u.holds .flashErase && !u.power.brace then (u.recoverOne i).releaseFor .flashErase else u := by
  have hstep : (u.core.boot == .recovery && !u.core.recovered) = true := by simp [hboot, hopen]
  have hwork : (u.fwRuns && ((u.core.boot == .recovery && !u.core.recovered) || u.core.recovering)) = true := by
    simp [hruns, hstep]
  refine ⟨fun hnone => ?_, fun i hi => ?_⟩
  · rw [State.journalRecovery, if_pos hwork]
    simp only [State.checkSpares_of_enough hspares hretired, hnone, hstep, if_true]
  · rw [State.journalRecovery, if_pos hwork]
    simp only [State.checkSpares_of_enough hspares hretired, hi]

/-- Fault 0x75 names the kind of the entry, with its sector for an erase and for a retirement (R544, R550). -/
theorem State.recoverEntry_details (u : State) (i : Nat) :
    (u.entryType i = 1 → (u.recoverEntry i).1 = 1 ∧ (u.recoverEntry i).2.1 = u.entryField i 16 10) ∧
      (u.entryType i = 4 → (u.recoverEntry i).1 = 4 ∧ (u.recoverEntry i).2.1 = u.entryField i 16 10) ∧
      (u.entryType i ≠ 1 → u.entryType i ≠ 4 → (u.recoverEntry i).1 = 2 ∨ (u.recoverEntry i).1 = 3) := by
  refine ⟨fun herase => ?_, fun hretire => ?_, fun herase hretire => ?_⟩
  · rw [State.recoverEntry, if_pos herase]
    exact ⟨rfl, rfl⟩
  · rw [State.recoverEntry, if_neg (by omega), if_pos hretire]
    exact ⟨rfl, rfl⟩
  · rw [State.recoverEntry, if_neg herase, if_neg hretire]
    dsimp only
    split
    · exact .inr rfl
    · exact .inl rfl

/-- One entry resolved, with its fault. -/
theorem State.recoverOne_faults (u : State) (i : Nat) :
    (u.recoverOne i).faults = (u.recoverEntry i).2.2.faults.logged 0x75 u.tb.time 0xFF
      (BitVec.ofNat 32 (u.recoverEntry i).1) (BitVec.ofNat 32 (u.recoverEntry i).2.1) := by
  have htb : (u.recoverEntry i).2.2.tb = u.tb := State.recoverEntry_same u i .tb rfl
  rw [← htb, State.recoverOne, State.log_eq]

theorem State.recoverOne_mem (u : State) (i : Nat) :
    (u.recoverOne i).flash.mem = (u.recoverEntry i).2.2.flash.mem :=
  State.log_same _ _ _ _ _ .mem rfl

/-- The resolution of an entry releases LEAVE. -/
theorem State.recoverOne_release {u : State} (i : Nat) (hheld : u.leave.holding = some .flashErase) :
    ((u.recoverOne i).releaseFor .flashErase).leave.holding = none ∧
      ((u.recoverOne i).releaseFor .flashErase).flash.mem = (u.recoverEntry i).2.2.flash.mem ∧
      ((u.recoverOne i).releaseFor .flashErase).faults = (u.recoverOne i).faults := by
  have hleave : (u.recoverOne i).leave = u.leave := State.recoverOne_same u i .leave rfl
  have hreleased := State.releaseFor_same (u.recoverOne i) .flashErase
  exact ⟨State.releaseFor_holding_none (hleave ▸ hheld), (hreleased .mem rfl).trans (State.recoverOne_mem u i),
    hreleased .faults rfl⟩

/-! ### Row counters (R541) -/

theorem State.rowReconcile_of_step {u : State} (hruns : u.fwRuns = true) (hboot : u.core.boot = .recovery)
    (hrecovered : u.core.recovered = true) (hopen : u.core.reconciled = false) :
    u.rowReconcile =
      if u.reconcile.flash.mem = u.flash.mem then u.reconcile.endRecovery
      else if u.holds .flashProgram && !u.power.brace then (u.reconcile.releaseFor .flashProgram).endRecovery else u :=
  if_pos (by simp [hruns, hboot, hrecovered, hopen])

/-- The recovery step ends with the array as the reconciliation left it, and the session commit follows (R583). -/
theorem State.endRecovery_ends (u : State) :
    u.endRecovery.core.reconciled = true ∧ u.endRecovery.core.boot = .commit ∧ u.endRecovery.flash.mem = u.flash.mem ∧
      u.endRecovery.leave = u.leave :=
  ⟨rfl, rfl, State.endRecovery_same u .mem rfl, State.endRecovery_same u .leave rfl⟩

/-- A reconciliation that acts releases LEAVE. -/
theorem State.reconcile_release {u : State} (hheld : u.leave.holding = some .flashProgram) :
    (u.reconcile.releaseFor .flashProgram).leave.holding = none ∧
      (u.reconcile.releaseFor .flashProgram).flash.mem = u.reconcile.flash.mem := by
  have hleave : u.reconcile.leave = u.leave := State.reconcile_same u .leave rfl
  have hreleased := State.releaseFor_same u.reconcile .flashProgram
  exact ⟨State.releaseFor_holding_none ((congrArg (·.holding) hleave).trans hheld), hreleased .mem rfl⟩

/-! ### Session commit (R57, R58) -/

theorem State.sessionDue_iff {s : State} :
    s.sessionDue = true ↔ s.core.boot = .commit ∧
      (s.fwRuns = true ∧ s.leave.holding = some .flashProgram ∧ s.flash.op = none ∧ s.power.brace = false ∧
        s.core.recovering = false) ∧ s.rowReady .session = true := by
  simp only [State.sessionDue, Bool.and_eq_true, State.mayWork_iff, beq_iff_eq, and_assoc]

/-- Once its number is taken the commit releases LEAVE, arms the start-up tasks and tells an invalid keep copy. -/
theorem State.sessionCommit_same_taken {s : State} (h : s.sessionDue = true) :
    Same [.sched, .leave, .faults] s.sessionTaken s.sessionCommit := by
  have harmed : Same [.sched, .leave, .faults] s.sessionTaken (s.sessionTaken.releaseFor .flashProgram).armStartup :=
    Same.step (State.armStartup_same _) rfl (Same.mono (State.releaseFor_same _ _) rfl)
  rw [State.sessionCommit_of_due h]
  exact Same.ite harmed (Same.step (State.log_same _ _ _ _ _) rfl harmed)

theorem State.sessionTaken_leave (s : State) : s.sessionTaken.leave = s.leave :=
  State.rowAdvance_same .session (s.lastSession + 1 - s.rowValue .session) s .leave rfl

theorem State.sessionTaken_time (s : State) : s.sessionTaken.tb.time = s.tb.time :=
  congrArg (·.time) (State.rowAdvance_same .session (s.lastSession + 1 - s.rowValue .session) s .tb rfl)

theorem State.sessionCommit_holding_none {s : State} (h : s.sessionDue = true) : s.sessionCommit.leave.holding = none := by
  obtain ⟨-, ⟨-, hheld, -⟩, -⟩ := State.sessionDue_iff.mp h
  have hfree : (s.sessionTaken.releaseFor .flashProgram).leave.holding = none :=
    State.releaseFor_holding_none (s.sessionTaken_leave ▸ hheld)
  have harmed : Same [.sched, .faults] (s.sessionTaken.releaseFor .flashProgram) s.sessionCommit := by
    have hsched : Same [.sched, .faults] (s.sessionTaken.releaseFor .flashProgram)
        (s.sessionTaken.releaseFor .flashProgram).armStartup := Same.mono (State.armStartup_same _) rfl
    rw [State.sessionCommit_of_due h]
    exact Same.ite hsched (Same.step (State.log_same _ _ _ _ _) rfl hsched)
  rw [harmed .leave rfl, hfree]

/-- Fault 0x26 tells an invalid keep copy and nothing else is told (R57). -/
theorem State.sessionCommit_faults {s : State} (h : s.sessionDue = true) :
    s.sessionCommit.faults =
      if s.keep.valid then s.sessionTaken.faults else s.sessionTaken.faults.logged 0x26 s.tb.time 0xFF 0 0 := by
  have harmed : Same [.sched, .leave] s.sessionTaken (s.sessionTaken.releaseFor .flashProgram).armStartup :=
    Same.step (State.armStartup_same _) rfl (Same.mono (State.releaseFor_same _ _) rfl)
  rw [State.sessionCommit_of_due h]
  by_cases hvalid : s.keep.valid = true
  · rw [if_pos hvalid, if_pos hvalid, harmed .faults rfl]
  · rw [if_neg hvalid, if_neg hvalid, State.log_eq]
    dsimp only
    rw [harmed .faults rfl, harmed .tb rfl, State.sessionTaken_time]

end Sys2Proof.Machine

open Sys2Proof Sys2Proof.Machine

/-- Settles O24: each step of start-up up to the PLL, with the conditions it waits for. -/
theorem startUpRuns : Obligations.StartUpRuns := by
  refine ⟨?release, ⟨?recovery, ?reconcile⟩, ?commit⟩
  case release =>
    rintro dt s u sense rfl hboot
    refine ⟨fun hheld => ?_, fun hdue => ?_⟩
    · rw [exec_resetRelease, State.resetRelease_of_held sense hheld]
    · rw [exec_resetRelease, State.resetRelease_of_due sense hboot hdue]
  case recovery =>
    rintro dt s u hu hruns hboot hopen hspares hretired
    obtain ⟨hnone, hsome⟩ := State.journalRecovery_of_step hruns hboot hopen hspares hretired
    have hexec : exec (.journalRecovery dt) s = .next u.journalRecovery := hu ▸ exec_journalRecovery dt s
    refine ⟨fun h => ?_, fun i hi => ⟨fun hnot => ?_, ?_⟩⟩
    · rw [hexec, hnone h]
    · rw [hexec, hsome i hi, if_neg]
      simp only [Bool.and_eq_true, State.holds_iff, Bool.not_eq_true', not_and]
      exact fun hheld => hnot.elim (absurd hheld) fun hbrace => by simp [hbrace]
    · rintro r rfl hheld hbrace
      obtain ⟨hfree, hmem, hfaults⟩ := State.recoverOne_release i hheld
      obtain ⟨herase, hretire, hother⟩ := State.recoverEntry_details u i
      rw [hsome i hi, if_pos (by simp [State.holds_iff, hheld, hbrace])] at hexec
      exact ⟨_, hexec, Same.step (State.releaseFor_same _ _) rfl (Same.mono (State.recoverOne_same u i) rfl),
        hfree, hmem, hfaults.trans (State.recoverOne_faults u i), herase, hretire, hother⟩
  case reconcile =>
    rintro dt s u hu hruns hboot hrecovered hopen
    have hrun := State.rowReconcile_of_step hruns hboot hrecovered hopen
    have hexec : exec (.rowCounterReconcile dt) s = .next u.rowReconcile := hu ▸ exec_rowCounterReconcile dt s
    refine ⟨fun hact => ⟨_, hexec, State.rowReconcile_same u, ?_⟩, fun hchanged hnot => ?_⟩
    · rw [hrun]
      by_cases hsame : u.reconcile.flash.mem = u.flash.mem
      · obtain ⟨hdone, hnext, hmem, -⟩ := State.endRecovery_ends u.reconcile
        rw [if_pos hsame]
        exact ⟨hdone, hnext, hmem, absurd hsame⟩
      · obtain ⟨hheld, hbrace⟩ := hact.resolve_left hsame
        obtain ⟨hfree, hkept⟩ := State.reconcile_release hheld
        obtain ⟨hdone, hnext, hmem, hend⟩ := State.endRecovery_ends (u.reconcile.releaseFor .flashProgram)
        rw [if_neg hsame, if_pos (by simp [State.holds_iff, hheld, hbrace])]
        exact ⟨hdone, hnext, hmem.trans hkept, fun _ => (congrArg (·.holding) hend).trans hfree⟩
    · rw [hexec, hrun, if_neg hchanged, if_neg]
      simp only [Bool.and_eq_true, State.holds_iff, Bool.not_eq_true', not_and]
      exact fun hheld => hnot.elim (absurd hheld) fun hbrace => by simp [hbrace]
  case commit =>
    rintro dt v s u hu hruns hboot hheld hbrace hop hrecovering hready rfl
    have hdue := State.sessionDue_iff.mpr ⟨hboot, ⟨hruns, hheld, hop, hbrace, hrecovering⟩, hready⟩
    have htaken := State.sessionCommit_same_taken hdue
    refine ⟨u.sessionCommit, hu ▸ exec_sessionCommit dt s, State.sessionCommit_same u, ?_⟩
    dsimp only
    rw [htaken .tb rfl, htaken .keep rfl, htaken .core rfl]
    refine ⟨rfl, rfl, rfl, rfl, rfl, rfl, rfl, rfl, State.sessionCommit_holding_none hdue, ?_⟩
    rintro r rfl
    exact ⟨htaken .mem rfl, State.sessionCommit_faults hdue⟩
end

section
/-! The session epoch and the PPS edges (R48 to R54, R63, R644). -/

namespace Sys2Proof.Machine
open Sys2Proof

/-! ### What each command runs -/

theorem exec_epochSet (dt : Nat) (s : State) : exec (.epochSet dt) s = .next (advance dt s).epochFree := rfl

theorem exec_epochPpsTimeout (dt : Nat) (s : State) : exec (.epochPpsTimeout dt) s = .next (advance dt s).epochTimeout := rfl

theorem exec_ppsEdge (dt : Nat) (s : State) : exec (.ppsEdge dt) s = .next (advance dt s).ppsEdge := rfl

theorem exec_ppsGapTimeout (dt : Nat) (s : State) : exec (.ppsGapTimeout dt) s = .next (advance dt s).ppsGap := rfl

/-! ### The epoch (R48, R51, R63) -/

/-- Time has passed up to the epoch and the time counter runs; step 6 of start-up has still to begin. -/
def State.epochBegun (s : State) (source : BitVec 2) (epoch : Nat) : State :=
  let s := advance (epoch - s.clock) s
  { s with
    tb := { s.tb with
      epochSet := true, time := BitVec.ofNat 64 (s.clock - epoch), era := 0, wrapped := false, epochClock := epoch
      start := s.startRecord source
      originId := BitVec.ofNat 4 s.unitId, originSession := s.tb.session, ppsCount := 0 }
    keep := { s.keep with counting := false, lost := false }
    fol := { s.fol with unlockedAt := epoch }
    core := { s.core with boot := .skeins } }

/-- The channels at the epoch. -/
def State.epochOpened (s : State) (source : BitVec 2) (epoch : Nat) : State :=
  (s.epochBegun source epoch).eachChan fun n t => t.chanAtEpoch n

/-- The start status is written, and the brace of the time before the epoch told (R62). -/
def State.epochTold (s : State) (source : BitVec 2) (epoch : Nat) : State :=
  let t := s.epochOpened source epoch
  let t := t.write typeStatus (t.statusBody 0 epoch true) false
  t.power.early.foldl (fun t m => t.hwMarker (.brace 0 m.1 m.2)) t

/-- The echo is written. -/
def State.epochEchoed (s : State) (source : BitVec 2) (epoch : Nat) : State :=
  let t := s.epochTold source epoch
  { t.write typeEcho t.echoBody false with power := { t.power with early := [] } }

theorem State.setEpoch_eq (s : State) (source : BitVec 2) (epoch : Nat) :
    s.setEpoch source epoch = (s.epochEchoed source epoch).stepSix := rfl

theorem State.epochOpened_same (s : State) (source : BitVec 2) (epoch : Nat) :
    Same [.chan, .stat] (s.epochBegun source epoch) (s.epochOpened source epoch) :=
  Same.eachChan (fun n t => State.chanAtEpoch_same t n) (Same.refl _ _)

theorem State.epochEchoed_same (s : State) (source : BitVec 2) (epoch : Nat) :
    Same [.chan, .stat, .chain, .pack, .power] (s.epochBegun source epoch) (s.epochEchoed source epoch) := by
  have htold : Same [.chan, .stat, .chain, .pack, .power] (s.epochBegun source epoch) (s.epochTold source epoch) :=
    Same.foldl (fun t m => Same.mono (State.hwMarker_same t _) rfl)
      (Same.step (State.write_same _ _ _ _) rfl (Same.mono (s.epochOpened_same source epoch) rfl))
  exact Same.upd_power rfl (Same.step (State.write_same _ _ _ _) rfl htold)

/-- Step 6 begins with skeins and markers alone. -/
theorem State.setEpoch_same_begun (s : State) (source : BitVec 2) (epoch : Nat) :
    Same [.chan, .stat, .chain, .pack, .cal, .power, .core] (s.epochBegun source epoch) (s.setEpoch source epoch) := by
  rw [State.setEpoch_eq]
  exact Same.step (State.stepSix_same _) rfl (Same.mono (s.epochEchoed_same source epoch) rfl)

/-- The scale of `t` begins at an epoch to which time passes from `s` on. -/
def BeginsAt (source : BitVec 2) (epoch : Nat) (s t : State) : Prop :=
  t.tb.epochSet = true ∧ t.tb.epochClock = epoch ∧ t.clock = max s.clock t.tb.epochClock ∧
    t.tb.time = BitVec.ofNat 64 (t.clock - t.tb.epochClock) ∧ t.tb.era = 0 ∧ t.tb.start.source = source ∧
    t.keep.counting = false

/-- The time counter counts from 0 at the epoch. -/
theorem State.setEpoch_begins (s : State) (source : BitVec 2) (epoch : Nat) :
    BeginsAt source epoch s (s.setEpoch source epoch) := by
  have hsame := s.setEpoch_same_begun source epoch
  have hclock : (s.setEpoch source epoch).clock = s.clock + (epoch - s.clock) := (hsame .clock rfl).trans (advance_clock _ s)
  have hbegun : (s.epochBegun source epoch).clock = s.clock + (epoch - s.clock) := advance_clock _ s
  have hmax : s.clock + (epoch - s.clock) = max s.clock epoch := by omega
  rw [BeginsAt, hclock, hsame .tb rfl, hsame .keep rfl, ← hbegun]
  exact ⟨rfl, rfl, hbegun.trans hmax, rfl, rfl, rfl, rfl⟩

/-- The session and the event counters go on over the epoch. -/
theorem State.setEpoch_keeps_session {s : State} (source : BitVec 2) (epoch : Nat) :
    (s.setEpoch source epoch).tb.session = s.tb.session ∧ (s.setEpoch source epoch).tb.originSession = s.tb.session ∧
      ∀ n : Chan, ((s.setEpoch source epoch).chan.get n).count = (s.chan.get n).count := by
  have hsession : (advance (epoch - s.clock) s).tb.session = s.tb.session := (advance_same _ s .session rfl).1
  rw [s.setEpoch_same_begun source epoch .tb rfl]
  exact ⟨hsession, hsession, s.setEpoch_same source epoch .counts rfl⟩

/-- With nothing on its way the epoch brings no fault. -/
theorem State.setEpoch_faults {s : State} (source : BitVec 2) (epoch : Nat) (hlate : s.sched.late = [])
    (hflights : ∀ n : Chan, (s.chan.get n).flights = []) : (s.setEpoch source epoch).faults = s.faults :=
  (s.setEpoch_same_begun source epoch .faults rfl).trans (advance_same_of_quiet (epoch - s.clock) hlate hflights .faults rfl)

/-! ### Where the epoch lies (R48, R50, R51) -/

/-- The coarse boundary is the first at or after the clock value. -/
theorem State.boundaryFrom_bounds (s : State) (c : Nat) :
    c ≤ s.boundaryFrom c ∧ s.boundaryFrom c < c + 1600 ∧ s.boundaryFrom c % 1600 = Config.pllPhase s.tb.lockAt % 1600 := by
  have hform : s.boundaryFrom c = c + (Config.pllPhase s.tb.lockAt + 1600 * c - c) % 1600 := rfl
  rw [hform]
  generalize Config.pllPhase s.tb.lockAt = p
  omega

/-- R50's bound of the epoch, by the time its edge took to rise. -/
theorem ppsWithin_bound (rise : Nat) (err : Int) :
    (ppsWithin rise err).natAbs ≤ 3200 ∨ (5000 < rise ∧ (ppsWithin rise err).natAbs ≤ 10000) ∨ 20000 < rise := by
  unfold ppsWithin clipInt
  split
  · left; omega
  · split
    · right; left; omega
    · right; right; omega

/-- EPOCH_SET, 1 ms after lock with PPS off. -/
theorem State.epochFree_of_due {s : State} (hboot : s.core.boot = .epoch) (hset : s.tb.epochSet = false)
    (hlocked : s.tb.locked = true) (huse : s.ppsUse = 0) (hdue : 4000000000 ≤ s.clock - s.tb.lockAt) :
    s.epochFree = s.setEpoch 0 (s.boundaryFrom (s.tb.lockAt + 4000000000)) :=
  if_pos (by simp [hboot, hset, hlocked, huse, Config.ms, hdue])

/-- EPOCH_PPS_TIMEOUT, 2.5 s after lock without an edge. -/
theorem State.epochTimeout_of_due {s : State} (hboot : s.core.boot = .epoch) (hset : s.tb.epochSet = false)
    (hlocked : s.tb.locked = true) (huse : s.ppsUse ≠ 0) (hdue : 10000000000000 ≤ s.clock - s.tb.lockAt) :
    s.epochTimeout = (s.log 0x23 0xFF 0 0).setEpoch 3 (s.boundaryFrom (s.tb.lockAt + 10000000000000)) :=
  if_pos (by simp [hboot, hset, hlocked, huse, epochWait, Config.ms, hdue])

/-- With nothing on its way the missing edge brings fault 0x23 alone. -/
theorem State.epochTimeout_faults {s : State} (epoch : Nat) (hlate : s.sched.late = [])
    (hflights : ∀ n : Chan, (s.chan.get n).flights = []) :
    ((s.log 0x23 0xFF 0 0).setEpoch 3 epoch).faults = s.faults.logged 0x23 s.tb.time 0xFF 0 0 := by
  rw [State.setEpoch_faults (s := s.log 0x23 0xFF 0 0) 3 epoch hlate hflights, State.log_eq]

/-! ### The edges (R49 to R51, R53, R54) -/

theorem State.ppsEdge_of_first {s : State} (huse : s.ppsUse ≠ 0) (hlatched : s.strap.latched = true)
    (hset : s.tb.epochSet = false) (hboot : s.core.boot = .epoch) (hlocked : s.tb.locked = true)
    (hdue : s.clock - s.tb.lockAt ≤ 10000000000000) :
    s.ppsEdge =
      (if s.ppsUse = 2 then (s.setEpoch 1 s.ppsEpoch).ppsNote 0 else s.setEpoch 1 s.ppsEpoch).tetherSecond := by
  have hwait : ¬epochWait < s.clock - s.tb.lockAt := by
    simp only [epochWait, Config.ms]
    omega
  simp [State.ppsEdge, huse, hlatched, hset, hboot, hlocked, hwait]

theorem State.ppsEdge_of_late {s : State} (huse : s.ppsUse ≠ 0) (hlatched : s.strap.latched = true)
    (hset : s.tb.epochSet = false) (hboot : s.core.boot = .epoch) (hlocked : s.tb.locked = true)
    (hdue : 10000000000000 < s.clock - s.tb.lockAt) : s.ppsEdge = s.epochTimeout.ppsLater := by
  have hwait : epochWait < s.clock - s.tb.lockAt := by
    simp only [epochWait, Config.ms]
    omega
  simp [State.ppsEdge, huse, hlatched, hset, hboot, hlocked, hwait]

theorem State.ppsEdge_of_set {s : State} (huse : s.ppsUse ≠ 0) (hlatched : s.strap.latched = true)
    (hset : s.tb.epochSet = true) : s.ppsEdge = s.ppsLater := by
  simp [State.ppsEdge, huse, hlatched, hset]

theorem State.ppsNote_eq (s : State) (d : Int) :
    s.ppsNote d = { s with
      tb := { s.tb with ppsOffset := BitVec.ofInt 64 d, lastPps := some s.clock, gapSaid := false }
      faults := if 4000000 < d.natAbs then s.faults.logged 0x24 s.tb.time 0xFF 0 0 else s.faults } := by
  unfold State.ppsNote
  split
  · rw [State.log_eq]
  · rfl

/-- The edge that sets the epoch has the offset 0, which is no fault. -/
theorem State.ppsNote_zero (s : State) :
    s.ppsNote 0 = { s with tb := { s.tb with ppsOffset := 0, lastPps := some s.clock, gapSaid := false } } := by
  rw [State.ppsNote, if_neg (by decide)]
  rfl

theorem State.ppsNote_start_faults (s : State) (d : Int) :
    (s.ppsNote d).tb.start = s.tb.start ∧
      ((s.ppsNote d).faults = s.faults ∨ (s.ppsNote d).faults = s.faults.logged 0x24 s.tb.time 0xFF 0 0) := by
  rw [State.ppsNote_eq]
  exact ⟨rfl, (ite_eq_or_eq _ _ _).symm⟩

/-- A later edge leaves the start record, and logs at most that it lies off the second. -/
theorem State.ppsLater_start_faults (s : State) :
    s.ppsLater.tb.start = s.tb.start ∧
      (s.ppsLater.faults = s.faults ∨ s.ppsLater.faults = s.faults.logged 0x24 s.tb.time 0xFF 0 0) := by
  rw [State.ppsLater_eq, State.tetherSecond_same _ .tb rfl, State.tetherSecond_same _ .faults rfl]
  by_cases huse : s.ppsUse = 2
  · rw [if_pos huse]
    exact s.ppsCounted.ppsNote_start_faults _
  · rw [if_neg huse]
    exact ⟨rfl, .inl rfl⟩

/-- The check of a later edge. -/
theorem State.ppsLater_checked {s : State} (huse : s.ppsUse = 2) :
    s.ppsLater.tb = { s.tb with
        ppsCount := s.tb.ppsCount + 1, lastPps := some s.clock, gapSaid := false
        ppsOffset := BitVec.ofInt 64 (ppsOffsetOf (1600 * (s.full / 1600))) } ∧
      s.ppsLater.faults =
        if 4000000 < (ppsOffsetOf (1600 * (s.full / 1600))).natAbs then s.faults.logged 0x24 s.tb.time 0xFF 0 0
        else s.faults := by
  have hcoarse : s.coarseNow = 1600 * (s.full / 1600) := rfl
  rw [State.ppsLater_eq, State.tetherSecond_same _ .tb rfl, State.tetherSecond_same _ .faults rfl, if_pos huse,
    State.ppsNote_eq, hcoarse]
  exact ⟨rfl, by dsimp only [State.ppsCounted]⟩

theorem Faults.count_bump_other (f : Faults) {code c : Byte} (n : Nat) (h : c ≠ code) : (f.bump code n).count c = f.count c := by
  have hkeep : ∀ p : Byte × Nat, ((p.1 != code) = true ∧ (p.1 == c) = true) ↔ (p.1 == c) = true := fun p => by
    simp only [bne_iff_ne, beq_iff_eq, and_iff_right_iff_imp]
    exact fun hp => hp ▸ h
  simp only [Faults.count, Faults.bump]
  rw [List.find?_cons_of_neg (by simpa using h.symm), List.find?_filter]
  simp only [hkeep, Bool.decide_eq_true]

/-- A log is one occurrence of its code. -/
theorem Faults.count_logged (f : Faults) (code : Byte) (time : BitVec 64) (subj : Byte) (a b : BitVec 32) :
    (f.logged code time subj a b).count code = f.count code + 1 := f.count_bump code 1

theorem Faults.count_logged_other (f : Faults) {code c : Byte} (time : BitVec 64) (subj : Byte) (a b : BitVec 32) (h : c ≠ code) :
    (f.logged code time subj a b).count c = f.count c := f.count_bump_other 1 h

theorem State.ppsGap_of_edge {s : State} {e : Nat} (hedge : s.tb.lastPps = some e) (huse : s.ppsUse = 2)
    (hsaid : s.tb.gapSaid = false) :
    s.ppsGap =
      if 6000000000000 < s.clock - e then
        { s with tb := { s.tb with gapSaid := true }, faults := s.faults.logged 0x25 s.tb.time 0xFF 0 0 }
      else s := by
  have hgap : 3 * Config.sec < 2 * (s.clock - e) ↔ 6000000000000 < s.clock - e := by
    simp only [Config.sec]
    omega
  simp only [State.ppsGap, hedge, huse, hsaid, hgap, beq_self_eq_true, Bool.not_false, Bool.and_self, Bool.true_and,
    decide_eq_true_eq, State.log_eq]

end Sys2Proof.Machine
end

section
/-! Step 6 of start-up: the start status, the echo and the pre-epoch fault skeins (R62, R320, R350, R354, R583, R586). -/

namespace Sys2Proof.Machine
open Sys2Proof

theorem exec_controlSkeinClose (dt : Nat) (s : State) :
    exec (.controlSkeinClose dt) s = .next (advance dt s).closeNextCtl.stepSix := rfl

theorem exec_faultSkeinClose (dt : Nat) (s : State) : exec (.faultSkeinClose dt) s = .next (advance dt s).closeFault := rfl

/-! ### The order of the numbers (R318) -/

/-- The skeins of the last rank are numbered in the order in which they close. -/
theorem Skein.join_of_last {k : Skein} (h : k.rank = 2) (l : List Skein) : k.join l = l ++ [k] := by
  have hrank : ∀ q : Skein, q.rank ≤ 2 := fun q => by
    unfold Skein.rank
    split
    · omega
    · split <;> omega
  have hahead : k.ahead l = 0 := by
    rw [Skein.ahead, List.length_eq_zero_iff, List.takeWhile_eq_nil_iff]
    intro hne
    have := hrank (l.reverse.get ⟨0, hne⟩)
    simp only [h, Bool.and_eq_true, decide_eq_true_eq, not_and]
    omega
  rw [Skein.join, hahead]
  simp

/-! ### The close of a control skein (R317 to R320, R326) -/

/-- A control skein of the current session as it closes. -/
def State.writtenSkein (s : State) (c : Ctl) : Skein :=
  { s.skein c.typ s.tb.session s.tb.era 7 (.bytes c.body) with intro := c.intro }

/-- The same with the next number. -/
def State.ctlSkein (s : State) (c : Ctl) : Skein :=
  { s.writtenSkein c with
    inCycle := s.cycle, seq := s.pack.seq, closeNo := placeInOrder s.pack.scale s.pack.closed }

/-- With no adoption before it a control skein carries the current session (R326). -/
theorem State.closeCtl_of_current {s : State} (c : Ctl) (hold : s.pack.ctlOld = false) :
    s.closeCtl c =
      if c.typ = typeEcho ∧ !c.intro then
        State.numberWaiting
          { s.release (s.writtenSkein c) with pack := { (s.release (s.writtenSkein c)).pack with echoDone := true } } s.tb.session
      else s.release (s.writtenSkein c) := by
  have hpack : ({ s.pack with ctlOld := s.pack.ctlOld && !c.isStart } : Packer) = s.pack := by
    rw [hold, Bool.false_and, ← hold]
  have hself : ({ s with pack := { s.pack with ctlOld := s.pack.ctlOld && !c.isStart } } : State) = s :=
    congrArg (fun p : Packer => { s with pack := p }) hpack
  rw [State.closeCtl, hself]
  simp only [hold, Bool.false_eq_true, if_false]
  rfl

/-- A skein of the current session takes its next number (R318). -/
theorem State.number_of_current {s : State} {k : Skein} (h : k.session = s.tb.session) :
    s.number k = { s with pack := { s.pack with
      released := Skein.join { k with seq := s.pack.seq, closeNo := placeInOrder s.pack.scale s.pack.closed } s.pack.released
      seq := s.pack.seq + 1, closed := s.pack.closed + 1 } } := if_pos h

/-- A control skein waits for no echo (R320). -/
theorem State.release_of_control {s : State} {k : Skein} (h : k.isControl = true) :
    s.release k = s.number { k with inCycle := s.cycle } := by
  have hawaits : (!k.awaitsEcho) = true := h
  exact if_pos (Bool.or_eq_true_iff.mpr (.inr hawaits))

/-- A control skein is numbered last in its cycle, but for the echo (R318). -/
theorem Skein.rank_of_control {k : Skein} (h : k.isControl = true) (hecho : k.typ ≠ typeEcho) : k.rank = 2 := by
  simp only [Skein.isControl, Bool.not_eq_true', Bool.or_eq_false_iff] at h
  obtain ⟨hraw, hsum⟩ := h
  simp [Skein.rank, hraw, hsum, hecho]

/-- A control skein other than the echo is released behind those that wait, under the next number. -/
theorem State.closeCtl_pack {s : State} {c : Ctl} (hold : s.pack.ctlOld = false) (hcontrol : (s.ctlSkein c).isControl = true)
    (hecho : c.typ ≠ typeEcho) :
    (s.closeCtl c).pack = { s.pack with
      released := s.pack.released ++ [s.ctlSkein c], seq := s.pack.seq + 1, closed := s.pack.closed + 1 } := by
  have hlast := Skein.join_of_last (k := s.ctlSkein c) (Skein.rank_of_control hcontrol hecho) s.pack.released
  rw [State.closeCtl_of_current c hold, if_neg fun h => hecho h.1, State.release_of_control (k := s.writtenSkein c) hcontrol,
    State.number_of_current rfl, ← hlast]
  rfl

theorem State.number_keeps_queue (s : State) (k : Skein) :
    (s.number k).pack.echoDone = s.pack.echoDone ∧ (s.number k).pack.ctlQueue = s.pack.ctlQueue := by
  unfold State.number
  dsimp only
  split
  · exact ⟨rfl, rfl⟩
  · exact ⟨rfl, rfl⟩

theorem State.numberWaiting_keeps_queue (s : State) (session : BitVec 16) :
    (s.numberWaiting session).pack.echoDone = s.pack.echoDone ∧ (s.numberWaiting session).pack.ctlQueue = s.pack.ctlQueue := by
  have hfold (l : List Skein) (t : State) : (l.foldl (fun t k => t.number k) t).pack.echoDone = t.pack.echoDone ∧
      (l.foldl (fun t k => t.number k) t).pack.ctlQueue = t.pack.ctlQueue := by
    induction l generalizing t with
    | nil => exact ⟨rfl, rfl⟩
    | cons k l ih => exact ⟨(ih _).1.trans (t.number_keeps_queue k).1, (ih _).2.trans (t.number_keeps_queue k).2⟩
  exact hfold _ _

/-- The echo's close is marked, whatever it lets be numbered behind it. -/
theorem State.closeCtl_echo {s : State} {c : Ctl} (hold : s.pack.ctlOld = false) (htyp : c.typ = typeEcho)
    (hintro : c.intro = false) :
    (s.closeCtl c).pack.echoDone = true ∧ (s.closeCtl c).pack.ctlQueue = s.pack.ctlQueue := by
  have hcontrol : (s.writtenSkein c).isControl = true := by
    rw [Skein.isControl, Skein.isRaw, State.writtenSkein, State.skein, htyp]
    rfl
  have hreleased : (s.release (s.writtenSkein c)).pack.ctlQueue = s.pack.ctlQueue := by
    rw [State.release_of_control hcontrol]
    exact (State.number_keeps_queue _ _).2
  obtain ⟨hdone, hqueue⟩ := State.numberWaiting_keeps_queue
    { s.release (s.writtenSkein c) with pack := { (s.release (s.writtenSkein c)).pack with echoDone := true } } s.tb.session
  rw [State.closeCtl_of_current c hold, if_pos ⟨htyp, by rw [hintro]; rfl⟩]
  exact ⟨hdone, hqueue.trans hreleased⟩

theorem State.control_of_free {s : State} (typ : BitVec 6) (body : List Byte) (intro : Bool) (hqueue : s.pack.ctlQueue = [])
    (hfree : s.ctlFree = true) (hidle : s.readIdle = true) :
    s.control typ body intro = s.closeCtl { typ := typ, body := body, intro := intro } := by
  rw [State.control, hqueue, hfree, hidle]
  rfl

theorem State.write_of_free {s : State} (typ : BitVec 6) (body : List Byte) (intro : Bool) (hruns : s.fwRuns = true)
    (hqueue : s.pack.ctlQueue = []) (hfree : s.ctlFree = true) (hidle : s.readIdle = true) :
    s.write typ body intro = s.closeCtl { typ := typ, body := body, intro := intro } := by
  rw [State.write, if_pos hruns, State.control_of_free typ body intro hqueue hfree hidle]

/-- With the control buffer full a skein waits its turn. -/
theorem State.write_of_full {s : State} (typ : BitVec 6) (body : List Byte) (intro : Bool) (hfree : s.ctlFree = false) :
    s.write typ body intro =
      { s with pack := { s.pack with ctlQueue := s.pack.ctlQueue ++ [{ typ := typ, body := body, intro := intro }] } } := by
  have hcontrol : s.control typ body intro =
      { s with pack := { s.pack with ctlQueue := s.pack.ctlQueue ++ [{ typ := typ, body := body, intro := intro }] } } := by
    rw [State.control, if_neg (by simp [hfree])]
  rw [State.write, hcontrol, ite_self]

/-! ### The end of step 6 (R179, R583, R586) -/

/-- The channel step has begun with the channels qualified now. -/
def State.channelStep (s : State) : State :=
  { s with
    chan := s.chan.map fun c => { c with startJoin := c.st == .qualified }
    core := { s.core with boot := .chans } }

theorem State.stepSix_of_done {s : State} (hboot : s.core.boot = .skeins) (hecho : s.pack.echoDone = true)
    (hqueue : s.pack.ctlQueue = []) (hevents : ∀ e ∈ s.faults.events, e.time ≠ 0) : s.stepSix = s.channelStep.settleBoot :=
  if_pos (by simpa [hboot, hecho, hqueue] using hevents)

theorem State.stepSix_of_early {s : State} (hevents : ∃ e ∈ s.faults.events, e.time = 0) : s.stepSix = s :=
  if_neg (by
    obtain ⟨e, he, htime⟩ := hevents
    simp only [Bool.and_eq_true, List.all_eq_true, not_and, not_forall]
    exact fun _ => ⟨e, he, by simp [htime]⟩)

theorem State.stepSix_of_no_echo {s : State} (hecho : s.pack.echoDone = false) : s.stepSix = s :=
  if_neg (by simp [hecho])

theorem State.settleBoot_of_chans {s : State} (h : s.core.boot = .chans) :
    (s.settleBoot.core.boot = .chans ∨ s.settleBoot.core.boot = .calib ∧ s.settleBoot.cal.pending = some .startup) ∧
      ((∀ n : Chan, (s.chan.get n).st ≠ .qualified) → (∀ n : Chan, s.leave.holding ≠ some (.startupPower n)) →
        s.settleBoot.core.boot = .calib) := by
  unfold State.settleBoot
  dsimp only
  generalize hbusy : (Chan.all.any fun n =>
    ((s.chan.get n).startJoin && (s.chan.get n).st == .qualified && decide (s.power.fails.getD n.val 0 < 3)) ||
      s.holds (.startupPower n)) = busy
  cases busy with
  | false =>
    rw [if_pos (by simp [h])]
    exact ⟨.inr ⟨rfl, rfl⟩, fun _ _ => rfl⟩
  | true =>
    rw [if_neg (by simp)]
    refine ⟨.inl h, fun hst hheld => ?_⟩
    obtain ⟨n, -, hn⟩ := List.any_eq_true.mp hbusy
    simp [hst n, State.holds_iff, hheld n] at hn

/-- Once the skeins of step 6 have closed the channel step begins, or is over at once where no channel is qualified. -/
theorem State.stepSix_ends {s : State} (hboot : s.core.boot = .skeins) (hecho : s.pack.echoDone = true)
    (hqueue : s.pack.ctlQueue = []) (hevents : ∀ e ∈ s.faults.events, e.time ≠ 0) :
    (∀ n : Chan, (s.stepSix.chan.get n).startJoin = ((s.chan.get n).st == .qualified)) ∧
      (s.stepSix.core.boot = .chans ∨ s.stepSix.core.boot = .calib ∧ s.stepSix.cal.pending = some .startup) ∧
      ((∀ n : Chan, (s.chan.get n).st ≠ .qualified) → (∀ n : Chan, s.leave.holding ≠ some (.startupPower n)) →
        s.stepSix.core.boot = .calib) := by
  have hst : ∀ n : Chan, (s.channelStep.chan.get n).st = (s.chan.get n).st := fun n => by
    rw [State.channelStep, Per8.get_map]
  obtain ⟨hnext, hover⟩ := State.settleBoot_of_chans (s := s.channelStep) rfl
  rw [State.stepSix_of_done hboot hecho hqueue hevents]
  have hjoin : s.channelStep.settleBoot.chan = s.channelStep.chan := State.settleBoot_same _ .chan rfl
  refine ⟨fun n => ?_, hnext, fun hnone => hover fun n => ?_⟩
  · rw [hjoin, State.channelStep, Per8.get_map]
  · rw [hst n]
    exact hnone n

/-- Nothing waits in the packer's inputs. -/
theorem State.readIdle_of_empty {s : State} (hitems : s.chain.items = []) (hresults : s.eng.queue = [])
    (htaken : s.pack.takenAt = none) : s.readIdle = true := by
  simp [State.readIdle, State.readSide, State.rawWaits, hitems, hresults, htaken]

theorem State.ctlFree_of_empty {s : State} (hreleased : s.pack.released = []) : s.ctlFree = true := by
  simp [State.ctlFree, hreleased]

theorem State.ctlFree_of_single {s : State} {k : Skein} (hreleased : s.pack.released = [k]) (hcontrol : k.isControl = true) :
    s.ctlFree = false := by
  simp [State.ctlFree, hreleased, hcontrol]

/-- The packer, the chain stitch and the engine stand at the epoch as they were where nothing was on its way. -/
theorem State.epochOpened_same_quiet {s : State} (source : BitVec 2) (epoch : Nat) (hlate : s.sched.late = [])
    (hflights : ∀ n : Chan, (s.chan.get n).flights = []) :
    Same [.clock, .tb, .time, .seen, .keep, .fol, .core, .chan, .stat] s (s.epochOpened source epoch) := by
  have hbegun : Same [.clock, .tb, .time, .seen, .keep, .fol, .core, .chan, .stat] s (s.epochBegun source epoch) :=
    Same.upd_tb_keep_fol_core rfl (.inl rfl) (.inr ⟨rfl, rfl⟩) rfl rfl rfl (Same.mono (advance_same_of_quiet _ hlate hflights) rfl)
  exact hbegun.trans (Same.mono (s.epochOpened_same source epoch) rfl)

theorem State.epochOpened_fwRuns {s : State} (source : BitVec 2) (epoch : Nat) (hruns : s.fwRuns = true) :
    (s.epochOpened source epoch).fwRuns = true := by
  have hadvance := advance_same (epoch - s.clock) s
  have hopened := s.epochOpened_same source epoch
  have hcore : (s.epochOpened source epoch).core = { s.core with boot := .skeins } := by
    rw [hopened .core rfl, ← hadvance .core rfl]
    rfl
  have hflash : (s.epochOpened source epoch).flash = s.flash := (hopened .flash rfl).trans (hadvance .flash rfl)
  simp only [State.fwRuns, Bool.and_eq_true] at hruns ⊢
  obtain ⟨⟨⟨-, hhalted⟩, hrestarting⟩, hop⟩ := hruns
  rw [hcore, hflash]
  exact ⟨⟨⟨⟨rfl, rfl⟩, hhalted⟩, hrestarting⟩, hop⟩

/-- The start status is in the control buffer, and no other skein with it. -/
theorem State.epochTold_pack {s : State} (source : BitVec 2) (epoch : Nat) (hlate : s.sched.late = [])
    (hflights : ∀ n : Chan, (s.chan.get n).flights = []) (hruns : s.fwRuns = true) (hitems : s.chain.items = [])
    (hresults : s.eng.queue = []) (htaken : s.pack.takenAt = none) (hqueue : s.pack.ctlQueue = [])
    (hold : s.pack.ctlOld = false) (hreleased : s.pack.released = []) :
    ∃ k : Skein, (k.isControl = true ∧ k.typ = typeStatus ∧ k.seq = s.pack.seq ∧ k.session = s.tb.session ∧ k.reason = 7 ∧
        k.intro = false) ∧
      (s.epochTold source epoch).pack = { s.pack with released := [k], seq := s.pack.seq + 1, closed := s.pack.closed + 1 } := by
  have hsame := State.epochOpened_same_quiet source epoch hlate hflights
  have hruns' := State.epochOpened_fwRuns source epoch hruns
  have htold : (s.epochTold source epoch).pack =
      ((s.epochOpened source epoch).write typeStatus ((s.epochOpened source epoch).statusBody 0 epoch true) false).pack :=
    Same.foldl (ps := [.chain]) (fun t m => State.hwMarker_same t _) (Same.refl _ _) .pack rfl
  have hsession : (s.epochOpened source epoch).tb.session = s.tb.session := (hsame .session rfl).1
  have hpack : (s.epochOpened source epoch).pack = s.pack := hsame .pack rfl
  have hchain : (s.epochOpened source epoch).chain = s.chain := hsame .chain rfl
  have heng : (s.epochOpened source epoch).eng = s.eng := hsame .eng rfl
  generalize s.epochOpened source epoch = o at *
  rw [State.write_of_free _ _ _ hruns' (hpack ▸ hqueue) (State.ctlFree_of_empty (hpack ▸ hreleased))
    (State.readIdle_of_empty (hchain ▸ hitems) (heng ▸ hresults) (hpack ▸ htaken)),
    State.closeCtl_pack (hpack ▸ hold) rfl (show typeStatus ≠ typeEcho by decide), hpack, hreleased] at htold
  exact ⟨_, ⟨rfl, rfl, congrArg (·.seq) hpack, hsession, rfl, rfl⟩, htold⟩

/-- Step 6 begins: the start status has closed and the echo waits for the control buffer behind it (R62, R350, R583). -/
theorem State.setEpoch_stepSix {s : State} (source : BitVec 2) (epoch : Nat) (hlate : s.sched.late = [])
    (hflights : ∀ n : Chan, (s.chan.get n).flights = []) (hruns : s.fwRuns = true) (hitems : s.chain.items = [])
    (hresults : s.eng.queue = []) (htaken : s.pack.takenAt = none) (hqueue : s.pack.ctlQueue = [])
    (hold : s.pack.ctlOld = false) (hreleased : s.pack.released = []) (hecho : s.pack.echoDone = false) :
    (s.setEpoch source epoch).core.boot = .skeins ∧ (s.setEpoch source epoch).pack.seq = s.pack.seq + 1 ∧
      (∃ k : Skein, (s.setEpoch source epoch).pack.released = [k] ∧ k.typ = typeStatus ∧ k.seq = s.pack.seq ∧
        k.session = s.tb.session ∧ k.reason = 7 ∧ k.intro = false) ∧
      ∃ c : Ctl, (s.setEpoch source epoch).pack.ctlQueue = [c] ∧ c.typ = typeEcho ∧ c.intro = false := by
  obtain ⟨k, ⟨hcontrol, hk⟩, hpack⟩ :=
    State.epochTold_pack source epoch hlate hflights hruns hitems hresults htaken hqueue hold hreleased
  have hboot : (s.epochEchoed source epoch).core.boot = .skeins := by
    rw [s.epochEchoed_same source epoch .core rfl]
    rfl
  have hfull : (s.epochTold source epoch).ctlFree = false := by
    refine State.ctlFree_of_single (k := k) ?_ hcontrol
    rw [hpack]
  have hechoed : (s.epochEchoed source epoch).pack =
      { (s.epochTold source epoch).pack with
        ctlQueue := (s.epochTold source epoch).pack.ctlQueue ++
          [{ typ := typeEcho, body := (s.epochTold source epoch).echoBody, intro := false }] } := by
    unfold State.epochEchoed
    dsimp only
    rw [State.write_of_full _ _ _ hfull]
  rw [hpack] at hechoed
  rw [State.setEpoch_eq, State.stepSix_of_no_echo ((congrArg (·.echoDone) hechoed).trans hecho), hechoed, hqueue]
  exact ⟨hboot, rfl, ⟨k, rfl, hk⟩, _, rfl, rfl, rfl⟩

/-! ### The echo and the fault skeins (R320, R354, R586) -/

theorem State.closeNextCtl_of_free {s : State} {c : Ctl} {rest : List Ctl} (hqueue : s.pack.ctlQueue = c :: rest)
    (hruns : s.fwRuns = true) (hfree : s.ctlFree = true) (hidle : s.readIdle = true) :
    s.closeNextCtl = (State.closeCtl { s with pack := { s.pack with ctlQueue := rest } } c).settlePort := by
  simp only [State.closeNextCtl, hqueue, hruns, hfree, hidle, Bool.and_self, if_true]

/-- The echo closes and leaves nothing waiting (R320). -/
theorem State.closeNextCtl_echo {s : State} {c : Ctl} (hqueue : s.pack.ctlQueue = [c]) (hruns : s.fwRuns = true)
    (hfree : s.ctlFree = true) (hidle : s.readIdle = true) (hold : s.pack.ctlOld = false) (htyp : c.typ = typeEcho)
    (hintro : c.intro = false) : s.closeNextCtl.pack.echoDone = true ∧ s.closeNextCtl.pack.ctlQueue = [] := by
  rw [State.closeNextCtl_of_free hqueue hruns hfree hidle, State.settlePort_same _ .pack rfl]
  exact State.closeCtl_echo (s := { s with pack := { s.pack with ctlQueue := [] } }) hold htyp hintro

/-- The oldest fault event is taken from those whose skein is open. -/
def State.eventTaken (s : State) (rest : List FaultEvent) : State := { s with faults := { s.faults with events := rest } }

/-- It has gone into its skein; whether step 6 is over with it is still to come. -/
def State.eventTold (s : State) (e : FaultEvent) (rest : List FaultEvent) : State :=
  (s.eventTaken rest).closeCtl { typ := typeFault, body := e.bytes, intro := false }

theorem State.eventTold_same (s : State) (e : FaultEvent) (rest : List FaultEvent) :
    Same [.pack] (s.eventTaken rest) (s.eventTold e rest) := State.closeCtl_same _ _

/-- A fault skein takes the next number behind the skeins that wait. -/
theorem State.eventTold_pack {s : State} (e : FaultEvent) (rest : List FaultEvent) (hold : s.pack.ctlOld = false) :
    (s.eventTold e rest).pack = { s.pack with
      released := s.pack.released ++ [s.ctlSkein { typ := typeFault, body := e.bytes, intro := false }]
      seq := s.pack.seq + 1, closed := s.pack.closed + 1 } :=
  State.closeCtl_pack (s := s.eventTaken rest) hold rfl (show typeFault ≠ typeEcho by decide)

theorem State.closeFault_of_free {s : State} {e : FaultEvent} {rest : List FaultEvent} (hevents : s.faults.events = e :: rest)
    (hruns : s.fwRuns = true) (hecho : s.pack.echoDone = true) (hqueue : s.pack.ctlQueue = []) (hfree : s.ctlFree = true)
    (hidle : s.readIdle = true) : s.closeFault = (s.eventTold e rest).stepSix.writeFw := by
  have hcontrol : (s.eventTaken rest).control typeFault e.bytes false = s.eventTold e rest :=
    State.control_of_free _ _ _ hqueue hfree hidle
  rw [← hcontrol]
  simp only [State.closeFault, hevents, hruns, hecho, hqueue, hfree, List.isEmpty_nil, Bool.and_self, if_true]
  rfl

end Sys2Proof.Machine
end

section
/-! The epoch's edges and the skeins of step 6, as their commands run them (R49 to R54, R62, R320, R583, R586). -/

namespace Sys2Proof.Machine
open Sys2Proof

/-- The edge that sets the epoch puts it within its bound of itself (R49, R50). -/
theorem does_ppsEdge_first {dt : Nat} {s u : State} (hu : u = advance dt s) (huse : u.ppsUse ≠ 0) (hlatched : u.strap.latched = true)
    (hset : u.tb.epochSet = false) (hboot : u.core.boot = .epoch) (hlocked : u.tb.locked = true)
    (hdue : u.clock - u.tb.lockAt ≤ 10000000000000) :
    Does (.ppsEdge dt) s u (touches (.ppsEdge dt)) fun t =>
      BeginsAt 1 u.ppsEpoch u t ∧ (u.ppsUse = 2 → t.tb.ppsOffset = 0) ∧ t.faults = (u.setEpoch 1 u.ppsEpoch).faults := by
  have hbegins := u.setEpoch_begins 1 u.ppsEpoch
  have hframe := State.ppsEdge_same u
  refine ⟨u.ppsEdge, hu ▸ exec_ppsEdge dt s, hframe, ?_⟩
  rw [State.ppsEdge_of_first huse hlatched hset hboot hlocked hdue]
  generalize u.setEpoch 1 u.ppsEpoch = w at hbegins ⊢
  have htether (v : State) : Same [.tether] v v.tetherSecond := State.tetherSecond_same v
  by_cases hcheck : u.ppsUse = 2
  · rw [if_pos hcheck, BeginsAt, htether _ .tb rfl, htether _ .clock rfl, htether _ .keep rfl, htether _ .faults rfl,
      State.ppsNote_zero]
    exact ⟨hbegins, fun _ => rfl, rfl⟩
  · rw [if_neg hcheck, BeginsAt, htether _ .tb rfl, htether _ .clock rfl, htether _ .keep rfl, htether _ .faults rfl]
    exact ⟨hbegins, fun h => absurd h hcheck, rfl⟩

/-- An edge that comes too late finds the epoch set with fault 0x23 (R51). -/
theorem does_ppsEdge_late {dt : Nat} {s u : State} (hu : u = advance dt s) (huse : u.ppsUse ≠ 0) (hlatched : u.strap.latched = true)
    (hset : u.tb.epochSet = false) (hboot : u.core.boot = .epoch) (hlocked : u.tb.locked = true)
    (hdue : 10000000000000 < u.clock - u.tb.lockAt) :
    Does (.ppsEdge dt) s u (touches (.ppsEdge dt)) fun t =>
      t.tb.epochSet = true ∧ t.tb.epochClock = u.boundaryFrom (u.tb.lockAt + 10000000000000) ∧ t.tb.start.source = 3 ∧
        (u.sched.late = [] → (∀ n : Chan, (u.chan.get n).flights = []) →
          t.faults.count 0x23 = u.faults.count 0x23 + 1) := by
  have hsetEpoch := State.epochTimeout_of_due hboot hset hlocked huse hdue.le
  obtain ⟨hset', hclock, -, -, -, hsource, -⟩ :=
    (u.log 0x23 0xFF 0 0).setEpoch_begins 3 (u.boundaryFrom (u.tb.lockAt + 10000000000000))
  have hfaults := State.epochTimeout_faults (s := u) (u.boundaryFrom (u.tb.lockAt + 10000000000000))
  rw [← hsetEpoch] at hset' hclock hsource hfaults
  obtain ⟨hkeepsSet, hkeepsClock⟩ := State.ppsLater_keepsEpoch u.epochTimeout
  obtain ⟨hstart, hnoted⟩ := State.ppsLater_start_faults u.epochTimeout
  refine ⟨u.ppsEdge, hu ▸ exec_ppsEdge dt s, State.ppsEdge_same u, ?_⟩
  rw [State.ppsEdge_of_late huse hlatched hset hboot hlocked hdue]
  dsimp only
  refine ⟨hkeepsSet.trans hset', hkeepsClock.trans hclock, (congrArg (·.source) hstart).trans hsource, fun hlate hflights => ?_⟩
  have hcount : u.epochTimeout.faults.count 0x23 = u.faults.count 0x23 + 1 := by
    rw [hfaults hlate hflights, Faults.count_logged]
  rcases hnoted with h | h
  · rw [h, hcount]
  · rw [h, Faults.count_logged_other _ _ _ _ _ (by decide), hcount]

/-- The close of the echo ends step 6 where no fault event of the time before the epoch is open (R320, R586). -/
theorem does_controlSkeinClose_echo {dt : Nat} {s u : State} {c : Ctl} (hu : u = advance dt s) (hboot : u.core.boot = .skeins)
    (hruns : u.fwRuns = true) (hfree : u.ctlFree = true) (hidle : u.readIdle = true) (hold : u.pack.ctlOld = false)
    (hqueue : u.pack.ctlQueue = [c]) (htyp : c.typ = typeEcho) (hintro : c.intro = false) :
    Does (.controlSkeinClose dt) s u (touches (.controlSkeinClose dt)) fun t =>
      t.pack.echoDone = true ∧ t.pack.ctlQueue = [] ∧ t.faults = u.faults ∧
        ((∃ e ∈ u.faults.events, e.time = 0) → t.core.boot = .skeins) ∧
        ((∀ e ∈ u.faults.events, e.time ≠ 0) →
          (∀ n : Chan, (t.chan.get n).startJoin = ((u.chan.get n).st == .qualified)) ∧
            (t.core.boot = .chans ∨ t.core.boot = .calib ∧ t.cal.pending = some .startup) ∧
            ((∀ n : Chan, (u.chan.get n).st ≠ .qualified) → (∀ n : Chan, u.leave.holding ≠ some (.startupPower n)) →
              t.core.boot = .calib)) := by
  obtain ⟨hdone, hempty⟩ := State.closeNextCtl_echo hqueue hruns hfree hidle hold htyp hintro
  have hclose := State.closeNextCtl_same u
  have hstep := State.stepSix_same u.closeNextCtl
  have hexec : exec (.controlSkeinClose dt) s = .next u.closeNextCtl.stepSix := hu ▸ exec_controlSkeinClose dt s
  have hchan : u.closeNextCtl.chan = u.chan := hclose .chan rfl
  have hcore : u.closeNextCtl.core = u.core := hclose .core rfl
  have hfaults : u.closeNextCtl.faults = u.faults := hclose .faults rfl
  have hleave : u.closeNextCtl.leave = u.leave := hclose .leave rfl
  refine ⟨_, hexec, Same.step hstep rfl (Same.mono hclose rfl), ?_⟩
  generalize u.closeNextCtl = w at *
  rw [hstep .pack rfl, hstep .faults rfl]
  refine ⟨hdone, hempty, hfaults, fun hearly => ?_, fun hevents => ?_⟩
  · rw [State.stepSix_of_early (hfaults ▸ hearly), hcore, hboot]
  · rw [← hchan, ← hleave]
    exact State.stepSix_ends (hcore ▸ hboot) hdone hempty (hfaults ▸ hevents)

/-- A fault skein closes, and with the last of the time before the epoch step 6 ends (R354, R586). -/
theorem does_faultSkeinClose_oldest {dt : Nat} {s u : State} {e : FaultEvent} {rest : List FaultEvent} (hu : u = advance dt s)
    (hboot : u.core.boot = .skeins) (hruns : u.fwRuns = true) (hfree : u.ctlFree = true) (hidle : u.readIdle = true)
    (hold : u.pack.ctlOld = false) (hqueue : u.pack.ctlQueue = []) (hecho : u.pack.echoDone = true)
    (hevents : u.faults.events = e :: rest) :
    Does (.faultSkeinClose dt) s u (touches (.faultSkeinClose dt)) fun t =>
      t.faults = { u.faults with events := rest } ∧ t.pack.seq = u.pack.seq + 1 ∧
        (∃ k : Skein, t.pack.released = u.pack.released ++ [k] ∧ k.typ = typeFault ∧ k.seq = u.pack.seq ∧
          k.body = .bytes e.bytes) ∧
        ((∃ e ∈ rest, e.time = 0) → t.core.boot = .skeins) ∧ ((∀ e ∈ rest, e.time ≠ 0) → t.core.boot ≠ .skeins) := by
  have hpack := State.eventTold_pack e rest hold
  have htold := State.eventTold_same u e rest
  have hfaults : (u.eventTold e rest).faults = { u.faults with events := rest } := htold .faults rfl
  have hcore : (u.eventTold e rest).core = u.core := htold .core rfl
  have hframe := State.closeFault_same u
  have hexec : exec (.faultSkeinClose dt) s = .next u.closeFault := hu ▸ exec_faultSkeinClose dt s
  refine ⟨_, hexec, hframe, ?_⟩
  rw [State.closeFault_of_free hevents hruns hecho hqueue hfree hidle]
  generalize u.eventTold e rest = w at *
  have hwritten := State.writeFw_same w.stepSix
  have hstep := State.stepSix_same w
  have hboot' : w.core.boot = .skeins := by rw [hcore, hboot]
  dsimp only
  rw [hwritten .faults rfl, hwritten .pack rfl, hwritten .core rfl, hstep .faults rfl, hstep .pack rfl, hfaults, hpack]
  refine ⟨rfl, rfl, ⟨_, rfl, rfl, rfl, rfl⟩, fun hearly => ?_, fun hlast => ?_⟩
  · rw [State.stepSix_of_early (by rw [hfaults]; exact hearly), hboot']
  · obtain ⟨-, hnext, -⟩ := State.stepSix_ends hboot' (by rw [hpack]; exact hecho) (by rw [hpack]; exact hqueue)
      (by rw [hfaults]; exact hlast)
    rcases hnext with h | ⟨h, -⟩
    · rw [h]; decide
    · rw [h]; decide

end Sys2Proof.Machine

open Sys2Proof Sys2Proof.Machine

/-- Settles O29: the epoch without an edge, the edges, and the skeins of step 6. -/
theorem epochsAndPpsEdges : Obligations.EpochsAndPpsEdges := by
  refine ⟨?epoch, ⟨?first, ?later, ?gap⟩, ?status, ?echo, ?fault⟩
  case epoch =>
    rintro dt s u hu hboot hset hlocked
    refine ⟨fun huse hdue => ?_, fun huse hdue => ?_, u.boundaryFrom_bounds⟩
    · have hrun := State.epochFree_of_due hboot hset hlocked huse hdue
      have hbegins := u.setEpoch_begins 0 (u.boundaryFrom (u.tb.lockAt + 4000000000))
      obtain ⟨hsession, horigin, hcounts⟩ := State.setEpoch_keeps_session (s := u) 0 (u.boundaryFrom (u.tb.lockAt + 4000000000))
      rw [← hrun] at hbegins hsession horigin hcounts
      obtain ⟨hset', hepoch, hclock, htime, hera, hsource, hkeep⟩ := hbegins
      exact ⟨u.epochFree, hu ▸ exec_epochSet dt s, State.epochFree_same u, hset', hepoch, hclock, htime, hera, hsource, hkeep,
        hsession, horigin, hcounts⟩
    · have hrun := State.epochTimeout_of_due hboot hset hlocked huse hdue
      have hbegins := (u.log 0x23 0xFF 0 0).setEpoch_begins 3 (u.boundaryFrom (u.tb.lockAt + 10000000000000))
      have hfaults := State.epochTimeout_faults (s := u) (u.boundaryFrom (u.tb.lockAt + 10000000000000))
      rw [← hrun] at hbegins hfaults
      obtain ⟨hset', hepoch, hclock, htime, hera, hsource, hkeep⟩ := hbegins
      exact ⟨u.epochTimeout, hu ▸ exec_epochPpsTimeout dt s, State.epochTimeout_same u, hset', hepoch, hclock, htime, hera,
        hsource, hkeep, hfaults⟩
  case first =>
    rintro dt s u hu huse hlatched hset hboot hlocked
    refine ⟨fun hdue => ?_, does_ppsEdge_late hu huse hlatched hset hboot hlocked⟩
    obtain ⟨t, hexec, hframe, ⟨hset', hepoch, hclock, htime, hera, hsource, -⟩, hoffset, hfaults⟩ :=
      does_ppsEdge_first hu huse hlatched hset hboot hlocked hdue
    exact ⟨t, hexec, hframe, hset', ⟨_, hepoch, ppsWithin_bound _ _⟩, hclock, htime, hera, hsource, hoffset,
      fun hlate hflights => hfaults.trans (State.setEpoch_faults 1 u.ppsEpoch hlate hflights)⟩
  case later =>
    rintro dt s u hu huse hlatched hset
    have hrun := State.ppsEdge_of_set (by omega) hlatched hset
    have hexec : exec (.ppsEdge dt) s = .next u.ppsLater := hrun ▸ hu ▸ exec_ppsEdge dt s
    exact ⟨u.ppsLater, hexec, State.ppsLater_same u, State.ppsLater_checked huse⟩
  case gap =>
    rintro dt e s u hu hedge huse hsaid
    have hexec : exec (.ppsGapTimeout dt) s = .next u.ppsGap := hu ▸ exec_ppsGapTimeout dt s
    rw [hexec, State.ppsGap_of_edge hedge huse hsaid]
  case status =>
    rintro dt s u hu hboot hset hlocked huse hdue hlate hflights hruns hitems hresults htaken hqueue hold hreleased hecho
    have hrun := State.epochFree_of_due hboot hset hlocked huse hdue
    have hfaults := State.setEpoch_faults 0 (u.boundaryFrom (u.tb.lockAt + 4000000000)) hlate hflights
    have hstep := State.setEpoch_stepSix 0 (u.boundaryFrom (u.tb.lockAt + 4000000000)) hlate hflights hruns hitems hresults
      htaken hqueue hold hreleased hecho
    rw [← hrun] at hfaults hstep
    obtain ⟨hboot', hskeins⟩ := hstep
    exact ⟨u.epochFree, hu ▸ exec_epochSet dt s, State.epochFree_same u, hboot', hfaults, hskeins⟩
  case echo =>
    exact fun dt s u c hu hboot hruns hfree hidle hold hqueue htyp hintro =>
      does_controlSkeinClose_echo hu hboot hruns hfree hidle hold hqueue htyp hintro
  case fault =>
    exact fun dt s u e rest hu hboot hruns hfree hidle hold hqueue hecho hevents =>
      does_faultSkeinClose_oldest hu hboot hruns hfree hidle hold hqueue hecho hevents
end

section
/-! How a strap reading decodes (R78). -/

namespace Sys2Proof.Machine
open Sys2Proof

theorem bandTable_pairwise : bandTable.Pairwise fun a b => a.2 < b.1 := by decide

theorem bandTable_below_top : ∀ b ∈ bandTable, b.2 < 48000 := by decide

/-- The bands lie apart, so a reading decodes to a band's code exactly where the band holds it (R78). -/
theorem findIdx?_bandTable_eq_some_iff (r c : Nat) :
    (bandTable.findIdx? fun b => decide (b.1 ≤ r) && decide (r ≤ b.2)) = some c ↔
      ∃ lo hi : Nat, bandTable[c]? = some (lo, hi) ∧ lo ≤ r ∧ r ≤ hi := by
  rw [List.findIdx?_eq_some_iff_getElem]
  simp only [Bool.and_eq_true, decide_eq_true_eq, not_and, Nat.not_le]
  constructor
  · rintro ⟨hc, hin, -⟩
    exact ⟨_, _, List.getElem?_eq_getElem hc, hin⟩
  · rintro ⟨lo, hi, hband, hlo, hhi⟩
    obtain ⟨hc, hget⟩ := List.getElem?_eq_some_iff.mp hband
    refine ⟨hc, by rw [hget]; exact ⟨hlo, hhi⟩, fun j hj _ => ?_⟩
    have hapart := List.pairwise_iff_getElem.mp bandTable_pairwise j c (hj.trans hc) hc hj
    rw [hget] at hapart
    exact hapart.trans_le hlo

theorem decodeReading_of_top {r : Nat} (h : 48000 ≤ r) : decodeReading r = some 15 := if_pos h

theorem decodeReading_eq_some_iff_of_below {r : Nat} (c : Nat) (h : r < 48000) :
    decodeReading r = some c ↔ ∃ lo hi : Nat, bandTable[c]? = some (lo, hi) ∧ lo ≤ r ∧ r ≤ hi := by
  rw [decodeReading, if_neg (Nat.not_le.mpr h), findIdx?_bandTable_eq_some_iff]

end Sys2Proof.Machine

open Sys2Proof Sys2Proof.Machine

/-- Settles O25: from 48,000 Ω up no band holds a reading, and below that the bands lie apart. -/
theorem readingsDecode : Obligations.ReadingsDecode := by
  intro r c
  change _ ↔ (c = 15 ∧ 48000 ≤ r) ∨ ∃ lo hi : Nat, bandTable[c]? = some (lo, hi) ∧ lo ≤ r ∧ r ≤ hi
  by_cases htop : 48000 ≤ r
  · have hnone : ¬∃ lo hi : Nat, bandTable[c]? = some (lo, hi) ∧ lo ≤ r ∧ r ≤ hi := by
      rintro ⟨lo, hi, hband, -, hhi⟩
      exact absurd (bandTable_below_top _ (List.mem_of_getElem? hband)) (Nat.not_lt.mpr (htop.trans hhi))
    rw [decodeReading_of_top htop, or_iff_left hnone, Option.some_inj, eq_comm, and_iff_left htop]
  · rw [decodeReading_eq_some_iff_of_below c (Nat.lt_of_not_le htop), or_iff_right fun h => htop h.2]
end

section
/-! What keeps the strap image (R104): beyond a strap latch and a full reset only the drift check and the end of a stall write the
strap part at all, and neither writes the image. -/

namespace Sys2Proof.Machine
open Sys2Proof

/-- What a strap latch fixes: the pins with their applied codes, the level of SBYTE, and whether the read failed. -/
def Strap.image (p : Strap) : List PinImage × Bool × Bool := (p.pins, p.sbyte, p.failed)

/-- `t` holds the strap image `s` does. -/
def KeepsImage (s t : State) : Prop := t.strap.image = s.strap.image

theorem KeepsImage.refl (s : State) : KeepsImage s s := rfl

theorem KeepsImage.trans {s t u : State} (h : KeepsImage s t) (h' : KeepsImage t u) : KeepsImage s u := Eq.trans h' h

theorem KeepsImage.of_same {ps : List Part} {s t : State} (h : Same ps s t) (hps : ps.contains .strap = false) : KeepsImage s t :=
  congrArg Strap.image (h .strap hps)

/-- An operation more that leaves the strap part out of its frame. -/
theorem KeepsImage.step {ps : List Part} {s t u : State} (h' : Same ps t u) (hps : ps.contains .strap = false)
    (h : KeepsImage s t) : KeepsImage s u := h.trans (.of_same h' hps)

theorem KeepsImage.ite {c : Prop} {_ : Decidable c} {s t u : State} (ht : KeepsImage s t) (hu : KeepsImage s u) :
    KeepsImage s (if c then t else u) := by
  split
  · exact ht
  · exact hu

theorem KeepsImage.upd_flash {s t : State} (h : KeepsImage s t) (f : Flash) : KeepsImage s { t with flash := f } := h

theorem KeepsImage.upd_core {s t : State} (h : KeepsImage s t) (c : Core) : KeepsImage s { t with core := c } := h

/-! ### The end of a stall (R30) -/

theorem State.stallCost_keepsImage (s : State) (o : FlashOp) : KeepsImage s (s.stallCost o) :=
  .ite (.refl s) rfl

theorem State.endStall_keepsImage (s : State) (o : FlashOp) : KeepsImage s (s.endStall o) := by
  unfold State.endStall
  with_reducible refine .step (State.resumeLeave_same _) rfl (.step (State.landOwed_same _) rfl ?_)
  with_reducible refine .step (State.withdrawLeave_same _) rfl (.step (State.landHalt_same _) rfl ?_)
  exact s.stallCost_keepsImage o

/-- The operation is over or suspended, LEAVE is released, and the stall ends. -/
theorem State.releaseOp_endStall_keepsImage (s : State) (o : FlashOp) : KeepsImage s (s.releaseOp.endStall o) :=
  .trans (.of_same (State.releaseOp_same s) rfl) (State.endStall_keepsImage _ o)

theorem State.flashEnd_keepsImage (s : State) (verified : Bool) (took : Nat) : KeepsImage s (s.flashEnd verified took) := by
  unfold State.flashEnd
  split
  · with_reducible refine .ite (.refl s) (.ite (.ite ?retry ?fault) (.trans ?done (State.endStall_keepsImage _ _)))
    case retry => with_reducible exact .step (State.retryFault_same _ _ _) rfl (.upd_flash (.refl s) _)
    case fault =>
      with_reducible refine .step (State.raise_same _ _ _ _ _) rfl ?_
      with_reducible exact .step (State.retryFault_same _ _ _) rfl (.upd_flash (.refl s) _)
    case done =>
      with_reducible refine .step (State.checkSpares_same _) rfl (.step (State.releaseOp_same _) rfl (.upd_flash ?_ _))
      with_reducible refine .step (State.wear_same _ _ _) rfl (.step (State.noteErase_same _ _ _ _) rfl ?_)
      with_reducible exact .of_same (State.landOp_same _ _ _) rfl
  · exact .refl s

theorem State.eraseSuspend_keepsImage (s : State) : KeepsImage s s.eraseSuspend := by
  unfold State.eraseSuspend
  split
  · split
    · with_reducible exact .ite (.trans (.upd_flash (.refl s) _) (State.releaseOp_endStall_keepsImage _ _)) (.refl s)
    · exact .refl s
  · exact .refl s

theorem State.programStop_keepsImage (s : State) : KeepsImage s s.programStop := by
  unfold State.programStop
  split
  · split
    · with_reducible refine .ite (.trans (.upd_flash ?_ _) (State.releaseOp_endStall_keepsImage _ _)) (.refl s)
      with_reducible exact .step (State.flashProgram_same _ _ _) rfl (.of_same (State.drawNat_same s) rfl)
    · exact .refl s
  · exact .refl s

theorem State.braceEntry_keepsImage (s : State) : KeepsImage s s.braceEntry := by
  unfold State.braceEntry
  with_reducible refine .ite ?_ (.refl s)
  with_reducible refine .step (State.settleWait_same _) rfl (.step (State.modLeave_same _ _) rfl ?_)
  with_reducible refine .trans ?_ (State.programStop_keepsImage _)
  with_reducible refine .step (State.braceScrub_same _) rfl (.step (State.giveBack_same _) rfl ?_)
  with_reducible refine .step (State.occurs_same _ _) rfl (.step (State.braceMarker_same _ _ _) rfl ?_)
  exact .refl s

/-! ### A core restart and the drift check (R99 to R105, R591) -/

theorem State.restartLosses_keepsImage (s : State) : KeepsImage s s.restartLosses := rfl

theorem State.restartSteps_keepsImage (s : State) : KeepsImage s s.restartSteps := by
  unfold State.restartSteps
  with_reducible refine .step (State.resumeLeave_same _) rfl ?_
  with_reducible refine .step (Same.eachOut (fun _ _ => State.restartOutput_same _ _) (Same.refl _ _)) rfl ?_
  with_reducible refine .step (State.restartRun_same _) rfl (.step (State.restartRecovery_same _) rfl ?_)
  exact State.restartLosses_keepsImage _

theorem State.coreRestart_keepsImage (s : State) : KeepsImage s s.coreRestart := by
  unfold State.coreRestart
  with_reducible refine .ite ?_ (.refl s)
  dsimp only
  split
  · with_reducible exact .step (State.log_same _ _ _ _ _) rfl (.upd_core s.restartSteps_keepsImage _)
  · exact s.restartSteps_keepsImage

theorem Strap.driftTurn_image {p turn : Strap} {clock pin : Nat} (h : p.driftTurn clock pin = some turn) :
    turn.image = p.image := by
  unfold Strap.driftTurn at h
  dsimp only at h
  repeat' split at h
  all_goals cases h <;> rfl

theorem State.driftRead_keepsImage (s : State) (pin reading : Nat) : KeepsImage s (s.driftRead pin reading) := by
  unfold State.driftRead
  split
  · next d turn _ hturn =>
    have himage : turn.image = s.strap.image := Strap.driftTurn_image hturn
    have hread (drift : List DriftPin) : KeepsImage s { s with strap := { turn with drift := drift } } := himage
    have hmarked (drift : List DriftPin) (m : Stitch) (b : Bool) :
        KeepsImage s (if b = true then State.fwMarker { s with strap := { turn with drift := drift } } m
          else { s with strap := { turn with drift := drift } }) :=
      .ite (.step (State.fwMarker_same _ _) rfl (hread drift)) (hread drift)
    dsimp only
    with_reducible refine .ite (.refl s) (.ite (hread turn.drift) (.ite ?_ (hread _)))
    with_reducible refine .step (State.writeFw_same _) rfl ?_
    with_reducible exact .ite (.step (State.log_same _ _ _ _ _) rfl (hmarked _ _ _)) (hmarked _ _ _)
  · exact .refl s

/-! ### Every command -/

theorem exec_keepsImage {i : Instr} {s t : State} (hexec : exec i s = .next t) (hreset : i.canReset = false)
    (hlatch : ∀ dt r, i ≠ .strapLatch dt r) : KeepsImage s t := by
  have hpass (dt : Nat) : KeepsImage s (advance dt s) := .of_same (advance_same dt s) rfl
  by_cases hstrap : (touches i).contains .strap = false
  · exact (hpass i.dt).trans (.of_same (commandFrames i s t hexec) hstrap)
  · cases i with
    | flashOperationEnd dt verified took =>
      obtain rfl := Host.Outcome.next.inj hexec
      exact (hpass dt).trans (State.flashEnd_keepsImage _ verified took)
    | flashEraseSuspend dt =>
      obtain rfl := Host.Outcome.next.inj hexec
      exact (hpass dt).trans (State.eraseSuspend_keepsImage _)
    | braceEntry dt =>
      obtain rfl := Host.Outcome.next.inj hexec
      exact (hpass dt).trans (State.braceEntry_keepsImage _)
    | coreRestart dt =>
      obtain rfl := Host.Outcome.next.inj hexec
      exact (hpass dt).trans (State.coreRestart_keepsImage _)
    | driftCheckRead dt pin reading =>
      obtain rfl := Host.Outcome.next.inj hexec
      exact (hpass dt).trans (State.driftRead_keepsImage _ pin.val reading)
    | strapLatch dt r => exact absurd rfl (hlatch dt r)
    | resetAssert | watchdogExpiry | firmwareFetchError | reset => cases hreset
    | _ => exact absurd rfl hstrap

end Sys2Proof.Machine

open Sys2Proof Sys2Proof.Machine

/-- Settles O10: the frames of the commands leave the strap part out, but for five that write its drift check alone. -/
theorem strapImageHolds : Obligations.StrapImageHolds := by
  intro i s t hexec hreset hlatch
  have himage := exec_keepsImage hexec hreset hlatch
  obtain ⟨hpins, hsbyte, hfailed⟩ : t.strap.pins = s.strap.pins ∧ t.strap.sbyte = s.strap.sbyte ∧
      t.strap.failed = s.strap.failed := by
    simpa only [KeepsImage, Strap.image, Prod.mk.injEq] using himage
  exact ⟨hpins, hsbyte, hfailed, fun pin => by rw [State.code, State.code, Strap.code, Strap.code, hpins]⟩
end

section
/-! What the strap latch leaves: the image of each pin, the channels and the faults of the read (R86, R87, R92 to R95, R149). -/

namespace Sys2Proof.Machine
open Sys2Proof

/-! ### The image of one pin (R86, R87, R92, R93) -/

theorem pinImage_of_failed (pin r1 r2 : Nat) :
    pinImage true pin r1 r2 = { raw := 0, applied := safeCode pin, amb := true, reading := sat16 r1 } := rfl

theorem pinImage_of_agree {pin r1 r2 c : Nat} (h1 : decodeReading r1 = some c) (h2 : decodeReading r2 = some c) :
    pinImage false pin r1 r2 =
      { raw := BitVec.ofNat 4 c, applied := BitVec.ofNat 4 c, amb := false, reading := sat16 r1 } := by
  simp [pinImage, h1, h2]

theorem pinImage_of_ambiguous {r1 r2 : Nat} (pin : Nat) (h : decodeReading r1 = none ∨ decodeReading r1 ≠ decodeReading r2) :
    (pinImage false pin r1 r2).amb = true ∧ (pinImage false pin r1 r2).applied = safeCode pin := by
  have hamb : (pinImage false pin r1 r2).amb = true := by
    rcases h with h | h <;> simp [pinImage, h]
  exact ⟨hamb, if_pos hamb⟩

/-! ### The image of a read (R95, R107) -/

theorem strapImage_pin {r : StrapRead} {at_ i : Nat} {p : PinImage} (h : (strapImage r at_).pins[i]? = some p) :
    p = pinImage (strapReadFailed r) i (pick r.pass1 i) (pick r.pass2 i) := by
  obtain ⟨j, hj, rfl⟩ := Option.map_eq_some_iff.mp (List.getElem?_map.symm.trans h)
  obtain ⟨-, rfl⟩ := List.getElem?_eq_some_iff.mp hj
  rw [List.getElem_range]

theorem strapImage_pins_length (r : StrapRead) (at_ : Nat) : (strapImage r at_).pins.length = 22 := by
  simp [strapImage]

theorem State.code_of_pin {s : State} {i : Nat} {p : PinImage} (h : s.strap.pins[i]? = some p) : s.code i = p.applied.toNat := by
  rw [State.code, Strap.code, h]
  rfl

/-- What the latch makes of each pin: its safe default where the read failed or the pin is ambiguous, else the code both passes
read. -/
theorem strapImage_decodes {r : StrapRead} {at_ i : Nat} {p : PinImage} (h : (strapImage r at_).pins[i]? = some p) :
    (strapReadFailed r = true → p.amb = true ∧ p.applied = safeCode i ∧ p.raw = 0) ∧
      (strapReadFailed r = false →
        (∀ c : Nat, decodeReading (pick r.pass1 i) = some c → decodeReading (pick r.pass2 i) = some c →
          p.amb = false ∧ p.applied = BitVec.ofNat 4 c ∧ p.raw = BitVec.ofNat 4 c) ∧
        (decodeReading (pick r.pass1 i) = none ∨ decodeReading (pick r.pass1 i) ≠ decodeReading (pick r.pass2 i) →
          p.amb = true ∧ p.applied = safeCode i)) := by
  rw [strapImage_pin h]
  refine ⟨fun hfailed => ?_, fun hread => ?_⟩
  · rw [hfailed, pinImage_of_failed]
    exact ⟨rfl, rfl, rfl⟩
  · rw [hread]
    refine ⟨fun c h1 h2 => ?_, pinImage_of_ambiguous i⟩
    rw [pinImage_of_agree h1 h2]
    exact ⟨rfl, rfl, rfl⟩

/-! ### The channels (R149) -/

theorem State.enabled_congr {s t : State} (h : t.strap = s.strap) (n : Chan) : t.enabled n = s.enabled n := by
  simp only [State.enabled, State.chanCode, State.code, h]

theorem State.startChannel_strap (s : State) (n : Chan) : (s.startChannel n).strap = s.strap :=
  State.startChannel_same s n .strap rfl

/-- The straps read write the strap part and the channels. -/
theorem State.strapsRead_same (s : State) (r : StrapRead) : Same [.strap, .chan, .counts] s (s.strapsRead r) :=
  Same.eachChan (fun n t => (State.startChannel_same t n).mono rfl) (Same.upd_strap rfl (Same.refl _ s))

theorem State.strapsRead_strap (s : State) (r : StrapRead) : (s.strapsRead r).strap = strapImage r s.clock :=
  (Same.eachChan (ps := [.chan, .counts]) (fun n t => State.startChannel_same t n) (Same.refl _ _) .strap rfl)

/-- Every enabled channel stands absent. -/
theorem State.strapsRead_absent (s : State) (r : StrapRead) (n : Chan) (hn : (s.strapsRead r).enabled n = true) :
    ((s.strapsRead r).chan.get n).st = .absentDown := by
  refine State.eachChan_of_own (P := fun n t => t.enabled n = true → (t.chan.get n).st = .absentDown) (fun n t => ?_)
    (fun n m t hm ht => ?_) _ n hn
  · intro hstarted
    rw [State.enabled_congr (t.startChannel_strap n)] at hstarted
    rw [State.startChannel_of_enabled hstarted, State.modChan_chan, Per8.get_set_same]
  · rw [State.enabled_congr (t.startChannel_strap n), State.startChannel_onlyChan t n m hm]
    exact ht

/-- A channel that is not enabled stays as it was. -/
theorem State.strapsRead_disabled (s : State) (r : StrapRead) (n : Chan) (hn : (s.strapsRead r).enabled n = false) :
    (s.strapsRead r).chan.get n = s.chan.get n := by
  have hstart (l : List Chan) (t : State) (hstrap : t.strap = strapImage r s.clock) :
      (l.foldl (fun t c => t.startChannel c) t).chan.get n = t.chan.get n := by
    induction l generalizing t with
    | nil => rfl
    | cons c l ih =>
      rw [List.foldl_cons, ih _ ((t.startChannel_strap c).trans hstrap)]
      by_cases hc : n = c
      · have hdisabled : t.enabled c = false := by
          rw [← hc, State.enabled_congr (hstrap.trans (s.strapsRead_strap r).symm), hn]
        rw [State.startChannel_of_disabled hdisabled]
      · exact State.startChannel_onlyChan t c n hc
  exact hstart Chan.all { s with strap := strapImage r s.clock } rfl

/-! ### The faults (R94) -/

/-- Held faults raised in turn change the faults alone. -/
theorem State.foldl_raise {α : Type} (l : List α) (c : α → Bool) (code : Byte) (subj : α → Byte)
    (a : α → BitVec 32) (s : State) :
    (l.foldl (fun t x => if c x then t.raise code (subj x) (a x) 0 else t) s).faults =
      (l.filter c).foldl (fun f x => f.raised code s.tb.time (subj x) (a x) 0) s.faults := by
  induction l generalizing s with
  | nil => rfl
  | cons x l ih =>
    rw [List.foldl_cons, ih]
    cases hc : c x with
    | true => rw [List.filter_cons_of_pos hc, List.foldl_cons, if_pos rfl, State.raise_eq]
    | false => rw [List.filter_cons_of_neg (by simp [hc]), if_neg Bool.false_ne_true]

theorem State.strapFaults_of_failed {s : State} (h : s.strap.failed = true) :
    s.strapFaults.faults = s.faults.raised 0x93 s.tb.time 0xFF 0 0 := by
  rw [State.strapFaults, if_pos h, State.raise_eq]

theorem State.strapFaults_of_read {s : State} (h : s.strap.failed = false) :
    s.strapFaults.faults = (s.strap.pins.zipIdx.filter fun p => p.1.amb).foldl
      (fun f p => f.raised 0x91 s.tb.time (BitVec.ofNat 8 p.2) (p.1.reading.setWidth 32) 0) s.faults := by
  rw [State.strapFaults, if_neg (Bool.eq_false_iff.mp h), State.foldl_raise]

/-! ### STRAP_LATCH -/

theorem State.strapLatch_ends {s : State} (r : StrapRead) (h : s.core.boot = .straps) :
    (s.strapLatch r).core.boot = .recovery ∧ (s.strapLatch r).snap.up = true ∧
      (s.strapLatch r).faults = (s.strapsRead r).strapFaults.faults := by
  rw [State.strapLatch, if_pos (beq_iff_eq.mpr h)]
  dsimp only
  exact ⟨rfl, rfl, rfl⟩

end Sys2Proof.Machine

open Sys2Proof Sys2Proof.Machine

/-- Settles O26: what the strap latch leaves is the image of its read, the channels started from it and the faults of the read. -/
theorem strapsLatch : Obligations.StrapsLatch := by
  intro dt s u r hu hboot
  obtain ⟨hstrap, hchan⟩ := State.strapLatch_strap_chan r hboot
  obtain ⟨hnext, hup, hfaults⟩ := State.strapLatch_ends r hboot
  have himage : (u.strapLatch r).strap = strapImage r u.clock := hstrap.trans (u.strapsRead_strap r)
  have hread := u.strapsRead_same r
  have htime : (u.strapsRead r).tb.time = u.tb.time := congrArg Timebase.time (hread .tb rfl)
  have hbefore : (u.strapsRead r).faults = u.faults := hread .faults rfl
  refine ⟨u.strapLatch r, hu ▸ exec_strapLatch dt r s, u.strapLatch_same r, himage ▸ rfl,
    himage ▸ strapImage_pins_length r _, himage ▸ rfl, himage ▸ rfl, hnext, hup,
    fun i p hp => ⟨State.code_of_pin hp, strapImage_decodes (himage ▸ hp)⟩,
    fun n => ⟨fun hn => ⟨?absent, State.strapLatch_startedCount r hboot n hn⟩, fun hn => ?disabled⟩,
    fun hfailed => ?failed, fun hok => ?ambiguous⟩
  case absent =>
    rw [hchan]
    exact u.strapsRead_absent r n (State.enabled_congr hstrap n ▸ hn)
  case disabled =>
    rw [hchan]
    exact u.strapsRead_disabled r n (State.enabled_congr hstrap n ▸ hn)
  case failed =>
    rw [hfaults, State.strapFaults_of_failed (by rw [u.strapsRead_strap r]; exact hfailed), htime, hbefore]
  case ambiguous =>
    rw [hfaults, State.strapFaults_of_read (by rw [u.strapsRead_strap r]; exact hok), htime, hbefore, hstrap]
end

section
/-! The drift check (R99 to R103, R105): whose turn it is, and what the second read in a row that says so does. -/

namespace Sys2Proof.Machine
open Sys2Proof

theorem exec_driftCheckRead (dt : Nat) (pin : Fin 23) (reading : Nat) (s : State) :
    exec (.driftCheckRead dt pin reading) s = .next ((advance dt s).driftRead pin.val reading) := rfl

/-! ### The turn of a pin (R30, R99) -/

theorem Strap.secondOf_eq (p : Strap) (clock : Nat) : p.secondOf clock = (clock - p.at_) / 4000000000000 := rfl

/-- No pin has a second turn in a second. -/
theorem Strap.driftTurn_of_done {p : Strap} {clock pin : Nat} (howed : p.driftOwed = none)
    (hsec : p.driftSec = (clock - p.at_) / 4000000000000) (hdone : pin < p.driftDone) : p.driftTurn clock pin = none := by
  simp only [Strap.driftTurn, Strap.secondOf_eq, howed, hsec, Bool.false_eq_true, if_false, if_true,
    if_neg (Nat.not_le.mpr hdone)]

/-- A read that a stall has carried past its second leaves the next pin's owed. -/
theorem Strap.driftTurn_of_owed {p : Strap} {first pin : Nat} (clock : Nat) (howed : p.driftOwed = some first)
    (hfirst : first ≤ pin) :
    p.driftTurn clock pin = some { p with driftOwed := if pin < 22 then some (pin + 1) else none } := by
  simp only [Strap.driftTurn, howed, hfirst, decide_true, if_true]

/-- In a second a pin is read after those before it. -/
theorem Strap.driftTurn_of_due {p : Strap} {clock pin : Nat} (howed : p.driftOwed = none)
    (hdue : p.driftSec = (clock - p.at_) / 4000000000000 → p.driftDone ≤ pin) :
    p.driftTurn clock pin =
      some { p with driftSec := (clock - p.at_) / 4000000000000, driftDone := pin + 1 } := by
  have hbefore : (if p.driftSec = p.secondOf clock then p.driftDone else 0) ≤ pin := by
    split
    · next hsec => exact hdue hsec
    · exact Nat.zero_le pin
  simp only [Strap.driftTurn, howed, Bool.false_eq_true, if_false]
  exact if_pos hbefore

/-! ### The marker of a drift (R101, R102, R336) -/

theorem Chain.place_waiting (c : Chain) : c.place.buffer ++ c.place.fwWait = c.buffer ++ c.fwWait := by
  rw [Chain.place, Chain.placeUpTo, List.append_assoc, List.take_append_drop]

/-- The firmware's marker is the last of those placed and waiting. -/
theorem State.fwMarker_waiting (s : State) (m : Stitch) :
    (s.fwMarker m).chain.buffer ++ (s.fwMarker m).chain.fwWait = s.chain.buffer ++ s.chain.fwWait ++ [s.item m] := by
  rw [State.fwMarker, State.fwMarkerItem, List.append_assoc]
  dsimp only
  split
  · exact Chain.place_waiting _
  · rfl

/-- The marker of a pin that enters or leaves drift, with its latched and its observed state. -/
def State.driftMarker (s : State) (pin reading : Nat) (states : Byte × Byte) (off : Bool) : Stitch :=
  .drift s.tb.time (sat16 reading) (BitVec.ofNat 8 pin) (if off then 1 else 2) states.1 states.2

/-- A pin enters or leaves drift: its marker after the epoch, fault 0x92 at an entry, and the status words anew. -/
def State.driftTold (s : State) (pin reading : Nat) (states : Byte × Byte) (off : Bool) : State :=
  let t := if s.tb.epochSet then s.fwMarker (s.driftMarker pin reading states off) else s
  (if off then t.log 0x92 (BitVec.ofNat 8 pin) 0 0 else t).writeFw

section Told
variable (s : State) (pin reading : Nat) (states : Byte × Byte) (off : Bool)

theorem State.driftTold_same : Same [.chain, .snap, .faults] s (s.driftTold pin reading states off) := by
  have hmarked : Same [.chain, .snap, .faults] s
      (if s.tb.epochSet then s.fwMarker (s.driftMarker pin reading states off) else s) :=
    .ite (Same.mono (State.fwMarker_same _ _) rfl) (Same.refl _ _)
  unfold State.driftTold
  with_reducible refine Same.step (State.writeFw_same _) rfl (.ite ?_ hmarked)
  with_reducible exact Same.step (State.log_same _ _ _ _ _) rfl hmarked

theorem State.driftTold_chain (hset : s.tb.epochSet = true) :
    (s.driftTold pin reading states off).chain = (s.fwMarker (s.driftMarker pin reading states off)).chain := by
  rw [State.driftTold, if_pos hset]
  refine (State.writeFw_same _ .chain rfl).trans ?_
  cases off <;> rfl

theorem State.driftTold_waiting (hset : s.tb.epochSet = true) :
    (((s.driftTold pin reading states off).chain.buffer ++ (s.driftTold pin reading states off).chain.fwWait).map
      (·.st)).getLast? = some (s.driftMarker pin reading states off) := by
  rw [State.driftTold_chain _ _ _ _ _ hset, State.fwMarker_waiting, List.map_append, List.map_singleton, List.getLast?_concat]
  rfl

theorem State.driftTold_faults :
    (s.driftTold pin reading states off).faults =
      if off then s.faults.logged 0x92 s.tb.time (BitVec.ofNat 8 pin) 0 0 else s.faults := by
  have hmarked : Same [.chain] s (if s.tb.epochSet then s.fwMarker (s.driftMarker pin reading states off) else s) :=
    .ite (State.fwMarker_same _ _) (Same.refl _ _)
  unfold State.driftTold
  refine (State.writeFw_same _ .faults rfl).trans ?_
  generalize (if s.tb.epochSet then s.fwMarker (s.driftMarker pin reading states off) else s) = t at hmarked ⊢
  have hfaults : t.faults = s.faults := hmarked .faults rfl
  have htb : t.tb = s.tb := hmarked .tb rfl
  cases off with
  | true => simp only [if_true, State.log_eq, hfaults, htb]
  | false => simp only [Bool.false_eq_true, if_false, hfaults]

end Told

/-! ### DRIFT_CHECK_READ -/

theorem State.driftRead_of_idle {s : State} {pin : Nat} (reading : Nat)
    (h : s.fwRuns = false ∨ s.strap.latched = false ∨ s.strap.driftTurn s.clock pin = none) :
    s.driftRead pin reading = s := by
  unfold State.driftRead
  split
  · next d turn _ hturn =>
    rcases h with h | h | h
    · simp [h]
    · simp [h]
    · exact absurd (h.symm.trans hturn) (Option.some_ne_none turn).symm
  · rfl

/-- A read has been made: its pin's turn is over, and what it gave is noted. -/
def State.driftNoted (s : State) (turn : Strap) (pin : Nat) (off inDrift : Bool) : State :=
  { s with strap := { turn with drift := turn.drift.set pin { prev := some off, inDrift := inDrift } } }

/-- What a read does at its turn while the firmware runs. -/
theorem State.driftRead_of_turn {s : State} {pin reading : Nat} {d : DriftPin} {turn : Strap} {off : Bool}
    (hpin : s.strap.drift[pin]? = some d) (hturn : s.strap.driftTurn s.clock pin = some turn) (hruns : s.fwRuns = true)
    (hlatched : s.strap.latched = true) (hoff : off = ((s.driftStates pin reading).2 != (s.driftStates pin reading).1)) :
    s.driftRead pin reading =
      if s.power.brace || s.cal.run.isSome then { s with strap := turn }
      else if d.prev == some off && off != d.inDrift then
        (s.driftNoted turn pin off off).driftTold pin reading (s.driftStates pin reading) off
      else s.driftNoted turn pin off d.inDrift := by
  subst hoff
  unfold State.driftRead
  rw [hpin, hturn]
  simp only [hruns, hlatched, Bool.not_true, Bool.or_self, Bool.false_eq_true, if_false]
  congr 1
  split <;> rfl

end Sys2Proof.Machine

open Sys2Proof Sys2Proof.Machine

/-- Settles O36: whose turn a read is, and what it does there. -/
theorem driftReads : Obligations.DriftReads := by
  intro dt reading s u pin d off hu hpin hoff
  have hexec : exec (.driftCheckRead dt pin reading) s = .next (u.driftRead pin.val reading) :=
    hu ▸ exec_driftCheckRead dt pin reading s
  refine ⟨fun hidle => ?idle, fun turn hruns hlatched hcase => ?turn⟩
  case idle =>
    rw [hexec, State.driftRead_of_idle reading]
    exact hidle.imp_right (Or.imp_right fun ⟨howed, hsec, hdone⟩ => Strap.driftTurn_of_done howed hsec hdone)
  case turn =>
    obtain ⟨hturn, hdrift⟩ : u.strap.driftTurn u.clock pin.val = some turn ∧ turn.drift = u.strap.drift := by
      rcases hcase with ⟨first, howed, hfirst, rfl⟩ | ⟨howed, hdue, rfl⟩
      · exact ⟨Strap.driftTurn_of_owed _ howed hfirst, rfl⟩
      · exact ⟨Strap.driftTurn_of_due howed hdue, rfl⟩
    have hread := State.driftRead_of_turn hpin hturn hruns hlatched hoff
    refine ⟨fun hskip => ?_, fun hbrace hrun hsame => ?_, fun hbrace hrun hprev hnew => ?_⟩
    · rw [hexec, hread, if_pos (by simpa using hskip)]
    · rw [hexec, hread, if_neg (by simp [hbrace, hrun]), if_neg (by simpa [imp_iff_not_or] using hsame), State.driftNoted, hdrift]
    · rw [if_neg (by simp [hbrace, hrun]), if_pos (by simp [hprev, hnew])] at hread
      refine ⟨u.driftRead pin.val reading, hexec, State.driftRead_same u pin.val reading, ?_⟩
      dsimp only
      rw [hread, ← hdrift]
      have hframe := (u.driftNoted turn pin.val off off).driftTold_same pin.val reading (u.driftStates pin.val reading) off
      exact ⟨hframe .strap rfl, State.driftTold_faults _ _ _ _ _,
        (u.driftNoted turn pin.val off off).driftTold_waiting pin.val reading (u.driftStates pin.val reading) off⟩
end

section
/-! What a pin's level does between its limits, and the commands of brace, standby and the supply faults (R97, R335, R411, R555 to
R568, R578). -/

namespace Sys2Proof.Machine
open Sys2Proof

/-! ### What each command runs -/

theorem exec_resetAssert_pin (dt w : Nat) (s : State) :
    exec (.resetAssert dt (.pin w)) s =
      .next ((advance dt s).onPin .resetN false w fun t => t.fullReset (.pin w)) := rfl

theorem exec_calRequest (dt w : Nat) (s : State) :
    exec (.calRequest ⟨dt, w⟩) s =
      .next ((advance dt s).onPin .calN false w fun t => t.when (t.outOfReset && t.tb.epochSet) fun t => t.requestRun .calPin) :=
  rfl

theorem exec_flushRequest (dt w : Nat) (s : State) :
    exec (.flushRequest ⟨dt, w⟩) s =
      .next ((advance dt s).onPin .flushN false w fun t =>
        t.when t.tb.epochSet fun t => { t with cab := { t.cab with flushing := true } }) := rfl

theorem exec_standbyEntry (dt w : Nat) (s : State) :
    exec (.standbyEntry ⟨dt, w⟩) s = .next ((advance dt s).onPin .stbyN false w fun t => t.standbyEntry) := rfl

theorem exec_standbyExit (dt w : Nat) (s : State) :
    exec (.standbyExit ⟨dt, w⟩) s = .next ((advance dt s).onPin .stbyN true w fun t => t.standbyExit) := rfl

theorem exec_braceEntry (dt : Nat) (s : State) : exec (.braceEntry dt) s = .next (advance dt s).braceEntry := rfl

theorem exec_braceReturn (dt lowest : Nat) (s : State) :
    exec (.braceReturn dt lowest) s = .next ((advance dt s).braceReturn lowest) := rfl

theorem exec_aoDomainPowerDown (dt : Nat) (s : State) : exec (.aoDomainPowerDown dt) s = .next (advance dt s).aoDown := rfl

theorem exec_v33RangeFault (dt v33 vin : Nat) (s : State) :
    exec (.v33RangeFault dt v33 vin) s =
      .next ((advance dt s).when ((advance dt s).outOfReset && (decide (v33 < 3100) || decide (3500 < v33)) &&
        decide (6000 ≤ vin)) fun t => t.raise 0x84 0xFF (sat32 v33) (sat32 vin)) := rfl

theorem exec_v33RangeClear (dt : Nat) (s : State) :
    exec (.v33RangeClear dt) s = .next ((advance dt s).clearFault 0x84 0xFF) := rfl

theorem exec_vinOvervoltage (dt vin : Nat) (s : State) :
    exec (.vinOvervoltage dt vin) s =
      .next ((advance dt s).when ((advance dt s).outOfReset && decide (28500 < vin)) fun t =>
        t.raise 0x85 0xFF (sat32 vin) 0) := rfl

theorem exec_vinOvervoltageClear (dt : Nat) (s : State) :
    exec (.vinOvervoltageClear dt) s = .next ((advance dt s).clearFault 0x85 0xFF) := rfl

theorem exec_vbatCheck (dt vbat : Nat) (s : State) : exec (.vbatCheck dt vbat) s = .next ((advance dt s).vbatCheck vbat) := rfl

theorem exec_dieOvertemperature (dt : Nat) (s : State) :
    exec (.dieOvertemperature dt) s =
      .next ((advance dt s).when ((advance dt s).outOfReset && (advance dt s).forOneSecond (advance dt s).sens.hotFrom) fun t =>
        t.raise 0x87 0xFF (BitVec.ofInt 32 t.sens.die) 0) := rfl

theorem exec_dieOvertemperatureClear (dt : Nat) (s : State) :
    exec (.dieOvertemperatureClear dt) s =
      .next ((advance dt s).when ((advance dt s).forOneSecond (advance dt s).sens.coolFrom) fun t =>
        t.clearFault 0x87 0xFF) := rfl

/-! ### A level between the limits of a pin (R97) -/

/-- Between the limits of a pin one free bit decides whether it takes effect. -/
theorem State.onPin_between {s : State} {p : DigitalPin} {level : Bool} {width : Nat} (f : State → State)
    (hlow : (p.limits level).1 ≤ width) (hhigh : width < (p.limits level).2) :
    s.onPin p level width f =
      if Config.freeBit s.free then f { s with free := s.free + 1 } else { s with free := s.free + 1 } := by
  simp only [State.onPin, State.takes, if_neg (Nat.not_lt.mpr hlow), if_pos hhigh]
  rfl

theorem next_onPin_between {s u : State} {p : DigitalPin} {level : Bool} {width : Nat} {i : Instr} {f : State → State}
    (hexec : exec i s = .next (u.onPin p level width f)) (hlow : (p.limits level).1 ≤ width)
    (hhigh : width < (p.limits level).2) :
    exec i s =
      if Config.freeBit u.free then .next (f { u with free := u.free + 1 }) else .next { u with free := u.free + 1 } := by
  rw [hexec, State.onPin_between f hlow hhigh, apply_ite Host.Outcome.next]

theorem next_onPin_ignored {s u : State} {p : DigitalPin} {level : Bool} {width : Nat} {i : Instr} {f : State → State}
    (hexec : exec i s = .next (u.onPin p level width f)) (hlow : width < (p.limits level).1) : exec i s = .next u := by
  rw [hexec, State.onPin_ignored u p level width f hlow]

/-! ### The marker of a brace (R335, R568) -/

theorem State.hwMarker_chain (s : State) (m : Stitch) : (s.hwMarker m).chain = s.chain.offered (s.item m) := by
  rw [State.hwMarker, Chain.offered]
  dsimp only
  simp only [Bool.and_eq_true, List.isEmpty_iff, decide_eq_true_eq]

theorem State.braceMarker_chain (s : State) (back : Bool) (duration : BitVec 40) :
    (s.braceMarker back duration).chain =
      if s.tb.epochSet then s.chain.offered (s.item (.brace s.tb.time back duration)) else s.chain := by
  rw [State.braceMarker]
  split
  · exact State.hwMarker_chain _ _
  · rfl

theorem State.braceMarker_power (s : State) (back : Bool) (duration : BitVec 40) :
    (s.braceMarker back duration).power =
      { s.power with early := if s.tb.epochSet then s.power.early else s.power.early ++ [(back, duration)] } := by
  rw [State.braceMarker]
  split <;> rfl

theorem State.braceMarker_faults (s : State) (back : Bool) (duration : BitVec 40) :
    (s.braceMarker back duration).faults = s.faults := State.braceMarker_same s back duration .faults rfl

theorem State.occurs_faults (s : State) (code : Byte) :
    (s.occurs code).faults = { s.faults with
      last := code
      seen := (code, s.faults.count code + 1) :: s.faults.seen.filter fun p => p.1 != code } := rfl

theorem State.event_faults (s : State) (code : Byte) (raised held : Bool) (time : BitVec 64) (subj : Byte) (a b : BitVec 32) :
    (s.event code raised held time subj a b).faults = { s.faults with events := s.faults.events ++
      [{ code := code, raised := raised, held := held, time := time, subject := subj, detailA := a, detailB := b,
         occ := s.faults.count code }] } := rfl

/-! ### BRACE_ENTRY (R565, R566, R568) -/

/-- Brace has begun: its instant, part 0 of its marker and fault 0x81, whose skein waits for the return. -/
def State.braceBegun (s : State) : State :=
  ({ s with power := { s.power with brace := true, braceAt := s.clock, braceTime := s.tb.time } }.braceMarker false 0).occurs 0x81

/-- What stops in brace has stopped: work under LEAVE that had not begun, a scrub burst and a program. -/
def State.braceStopped (s : State) : State := s.giveBack.braceScrub.programStop

theorem State.braceEntry_of_power {s : State} (hout : s.outOfReset = true) (hbrace : s.power.brace = false) :
    s.braceEntry = State.settleWait (s.braceBegun.braceStopped.modLeave fun l =>
      { l with phase := if l.phase == .window then .deferred else l.phase }) := by
  rw [State.braceEntry, if_pos (by simp [hout, hbrace])]
  rfl

theorem State.braceEntry_of_brace {s : State} (hbrace : s.power.brace = true) : s.braceEntry = s := if_neg (by simp [hbrace])

theorem State.braceStopped_same (s : State) :
    Same [.free, .strap, .chan, .sched, .cab, .flash, .mem, .leave, .core] s s.braceStopped :=
  Same.step (State.programStop_same _) rfl
    (Same.step (State.braceScrub_same _) rfl (Same.mono (State.giveBack_same s) rfl))

/-- No scrub burst runs on in brace (R386). -/
theorem State.braceScrub_scrubbing (s : State) : s.braceScrub.cab.scrubbing = false := by
  cases h : s.cab.scrubbing with
  | false => rw [State.braceScrub, h, if_neg Bool.false_ne_true, h]
  | true =>
    rw [State.braceScrub, if_pos h, (State.requestLeave_same _ _ .cab rfl : _ = _), State.scrubStop, if_pos h]
    dsimp only
    rw [(State.releaseFor_same _ _ .cab rfl : _ = _)]
    rfl

theorem State.braceStopped_scrubbing (s : State) : s.braceStopped.cab.scrubbing = false := by
  rw [State.braceStopped, (State.programStop_same _ .cab rfl : _ = _)]
  exact State.braceScrub_scrubbing _

theorem State.settleWait_phase (s : State) : s.settleWait.leave.phase = s.leave.phase := by
  obtain ⟨w, f, h⟩ := s.settleWait_eq
  rw [h]

/-- No window runs on in brace. -/
theorem State.braceEntry_phase {s : State} (hout : s.outOfReset = true) (hbrace : s.power.brace = false) :
    s.braceEntry.leave.phase ≠ .window := by
  rw [State.braceEntry_of_power hout hbrace, State.settleWait_phase, State.modLeave_leave]
  dsimp only
  split
  · exact LeavePhase.noConfusion
  · next hphase => exact fun h => hphase (beq_iff_eq.mpr h)

/-- A brace entry as the statements speak of it: brace, the marker, the fault, the scrub burst and the window. -/
theorem does_braceEntry {dt : Nat} {s u : State} (hu : u = advance dt s) (hout : u.outOfReset = true)
    (hbrace : u.power.brace = false) :
    Does (.braceEntry dt) s u (touches (.braceEntry dt)) fun t =>
      t.power = { u.power with
        brace := true, braceAt := u.clock, braceTime := u.tb.time
        early := if u.tb.epochSet then u.power.early else u.power.early ++ [(false, 0)] } ∧
      t.chain = (if u.tb.epochSet then u.chain.offered
        { st := .brace u.tb.time false 0, session := u.tb.session, full := u.full } else u.chain) ∧
      t.faults = { u.faults with
        last := 0x81
        seen := (0x81, u.faults.count 0x81 + 1) :: u.faults.seen.filter fun p => p.1 != 0x81 } ∧
      t.cab.scrubbing = false ∧ t.leave.phase ≠ .window := by
  have hframe : Same [.leave] u.braceBegun.braceStopped u.braceEntry := by
    rw [State.braceEntry_of_power hout hbrace]
    exact Same.step (State.settleWait_same _) rfl (State.modLeave_same _ _)
  have hstopped := u.braceBegun.braceStopped_same
  have hkeep := Same.step hframe rfl hstopped
  refine ⟨u.braceEntry, hu ▸ exec_braceEntry dt s, State.braceEntry_same u, ?_, ?_, ?_, ?_,
    State.braceEntry_phase hout hbrace⟩
  · exact (hkeep .power rfl).trans (State.braceMarker_power _ _ _)
  · exact (hkeep .chain rfl).trans (State.braceMarker_chain _ _ _)
  · rw [hkeep .faults rfl, State.braceBegun, State.occurs_faults, State.braceMarker_faults]
  · exact (congrArg Cabinet.scrubbing (hframe .cab rfl)).trans (State.braceStopped_scrubbing _)

/-! ### BRACE_RETURN (R335, R566 to R568, R578) -/

/-- Brace has ended: its instant, part 1 of its marker, and the event of fault 0x81 with the time of entry and the lowest VIN. -/
def State.braceEnded (s : State) (lowest : Nat) (cycles : BitVec 40) : State :=
  (State.braceMarker { s with power := { s.power with brace := false, returnAt := s.clock } } true cycles).event 0x81 true false
    s.power.braceTime 0xFF (sat32 lowest) (sat32 (inUnits (s.clock - s.power.braceAt) 4000000))

theorem State.braceReturn_of_brace {s : State} (lowest : Nat) (hbrace : s.power.brace = true) :
    s.braceReturn lowest =
      (s.braceEnded lowest (BitVec.ofNat 40
        (min (inUnits (s.clock - s.power.braceAt) 12800) 0xFFFFFFFFFF))).resumeOp.resumeLeave :=
  if_pos hbrace

theorem State.braceReturn_of_no_brace {s : State} (lowest : Nat) (hbrace : s.power.brace = false) : s.braceReturn lowest = s :=
  if_neg (by simp [hbrace])

theorem does_braceReturn {dt lowest : Nat} {s u : State} {cycles : BitVec 40} (hu : u = advance dt s)
    (hbrace : u.power.brace = true)
    (hcycles : cycles = BitVec.ofNat 40 (min (inUnits (u.clock - u.power.braceAt) 12800) 0xFFFFFFFFFF)) :
    Does (.braceReturn dt lowest) s u [.chain, .flash, .power, .leave, .faults] fun t =>
      t.power = { u.power with
        brace := false, returnAt := u.clock
        early := if u.tb.epochSet then u.power.early else u.power.early ++ [(true, cycles)] } ∧
      t.flash.mem = u.flash.mem ∧
      t.faults = { u.faults with events := u.faults.events ++
        [{ code := 0x81, raised := true, held := false, time := u.power.braceTime, subject := 0xFF
           detailA := sat32 lowest, detailB := sat32 (inUnits (u.clock - u.power.braceAt) 4000000)
           occ := u.faults.count 0x81 }] } ∧
      t.chain = (if u.tb.epochSet then u.chain.offered
        { st := .brace u.tb.time true cycles, session := u.tb.session, full := u.full } else u.chain) := by
  have hsame := State.braceReturn_same u lowest
  have hkeep : Same [.flash, .leave] (u.braceEnded lowest cycles) (u.braceReturn lowest) := by
    rw [State.braceReturn_of_brace lowest hbrace, ← hcycles]
    exact Same.step (State.resumeLeave_same _) rfl (State.resumeOp_same _)
  refine ⟨u.braceReturn lowest, hu ▸ exec_braceReturn dt lowest s, hsame, ?_, hsame .mem rfl, ?_, ?_⟩
  · exact (hkeep .power rfl).trans (State.braceMarker_power _ _ _)
  · rw [hkeep .faults rfl, State.braceEnded, State.event_faults, State.braceMarker_faults]
  · exact (hkeep .chain rfl).trans (State.braceMarker_chain _ _ _)

/-! ### Standby and the AO domain (R411, R555, R556, R559, R561, R562) -/

/-- An operation on each output in turn writes each output as it stood before. -/
theorem State.eachOut_outs {f : OutNo → State → State} {g : OutNo → Output → Output}
    (hf : ∀ o s, (f o s).ao.outs = s.ao.outs.set o (g o (s.ao.outs.get o))) (s : State) (o : OutNo) :
    (s.eachOut f).ao.outs.get o = g o (s.ao.outs.get o) := by
  have hboth : (s.eachOut f).ao.outs = (f 1 (f 0 s)).ao.outs := rfl
  rw [hboth, hf, hf]
  fin_cases o <;> rfl

/-- Both pin switches open: an output is in fault as it was, or not established. -/
theorem State.dropOutputs_out (s : State) (o : OutNo) :
    (s.dropOutputs.ao.outs.get o).st = if (s.ao.outs.get o).st == .faulted then .faulted else .idle := by
  have hkept (o : OutNo) (t : State) : ((t.dropRequest (.stagePower o)).releaseFor (.stagePower o)).ao = t.ao :=
    (State.releaseFor_same _ _ .ao rfl).trans (State.dropRequest_same t _ .ao rfl)
  rw [State.dropOutputs, State.eachOut_outs (g := fun _ a =>
    { a with st := if a.st == .faulted then .faulted else .idle, mismatches := 0 })]
  intro o t
  dsimp only [State.modOut]
  rw [hkept]

/-- Standby begins or ends. -/
def State.inStandby (s : State) (standby : Bool) : State := { s with power := { s.power with standby := standby } }

theorem State.cutOff_of_none {s : State} (partly : Bool) (h : s.port.tx = none) : s.cutOff partly = s := by
  rw [State.cutOff, h]

theorem State.streamDown_port (s : State) (st : Port) :
    (s.streamDown st).port.st = st ∧ (s.streamDown st).port.up = false ∧ (s.streamDown st).port.tx = none :=
  ⟨rfl, rfl, rfl⟩

/-- With no skein in flight none is cut off. -/
theorem State.streamDown_quiet {s : State} (st : Port) (h : s.port.tx = none) :
    (s.streamDown st).chain = s.chain ∧ (s.streamDown st).faults = s.faults := by
  rw [State.streamDown, State.cutOff_of_none true h]
  exact ⟨rfl, rfl⟩

theorem State.standbyEntry_of_power {s : State} (hout : s.outOfReset = true) (hstandby : s.power.standby = false)
    (hport : s.port.st ≠ .off) : s.standbyEntry = ((s.inStandby true).streamDown .standby).dropOutputs := by
  have hon : (s.inStandby true).streamStandby = (s.inStandby true).streamDown .standby := if_neg (mt beq_iff_eq.mp hport)
  rw [← hon]
  exact if_pos (by simp [hout, hstandby])

theorem State.standbyEntry_of_standby {s : State} (hstandby : s.power.standby = true) : s.standbyEntry = s :=
  if_neg (by simp [hstandby])

/-- A level of STBY_N from 1.0 µs on is taken (R97). -/
theorem exec_standbyEntry_of_taken {dt w : Nat} {s u : State} (hu : u = advance dt s) (hw : 1000000 ≤ w) :
    exec (.standbyEntry ⟨dt, w⟩) s = .next u.standbyEntry := by
  rw [exec_standbyEntry, ← hu, State.onPin_taken u .stbyN false w _ hw (by decide)]

theorem exec_standbyExit_of_taken {dt w : Nat} {s u : State} (hu : u = advance dt s) (hw : 1000000 ≤ w) :
    exec (.standbyExit ⟨dt, w⟩) s = .next u.standbyExit := by
  rw [exec_standbyExit, ← hu, State.onPin_taken u .stbyN true w _ hw (by decide)]

theorem does_standbyEntry {dt w : Nat} {s u : State} (hu : u = advance dt s) (hw : 1000000 ≤ w) (hout : u.outOfReset = true)
    (hstandby : u.power.standby = false) (hport : u.port.st ≠ .off) :
    Does (.standbyEntry ⟨dt, w⟩) s u [.chain, .port, .ao, .power, .leave, .faults] fun t =>
      t.power = { u.power with standby := true } ∧ t.port.st = .standby ∧ t.port.up = false ∧ t.port.tx = none ∧
        (u.port.tx = none → t.chain = u.chain ∧ t.faults = u.faults) ∧
        ∀ o : OutNo, (t.ao.outs.get o).st = .faulted ∨ (t.ao.outs.get o).st = .idle := by
  refine ⟨u.standbyEntry, exec_standbyEntry_of_taken hu hw, State.standbyEntry_same u, ?_⟩
  obtain ⟨hst, hup, htx⟩ := (u.inStandby true).streamDown_port .standby
  have hdrop := ((u.inStandby true).streamDown .standby).dropOutputs_same
  dsimp only
  rw [State.standbyEntry_of_power hout hstandby hport, hdrop .power rfl, hdrop .port rfl, hdrop .chain rfl, hdrop .faults rfl]
  refine ⟨(u.inStandby true).streamDown_same .standby .power rfl, hst, hup, htx,
    State.streamDown_quiet (s := u.inStandby true) .standby, fun o => ?_⟩
  rw [State.dropOutputs_out]
  split
  · exact .inl rfl
  · exact .inr rfl

theorem State.aoDown_of_open {s : State} (hstandby : s.power.standby = true)
    (hopen : ∀ o : OutNo, (s.ao.outs.get o).st ≠ .driven) :
    s.aoDown = { s with ao := { s.ao with up := false } } :=
  if_pos (by simp [hstandby, hopen])

/-- Whether the AO domain is wanted is a matter of the straps alone (R555). -/
theorem State.aoWanted_congr {s t : State} (h : t.strap = s.strap) : t.aoWanted = s.aoWanted := by
  have hstrap (u : State) : u.aoWanted = State.aoWanted { State.reset with strap := u.strap } := rfl
  rw [hstrap t, hstrap s, h]

theorem State.streamResume_of_standby {s : State} (h : s.port.st = .standby) : s.streamResume.port.st = .down := by
  rw [State.streamResume, if_pos (beq_iff_eq.mpr h)]
  rfl

theorem State.standbyExit_of_wanted {s : State} (hstandby : s.power.standby = true) (hdone : s.cal.startupDone = true)
    (hwanted : s.aoWanted = true) (hheld : s.domainHeld 9 = false) :
    s.standbyExit = State.powered 9 { (s.inStandby false).streamResume with
      ao := { (s.inStandby false).streamResume.ao with up := true } } := by
  have hresume := (s.inStandby false).streamResume_same
  have hcal : (s.inStandby false).streamResume.cal = s.cal := hresume .cal rfl
  have hao : (s.inStandby false).streamResume.aoWanted = s.aoWanted := State.aoWanted_congr (hresume .strap rfl)
  have hdown : (s.inStandby false).streamResume.domainHeld 9 = s.domainHeld 9 := by
    rw [State.domainHeld, hresume .power rfl]
    rfl
  rw [State.standbyExit, if_pos hstandby]
  refine if_pos (?_ : ((s.inStandby false).streamResume.cal.startupDone && (s.inStandby false).streamResume.aoWanted &&
    !(s.inStandby false).streamResume.domainHeld 9) = true)
  rw [hcal, hdone, hao, hwanted, hdown, hheld]
  rfl

theorem State.standbyExit_ends {s : State} (hstandby : s.power.standby = true) :
    s.standbyExit.power.standby = false ∧ s.standbyExit.port = (s.inStandby false).streamResume.port ∧
      s.standbyExit.ao.outs = s.ao.outs := by
  have hresume := (s.inStandby false).streamResume_same
  have hpower : (s.inStandby false).streamResume.power.standby = false := congrArg Power.standby (hresume .power rfl)
  have houts : (s.inStandby false).streamResume.ao.outs = s.ao.outs := congrArg AoDomain.outs (hresume .ao rfl)
  rw [State.standbyExit, if_pos hstandby]
  dsimp only
  split
  · exact ⟨hpower, rfl, houts⟩
  · exact ⟨hpower, rfl, houts⟩

theorem does_standbyExit {dt w : Nat} {s u : State} (hu : u = advance dt s) (hw : 1000000 ≤ w)
    (hstandby : u.power.standby = true) :
    Does (.standbyExit ⟨dt, w⟩) s u [.port, .ao, .power] fun t =>
      t.power.standby = false ∧ (u.port.st = .standby → t.port.st = .down) ∧
        (u.cal.startupDone = true → u.aoWanted = true → u.domainHeld 9 = false → t.ao.up = true) ∧
        t.ao.outs = u.ao.outs := by
  obtain ⟨hpower, hport, houts⟩ := State.standbyExit_ends hstandby
  refine ⟨u.standbyExit, exec_standbyExit_of_taken hu hw, State.standbyExit_same u, hpower, fun hst => ?_,
    fun hdone hwanted hheld => ?_, houts⟩
  · rw [hport]
    exact State.streamResume_of_standby (s := u.inStandby false) hst
  · rw [State.standbyExit_of_wanted hstandby hdone hwanted hheld]
    rfl

/-! ### Supply and temperature faults (R578) -/

theorem State.when_clearFault (u : State) (b : Bool) (code subj : Byte) :
    (u.when b fun t => t.clearFault code subj) =
      if b = true then { u with faults := u.faults.cleared code u.tb.time subj } else u := by
  rw [State.when, State.clearFault_eq]

theorem State.hours_eq (s : State) : s.hours = (s.clock - s.core.releasedAt) / 14400000000000000 := rfl

theorem State.forOneSecond_some (s : State) (since : Nat) :
    s.forOneSecond (some since) = decide (4000000000000 ≤ s.clock - since) := rfl

theorem State.vbatCheck_of_done {s : State} (vbat : Nat) (h : s.hours < s.power.vbatDone) : s.vbatCheck vbat = s :=
  if_neg (by simp [h])

theorem State.vbatCheck_of_due {s : State} (vbat : Nat) (hruns : s.fwRuns = true) (hdue : s.power.vbatDone ≤ s.hours) :
    s.vbatCheck vbat = { s with
      power := { s.power with vbatDone := s.hours + 1 }
      faults := if vbat < 1800 then s.faults.logged 0x86 s.tb.time 0xFF (sat32 vbat) 0 else s.faults } := by
  rw [State.vbatCheck, if_pos (by simp [hruns, hdue])]
  dsimp only
  split
  · exact State.log_eq ..
  · rfl

end Sys2Proof.Machine

open Sys2Proof Sys2Proof.Machine

/-- Settles O54: the filter of the pins, the two ends of brace and of standby, and the supply faults. -/
theorem braceAndStandby : Obligations.BraceAndStandby := by
  refine ⟨?pins, ?brace, ?standby, ?supply⟩
  case pins =>
    rintro dt w s u v hu rfl
    have hreset := hu ▸ exec_resetAssert_pin dt w s
    have hcal := hu ▸ exec_calRequest dt w s
    have hflush := hu ▸ exec_flushRequest dt w s
    have hentry := hu ▸ exec_standbyEntry dt w s
    have hexit := hu ▸ exec_standbyExit dt w s
    exact ⟨next_onPin_ignored hreset,
      fun hw => ⟨next_onPin_ignored hcal hw, next_onPin_ignored hflush hw, next_onPin_ignored hentry hw,
        next_onPin_ignored hexit hw⟩,
      next_onPin_between hreset,
      fun hlow hhigh => ⟨(next_onPin_between hcal hlow hhigh :), (next_onPin_between hflush hlow hhigh :),
        (next_onPin_between hentry hlow hhigh :), (next_onPin_between hexit hlow hhigh :)⟩⟩
  case brace =>
    rintro dt s u hu
    refine ⟨does_braceEntry hu, fun hbrace => ⟨?_, fun lowest cycles => does_braceReturn hu hbrace⟩,
      fun hbrace lowest => ?_⟩
    · rw [exec_braceEntry, ← hu, State.braceEntry_of_brace hbrace]
    · rw [exec_braceReturn, ← hu, State.braceReturn_of_no_brace lowest hbrace]
  case standby =>
    rintro dt w s u hu hw
    refine ⟨does_standbyEntry hu hw, fun hstandby => ⟨?_, fun hopen => ?_, does_standbyExit hu hw hstandby⟩⟩
    · rw [exec_standbyEntry_of_taken hu hw, State.standbyEntry_of_standby hstandby]
    · rw [exec_aoDomainPowerDown, ← hu, State.aoDown_of_open hstandby hopen]
  case supply =>
    rintro dt s u hu
    refine ⟨fun v33 vin hout hvin => ?_, ?_, fun vin hout => ?_, ?_,
      fun vbat hours hruns hhours => ⟨fun hdone => ?_, fun hdue => ?_⟩, fun since hout hhot => ?_, fun since hcool => ?_⟩
    · rw [exec_v33RangeFault, ← hu, State.when_raise]
      simp [hout, hvin]
    · rw [exec_v33RangeClear, ← hu, State.clearFault_eq]
    · rw [exec_vinOvervoltage, ← hu, State.when_raise]
      simp [hout]
    · rw [exec_vinOvervoltageClear, ← hu, State.clearFault_eq]
    · rw [← State.hours_eq] at hhours
      rw [exec_vbatCheck, ← hu, State.vbatCheck_of_done vbat (hhours ▸ hdone)]
    · rw [← State.hours_eq] at hhours
      rw [exec_vbatCheck, ← hu, State.vbatCheck_of_due vbat hruns (hhours ▸ hdue), hhours]
    · rw [exec_dieOvertemperature, ← hu, hhot, State.forOneSecond_some, hout, Bool.true_and, State.when]
      simp only [decide_eq_true_eq, State.raise_eq]
    · rw [exec_dieOvertemperatureClear, ← hu, State.when_clearFault, hcool, State.forOneSecond_some]
      simp only [decide_eq_true_eq]
end

section
/-! How stable edges qualify an absent channel (R168, R169). -/

namespace Sys2Proof.Machine
open Sys2Proof

/-- An absent channel: state 1 or 2. -/
def Channel.absent (c : Channel) : Prop := c.st = .absentDown ∨ c.st = .absentUp

/-! ### Presence of an absent channel (R169) -/

theorem State.presence_of_unstable {s : State} {n : Chan} (habsent : (s.chan.get n).absent) :
    s.presence n false = s.modChan n fun c => { c with stable := 0 } := by
  rcases habsent with hst | hst <;> simp only [State.presence, hst, Bool.not_false, if_true]

theorem State.presence_of_stable_below {s : State} {n : Chan} (habsent : (s.chan.get n).absent)
    (hbelow : (s.chan.get n).stable + 1 < 64) :
    s.presence n true = s.modChan n fun c => { c with stable := c.stable + 1 } := by
  rcases habsent with hst | hst <;>
    simp only [State.presence, hst, hbelow, Bool.not_true, Bool.false_eq_true, if_true, if_false]

theorem State.presence_of_stable_enough {s : State} {n : Chan} (habsent : (s.chan.get n).absent)
    (henough : 64 ≤ (s.chan.get n).stable + 1) :
    s.presence n true = s.modChan n fun c => { c with stable := 64, st := .qualified, fromUp := c.st == .absentUp } := by
  have hbelow : ¬(s.chan.get n).stable + 1 < 64 := Nat.not_lt.mpr henough
  rcases habsent with hst | hst <;>
    simp only [State.presence, hst, hbelow, Bool.not_true, Bool.false_eq_true, if_false]

/-- An edge on an absent channel writes the channel alone, and does not make it present. -/
theorem State.presence_absent {s : State} {n : Chan} (stable : Bool) (habsent : (s.chan.get n).absent) :
    Same [.chan] s (s.presence n stable) ∧ ((s.presence n stable).chan.get n).st ≠ .present := by
  have hnot : (s.chan.get n).st ≠ .present := by rcases habsent with hst | hst <;> rw [hst] <;> decide
  have hwrite (f : Channel → Channel) (hcount : ∀ c, (f c).count = c.count) (hyarn : ∀ c, (f c).yarn = c.yarn) :
      Same [.chan] s (s.modChan n f) :=
    Same.modChan (.inr hcount) (.inr hyarn) rfl (Same.refl _ s)
  cases stable with
  | false =>
    rw [State.presence_of_unstable habsent, State.modChan_chan, Per8.get_set_same]
    exact ⟨hwrite _ (fun _ => rfl) fun _ => rfl, hnot⟩
  | true =>
    by_cases hbelow : (s.chan.get n).stable + 1 < 64
    · rw [State.presence_of_stable_below habsent hbelow, State.modChan_chan, Per8.get_set_same]
      exact ⟨hwrite _ (fun _ => rfl) fun _ => rfl, hnot⟩
    · rw [State.presence_of_stable_enough habsent (Nat.not_lt.mp hbelow), State.modChan_chan, Per8.get_set_same]
      exact ⟨hwrite _ (fun _ => rfl) fun _ => rfl, nofun⟩

/-! ### ACTIVE_EDGE on an absent channel (R169, R197) -/

theorem State.stampEdge_of_not_present {s : State} {n : Chan} (bin : Byte) (h : (s.chan.get n).st ≠ .present) :
    s.stampEdge n bin = s := by
  have hno (full : Nat) : s.eligible n full = false := by simp [State.eligible, h]
  unfold State.stampEdge
  split
  · rw [hno, if_neg Bool.false_ne_true]
  · rfl

/-- On an absent channel an edge counts and settles presence, and is not stamped. -/
theorem does_activeEdge_of_absent {dt pulse : Nat} {pos neg : Int} {s u : State} {n : Chan} {bin : Byte} (hu : u = advance dt s)
    (hon : u.frontOn n = true) (hwide : 300 ≤ pulse) (habsent : (u.chan.get n).absent) :
    Does (.activeEdge dt n bin ⟨pulse, pos, neg⟩) s u [.chan, .counts] fun t =>
      t = (u.counted n pos neg).presence n (u.stableEdge n false pos neg) := by
  have habsent' : ((u.counted n pos neg).chan.get n).absent := by rw [State.counted_chan]; exact habsent
  obtain ⟨hsame, hst⟩ := State.presence_absent (u.stableEdge n false pos neg) habsent'
  refine ⟨_, exec_activeEdge .., ?_⟩
  rw [← hu, State.activeEdge_of_wide bin pos neg hon hwide, State.countEdge_eq, State.stampEdge_of_not_present bin hst]
  exact ⟨(State.counted_same u n pos neg).trans (hsame.mono rfl), rfl⟩

end Sys2Proof.Machine

open Sys2Proof Sys2Proof.Machine

/-- Settles O13: the edge counts, and presence takes it by whether it is stable and the 64th. -/
theorem stableEdgesQualify : Obligations.StableEdgesQualify := by
  intro dt pulse pos neg s u n bin hu hon hwide habsent
  obtain ⟨t, hexec, hsame, rfl⟩ :=
    does_activeEdge_of_absent (bin := bin) (pos := pos) (neg := neg) hu hon hwide habsent
  have hcounted := State.counted_chan u n pos neg
  have hst : ((u.counted n pos neg).chan.get n).st = (u.chan.get n).st := by rw [hcounted]
  have hstable : ((u.counted n pos neg).chan.get n).stable = (u.chan.get n).stable := by rw [hcounted]
  have habsent' : ((u.counted n pos neg).chan.get n).absent := by rw [hcounted]; exact habsent
  refine ⟨_, hexec, hsame, fun hedge hbelow => ?_, fun hedge henough => ?_, fun hedge => ?_⟩ <;> rw [hedge]
  · rw [State.presence_of_stable_below habsent' (hstable.symm ▸ hbelow), State.modChan_chan, Per8.get_set_same]
    exact ⟨hst, congrArg (· + 1) hstable⟩
  · rw [State.presence_of_stable_enough habsent' (hstable.symm ▸ henough), State.modChan_chan, Per8.get_set_same]
  · rw [State.presence_of_unstable habsent', State.modChan_chan, Per8.get_set_same]
    exact ⟨hst, rfl⟩
end

section
/-! What a loss leaves, and what follows it (R164, R175 to R178, R182, R186, R253, R556). -/

namespace Sys2Proof.Machine
open Sys2Proof

/-! ### What each command runs -/

theorem exec_channelLoss (dt : Nat) (n : Chan) (cause : LossCause) (s : State) :
    exec (.channelLoss dt n cause) s = .next ((advance dt s).channelLoss n cause) := rfl

theorem exec_lossHandling (dt : Nat) (n : Chan) (s : State) :
    exec (.lossHandling dt n) s = .next ((advance dt s).lossHandling n) := rfl

theorem exec_channelIdleTimeout (dt : Nat) (n : Chan) (s : State) :
    exec (.channelIdleTimeout dt n) s = .next ((advance dt s).idleTimeout n) := rfl

theorem exec_channelDomainPowerDown (dt : Nat) (n : Chan) (s : State) :
    exec (.channelDomainPowerDown dt n) s = .next ((advance dt s).domainDown n) := rfl

theorem exec_probeAbsentTimeout (dt : Nat) (n : Chan) (s : State) :
    exec (.probeAbsentTimeout dt n) s =
      .next ((advance dt s).when ((advance dt s).tb.epochSet && (advance dt s).declared n &&
        ((advance dt s).chan.get n).st != .present && ((advance dt s).chan.get n).st != .suspended &&
        decide (10 * Config.sec ≤ (advance dt s).clock - ((advance dt s).chan.get n).missingAt))
        fun t => t.raise 0x11 (BitVec.ofNat 8 n.val) 0 0) := rfl

theorem exec_swingOverload (dt : Nat) (n : Chan) (s : State) :
    exec (.swingOverload dt n) s =
      .next ((advance dt s).when ((advance dt s).frontOn n) fun t => t.raise 0x14 (BitVec.ofNat 8 n.val) 0 0) := rfl

theorem exec_swingOverloadClear (dt : Nat) (n : Chan) (s : State) :
    exec (.swingOverloadClear dt n) s = .next ((advance dt s).clearFault 0x14 (BitVec.ofNat 8 n.val)) := rfl

/-! ### What the statistics engine keeps over a loss (R176, R253, R261)

A loss ends the open gate and the stretch of stamping. The two latest stitches of the channel stay: what parts them from the
stitches after the loss is the number of the stretch they carry. -/

theorem State.cutSamples_cur (s : State) (n : Chan) : ((s.cutSamples n).stat.get n).cur = (s.stat.get n).cur := by
  rw [State.cutSamples, State.modStat_stat, Per8.get_set_same]

theorem State.endGate_cur (s : State) (n : Chan) (fin : Nat) (count : BitVec 48) (atYarnEnd adoption : Bool) :
    ((s.endGate n fin count atYarnEnd adoption).stat.get n).cur = (s.stat.get n).cur := by
  unfold State.endGate
  split
  · dsimp only
    rw [State.modStat_stat, Per8.get_set_same]
  · rfl

theorem State.loseChannel_stat (s : State) (n : Chan) :
    (s.loseChannel n).stat =
      ((s.stopStamping n).statYarnEnd n s.cycleNow (s.countBy n (s.clockOf s.cycleNow))).stat := by
  unfold State.loseChannel
  dsimp only
  split <;> rfl

/-- A loss leaves the latest stitch of the channel in the statistics engine. -/
theorem State.channelLoss_cur (s : State) (n : Chan) (cause : LossCause) :
    ((s.channelLoss n cause).stat.get n).cur = (s.stat.get n).cur := by
  have hlose : ((s.loseChannel n).stat.get n).cur = (s.stat.get n).cur := by
    rw [State.loseChannel_stat, State.statYarnEnd, State.cutSamples_cur, State.endGate_cur, State.stopStamping,
      State.cutSamples_cur, State.modChan_stat]
  unfold State.channelLoss
  exact (apply_ite (fun t : State => (t.stat.get n).cur) ..).trans (by rw [hlose, ite_self])

/-! ### LOSS_HANDLING (R177, R182) -/

/-- The yarn end marker of a loss (R182). -/
def LossRec.marker (r : LossRec) (n : Chan) (yarn : BitVec 16) : Item :=
  { st := .yarnEnd n r.time (r.count.setWidth 40) yarn, session := r.session, full := r.full }

/-- A loss has been told: its marker is placed and nothing of it waits any more. -/
def State.lossTold (s : State) (n : Chan) (r : LossRec) : State :=
  (s.modChan n fun c => { c with loss := none }).fwMarkerItem (r.marker n (s.chan.get n).yarn)

theorem State.lossTold_chan (s : State) (n : Chan) (r : LossRec) :
    (s.lossTold n r).chan = s.chan.set n { s.chan.get n with loss := none } := rfl

/-- With the core running the marker goes to the buffer as far as there is room (R30, R297). -/
theorem State.lossTold_chain {s : State} (n : Chan) (r : LossRec) (hruns : s.fwRuns = true) :
    (s.lossTold n r).chain =
      Chain.place { s.chain with fwWait := s.chain.fwWait ++ [r.marker n (s.chan.get n).yarn] } := if_pos hruns

theorem State.lossHandling_of_loss {u : State} {n : Chan} {r : LossRec} (hloss : (u.chan.get n).loss = some r)
    (hruns : u.fwRuns = true) (hst : (u.chan.get n).st ≠ .suspended) :
    u.lossHandling n = ((u.lossTold n r).logAt 0x12 r.time (BitVec.ofNat 8 n.val) 0 0).writeFw := by
  have hdue : (u.fwRuns && (u.chan.get n).st != .suspended) = true := by simp [hruns, hst]
  simp only [State.lossHandling, hloss, hdue, if_true]
  rfl

theorem does_lossHandling {dt : Nat} {s u : State} {n : Chan} {r : LossRec} (hu : u = advance dt s)
    (hloss : (u.chan.get n).loss = some r) (hruns : u.fwRuns = true) (hst : (u.chan.get n).st ≠ .suspended) :
    Does (.lossHandling dt n) s u [.chan, .chain, .snap, .faults] fun t =>
      OnlyChan n u t ∧ t.chan.get n = { u.chan.get n with loss := none } ∧
        t.chain = Chain.place { u.chain with fwWait := u.chain.fwWait ++
          [{ st := .yarnEnd n r.time (r.count.setWidth 40) (u.chan.get n).yarn, session := r.session, full := r.full }] } ∧
        t.faults = u.faults.logged 0x12 r.time (BitVec.ofNat 8 n.val) 0 0 := by
  refine ⟨_, exec_lossHandling .., ?_⟩
  rw [← hu]
  refine ⟨State.lossHandling_same u n, ?_⟩
  have hlogged := State.logAt_eq (u.lossTold n r) 0x12 r.time (BitVec.ofNat 8 n.val) 0 0
  have hwritten := State.writeFw_same ((u.lossTold n r).logAt 0x12 r.time (BitVec.ofNat 8 n.val) 0 0)
  rw [← State.lossHandling_of_loss hloss hruns hst] at hwritten
  have hchan : (u.lossHandling n).chan = u.chan.set n { u.chan.get n with loss := none } := hwritten .chan rfl
  refine ⟨fun m hm => ?_, ?_, ?_, ?_⟩
  · rw [hchan, Per8.get_set_ne _ _ _ _ hm]
  · rw [hchan, Per8.get_set_same]
  · exact (hwritten .chain rfl).trans (State.lossTold_chain n r hruns)
  · rw [hwritten .faults rfl, hlogged]
    rfl

/-! ### The way down (R178, R556) -/

theorem Per8.set_set {α : Type} (p : Per8 α) (n : Chan) (a b : α) : (p.set n a).set n b = p.set n b := by
  fin_cases n <;> rfl

/-- Two writes to a channel are one. -/
theorem State.modChan_modChan (s : State) (n : Chan) (f g : Channel → Channel) :
    (s.modChan n f).modChan n g = s.modChan n fun c => g (f c) := by
  simp only [State.modChan, Per8.get_set_same, Per8.set_set]

theorem State.domainDown_of_up {u : State} {n : Chan} (hup : (u.chan.get n).up = true)
    (hst : (u.chan.get n).st = .absentDown ∨ (u.chan.get n).st = .disabled) :
    u.domainDown n = if u.inPath n then u else u.modChan n fun c => { c with up := false } := by
  have hrest : ((u.chan.get n).st == .absentDown || (u.chan.get n).st == .disabled) = true := by
    rcases hst with h | h <;> rw [h] <;> rfl
  simp only [State.domainDown, hup, hrest, Bool.true_and]
  cases u.inPath n <;> rfl

theorem State.domainDown_of_down {u : State} {n : Chan} (hup : (u.chan.get n).up = false) : u.domainDown n = u := by
  simp only [State.domainDown, hup, Bool.false_and, Bool.false_eq_true, if_false]

theorem State.idleTimeout_of_early {u : State} {n : Chan} (hearly : u.clock - (u.chan.get n).absentAt < 40000000000000) :
    u.idleTimeout n = u := by
  have hnot : ¬10 * Config.sec ≤ u.clock - (u.chan.get n).absentAt := Nat.not_le.mpr hearly
  simp only [State.idleTimeout, hnot, decide_false, Bool.and_false, Bool.false_eq_true, if_false]

/-- After 10 s in state 2 the channel is in state 1, and its domain is down unless a stitch of it is on its way (R178). -/
theorem State.idleTimeout_of_due {u : State} {n : Chan} (hst : (u.chan.get n).st = .absentUp)
    (hdue : 40000000000000 ≤ u.clock - (u.chan.get n).absentAt) :
    u.idleTimeout n = u.modChan n fun c => { c with st := .absentDown, up := c.up && u.inPath n } := by
  have hlong : 10 * Config.sec ≤ u.clock - (u.chan.get n).absentAt := hdue
  rw [State.idleTimeout, if_pos (by simp [hst, hlong])]
  generalize ht : (u.modChan n fun c => { c with st := .absentDown }) = t
  have hchan : t.chan.get n = { u.chan.get n with st := .absentDown } := by rw [← ht, State.modChan_chan, Per8.get_set_same]
  have hpath : t.inPath n = u.inPath n := by
    rw [State.inPath, hchan, ← ht]
    rfl
  cases hup : (u.chan.get n).up with
  | false =>
    rw [State.domainDown_of_down (by rw [hchan, hup]), ← ht]
    simp only [State.modChan, hup, Bool.false_and]
  | true =>
    rw [State.domainDown_of_up (by rw [hchan, hup]) (.inl (by rw [hchan])), hpath, ← ht]
    cases u.inPath n with
    | true => simp only [State.modChan, hup, Bool.and_self, if_true]
    | false =>
      rw [if_neg Bool.false_ne_true, State.modChan_modChan]
      simp only [State.modChan, Bool.and_false]

end Sys2Proof.Machine

open Sys2Proof Sys2Proof.Machine

/-- Refutes O32: a loss ends the stretch of stamping and leaves the channel's latest stitch where it stands, so `cur` is not
`none` on a channel that has been stamped. -/
theorem not_lossStopsStamping : ¬ Obligations.LossStopsStamping := by
  intro h
  let stitch : StampRec :=
    { full := 64000, count := 1, angle := 0, angleState := 0, tick := 32000, isEdge := true, session := 0, yarn := 0,
      segs := .const 0 }
  let stamped : State :=
    { State.reset with
      core := { Core.reset with boot := .ready }
      chan := State.reset.chan.set 0 { Channel.reset with st := .present }
      stat := State.reset.stat.set 0 { Stat.reset with cur := some stitch } }
  have hquiet : Same [.clock, .tb, .time, .seen] stamped (advance 0 stamped) := advance_same_of_quiet 0 rfl (by decide)
  have hpresent : ((advance 0 stamped).chan.get 0).st = .present := by rw [hquiet .chan rfl]; rfl
  have hnone : ((advance 0 stamped).chan.get 0).loss = none := by rw [hquiet .chan rfl]; rfl
  obtain ⟨t, hexec, -, -, -, -, -, -, -, -, hcur, -⟩ := h 0 stamped _ 0 .swing rfl hnone (.inl hpresent) (.inl rfl)
  have hloss := Host.Outcome.next.inj ((exec_channelLoss 0 0 .swing stamped).symm.trans hexec)
  rw [← hloss, State.channelLoss_cur, hquiet .stat rfl] at hcur
  exact Option.some_ne_none stitch hcur

/-- Settles O33: the marker and the fault of a loss, the way to state 1 and down, and the faults of the inputs. -/
theorem lossesAndInputFaults : Obligations.LossesAndInputFaults := by
  refine ⟨⟨fun dt s u n r hu hloss hruns hst => does_lossHandling hu hloss hruns hst, ?idle, ?down⟩, ?inputs⟩
  case idle =>
    rintro dt s u n hu hst
    rw [exec_channelIdleTimeout, ← hu]
    exact ⟨fun hearly => by rw [State.idleTimeout_of_early hearly], fun hdue => by rw [State.idleTimeout_of_due hst hdue]; rfl⟩
  case down =>
    rintro dt s u n hu hup hst
    rw [exec_channelDomainPowerDown, ← hu, State.domainDown_of_up hup hst]
    rfl
  case inputs =>
    rintro dt s u n subj hu rfl
    refine ⟨fun hset hdeclared hpresent hsuspended => ?_, fun hon => ?_, ?_⟩
    · rw [exec_probeAbsentTimeout, ← hu, State.when_raise]
      simp [hset, hdeclared, hpresent, hsuspended, Config.sec]
    · rw [exec_swingOverload, ← hu, hon, State.when_true, State.raise_eq]
    · rw [exec_swingOverloadClear, ← hu, State.clearFault_eq]
end

section
/-! How a join begins (R170, R171, R179, R185, R486, R504): the power-up of its domain and the start of its rejoin run. -/

namespace Sys2Proof.Machine
open Sys2Proof

/-! ### What each command runs -/

theorem exec_channelStartupJoin (dt : Nat) (n : Chan) (s : State) :
    exec (.channelStartupJoin dt n) s = .next ((advance dt s).startupJoin n) := rfl

theorem exec_joinStart (dt : Nat) (n : Chan) (s : State) :
    exec (.joinStart dt n) s = .next ((advance dt s).joinStart n) := rfl

theorem exec_channelDomainReady (dt : Nat) (n : Chan) (s : State) :
    exec (.channelDomainReady dt n) s = .next ((advance dt s).domainReady n) := rfl

/-! ### Rules for the one channel an operation writes -/

theorem OnlyChan.refl (n : Chan) (s : State) : OnlyChan n s s := fun _ _ => rfl

theorem OnlyChan.ite {c : Prop} {_ : Decidable c} {n : Chan} {s t u : State} (ht : OnlyChan n s t) (hu : OnlyChan n s u) :
    OnlyChan n s (if c then t else u) := by
  split
  · exact ht
  · exact hu

/-- What follows and leaves the channels alone. -/
theorem OnlyChan.step {ps : List Part} {n : Chan} {s t u : State} (h' : Same ps t u) (hps : ps.contains .chan = false)
    (h : OnlyChan n s t) : OnlyChan n s u := h.trans (.of_same h' hps)

theorem OnlyChan.of_set {n : Chan} {s t : State} {c : Channel} (h : t.chan = s.chan.set n c) : OnlyChan n s t :=
  fun m hm => by rw [h, Per8.get_set_ne _ _ _ _ hm]

/-! ### A rejoin run begins, or waits for the PLL (R486, R504) -/

theorem State.rejoinDue_iff {s : State} {n : Chan} :
    s.rejoinDue n = true ↔
      s.fwRuns = true ∧ s.leave.holding = some (.join n) ∧ (s.chan.get n).st = .joining ∧ s.cal.run = none := by
  simp only [State.rejoinDue, Bool.and_eq_true, State.holds_iff, beq_iff_eq, Option.isNone_iff_eq_none, and_assoc]

theorem State.startRejoin_of_locked {s : State} (n : Chan) (hlocked : s.tb.locked = true) :
    s.startRejoin n = s.beginRejoin n := if_pos hlocked

theorem State.startRejoin_of_unlocked {s : State} (n : Chan) (hlocked : s.tb.locked = false) :
    s.startRejoin n = { s with cal := { s.cal with joinWaits := some n } } := if_neg (Bool.eq_false_iff.mp hlocked)

theorem State.startRejoin_onlyChan (s : State) (n : Chan) : OnlyChan n s (s.startRejoin n) :=
  OnlyChan.ite (State.beginRejoin_suspends s n).1 (OnlyChan.refl n s)

theorem State.beginRejoin_chan (s : State) (n : Chan) :
    (s.beginRejoin n).chan.get n =
      { s.chan.get n with susp := some (s.cycleNow, s.countBy n (s.clockOf s.cycleNow)) } := Per8.get_set_same ..

/-! ### CHANNEL_STARTUP_JOIN and JOIN_START (R170, R179, R486) -/

theorem State.startupJoin_of_held {s : State} {n : Chan} (hruns : s.fwRuns = true) (hboot : s.core.boot = .chans)
    (hheld : s.leave.holding = some (.startupPower n)) (hst : (s.chan.get n).st = .joining)
    (hjoin : (s.chan.get n).startJoin = true) (hsettling : (s.chan.get n).settling = false)
    (hdomain : s.domainHeld n.val = false) : s.startupJoin n = s.powerJoin n := by
  simp [State.startupJoin, State.holds, hruns, hboot, hheld, hst, hjoin, hsettling, hdomain]

theorem State.startupJoin_onlyChan (s : State) (n : Chan) : OnlyChan n s (s.startupJoin n) :=
  OnlyChan.ite (State.modChan_onlyChan s n _) (OnlyChan.refl n s)

/-- A join whose hold has begun and whose domain stands ready to power begins with its domain or with its run. -/
theorem State.joinStart_of_held {s : State} {n : Chan} (hdue : s.rejoinDue n = true) (hwaits : s.cal.joinWaits ≠ some n)
    (hsettling : (s.chan.get n).settling = false) (hdomain : s.domainHeld n.val = false) :
    s.joinStart n = if (s.chan.get n).up then s.startRejoin n else s.powerJoin n := by
  obtain ⟨-, -, -, hrun⟩ := State.rejoinDue_iff.mp hdue
  have hunder : s.underWay (.join n) = false := by simp [State.underWay, hsettling, hwaits, hrun]
  simp only [State.joinStart, hdue, hunder, hdomain, Bool.not_false, Bool.and_self, if_true]

theorem State.joinStart_of_not_held {s : State} {n : Chan} (hheld : s.leave.holding ≠ some (.join n)) : s.joinStart n = s := by
  have hdue : s.rejoinDue n = false := Bool.eq_false_iff.mpr fun hdue => hheld (State.rejoinDue_iff.mp hdue).2.1
  simp only [State.joinStart, hdue, Bool.false_and, Bool.false_eq_true, if_false]

theorem State.joinStart_onlyChan (s : State) (n : Chan) : OnlyChan n s (s.joinStart n) :=
  OnlyChan.ite (OnlyChan.ite (State.startRejoin_onlyChan s n) (State.modChan_onlyChan s n _)) (OnlyChan.refl n s)

/-- The rejoin run of a join whose domain is up begins with its hold once the PLL is locked. -/
theorem does_joinStart_of_up {dt : Nat} {s u : State} {n : Chan} (hu : u = advance dt s) (hdue : u.rejoinDue n = true)
    (hwaits : u.cal.joinWaits ≠ some n) (hsettling : (u.chan.get n).settling = false) (hdomain : u.domainHeld n.val = false)
    (hup : (u.chan.get n).up = true) (hlocked : u.tb.locked = true) :
    Does (.joinStart dt n) s u [.chan, .cal] fun t =>
      (t.chan.get n).st = .joining ∧ (t.chan.get n).susp.isSome = true ∧ OnlyChan n u t ∧
        t.cal.run.map (fun r => (r.rejoin, r.trigger, r.startClock)) = some (some n, .join, u.clock) := by
  refine ⟨_, exec_joinStart .., ?_⟩
  rw [← hu]
  refine ⟨State.joinStart_same u n, ?_⟩
  obtain ⟨honly, hsusp, hrun⟩ := State.beginRejoin_suspends u n
  obtain ⟨-, -, hst, -⟩ := State.rejoinDue_iff.mp hdue
  rw [State.joinStart_of_held hdue hwaits hsettling hdomain, if_pos hup, State.startRejoin_of_locked n hlocked]
  exact ⟨by rw [State.beginRejoin_chan, hst], hsusp, honly, hrun⟩

/-! ### CHANNEL_DOMAIN_READY (R170, R171, R179, R504) -/

/-- The channel's domain has settled. -/
def State.settled (s : State) (n : Chan) : State := s.modChan n fun c => { c with settling := false }

theorem State.settled_chan (s : State) (n : Chan) : (s.settled n).chan.get n = { s.chan.get n with settling := false } :=
  Per8.get_set_same ..

theorem State.settled_onlyChan (s : State) (n : Chan) : OnlyChan n s (s.settled n) := State.modChan_onlyChan s n _

theorem State.domainReady_of_idle {s : State} {n : Chan} (hsettling : (s.chan.get n).settling = false) : s.domainReady n = s := by
  simp only [State.domainReady, hsettling, Bool.not_false, Bool.true_or, if_true]

theorem State.domainReady_of_startup {s : State} {n : Chan} (hsettling : (s.chan.get n).settling = true)
    (hlate : s.sched.late = []) (hheld : s.leave.holding = some (.startupPower n)) (hst : (s.chan.get n).st = .joining) :
    s.domainReady n = ((s.settled n).releaseFor (.startupPower n)).settleBoot := by
  simp only [State.domainReady, hsettling, hlate, State.holds_iff.mpr hheld, hst, beq_self_eq_true, List.contains_nil, Bool.not_true,
    Bool.or_self, Bool.false_eq_true, Bool.and_self, if_true, if_false]
  rfl

theorem State.domainReady_of_join {s : State} {n : Chan} (hsettling : (s.chan.get n).settling = true)
    (hlate : s.sched.late = []) (hdue : s.rejoinDue n = true) : s.domainReady n = s.later (.rejoin n) := by
  obtain ⟨-, hheld, -, -⟩ := State.rejoinDue_iff.mp hdue
  have hother : s.holds (.startupPower n) = false := by simp [State.holds, hheld]
  simp only [State.domainReady, hsettling, hlate, hother, hdue, List.contains_nil, Bool.not_true, Bool.or_self, Bool.false_eq_true,
    Bool.false_and, if_true, if_false]

theorem State.domainReady_onlyChan (s : State) (n : Chan) : OnlyChan n s (s.domainReady n) := by
  have hsettled := s.settled_onlyChan n
  have hreleased (op : HeavyOp) : OnlyChan n s ((s.settled n).releaseFor op) := hsettled.step (State.releaseFor_same _ op) rfl
  exact OnlyChan.ite (OnlyChan.refl n s) (OnlyChan.ite ((hreleased _).step (State.settleBoot_same _) rfl)
    (OnlyChan.ite (OnlyChan.refl n s) (OnlyChan.ite hsettled (hreleased _))))

/-- At start-up the hold ends with the power-up (R179). -/
theorem does_channelDomainReady_of_startup {dt : Nat} {s u : State} {n : Chan} (hu : u = advance dt s)
    (hsettling : (u.chan.get n).settling = true) (hlate : u.sched.late = [])
    (hheld : u.leave.holding = some (.startupPower n)) (hst : (u.chan.get n).st = .joining) :
    Does (.channelDomainReady dt n) s u [.chan, .leave, .core, .cal] fun t =>
      t.leave.holding = none ∧ (t.chan.get n).settling = false ∧ OnlyChan n u t := by
  have hready := State.domainReady_of_startup hsettling hlate hheld hst
  have hboot := State.settleBoot_same ((u.settled n).releaseFor (.startupPower n))
  have hreleased := State.releaseFor_same (u.settled n) (.startupPower n)
  have hsettled : Same [.chan] u (u.settled n) := Same.modChan (.inr fun _ => rfl) (.inr fun _ => rfl) rfl (Same.refl _ u)
  refine ⟨_, exec_channelDomainReady .., ?_⟩
  rw [← hu]
  refine ⟨?_, ?_, ?_, State.domainReady_onlyChan u n⟩ <;> rw [hready]
  · exact Same.step hboot rfl (Same.step hreleased rfl (hsettled.mono rfl))
  · rw [hboot .leave rfl]
    exact State.releaseFor_holding_none hheld
  · rw [hboot .chan rfl, hreleased .chan rfl, State.settled_chan]

end Sys2Proof.Machine
end

section
/-! The cycle after the domain of a join has settled (R504): its rejoin run begins as time passes. -/

namespace Sys2Proof.Machine
open Sys2Proof

/-- With no stitch on its way time passes and nothing else comes about. -/
theorem State.flow_of_no_flights {s : State} (dt : Nat) (hflights : ∀ n : Chan, (s.chan.get n).flights = []) :
    s.flow dt = State.pass dt s := by
  have htaken (k : Nat) : s.takeCaptures k = s := by
    have hchan : s.chan.map (fun c => { c with flights := c.flights.map (s.capturedIn k) }) = s.chan :=
      Per8.map_same _ _ fun n => by rw [hflights n, List.map_nil, ← hflights n]
    rw [State.takeCaptures, hchan]
  have hnone : (State.pass dt s).inFlight = 0 := by simp [State.inFlight, hflights, Chan.all]
  simp only [State.flow, htaken, ite_self, State.settleAll, hnone, State.settle]

/-- The next cycle begins after now. -/
theorem State.clock_add_toNext (s : State) : s.clock + s.toNext = s.cycleFrom (s.cycle + 1) := by
  have hlater : s.clock ≤ s.cycleFrom (s.cycle + 1) := by
    simp only [State.cycleFrom, State.cycle, State.cycleAt, Config.cycle]
    omega
  exact Nat.add_sub_of_le hlater

/-- The state as the next cycle begins, with what waited for it taken out. -/
def State.atNextCycle (s : State) : State :=
  { State.pass s.toNext s with sched := { s.sched with late := [] } }

theorem State.rejoinAtNextCycle_onlyChan (s : State) (n : Chan) : OnlyChan n s ((s.atNextCycle.settled n).beginRejoin n) :=
  OnlyChan.trans (s := s) (s.atNextCycle.settled_onlyChan n) (State.beginRejoin_suspends _ n).1

/-- The rejoin run that waited for the cycle begins there, and the rest of the time passes. -/
theorem advance_of_rejoin {s : State} {n : Chan} {dt : Nat} (hlate : s.sched.late = [.rejoin n])
    (hflights : ∀ m : Chan, (s.chan.get m).flights = []) (hdt : s.toNext ≤ dt) (hdue : s.rejoinDue n = true)
    (hlocked : s.tb.locked = true) :
    advance dt s = State.pass (dt - s.toNext) ((s.atNextCycle.settled n).beginRejoin n) := by
  have hwait : (s.sched.late.isEmpty || decide (dt < s.toNext)) = false := by simp [hlate, Nat.not_lt.mpr hdt]
  have hland : (State.pass s.toNext s).landLate = State.landOne s.atNextCycle (.rejoin n) := by
    simp only [State.landLate, State.pass_sched, hlate, List.foldl_cons, List.foldl_nil, State.atNextCycle]
  have hsettled : (s.settled n).rejoinDue n = true := by
    rw [State.rejoinDue_iff] at hdue ⊢
    obtain ⟨hruns, hheld, hst, hrun⟩ := hdue
    exact ⟨hruns, hheld, by rw [State.settled_chan, hst], hrun⟩
  have hdue' : (s.atNextCycle.settled n).rejoinDue n = true := hsettled
  have hlocked' : (s.atNextCycle.settled n).tb.locked = true := by
    show (if s.tb.epochSet then s.tb.move s.toNext else s.tb).locked = true
    split <;> exact hlocked
  have hbegun : State.landOne s.atNextCycle (.rejoin n) = (s.atNextCycle.settled n).beginRejoin n := by
    rw [← State.startRejoin_of_locked n hlocked']
    exact if_pos hdue'
  have hnone (m : Chan) : (((s.atNextCycle.settled n).beginRejoin n).chan.get m).flights = [] := by
    by_cases hm : m = n
    · subst hm
      rw [State.beginRejoin_chan, State.settled_chan]
      exact hflights m
    · rw [s.rejoinAtNextCycle_onlyChan n m hm, hflights m]
  rw [advance, hwait, if_neg Bool.false_ne_true, State.flow_of_no_flights _ hflights, hland, hbegun,
    State.flow_of_no_flights _ hnone]

/-- The rejoin run has begun with the cycle, in its channel alone. -/
theorem advance_begins_rejoin {s : State} {n : Chan} {dt : Nat} (hlate : s.sched.late = [.rejoin n])
    (hflights : ∀ m : Chan, (s.chan.get m).flights = []) (hdt : s.toNext ≤ dt) (hdue : s.rejoinDue n = true)
    (hlocked : s.tb.locked = true) :
    (advance dt s).sched.late = [] ∧ OnlyChan n s (advance dt s) ∧ ((advance dt s).chan.get n).settling = false ∧
      ((advance dt s).chan.get n).susp.isSome = true ∧
      (advance dt s).cal.run.map (fun r => (r.rejoin, r.trigger, r.startClock)) =
        some (some n, .join, s.cycleFrom (s.cycle + 1)) := by
  obtain ⟨-, hsusp, hrun⟩ := State.beginRejoin_suspends (s.atNextCycle.settled n) n
  rw [advance_of_rejoin hlate hflights hdt hdue hlocked, State.pass_chan, ← State.clock_add_toNext]
  refine ⟨rfl, s.rejoinAtNextCycle_onlyChan n, ?_, hsusp, hrun⟩
  rw [State.beginRejoin_chan, State.settled_chan]

end Sys2Proof.Machine
end

section
/-! How a join ends (R170, R174, R181 to R185, R503, R504): the rejoin run's result, the channel's new yarn or its way back to
state 2. -/

namespace Sys2Proof.Machine
open Sys2Proof

theorem exec_rejoinRunEnd (dt : Nat) (n : Chan) (m : ChanMeas) (temp : Int) (s : State) :
    exec (.rejoinRunEnd dt n m temp) s = .next ((advance dt s).rejoinRunEnd n m temp) := rfl

/-! ### The channel and the marker of a new yarn (R181 to R184, R207, R208) -/

/-- A marker of the firmware is the last of those placed and waiting. -/
theorem State.fwMarkerItem_waiting (s : State) (i : Item) :
    (s.fwMarkerItem i).chain.buffer ++ (s.fwMarkerItem i).chain.fwWait = s.chain.buffer ++ s.chain.fwWait ++ [i] := by
  rw [State.fwMarkerItem, List.append_assoc]
  dsimp only
  split
  · exact Chain.place_waiting _
  · rfl

/-- The start marker of the yarn that a channel starts at an instant. -/
def State.yarnStartItem (s : State) (n : Chan) (inst : Nat) : Item :=
  { st := .yarnStart n (BitVec.ofNat 64 inst) ((s.countBy n (s.clockOf inst)).setWidth 40) ((s.chan.get n).yarn + 1)
    session := s.tb.session, full := inst }

/-- The yarn has its number, its mirror and its marker; the statistics and the channel's state follow. -/
def State.yarnTold (s : State) (n : Chan) (inst : Nat) : State :=
  (s.modChan n fun c =>
    { c with yarn := c.yarn + 1, mirror := some (s.yarnStartItem n inst).st, mirrorNext := [] }).fwMarkerItem (s.yarnStartItem n inst)

theorem State.startYarn_eq (s : State) (n : Chan) (inst : Nat) :
    s.startYarn n inst =
      ((s.yarnTold n inst).statYarnStart n inst (s.countBy n (s.clockOf inst))).enterPresent n inst := rfl

theorem State.yarnTold_chan (s : State) (n : Chan) (inst : Nat) :
    (s.yarnTold n inst).chan = s.chan.set n { s.chan.get n with
      yarn := (s.chan.get n).yarn + 1, mirror := some (s.yarnStartItem n inst).st, mirrorNext := [] } := rfl

theorem State.enterPresent_chan (s : State) (n : Chan) (inst : Nat) :
    (s.enterPresent n inst).chan = s.chan.set n { s.chan.get n with
      st := .present, pending := false, tickStamped := false, tickSlots := [], presentAt := inst, startJoin := false
      settling := false } := by
  rw [State.enterPresent, State.clearFault_eq]
  rfl

/-- The channel of a yarn that starts is in state 5 with the next yarn number and no tick pending. -/
theorem State.startYarn_chan (s : State) (n : Chan) (inst : Nat) :
    (s.startYarn n inst).chan = s.chan.set n { s.chan.get n with
      yarn := (s.chan.get n).yarn + 1, mirror := some (s.yarnStartItem n inst).st, mirrorNext := [], st := .present
      pending := false, tickStamped := false, tickSlots := [], presentAt := inst, startJoin := false, settling := false } := by
  have hstat := State.statYarnStart_same (s.yarnTold n inst) n inst (s.countBy n (s.clockOf inst))
  rw [State.startYarn_eq, State.enterPresent_chan, hstat .chan rfl, State.yarnTold_chan, Per8.get_set_same, Per8.set_set]

/-- A channel that starts a yarn has no fault 0x11 (R164). -/
theorem State.startYarn_faultActive (s : State) (n : Chan) (inst : Nat) :
    (s.startYarn n inst).faultActive 0x11 (BitVec.ofNat 8 n.val) = false := by
  rw [State.startYarn_eq, State.enterPresent, State.clearFault_eq]
  exact Faults.cleared_active ..

theorem State.startYarn_marker (s : State) (n : Chan) (inst : Nat) :
    s.yarnStartItem n inst ∈ (s.startYarn n inst).chain.buffer ++ (s.startYarn n inst).chain.fwWait := by
  have hstat := State.statYarnStart_same (s.yarnTold n inst) n inst (s.countBy n (s.clockOf inst))
  have hchain : (s.startYarn n inst).chain = (s.yarnTold n inst).chain := by
    rw [State.startYarn_eq, State.enterPresent_same _ n inst .chain rfl]
    exact hstat .chain rfl
  rw [hchain, State.yarnTold, State.fwMarkerItem_waiting]
  exact List.mem_append_right _ (List.mem_singleton.mpr rfl)

/-! ### The suspension ends (R337, R338) -/

/-- With its gap markers the channel's suspension is over, and nothing else of a channel changes. -/
theorem State.gapMarkers_chan (s : State) (n : Chan) (rejoin : Bool) (inst : Nat) :
    (s.gapMarkers n rejoin inst).chan = s.chan.set n { s.chan.get n with susp := none } := by
  unfold State.gapMarkers
  split
  · rfl
  · rename_i hsusp
    rw [← hsusp, Per8.set_get]

/-! ### REJOIN_RUN_END (R170, R174, R503, R504) -/

/-- The result of a rejoin run has been stored: its set is in use and its report waits. -/
def State.rejoinStored (s : State) (r : Run) (n : Chan) (m : ChanMeas) (temp : Int) : State :=
  let res := s.rejoinResult r n m temp
  let t := (s.judgeCells n m).useSet res.set
  { t with cal := { t.cal with
    run := none, results := t.cal.results ++ [res], lastTemp := some temp, lastEndTime := res.endTime, lastDie := temp } }

/-- The suspension of a rejoin run is over: LEAVE is released and the gap markers stand. -/
def State.rejoinOver (s : State) (r : Run) (n : Chan) (m : ChanMeas) (temp : Int) : State :=
  ((s.rejoinStored r n m temp).releaseFor (.join n)).gapMarkers n true s.cycleNow

/-- What a rejoin run that ends leads to: a new yarn after 64 stable edges, state 2 with fault 0x16 otherwise. -/
theorem State.rejoinRunEnd_of_run {s : State} {r : Run} {n : Chan} (m : ChanMeas) (temp : Int) (hrun : s.cal.run = some r)
    (hrejoin : r.rejoin = some n) (hruns : s.fwRuns = true) :
    s.rejoinRunEnd n m temp =
      if 64 ≤ (s.chan.get n).stable then (s.rejoinOver r n m temp).startYarn n s.cycleNow
      else ((s.rejoinOver r n m temp).goAbsentUp n).log 0x16 (BitVec.ofNat 8 n.val) 0 0 := by
  have hgo : ¬(r.rejoin ≠ some n ∨ (!s.fwRuns) = true) := by simp [hrejoin, hruns]
  simp only [State.rejoinRunEnd, hrun, if_neg hgo]
  rfl

/-- With no rejoin run of the channel in progress REJOIN_RUN_END does nothing. -/
theorem State.rejoinRunEnd_of_no_run {s : State} {n : Chan} (m : ChanMeas) (temp : Int)
    (h : ∀ r : Run, s.cal.run = some r → r.rejoin = some n → s.fwRuns = false) : s.rejoinRunEnd n m temp = s := by
  unfold State.rejoinRunEnd
  split
  · rename_i r hrun
    refine if_pos (or_iff_not_imp_left.mpr fun hrejoin => ?_)
    rw [h r hrun (not_not.mp hrejoin)]
    rfl
  · rfl

section Over
variable (s : State) (r : Run) (n : Chan) (m : ChanMeas) (temp : Int)

theorem State.rejoinStored_same : Same [.ao, .cal, .faults] s (s.rejoinStored r n m temp) :=
  Same.upd_cal rfl (Same.step (State.useSet_same _ _) rfl (Same.step (State.judgeCells_same s n m) rfl (Same.refl _ s)))

theorem State.rejoinOver_same : Same [.chan, .chain, .ao, .cal, .leave, .faults] s (s.rejoinOver r n m temp) :=
  Same.step (State.gapMarkers_same _ _ _ _) rfl
    (Same.step (State.releaseFor_same _ _) rfl (Same.mono (s.rejoinStored_same r n m temp) rfl))

theorem State.rejoinOver_chan :
    (s.rejoinOver r n m temp).chan = s.chan.set n { s.chan.get n with susp := none } := by
  rw [State.rejoinOver, State.gapMarkers_chan, State.releaseFor_same _ _ .chan rfl, s.rejoinStored_same r n m temp .chan rfl]

/-- The run is stored with its temperature, and the banks of the working correction set are swapped (R193, R510). -/
theorem State.rejoinOver_cal :
    (s.rejoinOver r n m temp).cal.run = none ∧ (s.rejoinOver r n m temp).cal.lastDie = temp ∧
      (s.rejoinOver r n m temp).cal.bank = !s.cal.bank ∧
      (s.rejoinOver r n m temp).cal.results.length = s.cal.results.length + 1 := by
  have hcal : (s.rejoinOver r n m temp).cal = (s.rejoinStored r n m temp).cal :=
    (State.gapMarkers_same _ _ _ _ .cal rfl).trans (State.releaseFor_same _ _ .cal rfl)
  have hstored : (s.rejoinStored r n m temp).cal.bank = !(s.judgeCells n m).cal.bank ∧
      (s.rejoinStored r n m temp).cal.results = (s.judgeCells n m).cal.results ++ [s.rejoinResult r n m temp] := ⟨rfl, rfl⟩
  obtain ⟨hbank, hresults⟩ := hstored
  rw [State.judgeCells_same s n m .cal rfl] at hbank hresults
  rw [hcal]
  exact ⟨rfl, rfl, hbank, by rw [hresults, List.length_append]; rfl⟩

theorem State.rejoinOver_leave (hheld : s.leave.holding = some (.join n)) :
    (s.rejoinOver r n m temp).leave.holding = none := by
  rw [State.rejoinOver, State.gapMarkers_same _ _ _ _ .leave rfl]
  exact State.releaseFor_holding_none ((congrArg (·.holding) (s.rejoinStored_same r n m temp .leave rfl)).trans hheld)

/-- The marker of the yarn that follows is that of the channel as it stood. -/
theorem State.rejoinOver_yarnStart (inst : Nat) :
    ((s.rejoinOver r n m temp).yarnStartItem n inst).st = (s.yarnStartItem n inst).st := by
  have hsame := s.rejoinOver_same r n m temp
  have hclock : (s.rejoinOver r n m temp).clock = s.clock := hsame .clock rfl
  have htb : (s.rejoinOver r n m temp).tb = s.tb := hsame .tb rfl
  simp only [State.yarnStartItem, State.countBy, State.clockOf, State.full, State.rejoinOver_chan, Per8.get_set_same, hclock, htb]
  rfl

end Over

theorem State.rejoinRunEnd_onlyChan (s : State) (n : Chan) (m : ChanMeas) (temp : Int) : OnlyChan n s (s.rejoinRunEnd n m temp) := by
  by_cases h : ∀ r : Run, s.cal.run = some r → r.rejoin = some n → s.fwRuns = false
  · rw [State.rejoinRunEnd_of_no_run m temp h]
    exact OnlyChan.refl n s
  · push Not at h
    obtain ⟨r, hrun, hrejoin, hruns⟩ := h
    have hover : OnlyChan n s (s.rejoinOver r n m temp) := OnlyChan.of_set (s.rejoinOver_chan r n m temp)
    rw [State.rejoinRunEnd_of_run m temp hrun hrejoin (Bool.eq_true_of_not_eq_false hruns)]
    exact OnlyChan.ite (hover.trans (OnlyChan.of_set (State.startYarn_chan _ n _)))
      (OnlyChan.step (State.log_same _ _ _ _ _) rfl (hover.trans (State.modChan_onlyChan _ n _)))

/-- After either end of a rejoin run LEAVE is free and the run stored. -/
theorem State.rejoinRunEnd_stored {s : State} {r : Run} {n : Chan} (m : ChanMeas) (temp : Int) (hrun : s.cal.run = some r)
    (hrejoin : r.rejoin = some n) (hruns : s.fwRuns = true) (hheld : s.leave.holding = some (.join n)) :
    (s.rejoinRunEnd n m temp).leave.holding = none ∧ (s.rejoinRunEnd n m temp).cal.run = none ∧
      (s.rejoinRunEnd n m temp).cal.lastDie = temp ∧ (s.rejoinRunEnd n m temp).cal.bank = !s.cal.bank ∧
      (s.rejoinRunEnd n m temp).cal.results.length = s.cal.results.length + 1 := by
  have hafter : Same [.chan, .yarns, .stat, .chain, .faults] (s.rejoinOver r n m temp) (s.rejoinRunEnd n m temp) := by
    rw [State.rejoinRunEnd_of_run m temp hrun hrejoin hruns]
    exact Same.ite (State.startYarn_same _ n _)
      (Same.step (State.log_same _ _ _ _ _) rfl (Same.mono (State.goAbsentUp_same _ n) rfl))
  rw [hafter .leave rfl, hafter .cal rfl]
  exact ⟨State.rejoinOver_leave s r n m temp hheld, State.rejoinOver_cal s r n m temp⟩

/-- A channel with 64 stable edges starts its next yarn (R181 to R184). -/
theorem State.rejoinRunEnd_of_stable {s : State} {r : Run} {n : Chan} (m : ChanMeas) (temp : Int) (hrun : s.cal.run = some r)
    (hrejoin : r.rejoin = some n) (hruns : s.fwRuns = true) (hstable : 64 ≤ (s.chan.get n).stable) :
    ((s.rejoinRunEnd n m temp).chan.get n).st = .present ∧
      ((s.rejoinRunEnd n m temp).chan.get n).yarn = (s.chan.get n).yarn + 1 ∧
      ((s.rejoinRunEnd n m temp).chan.get n).pending = false ∧
      (s.rejoinRunEnd n m temp).faultActive 0x11 (BitVec.ofNat 8 n.val) = false ∧
      ∃ i ∈ (s.rejoinRunEnd n m temp).chain.buffer ++ (s.rejoinRunEnd n m temp).chain.fwWait,
        i.st = (s.yarnStartItem n s.cycleNow).st := by
  rw [State.rejoinRunEnd_of_run m temp hrun hrejoin hruns, if_pos hstable]
  rw [State.startYarn_chan, Per8.get_set_same, State.rejoinOver_chan, Per8.get_set_same]
  exact ⟨rfl, rfl, rfl, State.startYarn_faultActive _ n _, _, State.startYarn_marker _ n _,
    State.rejoinOver_yarnStart s r n m temp _⟩

/-- One with fewer goes to state 2 with fault 0x16 (R174). -/
theorem State.rejoinRunEnd_of_unstable {s : State} {r : Run} {n : Chan} (m : ChanMeas) (temp : Int) (hrun : s.cal.run = some r)
    (hrejoin : r.rejoin = some n) (hruns : s.fwRuns = true) (hstable : (s.chan.get n).stable < 64) :
    ((s.rejoinRunEnd n m temp).chan.get n).st = .absentUp ∧
      ((s.rejoinRunEnd n m temp).chan.get n).yarn = (s.chan.get n).yarn ∧ (s.rejoinRunEnd n m temp).faults.last = 0x16 := by
  rw [State.rejoinRunEnd_of_run m temp hrun hrejoin hruns, if_neg (Nat.not_le.mpr hstable), State.log_eq]
  have hchan : ((s.rejoinOver r n m temp).goAbsentUp n).chan.get n =
      { (s.rejoinOver r n m temp).chan.get n with
        st := .absentUp, absentAt := (s.rejoinOver r n m temp).clock, stable := 0, startJoin := false, settling := false } :=
    Per8.get_set_same ..
  dsimp only
  rw [hchan, State.rejoinOver_chan, Per8.get_set_same]
  exact ⟨rfl, rfl, rfl⟩

end Sys2Proof.Machine

open Sys2Proof Sys2Proof.Machine

/-- Settles O30: each command of a join writes no channel but its own. -/
theorem joinsTouchOneChannel : Obligations.JoinsTouchOneChannel := by
  rintro dt s t n m temp i (rfl | rfl | rfl | rfl) hexec
  · rw [← Host.Outcome.next.inj ((exec_joinStart dt n s).symm.trans hexec)]
    exact State.joinStart_onlyChan _ n
  · rw [← Host.Outcome.next.inj ((exec_channelDomainReady dt n s).symm.trans hexec)]
    exact State.domainReady_onlyChan _ n
  · rw [← Host.Outcome.next.inj ((exec_rejoinRunEnd dt n m temp s).symm.trans hexec)]
    exact State.rejoinRunEnd_onlyChan _ n m temp
  · rw [← Host.Outcome.next.inj ((exec_channelStartupJoin dt n s).symm.trans hexec)]
    exact State.startupJoin_onlyChan _ n

/-- Settles O31: how a join begins under either hold and in the cycle after its domain has settled, and its two ends. -/
theorem joinsRun : Obligations.JoinsRun := by
  refine ⟨⟨fun dt s u n hu hruns hst => ⟨?startup, fun hheld hrun hwaits hsettling hdomain => ?join, ?notHeld, ?ready, ?idle⟩, ?nextCycle⟩,
    ?ends⟩
  case startup =>
    intro hboot hheld hjoin hsettling hdomain
    rw [exec_channelStartupJoin, ← hu, State.startupJoin_of_held hruns hboot hheld hst hjoin hsettling hdomain]
    rfl
  case join =>
    have hdue : u.rejoinDue n = true := State.rejoinDue_iff.mpr ⟨hruns, hheld, hst, hrun⟩
    have hstart := State.joinStart_of_held hdue hwaits hsettling hdomain
    refine ⟨fun hup => ?_, fun hup hlocked => does_joinStart_of_up hu hdue hwaits hsettling hdomain hup hlocked,
      fun hup hlocked => ?_⟩ <;> rw [exec_joinStart, ← hu, hstart, hup]
    · rfl
    · rw [if_pos rfl, State.startRejoin_of_unlocked n hlocked]
  case notHeld =>
    intro hheld
    rw [exec_joinStart, ← hu, State.joinStart_of_not_held hheld]
  case ready =>
    intro hsettling hlate
    refine ⟨fun hheld => does_channelDomainReady_of_startup hu hsettling hlate hheld hst, fun hheld hrun => ?_⟩
    rw [exec_channelDomainReady, ← hu,
      State.domainReady_of_join hsettling hlate (State.rejoinDue_iff.mpr ⟨hruns, hheld, hst, hrun⟩), State.later, hlate]
    rfl
  case idle =>
    intro hsettling
    rw [exec_channelDomainReady, ← hu, State.domainReady_of_idle hsettling]
  case nextCycle =>
    intro dt s n hlate hflights hdt hruns hheld hst hrun hlocked
    exact ⟨_, rfl, advance_begins_rejoin hlate hflights hdt (State.rejoinDue_iff.mpr ⟨hruns, hheld, hst, hrun⟩) hlocked⟩
  case ends =>
    rintro dt s u n m temp r rfl hruns hrun hrejoin hheld
    have hsame := State.rejoinRunEnd_same (advance dt s) n m temp
    obtain ⟨hnone, hover, hdie, hbank, hresults⟩ := State.rejoinRunEnd_stored m temp hrun hrejoin hruns hheld
    exact ⟨_, exec_rejoinRunEnd .., hsame, hnone, hover, hdie, hbank, hresults, hsame .counts rfl n,
      fun hstable => State.rejoinRunEnd_of_stable m temp hrun hrejoin hruns hstable,
      fun hstable => State.rejoinRunEnd_of_unstable m temp hrun hrejoin hruns hstable⟩
end

section
/-! Thresholds and peaks (R158, R160, R161, R163), the swap of the working correction set (R192, R193) and the temperatures
(R381, R648, R649). -/

namespace Sys2Proof.Machine
open Sys2Proof

/-! ### What each command runs -/

theorem exec_autoLevelUpdate (dt : Nat) (n : Chan) (pos neg : Int) (s : State) :
    exec (.autoLevelUpdate dt n pos neg) s = .next ((advance dt s).autoLevelUpdate n pos neg) := rfl

theorem exec_peakReport (dt : Nat) (n : Chan) (pos neg : Int) (s : State) :
    exec (.peakReport dt n pos neg) s = .next ((advance dt s).peakReport n pos neg) := rfl

theorem exec_workingSetRebuild (dt : Nat) (s : State) :
    exec (.workingSetRebuild dt) s =
      .next ((advance dt s).when ((advance dt s).fwRuns && (advance dt s).cal.work.isSome &&
        decide (128 ≤ 10 * ((advance dt s).sens.die - (advance dt s).cal.builtAt).natAbs)) State.rebuild) := rfl

theorem exec_dieTemperatureRead (dt : Nat) (temp : Int) (s : State) :
    exec (.dieTemperatureRead dt temp) s = .next ((advance dt s).dieRead temp) := rfl

theorem exec_cthRead (dt : Nat) (temp : Int) (s : State) : exec (.cthRead dt temp) s = .next ((advance dt s).cthRead temp) := rfl

/-! ### The threshold follows the peaks (R158, R160, R161) -/

/-- The DAC code of the midpoint of two peaks with the sum `sum`, in µV, kept within ±1.25 V. -/
theorem dacCode_midpoint (sum : Int) :
    dacCode (clipInt (-2500000) 2500000 sum) 2000 =
      max (-2048) (min 2047 (roundDiv (max (-2500000) (min 2500000 sum) * 4096) 5000000)) := rfl

/-- The channel with the peaks as held and its DAC code moved toward a target (R158). -/
def Channel.levelTo (c : Channel) (pos neg : Int) (on clips : Bool) (target : Int) : Channel :=
  { c with
    peakPos := pos, peakNeg := neg, levelled := on, clipped := clips
    dac := if on then c.dac + max (-16) (min 16 (target - c.dac)) else c.dac }

/-- With auto-level the code moves toward the midpoint, and a midpoint that comes to lie beyond the range logs fault 0x15. -/
theorem State.autoLevelUpdate_of_auto {s : State} {n : Chan} {pos neg target : Int} {on clips : Bool} (hfront : s.frontOn n = true)
    (hauto : s.autoLevel = true) (hon : on = ((s.chan.get n).levelled || decide (50000 ≤ pos - neg)))
    (hclips : clips = (on && decide (2500000 < (pos + neg).natAbs)))
    (htarget : target = max (-2048) (min 2047 (roundDiv (max (-2500000) (min 2500000 (pos + neg)) * 4096) 5000000))) :
    s.autoLevelUpdate n pos neg = { s with
      chan := s.chan.set n ((s.chan.get n).levelTo pos neg on clips target)
      faults := if clips = true ∧ (s.chan.get n).clipped = false then s.faults.logged 0x15 s.tb.time (BitVec.ofNat 8 n.val) 0 0
        else s.faults } := by
  have hlog : (clips && !(s.chan.get n).clipped) = true ↔ clips = true ∧ (s.chan.get n).clipped = false := by
    rw [Bool.and_eq_true, Bool.not_eq_true']
  rw [State.autoLevelUpdate, if_pos (by rw [hfront, hauto]; rfl)]
  dsimp only
  rw [← hon, ← hclips, dacCode_midpoint, ← htarget]
  by_cases h : clips = true ∧ (s.chan.get n).clipped = false
  · rw [if_pos h, if_pos (hlog.mpr h), State.log_eq]
    rfl
  · rw [if_neg h, if_neg (mt hlog.mp h)]
    rfl

theorem State.autoLevelUpdate_of_off {s : State} {n : Chan} (pos neg : Int) (h : s.frontOn n = false ∨ s.autoLevel = false) :
    s.autoLevelUpdate n pos neg = s := by
  have hno : (s.frontOn n && s.autoLevel) = false := Bool.and_eq_false_iff.mpr h
  rw [State.autoLevelUpdate, hno, if_neg Bool.false_ne_true]

/-! ### The reported peaks (R163) -/

theorem State.peakReport_of_off {s : State} {n : Chan} (pos neg : Int) (h : s.frontOn n = false) : s.peakReport n pos neg = s := by
  simp only [State.peakReport, h, Bool.false_and, Bool.false_eq_true, if_false]

/-- In the cycle of an instant of the 1 ms grid the peaks are reported, referred to the probe tip. -/
theorem State.peakReport_of_on {s : State} {n : Chan} (pos neg : Int) (h : s.frontOn n = true) :
    s.peakReport n pos neg =
      if (s.clock - s.strap.at_) % 4000000000 < 12800 then
        { s with chan := s.chan.set n { s.chan.get n with
          peakPos := pos, peakNeg := neg
          repPos := max (-32768) (min 32767 (roundDiv (pos * s.attenuation n) 1000))
          repNeg := max (-32768) (min 32767 (roundDiv (neg * s.attenuation n) 1000)) } }
      else s := by
  simp only [State.peakReport, h, Bool.true_and, decide_eq_true_eq]
  rfl

/-! ### A rebuild of the working correction set (R192, R193) -/

/-- A set that takes effect swaps the banks at the next cycle boundary. -/
theorem State.useSet_cal (s : State) (w : CalSet) :
    (s.useSet w).cal = { s.cal with
      work := some w, builtAt := s.sens.die, bank := !s.cal.bank, other := s.bankNow, swapAt := s.cycle + 1 } := rfl

/-- To the end of the cycle the bank in use stays in use. -/
theorem State.useSet_bankNow (s : State) (w : CalSet) : (s.useSet w).bankNow = s.bankNow := by
  have hbefore : (s.useSet w).cycle < (s.useSet w).cal.swapAt := Nat.lt_succ_self s.cycle
  exact if_pos hbefore

/-- The outputs keep their codes. -/
theorem State.useSet_code (s : State) (w : CalSet) (o : OutNo) : ((s.useSet w).ao.outs.get o).code = (s.ao.outs.get o).code := by
  have hout : (s.useSet w).ao.outs.get o = (s.ao.outs.get o).retrim s.cycle (w.outs.get o) :=
    State.eachOut_outs (g := fun o a => a.retrim s.cycle (w.outs.get o)) (fun _ _ => rfl) s o
  rw [hout]
  rfl

theorem does_workingSetRebuild {dt : Nat} {s u : State} (hu : u = advance dt s) (hruns : u.fwRuns = true)
    (hwork : u.cal.work.isSome = true) (hsets : u.calSets ≠ []) (hmoved : 128 ≤ 10 * (u.sens.die - u.cal.builtAt).natAbs) :
    Does (.workingSetRebuild dt) s u [.ao, .cal] fun t =>
      t.cal = { u.cal with
        work := some (workingSet u.sens.die u.calSets), builtAt := u.sens.die, bank := !u.cal.bank
        other := u.bankNow, swapAt := u.cycle + 1 } ∧
      t.bankNow = u.bankNow ∧ ∀ o : OutNo, (t.ao.outs.get o).code = (u.ao.outs.get o).code := by
  have hrebuild : u.rebuild = u.useSet (workingSet u.sens.die u.calSets) := if_neg (mt List.isEmpty_iff.mp hsets)
  refine ⟨u.rebuild, ?_, State.rebuild_same u, ?_⟩
  · rw [exec_workingSetRebuild, ← hu, hruns, hwork, decide_eq_true hmoved]
    rfl
  · rw [hrebuild]
    exact ⟨State.useSet_cal u _, State.useSet_bankNow u _, State.useSet_code u _⟩

/-! ### Temperatures (R381, R648, R649) -/

/-- The die reading has been taken, by the run in progress too. -/
def State.dieTaken (s : State) (t : Int) : State :=
  { s with
    sens := { s.sens with
      die := t, hotFrom := if 16000 < t then some (s.sens.hotFrom.getD s.clock) else none
      coolFrom := if t ≤ 15360 then some (s.sens.coolFrom.getD s.clock) else none }
    cab := { s.cab with extRefresh := if 12160 < t then true else if t < 11776 then false else s.cab.extRefresh }
    cal := { s.cal with run := s.cal.run.map fun r => { r with dieSum := r.dieSum + t, dieN := r.dieN + 1 } } }

theorem State.dieRead_of_latched {s : State} (t : Int) (hout : s.outOfReset = true) (hlatched : s.strap.latched = true) :
    s.dieRead t = ((s.dieTaken t).sourceFormed .dieTemp ((t : Rat) / 128) s.cycle).writeFw := by
  rw [State.dieRead, if_pos (by rw [hout, hlatched]; rfl)]
  rfl

theorem State.dieRead_after (s : State) (t : Int) :
    Same [.snap, .ao, .faults] (s.dieTaken t) ((s.dieTaken t).sourceFormed .dieTemp ((t : Rat) / 128) s.cycle).writeFw :=
  Same.step (State.writeFw_same _) rfl (Same.mono (State.sourceFormed_same _ _ _ _) rfl)

/-- The thermistor reading has been taken. -/
def State.cthTaken (s : State) (t : Int) : State :=
  { s with sens := { s.sens with cth := if s.ntc = true ∧ -7040 ≤ t ∧ t ≤ 19200 then some t else none } }

theorem State.cthRead_of_latched {s : State} (t : Int) (hruns : s.fwRuns = true) (hlatched : s.strap.latched = true) :
    s.cthRead t = (s.cthTaken t).writeFw := by
  simp only [State.cthRead, State.cthTaken, hruns, hlatched, Bool.and_self, if_true, Bool.and_eq_true, decide_eq_true_eq, and_assoc]

/-- A reading that is none is reported as 0x8000. -/
theorem State.cthTaken_cthField {s : State} {t : Int} (h : s.ntc = false ∨ t < -7040 ∨ 19200 < t) :
    (s.cthTaken t).sens.cthField = 0x8000 := by
  have hnone : ¬(s.ntc = true ∧ -7040 ≤ t ∧ t ≤ 19200) := by
    rintro ⟨hntc, hlow, hhigh⟩
    rcases h with h | h | h
    · exact absurd (hntc.symm.trans h) Bool.noConfusion
    · omega
    · omega
  simp only [State.cthTaken, if_neg hnone, Sensors.cthField]

/-- The firmware's word of the reading, with the core running (R438, R449). -/
theorem State.writeFw_cth {s : State} (hruns : s.fwRuns = true) :
    s.writeFw.snap.fw.cth = BitVec.ofNat 16 s.sens.cthField := by
  rw [State.writeFw, if_pos hruns]
  rfl

theorem does_cthRead {dt : Nat} {s u : State} {temp : Int} (hu : u = advance dt s) (hruns : u.fwRuns = true)
    (hlatched : u.strap.latched = true) :
    Does (.cthRead dt temp) s u [.snap, .sens] fun t =>
      t.sens = { u.sens with cth := if u.ntc = true ∧ -7040 ≤ temp ∧ temp ≤ 19200 then some temp else none } ∧
      (u.ntc = false ∨ temp < -7040 ∨ 19200 < temp → t.sens.cthField = 0x8000 ∧ t.snap.fw.cth = 0x8000) := by
  have hsens : (u.cthTaken temp).writeFw.sens = (u.cthTaken temp).sens := State.writeFw_same _ .sens rfl
  have hcth := State.writeFw_cth (s := u.cthTaken temp) hruns
  refine ⟨u.cthRead temp, hu ▸ exec_cthRead dt temp s, State.cthRead_same u temp, ?_⟩
  rw [State.cthRead_of_latched temp hruns hlatched]
  dsimp only
  rw [hsens, hcth]
  refine ⟨rfl, fun hnone => ?_⟩
  rw [State.cthTaken_cthField hnone]
  exact ⟨rfl, rfl⟩

end Sys2Proof.Machine

open Sys2Proof Sys2Proof.Machine

/-- Settles O34: the threshold and the reported peaks, the rebuild and its bank swap, and the two temperatures. -/
theorem measurementsAct : Obligations.MeasurementsAct := by
  refine ⟨fun dt s u n pos neg hu => ⟨?auto, ?noAuto, ?noReport, ?report⟩, fun dt s u hu => ⟨?rebuild, ?die, ?cth⟩⟩
  case auto =>
    intro hfront hauto on clips target hon hclips htarget
    rw [exec_autoLevelUpdate, ← hu, State.autoLevelUpdate_of_auto hfront hauto hon hclips htarget]
    rfl
  case noAuto =>
    intro hoff
    rw [exec_autoLevelUpdate, ← hu, State.autoLevelUpdate_of_off pos neg hoff]
  case noReport =>
    intro hoff
    rw [exec_peakReport, ← hu, State.peakReport_of_off pos neg hoff]
  case report =>
    intro hon
    rw [exec_peakReport, ← hu, State.peakReport_of_on pos neg hon]
  case rebuild =>
    refine fun hruns hwork hsets => ⟨fun hsmall => ?_, fun hmoved => does_workingSetRebuild hu hruns hwork hsets hmoved⟩
    rw [exec_workingSetRebuild, ← hu, decide_eq_false (Nat.not_le.mpr hsmall), Bool.and_false, State.when_false]
  case die =>
    intro temp hout hlatched
    refine ⟨_, exec_dieTemperatureRead .., ?_⟩
    rw [← hu]
    have hafter := u.dieRead_after temp
    rw [← State.dieRead_of_latched temp hout hlatched] at hafter
    exact ⟨State.dieRead_same u temp, hafter .sens rfl, hafter .cab rfl⟩
  case cth =>
    exact fun temp hruns hlatched => does_cthRead hu hruns hlatched
end

section
/-! Asking for LEAVE, its window and its win (R170, R172, R179, R571 to R574, R576). -/

namespace Sys2Proof.Machine
open Sys2Proof

/-! ### What each command runs -/

theorem exec_leaveRequest (dt : Nat) (op : HeavyOp) (s : State) :
    exec (.leaveRequest dt op) s =
      .next ((advance dt s).when (((advance dt s).fwRuns || op == .service) && (advance dt s).outOfReset && (advance dt s).wants op)
        fun t => t.requestLeave op) := rfl

theorem exec_leaveLineChange (dt w : Nat) (high : Bool) (s : State) :
    exec (.leaveLineChange dt ⟨high, w⟩) s =
      .next (((advance dt s).lineSeen w).2.when ((advance dt s).lineSeen w).1 fun t => t.lineChange high) := rfl

theorem exec_leaveWindowExpiry (dt : Nat) (s : State) : exec (.leaveWindowExpiry dt) s = .next (advance dt s).winLeave := rfl

theorem exec_leaveHoldoffEnd (dt : Nat) (s : State) : exec (.leaveHoldoffEnd dt) s = .next (advance dt s).holdoffEnd := rfl

/-! ### A request (R572, R574) -/

theorem State.outOfReset_of_fwRuns {s : State} (hruns : s.fwRuns = true) : s.outOfReset = true := by
  simp only [State.fwRuns, Bool.and_eq_true] at hruns
  obtain ⟨⟨⟨⟨hout, -⟩, -⟩, -⟩, -⟩ := hruns
  exact hout

theorem does_leaveRequest {dt : Nat} {s u : State} {op : HeavyOp} (hu : u = advance dt s) (hruns : u.fwRuns = true)
    (hwants : u.wants op = true) (hnew : u.leave.reqs.contains op = false) (hheld : u.leave.holding ≠ some op) :
    Does (.leaveRequest dt op) s u [.leave] fun t => t.leave.reqs = u.leave.reqs ++ [op] := by
  obtain ⟨p, i, l, c, w, f, hrequest⟩ := State.requestLeave_eq u op hnew hheld
  refine ⟨u.requestLeave op, ?_, State.requestLeave_same u op, by rw [hrequest]⟩
  rw [exec_leaveRequest, ← hu, hruns, State.outOfReset_of_fwRuns hruns, hwants]
  rfl

/-! ### The line (R571, R572) -/

/-- A level of at least 400 ns is recognised. -/
theorem exec_leaveLineChange_of_seen {dt w : Nat} {s u : State} (high : Bool) (hu : u = advance dt s) (hw : 400000 ≤ w) :
    exec (.leaveLineChange dt ⟨high, w⟩) s = .next (u.lineChange high) := by
  rw [exec_leaveLineChange, ← hu, State.lineSeen_seen u w hw, State.when_true]

/-- One of up to 200 ns is not. -/
theorem exec_leaveLineChange_of_short {dt w : Nat} {s u : State} (high : Bool) (hu : u = advance dt s) (hw : w ≤ 200000) :
    exec (.leaveLineChange dt ⟨high, w⟩) s = .next u := by
  rw [exec_leaveLineChange, ← hu, State.lineSeen_ignored u w hw, State.when_false]

theorem State.drivesLeave_iff {s : State} :
    s.drivesLeave = true ↔ s.leave.holding.isSome = true ∨ s.clock < s.leave.callTo := by
  rw [State.drivesLeave, Bool.or_eq_true, decide_eq_true_eq]

/-- A rising edge on a line the unit does not pull low. -/
theorem State.lineChange_of_rise {s : State} (hidle : s.leave.idle = false) (hholding : s.leave.holding = none)
    (hcall : s.leave.callTo ≤ s.clock) :
    s.lineChange true = { s with leave := { s.leave with idle := true, roseAt := s.clock } } := by
  have hdrives : s.drivesLeave = false := Bool.eq_false_iff.mpr fun h => by
    rcases State.drivesLeave_iff.mp h with h | h
    · rw [hholding] at h
      exact absurd h Bool.noConfusion
    · omega
  simp only [State.lineChange, State.modLeave, hidle, hdrives, Bool.or_self, Bool.false_eq_true, if_true, if_false]

/-- No rising edge comes on an idle line or one the unit pulls low. -/
theorem State.lineChange_of_no_rise {s : State}
    (h : s.leave.idle = true ∨ s.leave.holding.isSome = true ∨ s.clock < s.leave.callTo) : s.lineChange true = s := by
  have hstays : (s.leave.idle || s.drivesLeave) = true := by
    rw [Bool.or_eq_true, State.drivesLeave_iff]
    exact h
  simp only [State.lineChange, State.modLeave, hstays, if_true]

/-! ### The order of the operations (R172, R179, R574) -/

/-- The better of two requests in the order of R574, the earlier one where they are equal. -/
def HeavyOp.better (best : Option HeavyOp) (r : HeavyOp) : Option HeavyOp :=
  match best with
  | none => some r
  | some b => if HeavyOp_rank r < HeavyOp_rank b then some r else some b

theorem State.firstOf_eq_foldl (s : State) (l : List HeavyOp) : s.firstOf l = l.foldl HeavyOp.better none := rfl

/-- The best of some requests and one more is one of them, and none comes before it. -/
theorem HeavyOp.foldl_better (l : List HeavyOp) (b : HeavyOp) :
    ∃ c : HeavyOp, l.foldl HeavyOp.better (some b) = some c ∧ (c = b ∨ c ∈ l) ∧ HeavyOp_rank c ≤ HeavyOp_rank b ∧
      ∀ r ∈ l, HeavyOp_rank c ≤ HeavyOp_rank r := by
  induction l generalizing b with
  | nil => exact ⟨b, rfl, .inl rfl, le_rfl, fun r hr => absurd hr List.not_mem_nil⟩
  | cons a l ih =>
    by_cases ha : HeavyOp_rank a < HeavyOp_rank b
    · obtain ⟨c, hc, hmem, hca, hl⟩ := ih a
      refine ⟨c, by rw [List.foldl_cons, HeavyOp.better, if_pos ha, hc], .inr (List.mem_cons.mpr hmem), hca.trans ha.le, ?_⟩
      exact List.forall_mem_cons.mpr ⟨hca, hl⟩
    · obtain ⟨c, hc, hmem, hcb, hl⟩ := ih b
      refine ⟨c, by rw [List.foldl_cons, HeavyOp.better, if_neg ha, hc], hmem.imp_right (List.mem_cons_of_mem a), hcb, ?_⟩
      exact List.forall_mem_cons.mpr ⟨hcb.trans (Nat.not_lt.mp ha), hl⟩

theorem State.firstOf_spec {s : State} {l : List HeavyOp} {op : HeavyOp} (h : s.firstOf l = some op) :
    op ∈ l ∧ ∀ r ∈ l, HeavyOp_rank op ≤ HeavyOp_rank r := by
  rw [State.firstOf_eq_foldl] at h
  cases l with
  | nil => exact absurd h nofun
  | cons a l =>
    obtain ⟨c, hc, hmem, hca, hl⟩ := HeavyOp.foldl_better l a
    obtain rfl : c = op := Option.some.inj (hc.symm.trans h)
    exact ⟨List.mem_cons.mpr hmem, List.forall_mem_cons.mpr ⟨hca, hl⟩⟩

/-- The first channel found is the lowest. -/
theorem Chan.find_le {p : Chan → Bool} {m : Chan} (n : Chan) (hm : p m = true) : (Chan.all.find? p).getD n ≤ m := by
  have hmem : m ∈ Chan.all := (by decide : ∀ k : Chan, k ∈ Chan.all) m
  have hrising : Chan.all.Pairwise (· < ·) := by decide
  cases hfind : Chan.all.find? p with
  | none => exact absurd hm (List.find?_eq_none.mp hfind m hmem)
  | some k =>
    obtain ⟨-, before, after, hall, hbefore⟩ := List.find?_eq_some_iff_append.mp hfind
    rw [hall, List.pairwise_append] at hrising
    obtain ⟨-, hafter, -⟩ := hrising
    rw [hall, List.mem_append, List.mem_cons] at hmem
    rcases hmem with hmem | rfl | hmem
    · exact absurd (hbefore m hmem) (by simp [hm])
    · exact le_rfl
    · exact (List.rel_of_pairwise_cons hafter hmem).le

/-- Of the channels that wait to join the lowest-numbered one joins first (R172, R179). -/
def State.lowestFirst (s : State) : HeavyOp → HeavyOp
  | .join n => .join ((Chan.all.find? fun m => s.canWin (.join m)).getD n)
  | .startupPower n => .startupPower ((Chan.all.find? fun m => s.canWin (.startupPower m)).getD n)
  | op => op

theorem State.winner_eq (s : State) : s.winner = (s.firstOf (s.liveReqs.filter s.canWin)).map s.lowestFirst := by
  refine congrArg (fun f => Option.map f _) (funext fun op => ?_)
  cases op <;> rfl

theorem State.lowestFirst_rank_le {s : State} {op : HeavyOp} (h : s.canWin op = true) :
    HeavyOp_rank (s.lowestFirst op) ≤ HeavyOp_rank op := by
  cases op with
  | join n => exact Nat.add_le_add_left (Chan.find_le (p := fun m => s.canWin (.join m)) n h) 10
  | startupPower n => exact Nat.add_le_add_left (Chan.find_le (p := fun m => s.canWin (.startupPower m)) n h) 10
  | _ => exact le_rfl

/-- No operation that could be won comes before the one that is, and no lower channel waits. -/
theorem State.winner_first {s : State} {op : HeavyOp} (h : s.winner = some op) :
    (∀ r ∈ s.liveReqs, s.canWin r = true → HeavyOp_rank op ≤ HeavyOp_rank r) ∧
      (∀ n m : Chan, op = .join n → s.canWin (.join m) = true → n ≤ m) ∧
      (∀ n m : Chan, op = .startupPower n → s.canWin (.startupPower m) = true → n ≤ m) := by
  rw [State.winner_eq, Option.map_eq_some_iff] at h
  obtain ⟨first, hfirst, rfl⟩ := h
  obtain ⟨hmem, hleast⟩ := State.firstOf_spec hfirst
  refine ⟨fun r hr hwin => ?_, fun n m hop hwin => ?_, fun n m hop hwin => ?_⟩
  · exact (State.lowestFirst_rank_le (List.mem_filter.mp hmem).2).trans (hleast r (List.mem_filter.mpr ⟨hr, hwin⟩))
  · cases first with
    | join k =>
      obtain rfl := HeavyOp.join.inj hop
      exact Chan.find_le (p := fun m => s.canWin (.join m)) k hwin
    | _ => exact absurd hop nofun
  · cases first with
    | startupPower k =>
      obtain rfl := HeavyOp.startupPower.inj hop
      exact Chan.find_le (p := fun m => s.canWin (.startupPower m)) k hwin
    | _ => exact absurd hop nofun

/-! ### The win (R170, R572 to R574, R576) -/

theorem State.window_eq (s : State) : s.window = 4000000 * (10 + 5 * s.unitId) := rfl

/-- The unit has pulled LEAVE low and holds it for an operation. -/
def State.leaveWon (s : State) (op : HeavyOp) : State :=
  s.modLeave fun l =>
    { l with reqs := l.reqs.erase op, phase := .won, holding := some op, heldAt := s.clock, idle := false,
             fellAt := s.clock, waited := 0, waitFrom := none, starved := false }

theorem State.winLeave_of_no_winner {s : State} (h : s.winner = none) : s.winLeave = s := by
  simp only [State.winLeave, h]

theorem State.winLeave_of_early {s : State} (h : s.clock < s.leave.roseAt + 4000000 * (10 + 5 * s.unitId)) : s.winLeave = s := by
  have hnot : ¬s.leave.roseAt + s.window ≤ s.clock := by rw [State.window_eq]; omega
  unfold State.winLeave
  split
  · simp only [hnot, decide_false, Bool.and_false, Bool.false_and, Bool.false_eq_true, if_false]
  · rfl

theorem State.winLeave_of_due {s : State} {op : HeavyOp} (hwinner : s.winner = some op) (hphase : s.leave.phase = .window)
    (hidle : s.leave.idle = true) (hholding : s.leave.holding = none) (hbrace : s.power.brace = false)
    (hdue : s.leave.roseAt + 4000000 * (10 + 5 * s.unitId) ≤ s.clock) :
    s.winLeave = (((s.leaveWon op).clearFault 0x82 0xFF).enterJoin op).startWon op := by
  have hdue' : s.leave.roseAt + s.window ≤ s.clock := hdue
  simp only [State.winLeave, hwinner]
  rw [if_pos (by simp [hphase, hidle, hdue', hholding, hbrace])]
  rfl

/-- LEAVE stands in `t` as in `s` but for the phase, the mark of a withdrawal and the count of R576. -/
def KeepsHold (s t : State) : Prop :=
  ∃ (b : Bool) (p : LeavePhase) (w : Nat) (f : Option Nat),
    t.leave = { s.leave with withdrawn := b, phase := p, waited := w, waitFrom := f }

theorem KeepsHold.refl (s : State) : KeepsHold s s := ⟨_, _, _, _, rfl⟩

theorem KeepsHold.ite {c : Prop} {_ : Decidable c} {s t u : State} (ht : KeepsHold s t) (hu : KeepsHold s u) :
    KeepsHold s (if c then t else u) := by
  split
  · exact ht
  · exact hu

theorem KeepsHold.settleWait {s t : State} (h : KeepsHold s t) : KeepsHold s t.settleWait := by
  obtain ⟨b, p, _, _, ht⟩ := h
  obtain ⟨w, f, hsettled⟩ := State.settleWait_eq t
  exact ⟨b, p, w, f, by rw [hsettled, ht]⟩

theorem State.withdrawLeave_keepsHold (s : State) : KeepsHold s s.withdrawLeave :=
  KeepsHold.ite (.refl s) (.settleWait (.ite ⟨_, _, _, _, rfl⟩ ⟨_, _, _, _, rfl⟩))

/-- What starts with a win leaves LEAVE held as it is. -/
theorem State.startWon_keepsHold (s : State) (op : HeavyOp) : KeepsHold s (s.startWon op) := by
  have hrun (o : FlashOp) : KeepsHold s { s with flash := { s.flash with op := some o } }.withdrawLeave :=
    State.withdrawLeave_keepsHold { s with flash := { s.flash with op := some o } }
  unfold State.startWon
  dsimp only
  split
  case h_1 o _ => exact KeepsHold.ite (hrun _) (.refl s)
  case h_2 =>
    split
    · exact ⟨_, _, _, _, rfl⟩
    · exact .refl s

/-- The channel of a join whose hold begins enters state 4, and no other channel changes. -/
theorem State.enterJoin_chan (s : State) (op : HeavyOp) (n : Chan) :
    (s.enterJoin op).chan.get n =
      if op = .join n ∨ op = .startupPower n then { s.chan.get n with st := .joining, stable := 64 } else s.chan.get n := by
  have hset (k : Chan) : (s.modChan k fun c => { c with st := .joining, stable := 64 }).chan.get n =
      if k = n then { s.chan.get n with st := .joining, stable := 64 } else s.chan.get n := by
    by_cases hk : k = n
    · rw [if_pos hk, hk, State.modChan_chan, Per8.get_set_same]
    · rw [if_neg hk, State.modChan_onlyChan s k _ n (Ne.symm hk)]
  cases op with
  | join k => simpa [State.enterJoin] using hset k
  | startupPower k => simpa [State.enterJoin] using hset k
  | _ => simp [State.enterJoin]

theorem does_leaveWindowExpiry {dt : Nat} {s u : State} {op : HeavyOp} (hu : u = advance dt s) (hwinner : u.winner = some op)
    (hphase : u.leave.phase = .window) (hidle : u.leave.idle = true) (hholding : u.leave.holding = none)
    (hbrace : u.power.brace = false) (hdue : u.leave.roseAt + 4000000 * (10 + 5 * u.unitId) ≤ u.clock) :
    Does (.leaveWindowExpiry dt) s u [.chan, .flash, .leave, .faults, .svc] fun t =>
      t.leave.holding = some op ∧ t.leave.idle = false ∧ t.leave.starved = false ∧ t.leave.heldAt = u.clock ∧
        t.leave.reqs = u.leave.reqs.erase op ∧ t.faults = u.faults.cleared 0x82 u.tb.time 0xFF ∧
        t.flash.mem = u.flash.mem ∧
        ∀ n : Chan, t.chan.get n = (if op = .join n ∨ op = .startupPower n then
          { u.chan.get n with st := .joining, stable := 64 } else u.chan.get n) := by
  have hwin := State.winLeave_of_due hwinner hphase hidle hholding hbrace hdue
  have hsame := State.winLeave_same u
  obtain ⟨b, p, w, f, hleave⟩ := State.startWon_keepsHold (((u.leaveWon op).clearFault 0x82 0xFF).enterJoin op) op
  have hstart := State.startWon_same (((u.leaveWon op).clearFault 0x82 0xFF).enterJoin op) op
  have henter := State.enterJoin_same ((u.leaveWon op).clearFault 0x82 0xFF) op
  rw [← hwin] at hleave hstart
  rw [henter .leave rfl, State.clearFault_eq] at hleave
  have hfaults : u.winLeave.faults = u.faults.cleared 0x82 u.tb.time 0xFF := by
    rw [hstart .faults rfl, henter .faults rfl, State.clearFault_eq]
    rfl
  refine ⟨u.winLeave, hu ▸ exec_leaveWindowExpiry dt s, hsame, ?_⟩
  dsimp only
  rw [hleave]
  refine ⟨rfl, rfl, rfl, rfl, rfl, hfaults, hsame .mem rfl, fun n => ?_⟩
  rw [hstart .chan rfl, State.enterJoin_chan, State.clearFault_eq]
  rfl

/-! ### The end of the holdoff (R572) -/

/-- The unit calls: it pulls the line low for 1.0 µs, and its window runs from the next rising edge (log 52). -/
def State.leaveCalled (s : State) : State :=
  s.modLeave fun l => { l with phase := .window, idle := false, fellAt := s.clock, callTo := s.clock + 4000000 }

/-- With neither the holdoff nor brace in its way a request calls on a line idle for longer than W, and begins its window. -/
theorem State.startRequest_of_free {s : State} {released : Nat} (hreleased : s.leave.releasedAt = some released)
    (hholding : s.leave.holding = none) (hbrace : s.power.brace = false) (hreqs : s.liveReqs ≠ [])
    (hover : released + 400000000 ≤ s.clock) :
    s.startRequest =
      if s.leave.idle = true ∧ 4000000 * (10 + 5 * s.unitId) < s.clock - s.leave.roseAt then s.leaveCalled
      else s.modLeave fun l => { l with phase := .window } := by
  have hlate : ¬s.clock < released + 100 * Config.us := Nat.not_lt.mpr hover
  simp only [State.startRequest, hreleased, hholding, hbrace, List.isEmpty_eq_false_iff.mpr hreqs, hlate, decide_false, Bool.or_self,
    Option.isSome_none, Bool.false_eq_true, if_false, Bool.and_eq_true, decide_eq_true_eq]
  rfl

theorem does_leaveHoldoffEnd {dt released : Nat} {s u : State} (hu : u = advance dt s)
    (hreleased : u.leave.releasedAt = some released) (hphase : u.leave.phase = .deferred) (hholding : u.leave.holding = none)
    (hbrace : u.power.brace = false) (hreqs : u.liveReqs ≠ []) (hover : released + 400000000 ≤ u.clock) :
    Does (.leaveHoldoffEnd dt) s u [.leave] fun t =>
      t.leave.phase = .window ∧ t.leave.reqs = u.leave.reqs ∧
        (u.leave.idle = true → 4000000 * (10 + 5 * u.unitId) < u.clock - u.leave.roseAt →
          t.leave.idle = false ∧ t.leave.fellAt = u.clock ∧ t.leave.callTo = u.clock + 4000000) := by
  have hend : u.holdoffEnd = u.startRequest.settleWait := by
    have hover' : released + 100 * Config.us ≤ u.clock := hover
    simp only [State.holdoffEnd, hreleased, hphase, hover', beq_self_eq_true, decide_true, Bool.and_self, if_true]
  obtain ⟨w, f, hsettled⟩ := State.settleWait_eq u.startRequest
  refine ⟨u.holdoffEnd, hu ▸ exec_leaveHoldoffEnd dt s, State.holdoffEnd_same u, ?_⟩
  rw [hend, hsettled, State.startRequest_of_free hreleased hholding hbrace hreqs hover]
  by_cases hcall : u.leave.idle = true ∧ 4000000 * (10 + 5 * u.unitId) < u.clock - u.leave.roseAt
  · rw [if_pos hcall]
    exact ⟨rfl, rfl, fun _ _ => ⟨rfl, rfl, rfl⟩⟩
  · rw [if_neg hcall]
    exact ⟨rfl, rfl, fun hidle hlong => absurd ⟨hidle, hlong⟩ hcall⟩

theorem State.holdoffEnd_of_early {s : State} {released : Nat} (hreleased : s.leave.releasedAt = some released)
    (hearly : s.clock < released + 400000000) : s.holdoffEnd = s := by
  have hnot : ¬released + 100 * Config.us ≤ s.clock := Nat.not_le.mpr hearly
  simp only [State.holdoffEnd, hreleased, hnot, decide_false, Bool.and_false, Bool.false_eq_true, if_false]

end Sys2Proof.Machine
end

section
/-! Withdrawn requests, starvation and a stuck line (R576, R577, R674), and the obligation on LEAVE. -/

namespace Sys2Proof.Machine
open Sys2Proof

/-! ### What each command runs -/

theorem exec_leaveRequestWithdrawal (dt : Nat) (s : State) :
    exec (.leaveRequestWithdrawal dt) s = .next (advance dt s).withdrawal := rfl

theorem exec_leaveStarvation (dt : Nat) (s : State) : exec (.leaveStarvation dt) s = .next (advance dt s).starve := rfl

theorem exec_leaveStuck (dt : Nat) (s : State) :
    exec (.leaveStuck dt) s =
      .next ((advance dt s).when ((advance dt s).outOfReset && !(advance dt s).leave.idle &&
        decide (100 * Config.ms ≤ (advance dt s).clock - (advance dt s).leave.fellAt)) fun t => t.raise 0x83 0xFF 0 0) := rfl

theorem exec_leaveStuckClear (dt : Nat) (s : State) :
    exec (.leaveStuckClear dt) s =
      .next ((advance dt s).when ((advance dt s).leave.idle &&
        decide (10 * Config.us ≤ (advance dt s).clock - (advance dt s).leave.roseAt)) fun t => t.clearFault 0x83 0xFF) := rfl

/-! ### Withdrawal (R674) -/

/-- While the core does not run its requests are withdrawn and kept; with none left and LEAVE free the unit waits for none. -/
theorem does_leaveRequestWithdrawal_of_stopped {dt : Nat} {s u : State} (hu : u = advance dt s) (hruns : u.fwRuns = false) :
    Does (.leaveRequestWithdrawal dt) s u [.leave] fun t =>
      t.leave.withdrawn = true ∧ t.leave.reqs = u.leave.reqs ∧ t.leave.holding = u.leave.holding ∧
        (u.leave.holding = none → u.liveReqs = [] → t.leave.phase = .idle) := by
  let t := u.modLeave fun l => { l with withdrawn := true }
  have hwithdraw : u.withdrawal =
      (if t.leave.holding.isNone && t.liveReqs.isEmpty then t.modLeave fun l => { l with phase := .idle } else t).settleWait := by
    rw [State.withdrawal, hruns, Bool.not_false, if_pos rfl, State.withdrawLeave, hruns, if_neg Bool.false_ne_true]
  refine ⟨u.withdrawal, hu ▸ exec_leaveRequestWithdrawal dt s, State.withdrawal_same u, ?_⟩
  rw [hwithdraw]
  by_cases hfree : (t.leave.holding.isNone && t.liveReqs.isEmpty) = true
  · obtain ⟨w, f, hsettled⟩ := State.settleWait_eq (t.modLeave fun l => { l with phase := .idle })
    rw [if_pos hfree, hsettled]
    exact ⟨rfl, rfl, rfl, fun _ _ => rfl⟩
  · obtain ⟨w, f, hsettled⟩ := State.settleWait_eq t
    rw [if_neg hfree, hsettled]
    refine ⟨rfl, rfl, rfl, fun hholding hreqs => absurd ?_ hfree⟩
    have hholding' : t.leave.holding = none := hholding
    have hreqs' : t.liveReqs = [] := hreqs
    rw [hholding', hreqs']
    rfl

/-- Once it runs again the requests begin again. -/
theorem does_leaveRequestWithdrawal_of_running {dt : Nat} {s u : State} (hu : u = advance dt s) (hruns : u.fwRuns = true)
    (hwithdrawn : u.leave.withdrawn = true) :
    Does (.leaveRequestWithdrawal dt) s u [.leave] fun t => t.leave.withdrawn = false ∧ t.leave.reqs = u.leave.reqs := by
  have hresume : u.withdrawal = u.resumeLeave := by
    rw [State.withdrawal, hruns, hwithdrawn]
    rfl
  refine ⟨u.withdrawal, hu ▸ exec_leaveRequestWithdrawal dt s, State.withdrawal_same u, ?_⟩
  rw [hresume, State.resumeLeave]
  split
  · obtain ⟨w, f, hsettled⟩ := State.settleWait_eq (u.modLeave fun l => { l with withdrawn := false })
    rw [hsettled]
    exact ⟨rfl, rfl⟩
  · obtain ⟨p, i, l, c, hstarted⟩ := State.startRequest_eq (u.modLeave fun l => { l with withdrawn := false })
    obtain ⟨w, f, hsettled⟩ := State.settleWait_eq (u.modLeave fun l => { l with withdrawn := false }).startRequest
    rw [hsettled, hstarted]
    exact ⟨rfl, rfl⟩

/-! ### Starvation (R576) -/

theorem State.starve_of_waiting {s : State} {op : HeavyOp} (hnext : s.nextReq = some op) (hstarving : s.starving = true) :
    s.starve =
      if 8000000000000 ≤ s.waitedNow then
        { s with
          leave := { s.leave with starved := true }
          faults := s.faults.raised 0x82 s.tb.time 0xFF (BitVec.ofNat 32 (s.heavyRow op)) 0 }
      else s := by
  simp only [State.starve, hnext, hstarving, Bool.true_and, decide_eq_true_eq, State.raise_eq]
  rfl

end Sys2Proof.Machine

open Sys2Proof Sys2Proof.Machine

/-- Settles O55: the request, the line, the window and the win, the holdoff; then withdrawal, starvation and a stuck line. -/
theorem leaveIsWon : Obligations.LeaveIsWon := by
  refine ⟨fun dt s u hu => ⟨?request, ?line, ?short, ?noWinner, ?window, ?holdoff⟩,
    fun dt s u hu => ⟨?stopped, ?running, ?starved, ?stuck, ?unstuck⟩⟩
  case request => exact fun op hruns hwants hnew hheld => does_leaveRequest hu hruns hwants hnew hheld
  case line =>
    intro w hw
    rw [exec_leaveLineChange_of_seen true hu hw, exec_leaveLineChange_of_seen false hu hw]
    exact ⟨fun hidle hholding hcall => by rw [State.lineChange_of_rise hidle hholding hcall],
      fun hstays => by rw [State.lineChange_of_no_rise hstays], rfl⟩
  case short => exact fun high w hw => exec_leaveLineChange_of_short high hu hw
  case noWinner =>
    intro hnone
    rw [exec_leaveWindowExpiry, ← hu, State.winLeave_of_no_winner hnone]
  case window =>
    intro op hwinner hphase hidle hholding hbrace
    refine ⟨fun hearly => ?_, fun hdue => ?_⟩
    · rw [exec_leaveWindowExpiry, ← hu, State.winLeave_of_early hearly]
    · obtain ⟨t, hexec, hsame, hheld, hlow, hstarved, hat, hreqs, hfaults, hmem, hchan⟩ :=
        does_leaveWindowExpiry hu hwinner hphase hidle hholding hbrace hdue
      obtain ⟨hfirst, hjoin, hpower⟩ := State.winner_first hwinner
      exact ⟨t, hexec, hsame, hheld, hlow, hstarved, hat, hreqs, hfaults, hmem, hfirst, hjoin, hpower, hchan⟩
  case holdoff =>
    intro released hreleased hphase hholding hbrace hreqs
    refine ⟨fun hearly => ?_, fun hover => does_leaveHoldoffEnd hu hreleased hphase hholding hbrace hreqs hover⟩
    rw [exec_leaveHoldoffEnd, ← hu, State.holdoffEnd_of_early hreleased hearly]
  case stopped => exact fun hruns => does_leaveRequestWithdrawal_of_stopped hu hruns
  case running => exact fun hruns hwithdrawn => does_leaveRequestWithdrawal_of_running hu hruns hwithdrawn
  case starved =>
    intro op hnext hstarving
    rw [exec_leaveStarvation, ← hu, State.starve_of_waiting hnext hstarving]
  case stuck =>
    intro hout hlow
    rw [exec_leaveStuck, ← hu, State.when_raise, hout, hlow]
    simp only [Bool.not_false, Bool.and_self, Bool.true_and, decide_eq_true_eq]
    rfl
  case unstuck =>
    intro hidle
    rw [exec_leaveStuckClear, ← hu, State.when_clearFault, hidle]
    simp only [Bool.true_and, decide_eq_true_eq]
    rfl
end

section
/-! Every command, and so every step, keeps what fits and the canonical form of the flash array: by the law of what it runs, or
because its frame leaves those parts out. -/

namespace Sys2Proof.Machine
open Sys2Proof

/-- What a pin runs keeps them, whether or not the pin takes effect (R97). -/
theorem Keeps.onPin {s : State} {p : DigitalPin} {level : Bool} {width : Nat} {f : State → State}
    (hf : ∀ t, Keeps t (f t)) : Keeps s (s.onPin p level width f) :=
  Keeps.when hf (.of_same (State.takes_same s p level width) rfl)

/-- What a frame of the service port runs keeps them, whatever the port answers (R622). -/
theorem Keeps.frame {s : State} {bytes : List Byte} {crc : Byte} {busy allowed : Bool} {act : State → State}
    (hact : Keeps s (act s)) : Keeps s (s.frame bytes crc busy allowed act) := by
  have hreply (status : Byte) : Keeps s (s.reply status []) := .modSvc (.refl s)
  unfold State.frame
  refine Keeps.ite (.refl s) (Keeps.modSvc ?_)
  cases s.svc.fuse with
  | blown | disturbed => exact .modSvc (.refl s)
  | driving => exact hreply _
  | intact => exact .ite (hreply _) (.ite (hreply _) (.ite hact (hreply _)))

theorem exec_keeps {i : Instr} {s t : State} (hexec : exec i s = .next t) : Keeps s t := by
  have hframe : Same (touches i) (advance i.dt s) t := commandFrames i s t hexec
  have hpass : Keeps s (advance i.dt s) := advance_keeps i.dt s
  have hrun {u : State} (hu : exec i s = .next u) (h : Keeps (advance i.dt s) u) : Keeps s t :=
    Host.Outcome.next.inj (hu.symm.trans hexec) ▸ hpass.trans h
  cases i with
  | timeCounterWrap =>
    obtain rfl := Host.Outcome.next.inj hexec
    exact .ite (advance_keeps _ s) (.refl s)
  | activeEdge => exact hrun rfl (State.activeEdge_keeps ..)
  | timeTick => exact hrun rfl (State.timeTick_keeps ..)
  | angleTick => exact hrun rfl (State.angleTick_keeps ..)
  | outputUpdate => exact hrun rfl (State.outputUpdate_keeps ..)
  | mergeMove => exact hrun rfl (State.mergeMove_keeps ..)
  | dropRunClose => exact hrun rfl (State.closeRun_keeps ..)
  | markerEntry => exact hrun rfl (State.markerEntry_keeps ..)
  | firmwareMarkerPlace => exact hrun rfl (State.placeFirmwareMarker_keeps ..)
  | queueReset => exact hrun rfl (State.queueReset_keeps ..)
  | packerTakeItem => exact hrun rfl (State.takeItem_keeps ..)
  | closeTimerExpiry => exact hrun rfl (State.closeTimer_expire_keeps ..)
  | packerTakeResult => exact hrun rfl (State.takeResult_keeps ..)
  | controlSkeinClose => exact hrun rfl ((State.stepSix_keeps _).step (.of_same (State.closeNextCtl_same _) rfl))
  | summaryBoundary => exact hrun rfl (State.summaryBoundary_keeps ..)
  | summaryComplete => exact hrun rfl (State.summaryComplete_keeps ..)
  | resetAssert => exact hrun rfl (State.resetBy_keeps ..)
  | strapLatch => exact hrun rfl (State.strapLatch_keeps ..)
  | journalRecovery => exact hrun rfl (State.journalRecovery_keeps ..)
  | rowCounterReconcile => exact hrun rfl (State.rowReconcile_keeps ..)
  | sessionCommit => exact hrun rfl (State.sessionCommit_keeps ..)
  | epochSet => exact hrun rfl (State.epochFree_keeps ..)
  | epochPpsTimeout => exact hrun rfl (State.epochTimeout_keeps ..)
  | ppsEdge => exact hrun rfl (State.ppsEdge_keeps ..)
  | pllUnlock => exact hrun rfl (State.pllUnlock_keeps ..)
  | pllRelock => exact hrun rfl (State.pllRelock_keeps ..)
  | channelStartupJoin => exact hrun rfl (State.startupJoin_keeps ..)
  | startupRunAbandon => exact hrun rfl (State.startupRunAbandon_keeps ..)
  | watchdogExpiry => exact hrun rfl (.when (fun _ => State.beginRestart_keeps ..) (.refl _))
  | coreRestart => exact hrun rfl (State.coreRestart_keeps ..)
  | firmwareFetchError => exact hrun rfl (State.fetchError_keeps ..)
  | domainPowerFault => exact hrun rfl (State.domainFault_keeps ..)
  | domainRestore => exact hrun rfl (State.domainRestore_keeps ..)
  | driftCheckRead => exact hrun rfl (State.driftRead_keeps ..)
  | channelLoss => exact hrun rfl (State.channelLoss_keeps ..)
  | lossHandling => exact hrun rfl (State.lossHandling_keeps ..)
  | channelIdleTimeout => exact hrun rfl (State.idleTimeout_keeps ..)
  | channelDomainPowerDown => exact hrun rfl (State.domainDown_keeps ..)
  | autoLevelUpdate => exact hrun rfl (State.autoLevelUpdate_keeps ..)
  | peakReport => exact hrun rfl (State.peakReport_keeps ..)
  | joinStart => exact hrun rfl (State.joinStart_keeps ..)
  | channelDomainReady => exact hrun rfl (State.domainReady_keeps ..)
  | rejoinRunEnd => exact hrun rfl (State.rejoinRunEnd_keeps ..)
  | workingSetRebuild => exact hrun rfl (.when (State.rebuild_keeps) (.refl _))
  | dieTemperatureRead => exact hrun rfl (State.dieRead_keeps ..)
  | referenceEvent => exact hrun rfl (State.referenceEvent_keeps ..)
  | quadratureStep => exact hrun rfl (State.quadratureStep_keeps ..)
  | phaseLoss => exact hrun rfl (State.phaseLoss_keeps ..)
  | taskArm => exact hrun rfl (State.armCommand_keeps ..)
  | taskChange => exact hrun rfl (State.armCommand_keeps ..)
  | taskCancel => exact hrun rfl (State.cancelSlot_keeps ..)
  | storeReset => exact hrun rfl (State.storeReset_keeps ..)
  | flush => exact hrun rfl (State.flush_keeps ..)
  | hostrdyLow => exact hrun rfl (.onPin fun _ => .when State.hostLow_keeps (.refl _))
  | partnerLoss => exact hrun rfl (State.partnerLoss_keeps ..)
  | streamShortCircuit => exact hrun rfl (State.shortCircuit_keeps ..)
  | faultSkeinClose => exact hrun rfl (State.closeFault_keeps ..)
  | outputEstablish => exact hrun rfl (State.outputEstablish_keeps ..)
  | outputStageReady => exact hrun rfl (State.stageReady_keeps ..)
  | breakBeforeMakeExpiry => exact hrun rfl (State.breakExpiry_keeps ..)
  | readBack => exact hrun rfl (State.readBack_keeps ..)
  | outputHeadroomFault => exact hrun rfl (State.headroomFault_keeps ..)
  | outputOvercurrent => exact hrun rfl (.when (fun _ => State.faultOutput_keeps ..) (.refl _))
  | outputRailFault => exact hrun rfl (.when (fun _ => State.faultOutput_keeps ..) (.refl _))
  | outputOvertemperature => exact hrun rfl (.when (fun _ => State.faultOutput_keeps ..) (.refl _))
  | outputRetry => exact hrun rfl (State.outputRetry_keeps ..)
  | outputFaultClear => exact hrun rfl (State.outputFaultClear_keeps ..)
  | fullRunStart => exact hrun rfl (State.fullRunStart_keeps ..)
  | fullRunEnd => exact hrun rfl (State.fullRunEnd_keeps ..)
  | drawerCommit => exact hrun rfl (State.drawerCommit_keeps ..)
  | compaction => exact hrun rfl (State.compaction_keeps ..)
  | rowCounterIncrement => exact hrun rfl (State.rowCounterIncrement_keeps ..)
  | flashErase => exact hrun rfl (State.flashErase_keeps ..)
  | flashOperationEnd => exact hrun rfl (State.flashEnd_keeps ..)
  | sectorRetirement => exact hrun rfl (State.retire_keeps ..)
  | braceEntry => exact hrun rfl (State.braceEntry_keeps ..)
  | braceReturn => exact hrun rfl (State.braceReturn_keeps ..)
  | standbyEntry => exact hrun rfl (.onPin State.standbyEntry_keeps)
  | standbyExit => exact hrun rfl (.onPin State.standbyExit_keeps)
  | aoDomainPowerDown => exact hrun rfl (State.aoDown_keeps ..)
  | leaveWindowExpiry => exact hrun rfl (State.winLeave_keeps ..)
  | epochAdoption => exact hrun rfl (State.epochAdoption_keeps ..)
  | adoptionSessionCommit => exact hrun rfl (State.adoptionCommit_keeps ..)
  | halt => exact hrun rfl (.frame (State.halt_keeps _))
  | reset => exact hrun rfl (.frame (.step (.of_same (State.reply_same _ _ _) rfl) (State.fullReset_keeps ..)))
  | flashEraseSuspend => exact hrun rfl (State.eraseSuspend_keeps ..)
  | _ => exact hpass.trans (.of_same hframe rfl)

theorem step_keeps {s t : State} (hstep : step s = .next t) : Keeps s t := by
  unfold step at hstep
  split at hstep
  · obtain rfl := Host.Outcome.next.inj hstep
    exact advance_keeps _ s
  · next c rest hpending =>
    have hrest : Keeps s { s with pending := rest } := ⟨fun h => ⟨h.chan, h.chain, h.eng, h.sched, h.out⟩, id⟩
    exact hrest.trans (exec_keeps hstep)

end Sys2Proof.Machine

open Sys2Proof Sys2Proof.Machine

/-- Settles O5: each command keeps what fits, by the law of what it runs or by its frame. -/
theorem stepKeepsRoom : Obligations.StepKeepsRoom := fun _ _ hfits hstep => (step_keeps hstep).1 hfits
end

section
/-! What a tick does to each channel it falls on, and the ticks of the scheduler (R195 to R201, R204, R206, R238, R241). -/

namespace Sys2Proof.Machine
open Sys2Proof

/-! ### A channel's turn among all eight -/

/-- Turns of other channels leave a channel as it stands. -/
theorem OnlyChan.foldl {f : Chan → State → State} (honly : ∀ n t, OnlyChan n t (f n t)) {n : Chan} {l : List Chan} (hn : n ∉ l)
    (t : State) : (l.foldl (fun t c => f c t) t).chan.get n = t.chan.get n := by
  induction l generalizing t with
  | nil => rfl
  | cons c l ih =>
    exact (ih (List.not_mem_of_not_mem_cons hn) (f c t)).trans (honly c t n (List.ne_of_not_mem_cons hn))

/-- Where each channel's turn writes no channel but its own, a channel's turn finds it as it stood, and what its turn leaves of
it stands at the end. -/
theorem State.eachChan_turn {ps : List Part} {f : Chan → State → State} (hsame : ∀ n t, Same ps t (f n t))
    (honly : ∀ n t, OnlyChan n t (f n t)) (s : State) (n : Chan) :
    ∃ t : State, Same ps s t ∧ t.chan.get n = s.chan.get n ∧ (s.eachChan f).chan.get n = (f n t).chan.get n := by
  have hmem : n ∈ Chan.all := by revert n; decide
  obtain ⟨before, after, hall⟩ := List.append_of_mem hmem
  have hnodup : (before ++ n :: after).Nodup := hall ▸ (by decide : Chan.all.Nodup)
  obtain ⟨-, hnafter, hdisjoint⟩ := List.nodup_append.mp hnodup
  have hbefore : n ∉ before := fun h => hdisjoint n h n List.mem_cons_self rfl
  refine ⟨before.foldl (fun t c => f c t) s, Same.foldl (fun t c => hsame c t) (Same.refl ps s),
    OnlyChan.foldl honly hbefore s, ?_⟩
  rw [State.eachChan, hall, List.foldl_append, List.foldl_cons, OnlyChan.foldl honly (List.nodup_cons.mp hnafter).1]

/-! ### The count at an instant (R201) -/

theorem State.countAt_eq (s : State) (n : Chan) (t : Nat) :
    ∃ k free : Nat, k ≤ (s.chan.get n).edgesFrom (t - 1600) - (s.chan.get n).edgesFrom (t + 1600) ∧
      s.countAt n t =
        ((s.chan.get n).count - BitVec.ofNat 48 ((s.chan.get n).edgesFrom (t + 1600) + k), { s with free := free }) := by
  by_cases hopen : (s.chan.get n).edgesFrom (t - 1600) - (s.chan.get n).edgesFrom (t + 1600) = 0
  · exact ⟨0, s.free, Nat.zero_le _, if_pos hopen⟩
  · exact ⟨_, s.free + 1, Nat.lt_succ_iff.mp (Nat.mod_lt (Config.freeNat s.free) (Nat.succ_pos _)), if_neg hopen⟩

/-- A tick stamp forms with a count R201 allows, and writes its channel alone. -/
theorem State.tickStamp_chan (s : State) (n : Chan) (inst : Nat) (slot : Fin 16) :
    ∃ count : BitVec 48, CountAt s n inst count ∧
      (s.tickStamp n inst slot).chan =
        s.chan.set n ((s.chan.get n).form n (s.stampRec n inst count inst false) [slot] (s.clockOf inst) (s.clockOf inst)) := by
  obtain ⟨k, free, hk, hcount⟩ := s.countAt_eq n (s.clockOf inst)
  refine ⟨_, ⟨k, hk, rfl⟩, ?_⟩
  rw [State.tickStamp, hcount]
  rfl

/-! ### A tick on one channel (R195 to R200) -/

/-- A tick that is still pending expires: it is counted, and leaves a tick stamp where none has formed since the last edge stamp
and the channel has a block to be corrected by (R32, R199, R200). -/
def State.expireTick (s : State) (n : Chan) (inst : Nat) (slot : Fin 16) : State :=
  let c := s.chan.get n
  let t := if c.pending then s.modChan n fun c => { c with expired := c.expired + 1 } else s
  if c.pending && !c.tickStamped && (s.workChan n).isSome then
    (t.modChan n fun c => { c with tickStamped := true }).tickStamp n inst slot
  else t

/-- The channel takes the tick: one that is still pending expires, and this one is pending (R195). -/
def State.takeTick (s : State) (n : Chan) (inst : Nat) (slot : Fin 16) : State :=
  (s.expireTick n inst slot).modChan n fun c =>
    { c with lastTick := some inst, pending := true, tickAt := inst, tickSlots := [slot] }

/-- The channel has taken the tick and counted the one that was still pending, of which it may have formed a tick stamp. -/
def Channel.ticked (c : Channel) (inst : Nat) (slot : Fin 16) (stamps : Bool) : Channel :=
  { c with
    expired := if c.pending then c.expired + 1 else c.expired
    tickStamped := c.tickStamped || stamps
    lastTick := some inst, pending := true, tickAt := inst, tickSlots := [slot] }

/-- A tick that is still pending leaves a tick stamp as it expires: the first since the last edge stamp, on a channel with a block
(R32, R199). -/
def State.stampsTick (s : State) (n : Chan) : Prop :=
  (s.chan.get n).pending = true ∧ (s.chan.get n).tickStamped = false ∧ (s.workChan n).isSome = true

theorem State.not_stampsTick_iff {s : State} {n : Chan} :
    ¬s.stampsTick n ↔ (s.chan.get n).pending = false ∨ (s.chan.get n).tickStamped = true ∨ s.workChan n = none := by
  simp only [State.stampsTick, not_and_or, Bool.not_eq_true, Bool.not_eq_false, Option.isSome_eq_false_iff,
    Option.isNone_iff_eq_none]

section
variable {s : State} {n : Chan} {inst : Nat} (slot : Fin 16)

theorem State.tickChannel_of_absent (h : (s.chan.get n).st ≠ .present ∨ inst ≤ (s.chan.get n).presentAt) :
    s.tickChannel n inst slot = s := by
  rw [State.tickChannel, if_pos (by simpa using h)]

theorem State.takeTick_chan_of_no_stamp (h : ¬s.stampsTick n) :
    (s.takeTick n inst slot).chan.get n = (s.chan.get n).ticked inst slot false := by
  have hnone : ¬((s.chan.get n).pending && !(s.chan.get n).tickStamped && (s.workChan n).isSome) = true := by
    simpa only [State.stampsTick, Bool.and_eq_true, Bool.not_eq_true', and_assoc] using h
  simp only [State.takeTick, State.expireTick, if_neg hnone]
  split <;> simp [Channel.ticked, *]

theorem State.takeTick_chan_of_stamp (h : s.stampsTick n) :
    ∃ count : BitVec 48, CountAt s n inst count ∧
      (s.takeTick n inst slot).chan.get n =
        ((s.chan.get n).ticked inst slot true).form n (s.stampRec n inst count inst false) [slot] (s.clockOf inst)
          (s.clockOf inst) := by
  obtain ⟨hpending, hfirst, hblock⟩ := h
  let t := (s.modChan n fun c => { c with expired := c.expired + 1 }).modChan n fun c => { c with tickStamped := true }
  have ht : t.chan.get n = { s.chan.get n with expired := (s.chan.get n).expired + 1, tickStamped := true } := by
    simp only [t, State.modChan_chan, Per8.get_set_same]
  obtain ⟨count, hcount, hchan⟩ := t.tickStamp_chan n inst slot
  refine ⟨count, ?_, ?_⟩
  · rw [CountAt, ht] at hcount
    exact hcount
  · have hexpire : s.expireTick n inst slot = t.tickStamp n inst slot := by
      simp only [State.expireTick, hpending, hfirst, hblock, Bool.not_false, Bool.and_self, if_true, t]
    rw [State.takeTick, hexpire, State.modChan_chan, Per8.get_set_same, hchan, Per8.get_set_same, State.stampRec, ht,
      Channel.ticked, hpending, hfirst, if_pos rfl]
    rfl

/-- The stitch of a tick stamp has the tick's instant, at which it is captured (R199, R201, R204). -/
theorem State.takeTick_formed (h : s.stampsTick n) :
    ∃ f : Flight, FlightFormed s (s.takeTick n inst slot) n false inst [slot] (s.clockOf inst) f ∧
      CountAt s n inst f.stamp.count ∧ f.captureAt = s.clockOf inst := by
  obtain ⟨count, hcount, hchan⟩ := State.takeTick_chan_of_stamp (inst := inst) slot h
  obtain ⟨f, hflights, hstamp, hslots, hno, htaken, hcapture, hfrom, hto, hlast⟩ :=
    Channel.form_flight ((s.chan.get n).ticked inst slot true) n (s.stampRec n inst count inst false) [slot] (s.clockOf inst)
      (s.clockOf inst)
  refine ⟨f, ⟨?_, ?_, ?_, ?_, ?_, ?_, hslots, hno, htaken, hfrom, hto, hlast⟩, ?_, hcapture⟩
  · rw [hchan]; exact hflights
  · rw [hchan]; rfl
  all_goals rw [hstamp]
  exacts [rfl, rfl, rfl, rfl, hcount]

variable (hst : (s.chan.get n).st = .present) (hat : (s.chan.get n).presentAt < inst)
include hst hat

theorem State.tickChannel_of_again (hlast : (s.chan.get n).lastTick = some inst) :
    s.tickChannel n inst slot = s.modChan n fun c =>
      if c.pending && c.tickAt == inst && !c.tickSlots.contains slot then { c with tickSlots := c.tickSlots ++ [slot] } else c := by
  rw [State.tickChannel, if_neg (by simp [hst, hat]), if_pos hlast]

theorem State.tickChannel_of_close {l : Nat} (hlast : (s.chan.get n).lastTick = some l) (hne : l ≠ inst)
    (hclose : inst < l + 160000) : s.tickChannel n inst slot = s := by
  rw [State.tickChannel, if_neg (by simp [hst, hat]), if_neg (by simpa [hlast] using hne), hlast]
  exact if_pos (decide_eq_true hclose)

theorem State.tickChannel_of_spaced
    (hspaced : ∀ l : Nat, (s.chan.get n).lastTick = some l → l ≠ inst ∧ l + 160000 ≤ inst) :
    s.tickChannel n inst slot = s.takeTick n inst slot := by
  rw [State.tickChannel, if_neg (by simp [hst, hat]), if_neg fun h => (hspaced inst h).1 rfl]
  refine if_neg ?_
  cases hlast : (s.chan.get n).lastTick with
  | none => exact Bool.false_ne_true
  | some l =>
    have hl : ¬inst < l + fortyNs := Nat.not_lt_of_le (hspaced l hlast).2
    simpa using hl

end

theorem State.tickStamp_onlyChan (s : State) (n : Chan) (inst : Nat) (slot : Fin 16) : OnlyChan n s (s.tickStamp n inst slot) :=
  let ⟨_, _, hchan⟩ := s.tickStamp_chan n inst slot
  OnlyChan.of_set hchan

theorem State.tickChannel_onlyChan (s : State) (n : Chan) (inst : Nat) (slot : Fin 16) :
    OnlyChan n s (s.tickChannel n inst slot) := by
  have hself : OnlyChan n s s := OnlyChan.refl n s
  have hexpired (c : Bool) :
      OnlyChan n s (if c then s.modChan n fun c => { c with expired := c.expired + 1 } else s) :=
    OnlyChan.ite (State.modChan_onlyChan s n _) hself
  unfold State.tickChannel
  refine OnlyChan.ite hself (OnlyChan.ite (State.modChan_onlyChan s n _) (OnlyChan.ite hself ?_))
  refine OnlyChan.trans (OnlyChan.ite ?_ (hexpired _)) (State.modChan_onlyChan _ n _)
  exact ((hexpired _).trans (State.modChan_onlyChan _ n _)).trans (State.tickStamp_onlyChan _ n inst slot)

/-! ### What a tick does to a channel -/

theorem State.takeTick_fell {s : State} {n : Chan} {inst : Nat} (slot : Fin 16) (hst : (s.chan.get n).st = .present)
    (hat : (s.chan.get n).presentAt < inst)
    (hspaced : ∀ l : Nat, (s.chan.get n).lastTick = some l → l ≠ inst ∧ l + 160000 ≤ inst) :
    TickFell s (s.takeTick n inst slot) n inst slot := by
  refine ⟨?count, fun h => ?absent, fun _ _ => ⟨fun l hl _ hclose => ?close, fun _ => ?taken, fun hagain =>
    absurd rfl (hspaced inst hagain).1⟩⟩
  case absent => exact (h.elim (fun h => h hst) (Nat.not_le_of_lt hat)).elim
  case close => exact absurd hclose (Nat.not_lt_of_le (hspaced l hl).2)
  case count =>
    by_cases hstamp : s.stampsTick n
    · obtain ⟨count, -, hchan⟩ := State.takeTick_chan_of_stamp (inst := inst) slot hstamp
      rw [hchan]; rfl
    · rw [State.takeTick_chan_of_no_stamp slot hstamp]; rfl
  case taken =>
    by_cases hstamp : s.stampsTick n
    · obtain ⟨count, -, hchan⟩ := State.takeTick_chan_of_stamp (inst := inst) slot hstamp
      have hformed := State.takeTick_formed (inst := inst) slot hstamp
      refine ⟨?_, ?_, ?_, ?_, ?_, fun _ => ⟨?_, hformed⟩, fun h => absurd hstamp (State.not_stampsTick_iff.mpr h)⟩
      all_goals rw [hchan]
      exacts [rfl, rfl, rfl, rfl, rfl, Bool.or_true _]
    · rw [State.takeTick_chan_of_no_stamp slot hstamp]
      exact ⟨rfl, rfl, rfl, rfl, rfl, fun h => absurd h hstamp, fun _ => ⟨rfl, rfl, Bool.or_false _⟩⟩

theorem State.tickChannel_fell (s : State) (n : Chan) (inst : Nat) (slot : Fin 16) :
    TickFell s (s.tickChannel n inst slot) n inst slot := by
  by_cases habsent : (s.chan.get n).st ≠ .present ∨ inst ≤ (s.chan.get n).presentAt
  · rw [State.tickChannel_of_absent slot habsent]
    exact ⟨rfl, fun _ => rfl, fun hst hat => (habsent.elim (fun h => h hst) (Nat.not_le_of_lt hat)).elim⟩
  obtain ⟨hst, hat⟩ : (s.chan.get n).st = .present ∧ (s.chan.get n).presentAt < inst := by
    simpa only [not_or, ne_eq, not_not, Nat.not_le] using habsent
  by_cases hagain : (s.chan.get n).lastTick = some inst
  · rw [State.tickChannel_of_again slot hst hat hagain]
    refine ⟨?_, fun h => absurd h habsent, fun _ _ => ⟨fun l hl hne => ?_, fun h => absurd rfl (h inst hagain).1, fun _ => ?_⟩⟩
    · rw [State.modChan_chan, Per8.get_set_same]
      split <;> rfl
    · exact absurd (Option.some.inj (hl.symm.trans hagain)) hne
    · rw [State.modChan_chan, Per8.get_set_same]
      split <;> exact ⟨rfl, rfl, rfl, rfl⟩
  by_cases hspaced : ∀ l : Nat, (s.chan.get n).lastTick = some l → l ≠ inst ∧ l + 160000 ≤ inst
  · rw [State.tickChannel_of_spaced slot hst hat hspaced]
    exact State.takeTick_fell slot hst hat hspaced
  · obtain ⟨l, hlast, hclose⟩ : ∃ l : Nat, (s.chan.get n).lastTick = some l ∧ (l ≠ inst → inst < l + 160000) := by
      simpa only [not_forall, not_and, Nat.not_le, exists_prop] using hspaced
    have hne : l ≠ inst := fun h => hagain (h ▸ hlast)
    rw [State.tickChannel_of_close slot hst hat hlast hne (hclose hne)]
    exact ⟨rfl, fun _ => rfl, fun _ _ => ⟨fun _ _ _ _ => rfl, fun h => absurd h hspaced, fun h => absurd h hagain⟩⟩

/-- What a tick does to a channel is said of the channel, its block and the time base alone. -/
theorem TickFell.congr {u s t v : State} {n : Chan} {inst : Nat} {slot : Fin 16} (hsame : Same [.free, .chan] u s)
    (hbefore : s.chan.get n = u.chan.get n) (hafter : v.chan.get n = t.chan.get n) (h : TickFell s t n inst slot) :
    TickFell u v n inst slot := by
  have htb : s.tb = u.tb := hsame .tb rfl
  have hclock : s.clock = u.clock := hsame .clock rfl
  have hcal : s.cal = u.cal := hsame .cal rfl
  have hclockOf : s.clockOf inst = u.clockOf inst := by simp only [State.clockOf, State.full, htb, hclock]
  have hwork : s.workChan n = u.workChan n := by
    rw [State.workChan, State.workChan, State.bankNow, State.bankNow, State.cycle, State.cycle, State.cycleAt, State.cycleAt, htb,
      hclock, hcal]
  simpa only [TickFell, FlightFormed, CountAt, htb, hclockOf, hwork, hbefore, hafter] using h

theorem State.tickAll_fell (s : State) (inst : Nat) (slot : Fin 16) (n : Chan) :
    TickFell s ((s.tickAll inst slot).issue slot) n inst slot := by
  obtain ⟨t, hsame, hbefore, hafter⟩ :=
    s.eachChan_turn (fun n t => t.tickChannel_same n inst slot) (fun n t => t.tickChannel_onlyChan n inst slot) n
  have hissued : ((s.tickAll inst slot).issue slot).chan = (s.tickAll inst slot).chan := State.issue_same _ slot .chan rfl
  refine (t.tickChannel_fell n inst slot).congr hsame hbefore ?_
  rw [hissued]
  exact hafter

theorem State.issue_issued (s : State) (i : Fin 16) : (s.issue i).issued i = true :=
  List.contains_iff_mem.mpr List.mem_cons_self

/-! ### TIME_TICK and ANGLE_TICK -/

theorem exec_timeTick (dt : Nat) (slot : Fin 16) (s : State) : exec (.timeTick dt slot) s = .next ((advance dt s).timeTick slot) :=
  rfl

theorem exec_angleTick (dt : Nat) (s : State) : exec (.angleTick dt) s = .next (advance dt s).angleTick := rfl

theorem State.timeTick_of_instant {s : State} {slot : Fin 16} {p k inst : Nat} {outs : Bool} (hset : s.tb.epochSet = true)
    (htask : s.slotTask slot = some (.time p true outs)) (hactive : s.slotActive slot = true)
    (hkept : s.cancelledNow slot = false) (hgrid : s.gridInstant p = some (k, inst)) :
    s.timeTick slot = (s.tickAll inst slot).issue slot := by
  simp only [State.timeTick, htask, hset, hactive, hkept, hgrid, Bool.not_false, Bool.and_self, if_true]

theorem State.angleTick_of_crossing {s : State} {perTurn outs : Bool} (hset : s.tb.epochSet = true)
    (htask : s.slotTask 0 = some (.angle perTurn true outs)) (hactive : s.angleActive = true)
    (hkept : s.cancelledNow 0 = false) (hcrossed : s.crossedForward (s.tickWidth perTurn) = true) :
    s.angleTick = (s.tickAll s.cycleNow 0).issue 0 := by
  simp only [State.angleTick, htask, hset, hactive, hkept, hcrossed, Bool.not_false, Bool.and_self, if_true]

end Sys2Proof.Machine

open Sys2Proof Sys2Proof.Machine

/-- Settles O14: either tick falls on each channel in turn, which it finds as it was, and its slot has issued. -/
theorem ticksFall : Obligations.TicksFall := by
  refine ⟨fun dt p k inst s u slot outs hu hset htask hactive hkept hgrid => ?time,
    fun dt s u perTurn outs hu hset htask hactive hkept hcrossed => ?angle⟩
  case time =>
    refine ⟨u.timeTick slot, hu ▸ exec_timeTick dt slot s, State.timeTick_same u slot, ?_⟩
    rw [State.timeTick_of_instant hset htask hactive hkept hgrid]
    exact ⟨u.tickAll_fell inst slot, State.issue_issued _ slot⟩
  case angle =>
    refine ⟨u.angleTick, hu ▸ exec_angleTick dt s, State.angleTick_same u, ?_⟩
    rw [State.angleTick_of_crossing hset htask hactive hkept hcrossed]
    exact ⟨u.tickAll_fell u.cycleNow 0, State.issue_issued _ 0⟩
end

section
/-! Which stitch the merge offers, and what a move does with it (R211, R288 to R292, R295, R666). -/

namespace Sys2Proof.Machine
open Sys2Proof

/-! ### The offer of the merge (R211, R666) -/

/-- The better of the offer so far and what a channel may move: the earlier one, of equal times the one so far. -/
def State.mergeBetter (s : State) (g : Chan → Option MergeEntry) (best : Option (Chan × MergeEntry)) (n : Chan) :
    Option (Chan × MergeEntry) :=
  match g n with
  | none => best
  | some e =>
    match best with
    | none => some (n, e)
    | some b => if s.before e.item b.2.item then some (n, e) else best

theorem State.mergePick_eq_foldl (s : State) :
    s.mergePick =
      Chan.all.foldl (s.mergeBetter fun n => (s.chan.get n).movable (decide (s.chain.items.length ≤ 62)) s.cycle) none := rfl

/-- An offer is the oldest of what these channels may move, of equal times the lowest channel's. -/
def IsOldest (g : Chan → Option MergeEntry) (l : List Chan) : Option (Chan × MergeEntry) → Prop
  | none => ∀ m ∈ l, g m = none
  | some (n, e) => n ∈ l ∧ g n = some e ∧
      ∀ m ∈ l, ∀ d : MergeEntry, g m = some d → e.item.full < d.item.full ∨ (e.item.full = d.item.full ∧ n ≤ m)

/-- Within the present session the earlier time goes first. -/
theorem State.before_of_present {s : State} {a b : Item} (ha : a.session = s.tb.session) (hb : b.session = s.tb.session) :
    s.before a b = decide (a.full < b.full) := by
  rw [State.before, if_pos (ha.trans hb.symm)]

section
variable {s : State} {g : Chan → Option MergeEntry}
  (hpresent : ∀ (m : Chan) (d : MergeEntry), g m = some d → d.item.session = s.tb.session)
include hpresent

theorem IsOldest.mergeBetter {l : List Chan} {best : Option (Chan × MergeEntry)} {c : Chan} (h : IsOldest g l best)
    (hc : ∀ m ∈ l, m < c) : IsOldest g (l ++ [c]) (s.mergeBetter g best c) := by
  have hlast {m : Chan} (hm : m ∈ l ++ [c]) : m ∈ l ∨ m = c := by simpa using hm
  have hcmem : c ∈ l ++ [c] := by simp
  cases hd : g c with
  | none =>
    simp only [State.mergeBetter, hd]
    match best, h with
    | none, h => exact fun m hm => (hlast hm).elim (h m) fun hmc => hmc ▸ hd
    | some (n, e), ⟨hn, he, hold⟩ =>
      refine ⟨List.mem_append_left _ hn, he, fun m hm d' hd' => (hlast hm).elim (fun hml => hold m hml d' hd') fun hmc => ?_⟩
      exact absurd (hd'.symm.trans (hmc ▸ hd)) (Option.some_ne_none d')
  | some d =>
    have hself {m : Chan} {d' : MergeEntry} (hmc : m = c) (hd' : g m = some d') : d' = d :=
      Option.some.inj (hd'.symm.trans (hmc ▸ hd))
    match best, h with
    | none, h =>
      simp only [State.mergeBetter, hd]
      refine ⟨hcmem, hd, fun m hm d' hd' => (hlast hm).elim (fun hml => ?_) fun hmc => ?_⟩
      · exact absurd (hd'.symm.trans (h m hml)) (Option.some_ne_none d')
      · exact .inr ⟨by rw [hself hmc hd'], hmc.ge⟩
    | some (n, e), ⟨hn, he, hold⟩ =>
      simp only [State.mergeBetter, hd, State.before_of_present (hpresent c d hd) (hpresent n e he), decide_eq_true_eq]
      split
      · next hearlier =>
        refine ⟨hcmem, hd, fun m hm d' hd' => (hlast hm).elim (fun hml => .inl ?_) fun hmc => ?_⟩
        · have := hold m hml d' hd'
          omega
        · exact .inr ⟨by rw [hself hmc hd'], hmc.ge⟩
      · next hnot =>
        refine ⟨List.mem_append_left _ hn, he, fun m hm d' hd' => (hlast hm).elim (fun hml => hold m hml d' hd') fun hmc => ?_⟩
        rw [hself hmc hd']
        exact (Nat.le_of_not_lt hnot).lt_or_eq.imp_right fun heq => ⟨heq, hmc ▸ (hc n hn).le⟩

/-- Asked in ascending order, the channels yield the oldest of what they may move. -/
theorem IsOldest.foldl_mergeBetter {l : List Chan} (hl : l.Pairwise (· < ·)) : IsOldest g l (l.foldl (s.mergeBetter g) none) := by
  induction l using List.reverseRecOn with
  | nil => exact fun _ hm => absurd hm List.not_mem_nil
  | append_singleton l c ih =>
    obtain ⟨hl, -, hc⟩ := List.pairwise_append.mp hl
    rw [List.foldl_append]
    exact (ih hl).mergeBetter hpresent fun m hm => hc m hm c List.mem_cons_self

end

/-! ### A move (R288 to R292, R295) -/

theorem exec_mergeMove (dt : Nat) (flip : BitVec 7) (s : State) :
    exec (.mergeMove dt flip) s = .next ((advance dt s).mergeMove flip) := rfl

/-- What enters the chain stitch stands behind the others; the check of the pointers can only find a mismatch (R287, R298). -/
theorem State.enterChain_chain (s : State) (i : Item) :
    ∃ m, (s.enterChain i).chain =
      { s.chain.note s.cycle with
        items := s.chain.items ++ [i], entryA := s.chain.entryA + 1, entryB := s.chain.entryB + 1, entered := some s.cycle
        mismatch := m } :=
  State.checkChain_eq _

/-- The oldest stitch of a channel has left the merge, which counts as a move of this cycle (R211). -/
def State.moved (s : State) (n : Chan) : State :=
  let t := s.modChan n fun c => { c.noteMerge s.cycle with merge := c.merge.tail }
  { t with chain := { t.chain with moves := remember 8 s.cycle t.chain.moves } }

theorem State.moved_chan (s : State) (n : Chan) :
    (s.moved n).chan.get n = { (s.chan.get n).noteMerge s.cycle with merge := (s.chan.get n).merge.tail } := Per8.get_set_same ..

theorem State.moved_onlyChan (s : State) (n : Chan) : OnlyChan n s (s.moved n) := fun m hm => Per8.get_set_ne s.chan n m _ hm

theorem State.refuse_onlyChan (s : State) (n : Chan) (e : MergeEntry) (k : Nat) : OnlyChan n s (s.refuse n e k) :=
  fun m hm => Per8.get_set_ne s.chan n m _ hm

section
variable {s : State} (flip : BitVec 7)

theorem State.mergeMove_of_blocked
    (h : s.mergePick = none ∨ s.mergeRate = false ∨ s.mergeDeferred = true ∨ s.entryFree = false) : s.mergeMove flip = s := by
  unfold State.mergeMove
  split
  · next n e hpick =>
    have hblocked := h.resolve_left (hpick ▸ Option.some_ne_none _)
    exact if_neg (by rcases hblocked with h | h | h <;> simp [h])
  · rfl

variable {n : Chan} {e : MergeEntry} (hpick : s.mergePick = some (n, e)) (hrate : s.mergeRate = true)
  (hnow : s.mergeDeferred = false) (hfree : s.entryFree = true)
include hpick hrate hnow hfree

theorem State.mergeMove_of_room (hroom : s.chain.items.length ≤ 62) :
    s.mergeMove flip = ((s.moved n).upsetEntry flip).enterChain e.item := by
  simp only [State.mergeMove, hpick, hrate, hnow, hfree, Bool.not_false, Bool.and_self, if_true, if_pos hroom, State.moved]

theorem State.mergeMove_of_full (hfull : 62 < s.chain.items.length) : s.mergeMove flip = (s.moved n).refuse n e s.cycle := by
  simp only [State.mergeMove, hpick, hrate, hnow, hfree, Bool.not_false, Bool.and_self, if_true, if_neg (Nat.not_le_of_lt hfull),
    State.moved]

end

end Sys2Proof.Machine

open Sys2Proof Sys2Proof.Machine

/-- Settles O15: what the merge offers is the oldest, a move takes it into the chain stitch or refuses it. -/
theorem mergeMoves : Obligations.MergeMoves := by
  refine ⟨fun s room n e hroom hpick hpresent => ?offer, fun dt flip s u hu => ⟨fun hblocked => ?blocked, ?moves⟩⟩
  case offer =>
    subst hroom
    have hold := IsOldest.foldl_mergeBetter hpresent (l := Chan.all) (by decide)
    rw [← State.mergePick_eq_foldl, hpick] at hold
    obtain ⟨-, he, hold⟩ := hold
    have hall : ∀ m : Chan, m ∈ Chan.all := by decide
    exact ⟨he, fun m d hd => hold m (hall m) d hd⟩
  case blocked => rw [exec_mergeMove, ← hu, State.mergeMove_of_blocked flip hblocked]
  case moves =>
    intro n e hpick hrate hnow hfree
    refine ⟨u.mergeMove flip, hu ▸ exec_mergeMove dt flip s, State.mergeMove_same u flip, ?_⟩
    have hmoved := u.moved_chan n
    by_cases hroom : u.chain.items.length ≤ 62
    · rw [State.mergeMove_of_room flip hpick hrate hnow hfree hroom]
      obtain ⟨m, hchain⟩ := ((u.moved n).upsetEntry flip).enterChain_chain e.item
      have hchan : (((u.moved n).upsetEntry flip).enterChain e.item).chan = (u.moved n).chan :=
        State.enterChain_same _ _ .chan rfl
      beta_reduce
      rw [hchain, hchan, hmoved]
      refine ⟨?_, rfl, rfl, fun _ => ⟨rfl, rfl, rfl, rfl⟩, fun h => absurd hroom (Nat.not_le_of_lt h)⟩
      exact fun k hk => (congrArg (·.get k) hchan).trans (u.moved_onlyChan n k hk)
    · have hfull : 62 < u.chain.items.length := Nat.lt_of_not_le hroom
      rw [State.mergeMove_of_full flip hpick hrate hnow hfree hfull]
      obtain ⟨hmerge, hrefusals, hrun⟩ := State.refuse_run (u.moved n) n e u.cycle
      rw [hmoved] at hmerge hrun
      refine ⟨?_, hmerge, rfl, fun h => absurd h hroom, fun _ => ⟨rfl, hrefusals, hrun⟩⟩
      exact (u.moved_onlyChan n).trans (State.refuse_onlyChan _ n e _)
end

section
/-! The phase follower (R222 to R225, R228 to R233, R240, R249, R250): what a pulse does in each state, quadrature steps, a late
event, the loss of phase and the follower's fault commands. -/

namespace Sys2Proof.Machine
open Sys2Proof

/-! ### What each command runs -/

theorem exec_referenceEvent (dt low : Nat) (s : State) :
    exec (.referenceEvent dt low) s = .next ((advance dt s).referenceEvent low) := rfl

theorem exec_quadratureStep (dt : Nat) (q : QuadStep) (s : State) :
    exec (.quadratureStep dt q) s = .next ((advance dt s).quadratureStep q) := rfl

theorem exec_referenceEventTimeout (dt : Nat) (s : State) :
    exec (.referenceEventTimeout dt) s = .next (advance dt s).referenceTimeout := rfl

theorem exec_phaseLoss (dt : Nat) (s : State) : exec (.phaseLoss dt) s = .next (advance dt s).phaseLoss := rfl

theorem exec_phaseLockTimeout (dt : Nat) (s : State) :
    exec (.phaseLockTimeout dt) s = .next ((advance dt s).when
      ((advance dt s).tb.epochSet && (advance dt s).hasPhase && (advance dt s).fol.st == 1 &&
        decide (40000000000000 ≤ (advance dt s).clock - (advance dt s).fol.unlockedAt)) fun t => t.raise 0x29 0xFF 0 0) := rfl

theorem exec_referenceSpacingFault (dt : Nat) (s : State) :
    exec (.referenceSpacingFault dt) s = .next ((advance dt s).when
      ((advance dt s).outOfReset && ((advance dt s).phaseType == 2 || (advance dt s).phaseType == 3))
      fun t => t.raise 0x2B 0xFF 0 0) := rfl

theorem exec_referenceSpacingClear (dt : Nat) (s : State) :
    exec (.referenceSpacingClear dt) s = .next ((advance dt s).clearFault 0x2B 0xFF) := rfl

theorem exec_sineAmplitudeFault (dt : Nat) (s : State) :
    exec (.sineAmplitudeFault dt) s = .next ((advance dt s).when ((advance dt s).outOfReset && (advance dt s).phaseType == 3)
      fun t => (t.modFol fun f => { f with weak := true }).raise 0x2D 0xFF 0 0) := rfl

theorem exec_sineAmplitudeClear (dt : Nat) (s : State) :
    exec (.sineAmplitudeClear dt) s =
      .next (((advance dt s).modFol fun f => { f with weak := false }).clearFault 0x2D 0xFF) := rfl

/-! ### Rules of the follower's part -/

/-- The follower with an angle kept from before a cycle (R235). -/
def Follower.marked (f : Follower) (k a : Nat) : Follower := { f with heldAt := k, heldAngle := a }

/-- The mark of a change keeps an angle with its cycle, and leaves the follower as it stands otherwise (R235). -/
theorem State.markFol_eq (s : State) : ∃ k a : Nat, s.markFol = s.modFol (·.marked k a) := by
  by_cases h : s.fol.heldAt = s.cycle
  · exact ⟨s.fol.heldAt, s.fol.heldAngle, congrArg (fun f => { s with fol := f }) (if_pos h)⟩
  · exact ⟨s.cycle, s.folIn (s.cycle - 1), congrArg (fun f => { s with fol := f }) (if_neg h)⟩

theorem Follower.bad_of_locked {f : Follower} (h : f.st = 2) : f.bad = { f with st := 3, goodRun := 0 } := if_pos h

/-- In lock a bad event begins a coast (R229). -/
theorem State.markFol_bad_of_locked {s : State} (h : s.fol.st = 2) :
    s.markFol.fol.bad = { s.markFol.fol with st := 3, goodRun := 0 } := by
  obtain ⟨k, a, hmark⟩ := s.markFol_eq
  rw [hmark]
  exact Follower.bad_of_locked h

/-- The rate of the last four turns is a new period, or there are not yet four of them (R223). -/
theorem Follower.measured_eq (f : Follower) :
    ∃ d : Nat, (if f.events.length = 5 then f.measure else f) = { f with period := d } := by
  split
  · exact ⟨_, rfl⟩
  · exact ⟨f.period, rfl⟩

theorem satSucc_toNat (c : BitVec 16) : (satSucc c).toNat = min 65535 (c.toNat + 1) := by
  unfold satSucc
  split
  · next h => rw [h]; rfl
  · next h =>
    have hne : c.toNat ≠ 65535 := fun hc => h (BitVec.eq_of_toNat_eq hc)
    have hadd : (c + 1).toNat = (c.toNat + 1) % 65536 := BitVec.toNat_add c 1
    omega

/-- The follower as an event corrects it (R223, R224, R228). -/
def Follower.corrected (f : Follower) (phase : BitVec 32) (t : Nat) (events : List Nat) : Follower :=
  { f with phase := phase, phaseAt := t, events := events }

/-- The follower in lock after a good event, at a turn period (R223, R249). -/
def Follower.followed (f : Follower) (p : PulseEvent) (period t : Nat) : Follower :=
  { ({ f with period := period } : Follower).report p with goodAt := t }

/-- The follower that a good event has brought back to lock (R230, R249). -/
def Follower.regained (f : Follower) (p : PulseEvent) (t : Nat) : Follower :=
  { f.report p with st := 2, goodRun := 0, goodAt := t, coasts := satSucc f.coasts }

/-- Stated for any phase: with the angle's 65536 in its place the fields would be costly to compare. -/
theorem Follower.followed_corrected (f : Follower) (phase : BitVec 32) (events : List Nat) (p : PulseEvent) (period t : Nat) :
    let g := (f.corrected phase t events).followed p period t
    g.st = f.st ∧ g.phase = phase ∧ g.phaseAt = t ∧ g.goodAt = t ∧ g.lockedPeriod = g.period ∧ g.coasts = f.coasts :=
  ⟨rfl, rfl, rfl, rfl, rfl, rfl⟩

theorem Follower.regained_corrected (f : Follower) (phase : BitVec 32) (events : List Nat) (p : PulseEvent) (t : Nat) :
    let g := (f.corrected phase t events).regained p t
    g.st = 2 ∧ g.phase = phase ∧ g.goodAt = t ∧ g.coasts.toNat = min 65535 (f.coasts.toNat + 1) :=
  ⟨rfl, rfl, rfl, satSucc_toNat f.coasts⟩

theorem State.correct_eq (s : State) (p : PulseEvent) (events : List Nat) :
    s.correct p events = s.modFol (·.corrected (BitVec.ofNat 32 (p.angle * 65536)) s.clock events) := rfl

theorem goodInterval_some_iff (d : Nat) : goodInterval (some d) = true ↔ 800000000 ≤ d ∧ d ≤ 4000000000000 := by
  rw [goodInterval, Bool.and_eq_true, decide_eq_true_eq, decide_eq_true_eq]
  exact Iff.rfl

theorem State.modFol_modFol (s : State) (f g : Follower → Follower) : (s.modFol f).modFol g = s.modFol (g ∘ f) := rfl

/-- After a change of the follower the slots switch, and its marker enters the chain (R233, R240). -/
theorem State.modFol_switched (s : State) (f : Follower → Follower) (event : BitVec 2) (interval : Nat) :
    (s.modFol f).switchSlots.phaseMarker event interval = { s with
      fol := f s.fol
      sched := { s.sched with switched := some s.cycle }
      chain := s.chain.offered (s.item (.phase s.tb.time
        (BitVec.ofNat 40 (min (inUnits interval 4000000) 0xFFFFFFFFFF)) event (BitVec.ofNat 2 s.phaseType))) } :=
  congrArg (fun c => { (s.modFol f).switchSlots with chain := c }) (State.hwMarker_chain _ _)

/-- What a lock leaves (R225, R232, R233, R240, R250). -/
theorem State.lock_eq (s : State) : s.lock = { s with
    fol := { s.fol with st := 2, goodAt := s.clock, goodRun := 0, stepsSinceGood := 0, lockedPeriod := s.fol.period }
    sched := { s.sched with switched := some s.cycle }
    chain := s.chain.offered (s.item (.phase s.tb.time 0 2 (BitVec.ofNat 2 s.phaseType)))
    faults := s.faults.cleared 0x29 s.tb.time 0xFF } := by
  rw [State.lock, State.modFol_switched, State.clearFault_eq]
  rfl

/-! ### A pulse in lock (R223, R228, R229) -/

section
variable {s : State} {p : PulseEvent}

/-- A good pulse corrects the accumulator and is followed at some rate, which the phase report takes (R223, R249). -/
theorem State.lockedPulse_of_good (herr : p.err.natAbs ≤ 1024) (hnear : 2 * (s.clock - s.fol.goodAt) ≤ 3 * s.fol.period)
    (hweak : s.fol.weak = false) (hinterval : goodInterval p.interval = true) :
    ∃ d : Nat, s.lockedPulse p = s.modFol fun f => (f.corrected (BitVec.ofNat 32 (p.angle * 65536)) s.clock
      (remember 5 s.clock s.fol.events)).followed p d s.clock := by
  obtain ⟨d, hd⟩ :=
    (s.fol.corrected (BitVec.ofNat 32 (p.angle * 65536)) s.clock (remember 5 s.clock s.fol.events)).measured_eq
  rw [State.lockedPulse, if_pos (by simp [herr, hnear, hweak, hinterval]), State.correct_eq,
    State.modFol_modFol]
  exact ⟨d, congrArg (fun f : Follower => { s with fol := { f.report p with goodAt := s.clock } }) hd⟩

theorem State.lockedPulse_of_bad (hst : s.fol.st = 2)
    (hbad : 1024 < p.err.natAbs ∨ 3 * s.fol.period < 2 * (s.clock - s.fol.goodAt) ∨ s.fol.weak = true ∨
      goodInterval p.interval = false) :
    s.lockedPulse p = s.modFol fun f => { f with st := 3, goodRun := 0, events := [s.clock] } := by
  rw [State.lockedPulse, if_neg ?bad]
  · exact congrArg (fun f : Follower => { s with fol := { f with events := [s.clock] } }) (Follower.bad_of_locked hst)
  case bad => rcases hbad with h | h | h | h <;> simp [h]

/-! ### A pulse while coasting (R230) -/

theorem State.coastingPulse_of_second_good (hrun : s.fol.goodRun = 1) (herr : p.err.natAbs ≤ 64) (hweak : s.fol.weak = false)
    (hinterval : goodInterval p.interval = true) :
    s.coastingPulse p = s.modFol fun f =>
      (f.corrected (BitVec.ofNat 32 (p.angle * 65536)) s.clock [s.clock]).regained p s.clock := by
  rw [State.coastingPulse, if_neg (by simp [herr, hweak, hinterval]), if_neg (by simp [hrun]), State.correct_eq]
  exact State.modFol_modFol s _ _

/-! ### A pulse while not locked (R225) -/

/-- A pulse of a weak sine, or within 200 µs of the one before, ends the acquisition (log 56). -/
theorem State.acquirePulse_of_spoilt (h : s.fol.weak = true ∨ ∃ d : Nat, p.interval = some d ∧ d < 800000000) :
    s.acquirePulse p = s.modFol fun f => { f with acquired := 0, period := 0, events := [s.clock] } := by
  refine if_pos ?_
  rcases h with hweak | ⟨d, hd, hnear⟩
  · simp [hweak]
  · have hnear : decide (d < 200 * Config.us) = true := decide_eq_true hnear
    simp [hd, hnear]

/-- The eighth good pulse in a row corrects the follower and locks it. -/
theorem State.acquirePulse_of_eighth (hacquired : s.fol.acquired = 7) (hinterval : goodInterval p.interval = true)
    (hweak : s.fol.weak = false) (herr : p.err.natAbs ≤ 64) :
    ∃ f : Follower → Follower, s.acquirePulse p = (s.modFol f).lock := by
  have hbounds (d : Nat) (hd : p.interval = some d) : ¬d < 200 * Config.us ∧ ¬Config.sec < d := by
    obtain ⟨hlow, hhigh⟩ := (goodInterval_some_iff d).mp (hd ▸ hinterval)
    exact ⟨Nat.not_lt.mpr hlow, Nat.not_lt.mpr hhigh⟩
  unfold State.acquirePulse
  dsimp only
  rw [if_neg ?spoilt, if_neg ?first, hacquired, if_pos rfl, State.correct, State.modFol_modFol, State.modFol_modFol,
    State.modFol_modFol]
  · exact ⟨_, rfl⟩
  case spoilt =>
    cases hd : p.interval with
    | none => simp [hweak, herr]
    | some d => simp [hweak, herr, (hbounds d hd).1]
  case first =>
    cases hd : p.interval with
    | none => simp [hacquired]
    | some d => simp [hacquired, (hbounds d hd).2]

end

/-! ### REFERENCE_EVENT (R225, R228 to R230, R243) -/

section
variable {dt low : Nat} {s u : State} (hu : u = advance dt s) (hset : u.tb.epochSet = true) (htype : 2 ≤ u.phaseType)
include hset htype

theorem State.referenceEvent_of_issued (hissued : u.angleIssued = true) : u.referenceEvent low = u.later (.event low) := by
  have hphase : u.hasPhase = true := bne_iff_ne.mpr (by omega)
  simp [State.referenceEvent, hset, hphase, hissued]

variable (hnow : u.angleIssued = false)
include hnow

theorem State.referenceEvent_of_not_issued : u.referenceEvent low =
    if u.fol.st = 2 then u.markFol.lockedPulse (u.pulseEvent low)
    else if u.fol.st = 3 then u.markFol.coastingPulse (u.pulseEvent low)
    else u.markFol.acquirePulse (u.pulseEvent low) := by
  have hphase : u.hasPhase = true := bne_iff_ne.mpr (by omega)
  have hpulse : u.phaseType ≠ 1 := by omega
  simp only [State.referenceEvent, hset, hphase, hnow, Bool.and_self, Bool.not_true, Bool.false_eq_true, if_false,
    State.takeEvent, if_neg hpulse]

include hu

theorem does_referenceEvent_locked {P : State → Prop} (hst : u.fol.st = 2)
    (hP : P (u.markFol.lockedPulse (u.pulseEvent low))) : Does (.referenceEvent dt low) s u [.fol] P := by
  refine ⟨_, ?_, Same.step (State.lockedPulse_same _ _) rfl u.markFol_same, hP⟩
  rw [exec_referenceEvent, ← hu, State.referenceEvent_of_not_issued hset htype hnow, if_pos hst]

theorem does_referenceEvent_coasting {P : State → Prop} (hst : u.fol.st = 3)
    (hP : P (u.markFol.coastingPulse (u.pulseEvent low))) : Does (.referenceEvent dt low) s u [.fol] P := by
  refine ⟨_, ?_, Same.step (State.coastingPulse_same _ _) rfl u.markFol_same, hP⟩
  rw [exec_referenceEvent, ← hu, State.referenceEvent_of_not_issued hset htype hnow, if_neg (by simp [hst]), if_pos hst]

theorem does_referenceEvent_acquiring {ps : List Part} {P : State → Prop} (hst : u.fol.st = 1)
    (hsame : Same ps u (u.markFol.acquirePulse (u.pulseEvent low))) (hP : P (u.markFol.acquirePulse (u.pulseEvent low))) :
    Does (.referenceEvent dt low) s u ps P := by
  refine ⟨_, ?_, hsame, hP⟩
  rw [exec_referenceEvent, ← hu, State.referenceEvent_of_not_issued hset htype hnow, if_neg (by simp [hst]),
    if_neg (by simp [hst])]

end

/-! ### QUADRATURE_STEP and REFERENCE_EVENT_TIMEOUT (R222, R228, R229, R243) -/

theorem State.quadratureStep_of_issued {u : State} (q : QuadStep) (hset : u.tb.epochSet = true) (htype : u.phaseType = 1)
    (hissued : u.angleIssued = true) : u.quadratureStep q = u.later (.step q) := by
  simp [State.quadratureStep, hset, htype, hissued]

theorem State.quadratureStep_of_not_issued {u : State} (q : QuadStep) (hset : u.tb.epochSet = true) (htype : u.phaseType = 1)
    (hnow : u.angleIssued = false) : u.quadratureStep q = u.takeStep q := by
  simp [State.quadratureStep, hset, htype, hnow]

theorem State.takeStep_of_legal (u : State) (forward : Bool) :
    u.takeStep (if forward then .forward else .reverse) = u.markFol.modFol fun f => f.step u.clock forward := by
  cases forward <;> rfl

/-- An illegal transition in lock begins a coast, and counts under fault 0x2C (R228, R229, R250). -/
theorem State.takeStep_illegal_of_locked {u : State} (hst : u.fol.st = 2) :
    (u.takeStep .illegal).fol = { u.markFol.fol with st := 3, goodRun := 0 } ∧
      (u.faults.period 0x2C 0 = none →
        (u.takeStep .illegal).faults.events = (u.faults.logged 0x2C u.tb.time 0xFF 1 0).events) := by
  have hfol : (u.takeStep .illegal).fol = u.markFol.fol.bad := State.logLimited_same _ _ _ _ _ _ .fol rfl
  exact ⟨hfol.trans (State.markFol_bad_of_locked hst),
    fun hperiod => (State.logLimited_of_no_period (u := u.markFol.modFol Follower.bad) 0xFF 0 hperiod).2⟩

theorem State.referenceTimeout_of_locked {u : State} (htype : u.phaseType = 2 ∨ u.phaseType = 3) (hst : u.fol.st = 2) :
    u.referenceTimeout =
      if 3 * u.fol.period ≤ 2 * (u.clock - u.fol.goodAt) then
        { u with fol := { u.markFol.fol with st := 3, goodRun := 0 } }
      else u := by
  have hbad : u.markFol.modFol Follower.bad = { u with fol := { u.markFol.fol with st := 3, goodRun := 0 } } :=
    congrArg (fun f => { u with fol := f }) (State.markFol_bad_of_locked hst)
  have htype : (u.phaseType == 2 || u.phaseType == 3) = true := by simpa using htype
  simp only [State.referenceTimeout, htype, hst, BEq.rfl, Bool.true_and, decide_eq_true_eq, hbad]

/-! ### PHASE_LOSS (R231 to R233, R240, R250) -/

/-- What the loss does to the follower: it begins to acquire afresh, and the loss counts. -/
def Follower.lost (f : Follower) (t : Nat) : Follower :=
  { f with st := 1, events := [], acquired := 0, goodRun := 0, losses := satSucc f.losses, unlockedAt := t }

/-- A coast that has run its length ends in a loss: the follower, the open gates, the slots, the marker and the fault. -/
theorem State.phaseLoss_of_due {u : State} (htype : u.phaseType = 2 ∨ u.phaseType = 3) (hst : u.fol.st = 3)
    (hdue : 2 ^ u.coastLog2 * u.fol.lockedPeriod ≤ u.clock - u.fol.goodAt) :
    u.phaseLoss = { u.flagGates fun g => { g with phaseLoss := true } with
      fol := u.markFol.fol.lost u.clock
      sched := { u.sched with switched := some u.cycle }
      chain := u.chain.offered (u.item (.phase u.tb.time
        (BitVec.ofNat 40 (min (inUnits (u.clock - u.fol.goodAt) 4000000) 0xFFFFFFFFFF)) 1 (BitVec.ofNat 2 u.phaseType)))
      faults := u.faults.logged 0x28 u.tb.time 0xFF 0 0 } := by
  have hphase : u.hasPhase = true := bne_iff_ne.mpr (by omega)
  have hpulse : u.phaseType ≠ 1 := by omega
  have hlost : (u.markFol.modFol fun f => f.lost u.clock).flagGates (fun g => { g with phaseLoss := true }) =
      (u.flagGates fun g => { g with phaseLoss := true }).modFol fun _ => u.markFol.fol.lost u.clock := rfl
  unfold State.phaseLoss
  dsimp only
  rw [if_pos (by simp [hphase, hst, hpulse, hdue])]
  change (State.phaseMarker (State.switchSlots (State.flagGates (u.markFol.modFol fun f => f.lost u.clock) _)) 1 _).log _ _ _ _ = _
  rw [hlost, State.modFol_switched, State.log_eq]
  rfl

theorem State.flagGates_gate {s : State} {f : Gate → Gate} {n : Chan} {g : Gate}
    (h : ((s.flagGates f).stat.get n).gate = some g) : ∃ g₀, f g₀ = g := by
  rw [State.flagGates, Per8.get_map] at h
  obtain ⟨g₀, -, hg⟩ := Option.map_eq_some_iff.mp h
  exact ⟨g₀, hg⟩

theorem does_phaseLoss {dt : Nat} {s u : State} (hu : u = advance dt s) (htype : u.phaseType = 2 ∨ u.phaseType = 3)
    (hst : u.fol.st = 3) (hdue : 2 ^ u.coastLog2 * u.fol.lockedPeriod ≤ u.clock - u.fol.goodAt) :
    Does (.phaseLoss dt) s u [.stat, .chain, .sched, .fol, .faults] fun t =>
      t.fol.st = 1 ∧ t.fol.acquired = 0 ∧ t.fol.losses.toNat = min 65535 (u.fol.losses.toNat + 1) ∧
        t.fol.unlockedAt = u.clock ∧ t.sched = { u.sched with switched := some u.cycle } ∧
        t.chain = u.chain.offered (u.item (.phase u.tb.time
          (BitVec.ofNat 40 (min (inUnits (u.clock - u.fol.goodAt) 4000000) 0xFFFFFFFFFF)) 1 (BitVec.ofNat 2 u.phaseType))) ∧
        t.faults = u.faults.logged 0x28 u.tb.time 0xFF 0 0 ∧
        ∀ (n : Chan) (g : Gate), (t.stat.get n).gate = some g → g.phaseLoss = true := by
  refine ⟨u.phaseLoss, hu ▸ exec_phaseLoss dt s, u.phaseLoss_same, ?_⟩
  rw [State.phaseLoss_of_due htype hst hdue]
  obtain ⟨k, a, hmark⟩ := u.markFol_eq
  refine ⟨rfl, rfl, ?_, rfl, rfl, rfl, rfl, fun n g hg => ?_⟩
  · rw [hmark]
    exact satSucc_toNat u.fol.losses
  · obtain ⟨g₀, rfl⟩ := State.flagGates_gate hg
    rfl

end Sys2Proof.Machine

open Sys2Proof Sys2Proof.Machine

/-- Settles O37: a pulse by the follower's state, the steps, the late event and the loss, and the fault commands. -/
theorem followerWorks : Obligations.FollowerWorks := by
  refine ⟨fun dt low s u p hu hset htype _ hp => ⟨fun hissued => ?waits, fun hnow =>
      ⟨fun hst herr hnear hweak hinterval => ?good, fun hst hbad => ?bad, fun hst hrun herr hweak hinterval => ?regained,
        fun hst hacquired hinterval hweak herr => ?locks, fun hst hspoilt => ?spoilt⟩, goodInterval_some_iff⟩,
    ⟨fun dt s u hu hset htype => ⟨fun q hissued => ?stepWaits, fun forward hnow => ?step, fun hst hnow => ?illegal⟩,
      fun dt s u hu htype hst => ?late, fun dt s u hu htype hst hdue => does_phaseLoss hu htype hst hdue⟩,
    fun dt s u hu => ⟨fun hset hphase hst => ?unlocked, fun hout htype => ?spacing, ?spacingClear,
      fun hout htype => ?weak, ?weakClear⟩⟩
  case waits =>
    rw [exec_referenceEvent, ← hu, State.referenceEvent_of_issued hset htype hissued]
    rfl
  case good =>
    subst hp
    refine does_referenceEvent_locked hu hset htype hnow hst ?_
    obtain ⟨k, a, hmark⟩ := u.markFol_eq
    rw [hmark]
    obtain ⟨d, hpulse⟩ := State.lockedPulse_of_good (s := u.modFol (·.marked k a)) herr hnear hweak hinterval
    rw [hpulse]
    obtain ⟨hlocked, hafter⟩ := Follower.followed_corrected (u.fol.marked k a) _ _ _ d u.clock
    exact ⟨hlocked.trans hst, hafter⟩
  case bad =>
    subst hp
    refine does_referenceEvent_locked hu hset htype hnow hst ?_
    obtain ⟨k, a, hmark⟩ := u.markFol_eq
    rw [hmark, State.lockedPulse_of_bad (s := u.modFol (·.marked k a)) hst hbad]
    rfl
  case regained =>
    subst hp
    refine does_referenceEvent_coasting hu hset htype hnow hst ?_
    obtain ⟨k, a, hmark⟩ := u.markFol_eq
    rw [hmark, State.coastingPulse_of_second_good (s := u.modFol (·.marked k a)) hrun herr hweak hinterval]
    exact Follower.regained_corrected (u.fol.marked k a) _ _ _ u.clock
  case locks =>
    subst hp
    refine does_referenceEvent_acquiring hu hset htype hnow hst
      (Same.step (State.acquirePulse_same _ _) rfl (u.markFol_same.mono rfl)) ?_
    obtain ⟨k, a, hmark⟩ := u.markFol_eq
    obtain ⟨f, hlock⟩ := State.acquirePulse_of_eighth (s := u.modFol (·.marked k a)) hacquired hinterval hweak herr
    rw [hmark, hlock, State.lock_eq]
    exact ⟨rfl, rfl, rfl, rfl, rfl⟩
  case spoilt =>
    subst hp
    obtain ⟨k, a, hmark⟩ := u.markFol_eq
    have hacquire := State.acquirePulse_of_spoilt (s := u.modFol (·.marked k a)) hspoilt
    rw [← hmark] at hacquire
    refine does_referenceEvent_acquiring hu hset htype hnow hst ?_ ?_
    · exact hacquire ▸ Same.step (State.modFol_same _ _) rfl u.markFol_same
    · rw [hacquire, hmark]
      exact ⟨hst, rfl⟩
  case stepWaits =>
    rw [exec_quadratureStep, ← hu, State.quadratureStep_of_issued q hset htype hissued]
    rfl
  case step =>
    obtain ⟨k, a, hmark⟩ := u.markFol_eq
    rw [exec_quadratureStep, ← hu, State.quadratureStep_of_not_issued _ hset htype hnow, State.takeStep_of_legal, hmark]
    rfl
  case illegal =>
    refine ⟨u.takeStep .illegal, ?_, u.takeStep_same .illegal, State.takeStep_illegal_of_locked hst⟩
    rw [exec_quadratureStep, ← hu, State.quadratureStep_of_not_issued _ hset htype hnow]
  case late => rw [exec_referenceEventTimeout, ← hu, State.referenceTimeout_of_locked htype hst]
  case unlocked =>
    rw [exec_phaseLockTimeout, ← hu, State.when_raise, hset, hphase, hst]
    simp
  case spacing =>
    rw [exec_referenceSpacingFault, ← hu, State.when_raise]
    simp [hout, htype]
  case spacingClear => rw [exec_referenceSpacingClear, ← hu, State.clearFault_eq]
  case weak =>
    rw [exec_sineAmplitudeFault, ← hu, hout, htype, BEq.rfl, Bool.and_self, State.when_true, State.raise_eq]
    rfl
  case weakClear =>
    rw [exec_sineAmplitudeClear, ← hu, State.clearFault_eq]
    rfl
end

section
/-! A summary that cannot form yet: while a stitch from before the end of the next gate is on its way, SUMMARY_COMPLETE changes
nothing (R25, R282, log 70). -/

namespace Sys2Proof.Machine
open Sys2Proof

/-! ### SUMMARY_COMPLETE -/

theorem exec_summaryComplete (dt : Nat) (s : State) : exec (.summaryComplete dt) s = .next (advance dt s).summaryComplete := rfl

theorem State.summaryComplete_of_stitch_underway {s : State} {g : Gate} (hout : s.eng.outgoing = []) (hnext : s.eng.next = some g)
    (hopen : s.gateOpenEnded g = true) : s.summaryComplete = s := by
  simp [State.summaryComplete, hout, hnext, hopen]

/-! ### The one stitch on its way, not yet due -/

section
variable {s : State} {n : Chan} {f : Flight}

theorem State.settleAll_of_single_early (hone : (s.chan.get n).flights = [f])
    (hnone : ∀ m : Chan, m ≠ n → (s.chan.get m).flights = []) (hearly : s.clock < f.at_) : s.settleAll = s := by
  rw [State.settleAll, State.inFlight_of_single hone hnone, State.settle, State.nextFlight_of_single hone hnone]
  exact if_neg (Nat.not_le.mpr hearly)

/-- Where no command waits and the one stitch on its way is not due, time that passes within the cycle brings nothing else. -/
theorem advance_of_single_early {dt : Nat} (hlate : s.sched.late = []) (hone : (s.chan.get n).flights = [f])
    (hnone : ∀ m : Chan, m ≠ n → (s.chan.get m).flights = []) (hcycle : s.cycleAt (s.clock + dt) ≤ s.cycle)
    (hearly : s.clock + dt < f.at_) : advance dt s = State.pass dt s := by
  rw [advance, hlate, if_pos (by simp), State.flow]
  simp only [if_neg (Nat.not_lt.mpr hcycle)]
  exact State.settleAll_of_single_early hone hnone hearly

end

end Sys2Proof.Machine

open Sys2Proof Sys2Proof.Machine

/-- Refutes O18: SUMMARY_COMPLETE in the cycle after a boundary at 10 s finds the stitch of an edge 50 ns before the boundary still
on its way, so that the gate that ended there goes on waiting for its arithmetic (R25, R282, log 70). -/
theorem not_summariesForm : ¬ Obligations.SummariesForm := by
  rintro ⟨-, hcomplete⟩
  let gate : Gate := { State.reset.newGate 0 0 0 true with fin := 40000000000000, finCount := 1, yarn := 1 }
  let stitch : StampRec :=
    { full := 39999999800000, count := 1, angle := 0, angleState := 0, tick := 39999999600000, isEdge := true, session := 0,
      yarn := 1, segs := .const 0 }
  let flight : Flight :=
    { stamp := stitch, slots := [0], no := 0, captureAt := 39999999800000, taken := true, at_ := 40000000320000 }
  let early : State :=
    { State.reset with
      clock := 40000000012800
      core := { Core.reset with boot := .ready }
      tb := { Timebase.reset with time := 40000000012800, epochSet := true, locked := true }
      chan := State.reset.chan.set 0 { Channel.reset with st := .present, up := true, yarn := 1, count := 1, flights := [flight] }
      eng := { Engine.reset with interval := 1, ended := [gate] } }
  have hpass : advance 0 early = State.pass 0 early :=
    advance_of_single_early (n := 0) (f := flight) rfl rfl (by decide) (Nat.le_refl _) (by decide)
  have heng : (advance 0 early).eng = early.eng := by rw [hpass, State.pass_eng]
  have hopen : (advance 0 early).gateOpenEnded gate = true := by rw [hpass]; decide
  have hout : (advance 0 early).eng.outgoing = [] := by rw [heng]; rfl
  have hnext : (advance 0 early).eng.next = some gate := by rw [heng]; rfl
  obtain ⟨t, hexec, -, -, -, -, hended, -⟩ := hcomplete 0 early _ gate rfl hout hnext (by rw [heng]; decide)
  have hstays : advance 0 early = t := by
    rw [exec_summaryComplete, State.summaryComplete_of_stitch_underway hout hnext hopen] at hexec
    exact Host.Outcome.next.inj hexec
  rw [← hstays, heng] at hended
  exact List.cons_ne_nil gate [] (hended.trans (List.erase_cons_head gate []))
end

section
/-! The marker input, the gap marker of a drop run and the queue reset (R289, R292, R293, R296, R297, R299, R300, R322). -/

namespace Sys2Proof.Machine
open Sys2Proof

/-! ### What each command runs -/

theorem exec_markerEntry (dt : Nat) (flip : BitVec 7) (s : State) :
    exec (.markerEntry dt flip) s = .next ((advance dt s).markerEntry flip) := rfl

theorem exec_firmwareMarkerPlace (dt : Nat) (s : State) :
    exec (.firmwareMarkerPlace dt) s = .next (advance dt s).placeFirmwareMarker := rfl

theorem exec_dropRunClose (dt : Nat) (n : Chan) (s : State) : exec (.dropRunClose dt n) s = .next ((advance dt s).closeRun n) := rfl

theorem exec_queueReset (dt : Nat) (s : State) : exec (.queueReset dt) s = .next (advance dt s).queueReset := rfl

/-! ### The marker offered (R296) -/

theorem Chan.mem_all : ∀ n : Chan, n ∈ Chan.all := by decide

/-- Asked in ascending order, the channels yield the lowest that fulfils a condition. -/
theorem Chan.find?_all {p : Chan → Bool} {n : Chan} (h : p n = true) (hlower : ∀ m : Chan, m < n → p m = false) :
    Chan.all.find? p = some n := by
  obtain ⟨before, after, hall⟩ := List.append_of_mem (Chan.mem_all n)
  have hsorted : (before ++ n :: after).Pairwise (· < ·) := hall ▸ (by decide : Chan.all.Pairwise (· < ·))
  obtain ⟨-, -, hbefore⟩ := List.pairwise_append.mp hsorted
  refine List.find?_eq_some_iff_append.mpr ⟨h, before, after, hall, fun m hm => ?_⟩
  rw [hlower m (hbefore m hm n List.mem_cons_self), Bool.not_false]

section
variable {s : State}

theorem State.offer_of_reset {i : Item} {rest : List Item} (h : s.chain.resets = i :: rest) : s.offer = some (.reset i) := by
  rw [State.offer, h]

theorem State.offer_of_gap {n : Chan} {g : GapReg} (hresets : s.chain.resets = [])
    (hoffered : (s.chan.get n).gapOffered s.cycle = true) (hreg : (s.chan.get n).gapReg = some g)
    (hlower : ∀ m : Chan, m < n → (s.chan.get m).gapOffered s.cycle = false) : s.offer = some (.gap n g.item) := by
  simp only [State.offer, hresets, Chan.find?_all hoffered hlower, hreg, Option.map_some]

theorem State.offer_of_buffer {i : Item} {rest : List Item} (hresets : s.chain.resets = [])
    (hnone : ∀ m : Chan, (s.chan.get m).gapOffered s.cycle = false) (hbuffer : s.chain.buffer = i :: rest) :
    s.offer = some (.buffer i) := by
  have hfind : Chan.all.find? (fun m => (s.chan.get m).gapOffered s.cycle) = none :=
    List.find?_eq_none.mpr fun m _ => by simp [hnone m]
  simp only [State.offer, hresets, hfind, hbuffer, List.head?_cons, Option.map_some]

end

/-! ### What an entry of the buffer makes room for (R297) -/

/-- A hardware marker waiting at its source takes the room there is. -/
theorem Chain.refill_of_room {c : Chain} (h : c.buffer.length < 8) :
    c.refill = { c with buffer := c.buffer ++ c.hwWait.take 1, hwWait := c.hwWait.drop 1 } := by
  unfold Chain.refill
  split
  · next i rest hwait => simp [h, hwait]
  · next hwait =>
    obtain ⟨⟩ := c
    cases hwait
    simp

/-- How many firmware markers may follow into the buffer: all that wait, or in a stall those up to a yarn start (R30, log 23). -/
def State.placing (s : State) : Nat := if s.fwRuns then s.chain.fwWait.length else s.chain.yarnAhead

theorem State.takeOffer_buffer {s : State} {i : Item} {rest b : List Item} (hbuffer : s.chain.buffer = i :: rest)
    (hroom : rest.length < 8) (hb : b = rest ++ s.chain.hwWait.take 1) :
    (s.takeOffer (.buffer i)).chain = { s.chain with
      hwWait := s.chain.hwWait.drop 1
      buffer := b ++ s.chain.fwWait.take (min s.placing (6 - b.length))
      fwWait := s.chain.fwWait.drop (min s.placing (6 - b.length)) } := by
  have hrefill := Chain.refill_of_room (c := { s.chain with buffer := rest }) hroom
  simp only [State.takeOffer, hbuffer, List.tail_cons, hrefill, hb, State.placing]
  split <;> rfl

/-! ### MARKER_ENTRY (R288, R289) -/

section
variable {s : State} {o : Offer} (flip : BitVec 7)

theorem State.markerEntry_of_full (h : 63 < s.chain.items.length) : s.markerEntry flip = s := by
  unfold State.markerEntry
  split
  · exact if_neg (by simp [h])
  · rfl

variable (hoffer : s.offer = some o) (hfree : s.entryFree = true) (hroom : s.chain.items.length ≤ 63)
include hoffer hfree hroom

theorem State.markerEntry_of_offer : s.markerEntry flip = ((s.takeOffer o).upsetEntry flip).enterChain o.item := by
  simp only [State.markerEntry, hoffer, hfree, hroom, decide_true, Bool.and_self, if_true]

/-- The offered marker enters last; its source, the buffer and what waits stand as the taking of the offer leaves them. -/
theorem State.markerEntry_enters :
    (s.markerEntry flip).chain.items = s.chain.items ++ [o.item] ∧
      (s.markerEntry flip).chain.resets = (s.takeOffer o).chain.resets ∧
      (s.markerEntry flip).chain.buffer = (s.takeOffer o).chain.buffer ∧
      (s.markerEntry flip).chain.hwWait = (s.takeOffer o).chain.hwWait ∧
      (s.markerEntry flip).chan = (s.takeOffer o).chan := by
  obtain ⟨m, hchain⟩ := ((s.takeOffer o).upsetEntry flip).enterChain_chain o.item
  have hchan := ((s.takeOffer o).upsetEntry flip).enterChain_same o.item .chan rfl
  rw [State.markerEntry_of_offer flip hoffer hfree hroom, hchain]
  exact ⟨congrArg (· ++ [o.item]) (s.takeOffer_items o), rfl, rfl, rfl, hchan⟩

/-- The entry itself writes the chain stitch alone. -/
theorem State.markerEntry_same_of_offer {ps : List Part} (hps : Part.within [.chain] ps = true)
    (htake : Same ps s (s.takeOffer o)) : Same ps s (s.markerEntry flip) := by
  rw [State.markerEntry_of_offer flip hoffer hfree hroom]
  exact Same.step (State.enterChain_same _ _) hps (Same.step (State.upsetEntry_same _ flip) hps htake)

end

/-! ### FIRMWARE_MARKER_PLACE (R297) -/

theorem State.placeFirmwareMarker_of_running {s : State} {i : Item} {rest : List Item} (hwait : s.chain.fwWait = i :: rest)
    (hruns : s.fwRuns = true) :
    s.placeFirmwareMarker = if s.chain.buffer.length ≤ 5 then
        { s with chain := { s.chain with buffer := s.chain.buffer ++ [i], fwWait := rest } } else s := by
  simp only [State.placeFirmwareMarker, hwait, hruns, Bool.true_and, decide_eq_true_eq]

/-! ### DROP_RUN_CLOSE (R292, R293, R322) -/

/-- The channel after its drop run has closed: the gap marker stands ready. -/
def Channel.runClosed (c : Channel) (n : Chan) (r : DropRun) (full cycle : Nat) : Channel :=
  { c with
    run := none
    gapReg := some { item := { st := .gap n r.time r.count (sat16 r.refused), session := r.session, full := full }
                     lowNo := r.lowNo, highNo := r.highNo, since := cycle } }

theorem State.closeRun_of_closing {s : State} {n : Chan} {r : DropRun} (hrun : (s.chan.get n).run = some r)
    (hitems : s.itemsBefore ≤ 62) (hmerge : (s.chan.get n).mergeBefore s.cycle < 4)
    (hrefused : (s.chan.get n).refusedAt ≠ some s.cycle) (hreg : (s.chan.get n).gapReg = none) :
    s.closeRun n = (s.modChan n fun c => c.runClosed n r s.full s.cycle).logLimited 0x30 0 r.refused 1 0 := by
  have hnot : ((s.chan.get n).refusedAt != some s.cycle) = true := bne_iff_ne.mpr hrefused
  simp only [State.closeRun, hrun, hitems, hmerge, hnot, hreg, Option.isNone_none, decide_true, Bool.and_self, if_true,
    Channel.runClosed]

/-- The close of a drop run leaves the held faults, and outside a period of fault 0x30 it is logged at once with the run's
refusals, as one occurrence (R322, R667). -/
theorem State.logLimited_dropRun (s : State) (refused : Nat) :
    (s.logLimited 0x30 0 refused 1 0).faults.active = s.faults.active ∧
      (s.faults.period 0x30 0 = none →
        (s.logLimited 0x30 0 refused 1 0).faults.events = (s.faults.logged 0x30 s.tb.time 1 (sat32 refused) 0).events) := by
  have hocc : ({ s.faults.bump 0x30 1 with last := 0x30 } : Faults).count 0x30 = s.faults.count 0x30 + 1 :=
    Faults.count_bump ..
  simp only [State.logLimited, if_true]
  refine ⟨?active, fun hperiod => ?events⟩
  case active =>
    split
    · rfl
    · split <;> rfl
  case events =>
    simp only [hperiod, State.event, State.occur, hocc]
    rfl

/-! ### QUEUE_RESET (R299, R300) -/

/-- A mask with bit n for channel n, as `queueReset` adds it up. -/
theorem chanMask_getLsbD (b : Chan → Bool) (n : Chan) :
    (BitVec.ofNat 8 (Chan.all.foldl (fun a m => a + 2 ^ m.val * boolNat (b m)) 0)).getLsbD n.val = b n := by
  have hsum : Chan.all.foldl (fun a m => a + 2 ^ m.val * boolNat (b m)) 0 = Nat.ofBits b := by
    have hnat (m : Chan) : boolNat (b m) = (b m).toNat := by cases b m <;> rfl
    simp only [Chan.all, List.foldl_cons, List.foldl_nil, hnat, Nat.ofBits_succ, Nat.ofBits_zero, Function.comp_apply]
    change 0 + 1 * (b 0).toNat + 2 * (b 1).toNat + 4 * (b 2).toNat + 8 * (b 3).toNat + 16 * (b 4).toNat + 32 * (b 5).toNat +
        64 * (b 6).toNat + 128 * (b 7).toNat =
      2 * (2 * (2 * (2 * (2 * (2 * (2 * (2 * 0 + (b 7).toNat) + (b 6).toNat) + (b 5).toNat) + (b 4).toNat) + (b 3).toNat) +
        (b 2).toNat) + (b 1).toNat) + (b 0).toNat
    ring
  rw [BitVec.getLsbD_ofNat, hsum, Nat.testBit_ofBits_lt b n.val n.isLt]
  simp

/-- The channels of which the chain stitch holds stitches (R300). -/
def Chain.stitchMask (c : Chain) : Byte :=
  BitVec.ofNat 8 (Chan.all.foldl
    (fun a n => a + 2 ^ n.val * boolNat ((c.items.filter fun i => !i.st.isMarker).any fun i => i.st.chan == n)) 0)

theorem Chain.stitchMask_getLsbD (c : Chain) (n : Chan) :
    c.stitchMask.getLsbD n.val = c.items.any fun i => !i.st.isMarker && i.st.chan == n := by
  rw [Chain.stitchMask, chanMask_getLsbD, List.any_filter]

/-- A reset empties the chain stitch, counts what it held, and logs fault 0x31. -/
theorem State.queueReset_of_mismatch {s : State} {time : BitVec 64} (h : s.chain.mismatch = some time) :
    s.queueReset = { s with
      chain := { s.chain.note s.cycle with
        items := [s.item (.queueReset time (sat16 (s.chain.items.filter fun i => !i.st.isMarker).length)
          (sat16 (s.chain.items.filter fun i => i.st.isMarker).length) s.chain.stitchMask)]
        entryA := 1, entryB := 1, exitA := 0, exitB := 0, mismatch := none, entered := some s.cycle }
      faults := s.faults.logged 0x31 s.tb.time 1 0 0 } := by
  simp only [State.queueReset, h, State.log_eq, Chain.stitchMask]

end Sys2Proof.Machine

open Sys2Proof Sys2Proof.Machine

/-- Settles O16: the offered marker enters from its source, a drop run leaves its gap marker, and a reset its own marker alone. -/
theorem markersEnterAndTell : Obligations.MarkersEnterAndTell := by
  refine ⟨⟨fun dt flip s u hu hfree hroom => ⟨fun i rest hresets => ?reset, fun n g hresets hoffered hreg hlower => ?gap,
      fun i rest hresets hnone hbuffer => ?buffer⟩, fun dt flip s u hu hfull => ?full, fun dt s u i rest hu hwait hruns => ?place⟩,
    fun dt s v n r hv hrun hitems hmerge hrefused hreg => ?run, fun dt s u time hu hmismatch => ?queue⟩
  case reset =>
    have hoffer := State.offer_of_reset hresets
    obtain ⟨hitems, hleft, hbuffer, -, -⟩ := State.markerEntry_enters flip hoffer hfree hroom
    refine ⟨u.markerEntry flip, hu ▸ exec_markerEntry dt flip s,
      State.markerEntry_same_of_offer flip hoffer hfree hroom rfl (Same.upd_chain rfl (Same.refl _ u)), hitems, ?_, hbuffer⟩
    exact hleft.trans (congrArg List.tail hresets)
  case gap =>
    have hoffer := State.offer_of_gap hresets hoffered hreg hlower
    obtain ⟨hitems, -, hbuffer, -, hchan⟩ := State.markerEntry_enters flip hoffer hfree hroom
    refine ⟨u.markerEntry flip, hu ▸ exec_markerEntry dt flip s, u.markerEntry_same flip, hitems, ?_, fun m hm => ?_, hbuffer⟩
    · rw [hchan]
      exact Per8.get_set_same ..
    · rw [hchan]
      exact State.modChan_onlyChan u n _ m hm
  case buffer =>
    have hoffer := State.offer_of_buffer hresets hnone hbuffer
    obtain ⟨hitems, -, hplaced, hwait, -⟩ := State.markerEntry_enters flip hoffer hfree hroom
    refine ⟨u.markerEntry flip, hu ▸ exec_markerEntry dt flip s,
      State.markerEntry_same_of_offer flip hoffer hfree hroom rfl (Same.upd_chain rfl (Same.refl _ u)), hitems,
      fun hspace b hb => ?_⟩
    rw [hwait, hplaced, State.takeOffer_buffer hbuffer hspace hb]
    exact ⟨rfl, rfl⟩
  case full => rw [exec_markerEntry, ← hu, State.markerEntry_of_full flip hfull]
  case place => rw [exec_firmwareMarkerPlace, ← hu, State.placeFirmwareMarker_of_running hwait hruns]
  case run =>
    refine ⟨v.closeRun n, hv ▸ exec_dropRunClose dt n s, v.closeRun_same n, ?_⟩
    rw [State.closeRun_of_closing hrun hitems hmerge hrefused hreg]
    obtain ⟨hactive, hevents⟩ := (v.modChan n fun c => c.runClosed n r v.full v.cycle).logLimited_dropRun r.refused
    have hchan := (v.modChan n fun c => c.runClosed n r v.full v.cycle).logLimited_same 0x30 0 r.refused 1 0 .chan rfl
    refine ⟨(congrArg (·.get n) hchan).trans (Per8.get_set_same ..), fun m hm => ?_, hactive, hevents⟩
    exact (congrArg (·.get m) hchan).trans (State.modChan_onlyChan v n _ m hm)
  case queue =>
    refine ⟨u.queueReset, hu ▸ exec_queueReset dt s, u.queueReset_same, ?_⟩
    rw [State.queueReset_of_mismatch hmismatch]
    exact ⟨⟨u.chain.stitchMask, rfl, u.chain.stitchMask_getLsbD⟩, rfl, rfl, rfl, rfl, rfl, rfl, rfl⟩
end

section
/-! How a raw or a summary skein of the current session closes: its number, and its place among those that close in one cycle (R302,
R312, R314, R315, R318 to R320). -/

namespace Sys2Proof.Machine
open Sys2Proof

/-! ### The order of the numbers of one cycle (R318) -/

/-- With none ahead of it a skein stands last, under its own number. -/
theorem Skein.join_of_none_ahead {k : Skein} {l : List Skein} (h : k.ahead l = 0) : k.join l = l ++ [k] := by
  rw [Skein.join, h]
  simp

theorem Skein.ahead_of_alone {k : Skein} {l : List Skein} (h : ∀ q ∈ l, q.inCycle ≠ k.inCycle) : k.ahead l = 0 := by
  rw [Skein.ahead, List.length_eq_zero_iff, List.takeWhile_eq_nil_iff]
  intro hne
  simp only [List.get_eq_getElem, Bool.and_eq_true, beq_iff_eq]
  rintro ⟨⟨hcycle, -⟩, -⟩
  exact h _ (List.mem_reverse.mp (List.getElem_mem hne)) hcycle

/-- Behind earlier cycles' skeins and before one of its own cycle of a later rank, whose number goes up by one. -/
theorem Skein.join_before_one {k q : Skein} {l : List Skein} (hcycle : q.inCycle = k.inCycle) (hsession : q.session = k.session)
    (hrank : k.rank < q.rank) (h : ∀ p ∈ l, p.inCycle ≠ k.inCycle) :
    k.join (l ++ [q]) =
      l ++ [{ k with seq := k.seq - 1, closeNo := k.closeNo - 1 }, { q with seq := q.seq + 1, closeNo := q.closeNo + 1 }] := by
  have hrest := Skein.ahead_of_alone h
  rw [Skein.ahead] at hrest
  have hahead : k.ahead (l ++ [q]) = 1 := by
    rw [Skein.ahead, List.reverse_append, List.reverse_singleton, List.singleton_append, List.takeWhile_cons_of_pos
      (by simp [hcycle, hsession, hrank]), List.length_cons, hrest]
  rw [Skein.join, hahead]
  simp

/-! ### A close in the current session (R318 to R320) -/

/-- A skein that closes now, with the next number of the session and its place in the order of closes. -/
def State.numbered (s : State) (k : Skein) : Skein :=
  { k with inCycle := s.cycle, seq := s.pack.seq, closeNo := placeInOrder s.pack.scale s.pack.closed }

theorem State.release_pack {s : State} {k : Skein} (hsession : k.session = s.tb.session) (hecho : s.pack.echoDone = true) :
    (s.release k).pack = { s.pack with
      released := (s.numbered k).join s.pack.released, seq := s.pack.seq + 1, closed := s.pack.closed + 1 } := by
  have hdone : ((if k.session = s.tb.session then s.pack.echoDone else s.pack.oldEchoDone) || !k.awaitsEcho) = true := by
    rw [if_pos hsession, hecho, Bool.true_or]
  have hnumber : s.release k = s.number { k with inCycle := s.cycle } := if_pos hdone
  rw [hnumber, State.number_of_current (k := { k with inCycle := s.cycle }) hsession]
  rfl

/-- Where none has closed in this cycle before it, it stands last. -/
theorem State.join_numbered {s : State} (k : Skein) (halone : ∀ q ∈ s.pack.released, q.inCycle ≠ s.cycle) :
    (s.numbered k).join s.pack.released = s.pack.released ++ [s.numbered k] :=
  Skein.join_of_none_ahead (Skein.ahead_of_alone halone)

/-- The open raw skein as it closes. -/
def State.rawSkein (s : State) (o : RawOpen) (reason : BitVec 3) : Skein :=
  s.skein s.rawType o.session o.era reason (.raw (s.highWord o.high) o.recs)

theorem State.rawSkein_isRaw (s : State) (o : RawOpen) (reason : BitVec 3) : (s.rawSkein o reason).isRaw = true := by
  show (s.rawType == typeLive || s.rawType == typeBacklog) = true
  unfold State.rawType
  split <;> rfl

/-- A raw skein is numbered first in its cycle. -/
theorem State.rawSkein_rank (s t : State) (o : RawOpen) (reason : BitVec 3) : (t.numbered (s.rawSkein o reason)).rank = 0 := by
  have hraw : (t.numbered (s.rawSkein o reason)).isRaw = true := s.rawSkein_isRaw o reason
  simp [Skein.rank, hraw]

/-- The open summary skein as it closes. -/
def State.sumSkein (s : State) (o : SumOpen) (reason : BitVec 3) : Skein :=
  { s.skein typeSummary o.session o.era reason (.results o.recs) with
    tsb := BitVec.ofNat 8 o.ch.val, tsh := o.yarn, cont := o.cont }

theorem State.closeRaw_pack {s : State} {o : RawOpen} (reason : BitVec 3) (hopen : s.pack.rawOpen = some o)
    (hsession : o.session = s.tb.session) (hecho : s.pack.echoDone = true) :
    (s.closeRaw reason).pack = { s.pack with
      rawOpen := none, released := (s.numbered (s.rawSkein o reason)).join s.pack.released
      seq := s.pack.seq + 1, closed := s.pack.closed + 1 } := by
  have hclose : s.closeRaw reason = State.release { s with pack := { s.pack with rawOpen := none } } (s.rawSkein o reason) := by
    simp only [State.closeRaw, hopen, State.rawSkein]
  rw [hclose]
  exact State.release_pack hsession hecho

theorem State.closeSum_pack {s : State} {o : SumOpen} (reason : BitVec 3) (hopen : s.pack.sumOpen = some o)
    (hsession : o.session = s.tb.session) (hecho : s.pack.echoDone = true) :
    (s.closeSum reason).pack = { s.pack with
      sumOpen := none, released := (s.numbered (s.sumSkein o reason)).join s.pack.released
      seq := s.pack.seq + 1, closed := s.pack.closed + 1 } := by
  have hclose : s.closeSum reason = State.release { s with pack := { s.pack with sumOpen := none } } (s.sumSkein o reason) := by
    simp only [State.closeSum, hopen, State.sumSkein]
  rw [hclose]
  exact State.release_pack hsession hecho

/-- One raw skein that closes leaves the other raw buffer free (R302). -/
theorem State.closeRaw_rawBuffer {s : State} {o : RawOpen} (reason : BitVec 3) (hopen : s.pack.rawOpen = some o)
    (hsession : o.session = s.tb.session) (hecho : s.pack.echoDone = true)
    (halone : ∀ q ∈ s.pack.released, q.inCycle ≠ s.cycle) (hnone : s.pack.closedCount Skein.isRaw = 0) :
    (s.closeRaw reason).rawBuffer = true := by
  simp only [Packer.closedCount, Nat.add_eq_zero_iff] at hnone
  obtain ⟨hreleased, hwaiting⟩ := hnone
  have hone : ([s.numbered (s.rawSkein o reason)].filter Skein.isRaw).length ≤ 1 := List.length_filter_le ..
  simp only [State.rawBuffer, State.closeRaw_pack reason hopen hsession hecho, State.join_numbered _ halone, Packer.closedCount,
    List.filter_append, List.length_append, hreleased, hwaiting, Bool.or_eq_true, decide_eq_true_eq]
  omega

end Sys2Proof.Machine
end

section
/-! What the packer does with the item at the head of the chain stitch (R287, R301 to R304, R310 to R313). -/

namespace Sys2Proof.Machine
open Sys2Proof

theorem exec_packerTakeItem (dt : Nat) (flip : BitVec 7) (s : State) :
    exec (.packerTakeItem dt flip) s = .next ((advance dt s).takeItem flip) := rfl

theorem exec_closeTimerExpiry (dt : Nat) (s : State) :
    exec (.closeTimerExpiry dt) s = .next (advance dt s).closeTimer_expire := rfl

/-! ### When the head item can be taken (R301, R302) -/

theorem State.takeable_iff {s : State} :
    s.takeable = true ↔ s.readSide = true ∧ s.rawBuffer = true ∧ s.chain.mismatch = none ∧ s.headFalls = false := by
  simp only [State.takeable, Bool.and_eq_true, Option.isNone_iff_eq_none, Bool.not_eq_true', and_assoc]

theorem State.not_takeable {s : State} {i : Item} {rest : List Item} (hitems : s.chain.items = i :: rest)
    (h : s.readSide = false ∨ s.rawBuffer = false ∨ s.chain.mismatch.isSome = true ∨
      (rest = [] ∧ s.chain.entered = some s.cycle)) : s.takeable = false := by
  rw [Bool.eq_false_iff, ne_eq, State.takeable_iff]
  rintro ⟨hside, hbuffer, hmatch, hstays⟩
  rcases h with h | h | h | ⟨hrest, hentered⟩
  · exact Bool.false_ne_true (h.symm.trans hside)
  · exact Bool.false_ne_true (h.symm.trans hbuffer)
  · simp [hmatch] at h
  · simp [State.headFalls, hitems, hrest, hentered] at hstays

/-! ### A record is written (R287, R311, R312) -/

theorem State.leaveChain_pack (s : State) (flip : BitVec 7) :
    (s.leaveChain flip).pack = { s.pack with takenAt := some s.cycle } := State.checkChain_same _ .pack rfl

theorem State.leaveChain_chain (s : State) (flip : BitVec 7) :
    (s.leaveChain flip).chain.items = s.chain.items.tail ∧ (s.leaveChain flip).chain.exitA = s.chain.exitA + 1 := by
  obtain ⟨m, hchain⟩ := State.checkChain_eq { s with
    chain := { s.chain.note s.cycle with
      items := s.chain.items.tail, exitA := s.chain.exitA + 1, exitB := (s.chain.exitB ^^^ flip) + 1 }
    pack := { s.pack with takenAt := some s.cycle } }
  rw [State.leaveChain, hchain]
  exact ⟨rfl, rfl⟩

/-- The open raw skein with one more record, written now, and the count-high bytes as they stand then. -/
def State.recorded (s : State) (o : RawOpen) (st : Stitch) (high : Per8 (Option Byte)) : RawOpen :=
  { o with recs := o.recs ++ [st], high := high, firstAt := if o.recs.isEmpty then s.clock else o.firstAt }

theorem State.writeRaw_eq (s : State) (o : RawOpen) (i : Item) :
    ∃ high, s.writeRaw o i =
      let t := { s with pack := { s.pack with rawOpen := some (s.recorded o i.st high) } }
      if i.st.isBrace then t.closeRaw 5 else t := ⟨_, rfl⟩

/-- The head item leaves the chain stitch and is the last record of the open raw skein. -/
theorem State.leaveChain_writeRaw {s : State} {i : Item} {rest : List Item} (flip : BitVec 7) (o : RawOpen)
    (hitems : s.chain.items = i :: rest) (hbrace : i.st.isBrace = false) :
    ((s.leaveChain flip).writeRaw o i).chain.items = rest ∧
      ((s.leaveChain flip).writeRaw o i).chain.exitA = s.chain.exitA + 1 ∧
      ∃ high, ((s.leaveChain flip).writeRaw o i).pack =
        { s.pack with takenAt := some s.cycle, rawOpen := some (s.recorded o i.st high) } := by
  obtain ⟨hleft, hexit⟩ := s.leaveChain_chain flip
  have hpack := s.leaveChain_pack flip
  have hclock : (s.leaveChain flip).clock = s.clock := s.leaveChain_same flip .clock rfl
  obtain ⟨high, hwrite⟩ := (s.leaveChain flip).writeRaw_eq o i
  rw [hwrite, hbrace, if_neg Bool.false_ne_true]
  refine ⟨hleft.trans (congrArg List.tail hitems), hexit, high, ?_⟩
  simp only [hpack, State.recorded, hclock]

/-- A brace marker leaves the chain stitch as the last record of the skein that closes with it (R312). -/
theorem State.leaveChain_writeRaw_of_brace {s : State} {o : RawOpen} {i : Item} {rest : List Item} (flip : BitVec 7)
    (hitems : s.chain.items = i :: rest) (hbrace : i.st.isBrace = true) (hsession : o.session = s.tb.session)
    (hecho : s.pack.echoDone = true) (halone : ∀ q ∈ s.pack.released, q.inCycle ≠ s.cycle) :
    ((s.leaveChain flip).writeRaw o i).chain.items = rest ∧
      ∃ k : Skein, k.seq = s.pack.seq ∧ k.reason = 5 ∧ k.body.records = o.recs ++ [i.st] ∧
        ((s.leaveChain flip).writeRaw o i).pack = { s.pack with
          takenAt := some s.cycle, rawOpen := none, released := s.pack.released ++ [k]
          seq := s.pack.seq + 1, closed := s.pack.closed + 1 } := by
  obtain ⟨hleft, -⟩ := s.leaveChain_chain flip
  have hpack := s.leaveChain_pack flip
  have hclock : (s.leaveChain flip).clock = s.clock := s.leaveChain_same flip .clock rfl
  have htb : (s.leaveChain flip).tb = s.tb := s.leaveChain_same flip .tb rfl
  generalize s.leaveChain flip = v at *
  have hcycle : v.cycle = s.cycle := by simp only [State.cycle, State.cycleAt, hclock, htb]
  obtain ⟨high, hwrite⟩ := v.writeRaw_eq o i
  rw [hwrite, hbrace, if_pos rfl]
  have hreleased : v.pack.released = s.pack.released := by rw [hpack]
  let t : State := { v with pack := { v.pack with rawOpen := some (v.recorded o i.st high) } }
  have hchain : (t.closeRaw 5).chain = v.chain := t.closeRaw_same 5 .chain rfl
  have hclose := State.closeRaw_pack (s := t) 5 rfl (hsession.trans (congrArg (·.session) htb).symm)
    ((congrArg (·.echoDone) hpack).trans hecho)
  rw [State.join_numbered _ fun q hq => hcycle ▸ halone q (hreleased ▸ hq)] at hclose
  refine ⟨(congrArg (·.items) hchain).trans (hleft.trans (congrArg List.tail hitems)),
    t.numbered (t.rawSkein (v.recorded o i.st high) 5), congrArg (·.seq) hpack, rfl, rfl, hclose.trans ?_⟩
  simp only [t, hpack]

/-! ### PACKER_TAKE_ITEM (R301 to R304, R310 to R312) -/

section
variable {s : State} {i : Item} {rest : List Item} (flip : BitVec 7)

theorem State.takeItem_of_not_takeable (h : s.takeable = false) : s.takeItem flip = s := by
  unfold State.takeItem
  split
  · rfl
  · rw [h, if_neg Bool.false_ne_true]

variable (hitems : s.chain.items = i :: rest) (htake : s.takeable = true)
include hitems htake

theorem State.takeItem_of_none_open (hopen : s.pack.rawOpen = none) :
    s.takeItem flip = (s.leaveChain flip).writeRaw (s.openFor i) i := by
  simp only [State.takeItem, hitems, htake, if_true, hopen]

variable {o : RawOpen} (hopen : s.pack.rawOpen = some o)
include hopen

theorem State.takeItem_of_fitting (hfits : s.closeReason o i = none) :
    s.takeItem flip = (s.leaveChain flip).writeRaw o i := by
  simp only [State.takeItem, hitems, htake, if_true, hopen, hfits]

theorem State.takeItem_of_closing {r : BitVec 3} (hcloses : s.closeReason o i = some r) (hroom : (s.closeRaw r).rawBuffer = true) :
    s.takeItem flip = ((s.closeRaw r).leaveChain flip).writeRaw ((s.closeRaw r).openFor i) i := by
  simp only [State.takeItem, hitems, htake, if_true, hopen, hcloses, hroom]

end

/-! ### CLOSE_TIMER_EXPIRY (R312, R313) -/

theorem State.closeTimer_due {s : State} {o : RawOpen} (hdue : s.closeTimerQps ≤ s.clock - o.firstAt) (hrecs : o.recs ≠ []) :
    (!o.recs.isEmpty && decide (s.closeTimerQps ≤ s.clock - o.firstAt)) = true := by
  rw [List.isEmpty_eq_false_iff.mpr hrecs, decide_eq_true hdue]
  rfl

section
variable {s : State} {o : RawOpen} (hopen : s.pack.rawOpen = some o)
include hopen

theorem State.closeTimer_expire_of_early (h : s.clock - o.firstAt < s.closeTimerQps) : s.closeTimer_expire = s := by
  simp only [State.closeTimer_expire, hopen, decide_eq_false (Nat.not_le_of_lt h), Bool.and_false, Bool.false_eq_true, if_false]

variable (hdue : s.closeTimerQps ≤ s.clock - o.firstAt) (hrecs : o.recs ≠ [])
include hdue hrecs

/-- The timer is the reason of the close, unless a record that could be taken now gives another (R312). -/
theorem State.closeTimer_expire_closes {r : BitVec 3}
    (hwhy : (s.takeable = false ∨ s.chain.items = []) ∧ r = 1 ∨
      ∃ (i : Item) (rest : List Item), s.takeable = true ∧ s.chain.items = i :: rest ∧
        (s.closeReason o i = some r ∨ s.closeReason o i = none ∧ i.st.isBrace = false ∧ r = 1)) :
    s.closeTimer_expire = s.closeRaw r := by
  have hrun := State.closeTimer_due hdue hrecs
  rcases hwhy with ⟨hnone | hnone, rfl⟩ | ⟨i, rest, htake, hitems, hcloses | ⟨hfits, hbrace, rfl⟩⟩
  · cases hitems : s.chain.items <;>
      simp only [State.closeTimer_expire, hopen, hrun, if_true, hitems, hnone, Bool.false_eq_true, if_false]
  · simp only [State.closeTimer_expire, hopen, hrun, if_true, hnone]
  · simp only [State.closeTimer_expire, hopen, hrun, if_true, hitems, htake, hcloses]
  · simp only [State.closeTimer_expire, hopen, hrun, if_true, hitems, htake, hfits, hbrace, Bool.false_eq_true, if_false]

/-- A brace marker that could be taken now joins the skein, which it closes. -/
theorem State.closeTimer_expire_of_brace {i : Item} {rest : List Item} (htake : s.takeable = true)
    (hitems : s.chain.items = i :: rest) (hfits : s.closeReason o i = none) (hbrace : i.st.isBrace = true) :
    s.closeTimer_expire = (s.leaveChain 0).writeRaw o i := by
  simp only [State.closeTimer_expire, hopen, State.closeTimer_due hdue hrecs, if_true, hitems, htake, hfits, hbrace]

end

end Sys2Proof.Machine
end

section
/-! What the packer does with the oldest result and with the next control skein (R302, R315, R317, R326, R346). -/

namespace Sys2Proof.Machine
open Sys2Proof

theorem exec_packerTakeResult (dt : Nat) (s : State) : exec (.packerTakeResult dt) s = .next (advance dt s).takeResult := rfl

/-! ### PACKER_TAKE_RESULT (R302, R315, R346) -/

theorem Engine.refill_results (e : Engine) : e.refill.queue ++ e.refill.outgoing = e.queue ++ e.outgoing := by
  rw [Engine.refill, List.append_assoc, List.take_append_drop]

section
variable {s : State} {r : Result} {rest : List Result} (hqueue : s.eng.queue = r :: rest)

theorem State.takeResult_of_blocked (h : s.readSide = false ∨ s.sumBuffer = false ∨ s.rawWaits = true) : s.takeResult = s := by
  unfold State.takeResult
  split
  · rfl
  · exact if_neg (by rcases h with h | h | h <;> simp [h])

include hqueue

theorem State.takeResult_of_none_open (hside : s.readSide = true) (hbuffer : s.sumBuffer = true) (hraw : s.rawWaits = false)
    (hopen : s.pack.sumOpen = none) : s.takeResult = s.writeSum (s.openSum r) r := by
  simp only [State.takeResult, hqueue, hside, hbuffer, hraw, Bool.not_false, Bool.and_self, if_true, hopen]

/-- The result leaves the queue, which takes in what has gone out to it as far as there is room. -/
theorem State.writeSum_results (o : SumOpen) :
    (s.writeSum o r).eng.queue ++ (s.writeSum o r).eng.outgoing = rest ++ s.eng.outgoing := by
  have heng : (s.writeSum o r).eng = ({ s.eng with queue := rest } : Engine).refill := by
    unfold State.writeSum
    rw [hqueue]
    split
    · exact State.closeSum_same _ 6 .eng rfl
    · rfl
  rw [heng, Engine.refill_results]

end

theorem State.number_takenAt (s : State) (k : Skein) : (s.number k).pack.takenAt = s.pack.takenAt := by
  unfold State.number
  dsimp only
  split <;> rfl

theorem State.release_takenAt (s : State) (k : Skein) : (s.release k).pack.takenAt = s.pack.takenAt := by
  unfold State.release
  dsimp only
  generalize (if k.session = s.tb.session then s.pack.echoDone else s.pack.oldEchoDone) = done
  split
  · exact State.number_takenAt _ _
  · rfl

/-- A result that is taken uses the read side in this cycle, whatever closes with it (R301). -/
theorem State.writeSum_takenAt (s : State) (o : SumOpen) (r : Result) : (s.writeSum o r).pack.takenAt = some s.cycle := by
  unfold State.writeSum
  dsimp only
  split
  · exact State.release_takenAt _ _
  · rfl

/-- A result that is not the last of its summary leaves the skein open, with it as the last record. -/
theorem State.writeSum_pack_of_more {s : State} (o : SumOpen) {r : Result} (hlast : r.last = false) :
    ∃ heads, (s.writeSum o r).pack =
      { s.pack with sumOpen := some { o with recs := o.recs ++ [r.st] }, heads := heads, takenAt := some s.cycle } := by
  simp only [State.writeSum, hlast, Bool.false_eq_true, if_false]
  exact ⟨_, rfl⟩

/-- The end-of-summary mark closes the skein with reason 6, and no head stitches are kept. -/
theorem State.writeSum_pack_of_last {s : State} {o : SumOpen} {r : Result} (hlast : r.last = true)
    (hsession : o.session = s.tb.session) (hecho : s.pack.echoDone = true)
    (halone : ∀ q ∈ s.pack.released, q.inCycle ≠ s.cycle) :
    (s.writeSum o r).pack = { s.pack with
      sumOpen := none, heads := [], takenAt := some s.cycle
      released := s.pack.released ++ [s.numbered (s.sumSkein { o with recs := o.recs ++ [r.st] } 6)]
      seq := s.pack.seq + 1, closed := s.pack.closed + 1 } := by
  rw [← State.join_numbered _ halone, State.writeSum, hlast, if_pos rfl]
  exact State.closeSum_pack 6 rfl hsession hecho

/-! ### CONTROL_SKEIN_CLOSE (R302, R317) -/

theorem State.closeNextCtl_of_blocked {s : State} (h : s.fwRuns = false ∨ s.ctlFree = false ∨ s.readIdle = false) :
    s.closeNextCtl = s := by
  unfold State.closeNextCtl
  split
  · exact if_neg (by rcases h with h | h | h <;> simp [h])
  · rfl

/-- Outside step 6 of start-up no close ends it. -/
theorem State.stepSix_of_other_step {s : State} (h : s.core.boot ≠ .skeins) : s.stepSix = s := by
  rw [State.stepSix, beq_eq_false_iff_ne.mpr h, Bool.false_and, Bool.false_and, Bool.false_and, if_neg Bool.false_ne_true]

/-- The oldest written control skein closes under the next number. -/
theorem State.closeNextCtl_pack {s : State} {c : Ctl} {rest : List Ctl} (hqueue : s.pack.ctlQueue = c :: rest)
    (hruns : s.fwRuns = true) (hfree : s.ctlFree = true) (hidle : s.readIdle = true) (hold : s.pack.ctlOld = false)
    (hcontrol : (s.ctlSkein c).isControl = true) (hecho : c.typ ≠ typeEcho) :
    s.closeNextCtl.pack = { s.pack with
      ctlQueue := rest, released := s.pack.released ++ [s.ctlSkein c], seq := s.pack.seq + 1, closed := s.pack.closed + 1 } := by
  rw [State.closeNextCtl_of_free hqueue hruns hfree hidle, State.settlePort_same _ .pack rfl]
  exact State.closeCtl_pack (s := { s with pack := { s.pack with ctlQueue := rest } }) hold hcontrol hecho

end Sys2Proof.Machine
end

section
/-! The obligation on the packer: what it takes, and how raw, summary and control skeins close. -/

namespace Sys2Proof.Machine
open Sys2Proof

/-! ### The head item -/

section
variable {dt : Nat} {flip : BitVec 7} {s u : State} {i : Item} {rest : List Item} (hu : u = advance dt s)
  (hitems : u.chain.items = i :: rest) (htake : u.takeable = true)
include hu hitems htake

theorem does_packerTakeItem_opens (hbrace : i.st.isBrace = false) (hopen : u.pack.rawOpen = none) :
    Does (.packerTakeItem dt flip) s u [.chain, .pack] fun t =>
      t.chain.items = rest ∧ t.chain.exitA = u.chain.exitA + 1 ∧ t.pack.takenAt = some u.cycle ∧
        t.pack.rawOpen.map (fun o => (o.session, o.era, o.recs, o.firstAt)) =
          some (i.session, u.itemEra i, [i.st], u.clock) := by
  refine ⟨u.takeItem flip, hu ▸ exec_packerTakeItem dt flip s, u.takeItem_same flip, ?_⟩
  obtain ⟨hleft, hexit, high, hpack⟩ := State.leaveChain_writeRaw flip (u.openFor i) hitems hbrace
  rw [State.takeItem_of_none_open flip hitems htake hopen, hpack]
  exact ⟨hleft, hexit, rfl, rfl⟩

theorem does_packerTakeItem_joins {o : RawOpen} (hbrace : i.st.isBrace = false) (hopen : u.pack.rawOpen = some o)
    (hfits : u.closeReason o i = none) (hrecs : o.recs ≠ []) :
    Does (.packerTakeItem dt flip) s u [.chain, .pack] fun t =>
      t.chain.items = rest ∧ t.pack.released = u.pack.released ∧
        t.pack.rawOpen.map (fun o => (o.session, o.era, o.recs, o.firstAt)) =
          some (o.session, o.era, o.recs ++ [i.st], o.firstAt) := by
  refine ⟨u.takeItem flip, hu ▸ exec_packerTakeItem dt flip s, u.takeItem_same flip, ?_⟩
  obtain ⟨hleft, -, high, hpack⟩ := State.leaveChain_writeRaw flip o hitems hbrace
  rw [State.takeItem_of_fitting flip hitems htake hopen hfits, hpack]
  refine ⟨hleft, rfl, ?_⟩
  simp only [State.recorded, Option.map_some, List.isEmpty_eq_false_iff.mpr hrecs, Bool.false_eq_true, if_false]

theorem does_packerTakeItem_closes {o : RawOpen} {r : BitVec 3} (hbrace : i.st.isBrace = false)
    (hopen : u.pack.rawOpen = some o) (hcloses : u.closeReason o i = some r) (hnone : u.pack.closedCount Skein.isRaw = 0)
    (hsession : o.session = u.tb.session) (hecho : u.pack.echoDone = true)
    (halone : ∀ q ∈ u.pack.released, q.inCycle ≠ u.cycle) :
    Does (.packerTakeItem dt flip) s u [.chain, .pack] fun t =>
      t.chain.items = rest ∧ t.pack.seq = u.pack.seq + 1 ∧
        t.pack.rawOpen.map (fun o => (o.session, o.recs)) = some (i.session, [i.st]) ∧
        (∃ k : Skein, t.pack.released = u.pack.released ++ [k] ∧ k.seq = u.pack.seq ∧ k.reason = r ∧
          k.session = o.session ∧ k.era = o.era ∧ k.body.records = o.recs) := by
  refine ⟨u.takeItem flip, hu ▸ exec_packerTakeItem dt flip s, u.takeItem_same flip, ?_⟩
  have hroom := State.closeRaw_rawBuffer r hopen hsession hecho halone hnone
  have hchain : (u.closeRaw r).chain = u.chain := u.closeRaw_same r .chain rfl
  obtain ⟨hleft, -, high, hpack⟩ :=
    State.leaveChain_writeRaw (s := u.closeRaw r) flip ((u.closeRaw r).openFor i) (hchain ▸ hitems) hbrace
  rw [State.takeItem_of_closing flip hitems htake hopen hcloses hroom]
  beta_reduce
  rw [hpack, State.closeRaw_pack r hopen hsession hecho, State.join_numbered _ halone]
  exact ⟨hleft, rfl, rfl, u.numbered (u.rawSkein o r), rfl, rfl, rfl, rfl, rfl, rfl⟩

end

/-! ### The close timer -/

section
variable {dt : Nat} {s u : State} {o : RawOpen} (hu : u = advance dt s) (hopen : u.pack.rawOpen = some o)
  (hdue : u.closeTimerQps ≤ u.clock - o.firstAt) (hrecs : o.recs ≠ []) (hsession : o.session = u.tb.session)
  (hecho : u.pack.echoDone = true)
include hu hopen hdue hrecs hsession hecho

theorem does_closeTimerExpiry_closes {r : BitVec 3} (halone : ∀ q ∈ u.pack.released, q.inCycle ≠ u.cycle)
    (hwhy : (u.takeable = false ∨ u.chain.items = []) ∧ r = 1 ∨
      ∃ (i : Item) (rest : List Item), u.takeable = true ∧ u.chain.items = i :: rest ∧
        (u.closeReason o i = some r ∨ u.closeReason o i = none ∧ i.st.isBrace = false ∧ r = 1)) :
    Does (.closeTimerExpiry dt) s u [.pack] fun t =>
      t.pack.rawOpen = none ∧ t.pack.seq = u.pack.seq + 1 ∧
        ∃ k : Skein, t.pack.released = u.pack.released ++ [k] ∧ k.seq = u.pack.seq ∧ k.reason = r ∧ k.body.records = o.recs := by
  refine ⟨u.closeTimer_expire, hu ▸ exec_closeTimerExpiry dt s, ?_⟩
  rw [State.closeTimer_expire_closes hopen hdue hrecs hwhy]
  refine ⟨u.closeRaw_same r, ?_⟩
  beta_reduce
  rw [State.closeRaw_pack r hopen hsession hecho, State.join_numbered _ halone]
  exact ⟨rfl, rfl, u.numbered (u.rawSkein o r), rfl, rfl, rfl, rfl⟩

theorem does_closeTimerExpiry_of_brace {i : Item} {rest : List Item} (halone : ∀ q ∈ u.pack.released, q.inCycle ≠ u.cycle)
    (htake : u.takeable = true) (hitems : u.chain.items = i :: rest) (hfits : u.closeReason o i = none)
    (hbrace : i.st.isBrace = true) :
    Does (.closeTimerExpiry dt) s u [.chain, .pack] fun t =>
      t.chain.items = rest ∧ t.pack.rawOpen = none ∧ t.pack.seq = u.pack.seq + 1 ∧
        ∃ k : Skein, t.pack.released = u.pack.released ++ [k] ∧ k.seq = u.pack.seq ∧ k.reason = 5 ∧
          k.body.records = o.recs ++ [i.st] := by
  refine ⟨u.closeTimer_expire, hu ▸ exec_closeTimerExpiry dt s, u.closeTimer_expire_same, ?_⟩
  obtain ⟨hleft, k, hseq, hreason, hbody, hpack⟩ :=
    State.leaveChain_writeRaw_of_brace 0 hitems hbrace hsession hecho halone
  rw [State.closeTimer_expire_of_brace hopen hdue hrecs htake hitems hfits hbrace]
  rw [hpack]
  exact ⟨hleft, rfl, rfl, k, rfl, hseq, hreason, hbody⟩

theorem does_closeTimerExpiry_before_one {l : List Skein} {q : Skein} (htake : u.takeable = false)
    (hreleased : u.pack.released = l ++ [q]) (hcycle : q.inCycle = u.cycle) (hsame : q.session = u.tb.session)
    (hrank : 0 < q.rank) (hothers : ∀ p ∈ l, p.inCycle ≠ u.cycle) :
    Does (.closeTimerExpiry dt) s u [.pack] fun t =>
      ∃ k : Skein, t.pack.released = l ++ [k, { q with seq := q.seq + 1, closeNo := q.closeNo + 1 }] ∧
        k.seq = u.pack.seq - 1 ∧ k.reason = 1 := by
  have hjoin := Skein.join_before_one (k := u.numbered (u.rawSkein o 1)) hcycle (hsame.trans hsession.symm)
    (u.rawSkein_rank u o 1 ▸ hrank) hothers
  refine ⟨u.closeTimer_expire, hu ▸ exec_closeTimerExpiry dt s, ?_⟩
  rw [State.closeTimer_expire_closes hopen hdue hrecs (.inl ⟨.inl htake, rfl⟩)]
  refine ⟨u.closeRaw_same 1, ?_⟩
  beta_reduce
  rw [State.closeRaw_pack 1 hopen hsession hecho, hreleased, hjoin]
  exact ⟨_, rfl, rfl, rfl⟩

end

end Sys2Proof.Machine

open Sys2Proof Sys2Proof.Machine

/-- Settles O17: the head item, the oldest result, the timer's close and the control skein's close, case by case. -/
theorem packerWorks : Obligations.PackerWorks := by
  refine ⟨fun dt flip s u i rest hu hitems => ⟨fun hblocked => ?itemStays, fun hside hbuffer hmatch hhead hbrace => ?item⟩,
    fun dt s u r rest hu hqueue => ⟨fun hblocked => ?resultStays, fun hside hbuffer hraw hopen => ?result⟩,
    fun dt s u o hu hopen => ⟨fun hearly => ?early, fun r hdue hrecs hsession hecho halone hwhy => ?timer,
      fun i rest hdue hrecs hsession hecho halone htake hitems hfits hbrace => ?brace,
      fun l q hdue hrecs hsession htake hecho hreleased hcycle hsame hrank hothers => ?before⟩,
    fun dt s u c rest hu hboot hqueue => ⟨fun hblocked => ?ctlStays,
      fun hruns hfree hidle hold hecho hsum hlive hbacklog => ?ctl⟩⟩
  case itemStays =>
    rw [exec_packerTakeItem, ← hu, State.takeItem_of_not_takeable flip (State.not_takeable hitems hblocked)]
  case item =>
    have htake := State.takeable_iff.mpr ⟨hside, hbuffer, hmatch, hhead⟩
    exact ⟨does_packerTakeItem_opens hu hitems htake hbrace,
      fun o hopen hfits hrecs => does_packerTakeItem_joins hu hitems htake hbrace hopen hfits hrecs,
      fun o r hopen hcloses hnone hsession hecho halone =>
        does_packerTakeItem_closes hu hitems htake hbrace hopen hcloses hnone hsession hecho halone⟩
  case resultStays => rw [exec_packerTakeResult, ← hu, State.takeResult_of_blocked hblocked]
  case result =>
    refine ⟨u.takeResult, hu ▸ exec_packerTakeResult dt s, u.takeResult_same, ?_⟩
    rw [State.takeResult_of_none_open hqueue hside hbuffer hraw hopen]
    refine ⟨State.writeSum_results hqueue _, u.writeSum_takenAt _ r, fun hlast => ?_, fun hlast hsession hecho halone => ?_⟩
    · obtain ⟨heads, hpack⟩ := State.writeSum_pack_of_more (u.openSum r) hlast
      rw [hpack]
      exact ⟨rfl, rfl⟩
    · rw [State.writeSum_pack_of_last (o := u.openSum r) hlast hsession hecho halone]
      exact ⟨rfl, rfl, rfl, _, rfl, rfl, rfl, rfl, rfl, rfl, rfl⟩
  case early => rw [exec_closeTimerExpiry, ← hu, State.closeTimer_expire_of_early hopen hearly]
  case timer => exact does_closeTimerExpiry_closes hu hopen hdue hrecs hsession hecho halone hwhy
  case brace =>
    exact does_closeTimerExpiry_of_brace hu hopen hdue hrecs hsession hecho halone htake hitems hfits hbrace
  case before =>
    exact does_closeTimerExpiry_before_one hu hopen hdue hrecs hsession hecho htake hreleased hcycle hsame hrank hothers
  case ctlStays =>
    rw [exec_controlSkeinClose, ← hu, State.closeNextCtl_of_blocked hblocked, State.stepSix_of_other_step hboot]
  case ctl =>
    have hcore : u.closeNextCtl.core = u.core := u.closeNextCtl_same .core rfl
    have hcontrol : (u.ctlSkein c).isControl = true := by
      simp [Skein.isControl, Skein.isRaw, State.ctlSkein, State.writtenSkein, State.skein, hsum, hlive, hbacklog]
    refine ⟨u.closeNextCtl, ?_, u.closeNextCtl_same, ?_⟩
    · rw [exec_controlSkeinClose, ← hu, State.stepSix_of_other_step (hcore ▸ hboot)]
    · beta_reduce
      rw [State.closeNextCtl_pack hqueue hruns hfree hidle hold hcontrol hecho]
      exact ⟨rfl, rfl, u.ctlSkein c, rfl, rfl, rfl, rfl, rfl, rfl⟩
end

section
/-! What the firmware closes by the clock: status skeins, fault skeins and the periods of the rate-limited codes (R347, R353, R354,
R667). -/

namespace Sys2Proof.Machine
open Sys2Proof

theorem exec_statusSkeinTimer (dt : Nat) (s : State) : exec (.statusSkeinTimer dt) s = .next (advance dt s).statusTimer := rfl

theorem exec_logPeriodExpiry (dt : Nat) (code : Byte) (ch : Chan) (s : State) :
    exec (.logPeriodExpiry dt code ch) s = .next ((advance dt s).when (advance dt s).outOfReset fun t =>
      t.endPeriod code (if code = 0x13 then ch.val else 0)) := rfl

/-! ### Skeins written to a free and to a busy read side (R302, R317, R347) -/

/-- With the read side in use a skein waits in the control buffer. -/
theorem State.control_of_busy {s : State} (typ : BitVec 6) (body : List Byte) (intro : Bool) (hbusy : s.readIdle = false) :
    s.control typ body intro =
      { s with pack := { s.pack with ctlQueue := s.pack.ctlQueue ++ [{ typ := typ, body := body, intro := intro }] } } :=
  if_neg (by simp [hbusy])

/-- At a whole 10 s of session time the status is gathered for that instant. -/
theorem State.statusTimer_of_due {s : State} {k inst : Nat} (hset : s.tb.epochSet = true)
    (hgrid : s.gridInstant 40000000000000 = some (k, inst)) (hk : 0 < k) :
    s.statusTimer = s.write typeStatus (s.statusBody (BitVec.ofNat 64 inst) (s.clockOf inst) false) false := by
  simp only [State.statusTimer, Config.sec, Nat.reduceMul, hgrid, hset, hk, decide_true, Bool.and_self,
    if_true]

theorem does_statusSkeinTimer {dt k inst : Nat} {s u : State} (hu : u = advance dt s) (hset : u.tb.epochSet = true)
    (hgrid : u.gridInstant 40000000000000 = some (k, inst)) (hk : 0 < k) (hruns : u.fwRuns = true)
    (hqueue : u.pack.ctlQueue = []) (hfree : u.ctlFree = true) (hidle : u.readIdle = true) (hold : u.pack.ctlOld = false) :
    Does (.statusSkeinTimer dt) s u [.pack] fun t =>
      ∃ q : Skein, t.pack.released = u.pack.released ++ [q] ∧ q.typ = typeStatus ∧ q.session = u.tb.session ∧
        q.body = .bytes (u.statusBody (BitVec.ofNat 64 inst) (u.clockOf inst) false) := by
  refine ⟨u.statusTimer, hu ▸ exec_statusSkeinTimer dt s, u.statusTimer_same, ?_⟩
  rw [State.statusTimer_of_due hset hgrid hk, State.write_of_free _ _ _ hruns hqueue hfree hidle]
  dsimp only
  rw [State.closeCtl_pack hold rfl (show typeStatus ≠ typeEcho by decide)]
  exact ⟨_, rfl, rfl, rfl, rfl⟩

/-! ### Fault skeins (R354) -/

theorem State.closeFault_of_blocked {s : State}
    (h : s.fwRuns = false ∨ s.pack.echoDone = false ∨ s.ctlFree = false ∨ s.pack.ctlQueue ≠ []) : s.closeFault = s := by
  have hblocked : ¬(s.fwRuns && s.pack.echoDone && s.pack.ctlQueue.isEmpty && s.ctlFree) = true := by
    simp only [Bool.and_eq_true, List.isEmpty_iff]
    rintro ⟨⟨⟨hruns, hecho⟩, hqueue⟩, hfree⟩
    simp [hruns, hecho, hqueue, hfree] at h
  unfold State.closeFault
  split
  · exact if_neg hblocked
  · rfl

/-- After start-up the oldest event is taken and its skein written, whether the read side is free or not. -/
theorem State.closeFault_of_event {s : State} {e : FaultEvent} {rest : List FaultEvent} (hevents : s.faults.events = e :: rest)
    (hruns : s.fwRuns = true) (hecho : s.pack.echoDone = true) (hqueue : s.pack.ctlQueue = []) (hfree : s.ctlFree = true)
    (hboot : s.core.boot ≠ .skeins) :
    s.closeFault = ((s.eventTaken rest).control typeFault e.bytes false).writeFw := by
  have hcore : ((s.eventTaken rest).control typeFault e.bytes false).core = s.core := State.control_same _ _ _ _ .core rfl
  have hstep : ((s.eventTaken rest).control typeFault e.bytes false).stepSix =
      (s.eventTaken rest).control typeFault e.bytes false := State.stepSix_of_other_step (hcore ▸ hboot)
  rw [← hstep]
  simp only [State.closeFault, hevents, hruns, hecho, hqueue, hfree, List.isEmpty_nil, Bool.and_self, if_true]
  rfl

theorem does_faultSkeinClose {dt : Nat} {s u : State} {e : FaultEvent} {rest : List FaultEvent} (hu : u = advance dt s)
    (hevents : u.faults.events = e :: rest) (hruns : u.fwRuns = true) (hecho : u.pack.echoDone = true)
    (hqueue : u.pack.ctlQueue = []) (hfree : u.ctlFree = true) (hboot : u.core.boot ≠ .skeins) :
    Does (.faultSkeinClose dt) s u [.pack, .snap, .faults] fun t =>
      t.faults = { u.faults with events := rest } ∧
        (u.readIdle = true → u.pack.ctlOld = false →
          ∃ q : Skein, t.pack.released = u.pack.released ++ [q] ∧ q.typ = typeFault ∧ q.body = .bytes e.bytes) ∧
        (u.readIdle = false → t.pack.released = u.pack.released ∧
          t.pack.ctlQueue.map (fun c => (c.typ, c.body)) = [(typeFault, e.bytes)]) := by
  have hcontrol := State.control_same (u.eventTaken rest) typeFault e.bytes false
  have hwritten := State.writeFw_same ((u.eventTaken rest).control typeFault e.bytes false)
  refine ⟨u.closeFault, hu ▸ exec_faultSkeinClose dt s, ?_⟩
  rw [State.closeFault_of_event hevents hruns hecho hqueue hfree hboot]
  dsimp only
  rw [hwritten .faults rfl, hwritten .pack rfl]
  refine ⟨Same.step hwritten rfl (Same.step hcontrol rfl (Same.upd_faults rfl (Same.refl _ _))), hcontrol .faults rfl,
    fun hidle hold => ?_, fun hbusy => ?_⟩
  · have htold : (u.eventTaken rest).control typeFault e.bytes false = u.eventTold e rest :=
      State.control_of_free _ _ _ hqueue hfree hidle
    rw [htold, State.eventTold_pack e rest hold]
    exact ⟨_, rfl, rfl, rfl⟩
  · rw [State.control_of_busy (s := u.eventTaken rest) _ _ _ hbusy]
    exact ⟨rfl, by rw [show (u.eventTaken rest).pack.ctlQueue = [] from hqueue]; rfl⟩

/-! ### The periods of the rate-limited codes (R667) -/

theorem Faults.period_setPeriod_none (f : Faults) (code : Byte) (ch : Nat) : (f.setPeriod code ch none).period code ch = none := by
  simp only [Faults.period, Faults.setPeriod, Option.toList_none, List.nil_append, List.find?_eq_none]
  intro q hq
  simpa only [Bool.not_eq_true', Bool.not_eq_true] using (List.mem_filter.mp hq).2

theorem Faults.period_setPeriod_some (f : Faults) {code : Byte} {ch : Nat} {p : LogPeriod} (hcode : p.code = code)
    (hch : p.ch = ch) : (f.setPeriod code ch (some p)).period code ch = some p := by
  simp [Faults.period, Faults.setPeriod, hcode, hch]

/-- A period is that of its code and channel. -/
theorem Faults.period_keys {f : Faults} {code : Byte} {ch : Nat} {p : LogPeriod} (h : f.period code ch = some p) :
    p.code = code ∧ p.ch = ch := by
  simpa using List.find?_some h

/-- The end of a period in which nothing has accumulated. -/
theorem State.endPeriod_of_empty {s : State} {code : Byte} {ch : Nat} {p : LogPeriod} (hperiod : s.faults.period code ch = some p)
    (hdue : logPeriod code ≤ s.clock - p.since) (hacc : p.acc = 0) :
    s.endPeriod code ch = { s with faults := s.faults.setPeriod code ch none } := by
  simp only [State.endPeriod, hperiod, Nat.not_lt.mpr hdue, hacc, if_false, if_true]

/-- The end of a period with occurrences: one event for them all, and the next period. -/
theorem State.endPeriod_of_occurrences {s : State} {code : Byte} {ch : Nat} {p : LogPeriod}
    (hperiod : s.faults.period code ch = some p) (hdue : logPeriod code ≤ s.clock - p.since) (hacc : p.acc ≠ 0) :
    s.endPeriod code ch =
      { s.event code true false p.firstTime p.subject (sat32 p.acc) p.detailB with
        faults := { ((s.event code true false p.firstTime p.subject (sat32 p.acc) p.detailB).faults.setPeriod code ch
          (some { p with since := s.clock, acc := 0 })) with last := code } } := by
  simp only [State.endPeriod, hperiod, Nat.not_lt.mpr hdue, hacc, if_false]

theorem does_logPeriodExpiry {dt : Nat} {s u : State} {code : Byte} {ch : Chan} {p : LogPeriod} (hu : u = advance dt s)
    (hout : u.outOfReset = true) (hperiod : u.faults.period code (if code = 0x13 then ch.val else 0) = some p)
    (hdue : logPeriod code ≤ u.clock - p.since) :
    Does (.logPeriodExpiry dt code ch) s u [.faults] fun t =>
      t.faults.active = u.faults.active ∧
        (p.acc = 0 → t.faults.events = u.faults.events ∧
          t.faults.period code (if code = 0x13 then ch.val else 0) = none) ∧
        (p.acc ≠ 0 → t.faults.last = code ∧
          t.faults.events.map (fun e => (e.code, e.time, e.subject, e.detailA, e.detailB)) =
            u.faults.events.map (fun e => (e.code, e.time, e.subject, e.detailA, e.detailB)) ++
              [(code, p.firstTime, p.subject, sat32 p.acc, p.detailB)] ∧
          (t.faults.period code (if code = 0x13 then ch.val else 0)).map (fun q => (q.acc, q.since)) =
            some (0, u.clock)) := by
  refine ⟨u.endPeriod code (if code = 0x13 then ch.val else 0), ?_, State.endPeriod_same _ _ _, ?_⟩
  · rw [exec_logPeriodExpiry, ← hu, hout, State.when_true]
  generalize (if code = 0x13 then ch.val else 0) = key at hperiod ⊢
  obtain ⟨hcode, hkey⟩ := Faults.period_keys hperiod
  by_cases hacc : p.acc = 0
  · rw [State.endPeriod_of_empty hperiod hdue hacc]
    exact ⟨rfl, fun _ => ⟨rfl, Faults.period_setPeriod_none ..⟩, fun h => absurd hacc h⟩
  · rw [State.endPeriod_of_occurrences hperiod hdue hacc]
    have hnext : (u.faults.setPeriod code key (some { p with since := u.clock, acc := 0 })).period code key =
        some { p with since := u.clock, acc := 0 } := Faults.period_setPeriod_some _ hcode hkey
    exact ⟨rfl, fun h => absurd h hacc, fun _ => ⟨rfl, List.map_append, congrArg (Option.map _) hnext⟩⟩

end Sys2Proof.Machine

open Sys2Proof Sys2Proof.Machine

/-- Settles O45: the status of a whole 10 s, the oldest fault event, and a period with and without occurrences. -/
theorem firmwareSkeinsClose : Obligations.FirmwareSkeinsClose := by
  refine ⟨?status, fun dt s u e rest hu hevents => ⟨fun hblocked => ?stays, ?closes⟩, ?period⟩
  case status =>
    intro dt k inst s u hu hset hgrid hk hruns hqueue hfree hidle hold
    exact does_statusSkeinTimer hu hset hgrid hk hruns hqueue hfree hidle hold
  case stays => rw [exec_faultSkeinClose, ← hu, State.closeFault_of_blocked hblocked]
  case closes =>
    intro hruns hecho hqueue hfree hboot
    exact does_faultSkeinClose hu hevents hruns hecho hqueue hfree hboot
  case period =>
    intro dt s u code ch p hu hout hperiod hdue
    exact does_logPeriodExpiry hu hout hperiod hdue
end

section
/-! How a full run begins (R33, R498): every channel in state 5 is suspended with its count. -/

namespace Sys2Proof.Machine
open Sys2Proof

theorem exec_fullRunStart (dt : Nat) (s : State) : exec (.fullRunStart dt) s = .next (advance dt s).fullRunStart := rfl

/-! ### Instants and counts (R20, R40) -/

theorem State.cycle_congr {s t : State} (hclock : t.clock = s.clock) (htb : t.tb = s.tb) : t.cycle = s.cycle := by
  simp only [State.cycle, State.cycleAt, hclock, htb]

/-- The start of the cycle, as a full time, depends on the clock and the timebase alone. -/
theorem State.cycleNow_congr {s t : State} (hclock : t.clock = s.clock) (htb : t.tb = s.tb) : t.cycleNow = s.cycleNow := by
  simp only [State.cycleNow, State.full, State.cycleFrom, State.cycle_congr hclock htb, hclock, htb]

/-- The count at an instant depends besides on what the channel holds of its edges. -/
theorem State.countBy_congr {s t : State} {n : Chan} (inst : Nat) (hclock : t.clock = s.clock) (htb : t.tb = s.tb)
    (hedges : (t.chan.get n).edges = (s.chan.get n).edges) :
    t.countBy n (t.clockOf inst) = s.countBy n (s.clockOf inst) := by
  simp only [Channel.edges, Prod.mk.injEq] at hedges
  obtain ⟨hcount, hlast, hintervals⟩ := hedges
  simp only [State.countBy, State.clockOf, State.full, Channel.edgesFrom, hclock, htb, hcount, hlast, hintervals]

/-! ### Suspension (R33, R207, R498) -/

/-- A channel of state 5 that has been suspended at an instant with its count there. -/
def Channel.suspendedAt (c : Channel) (inst : Nat) (count : BitVec 48) : Channel :=
  { c with st := .suspended, susp := some (inst, count), pending := false, tickSlots := [] }

theorem State.capture_chan (s : State) (n : Chan) :
    (s.capture n).chan =
      s.chan.set n { s.chan.get n with susp := some (s.cycleNow, s.countBy n (s.clockOf s.cycleNow)) } := rfl

theorem State.suspend_of_present {s : State} {n : Chan} (h : (s.chan.get n).st = .present) :
    (s.suspend n).chan =
      s.chan.set n ((s.chan.get n).suspendedAt s.cycleNow (s.countBy n (s.clockOf s.cycleNow))) := by
  have hstopped : ((s.capture n).stopStamping n).chan = s.chan.set n { s.chan.get n with
      susp := some (s.cycleNow, s.countBy n (s.clockOf s.cycleNow)), pending := false, tickSlots := [] } := by
    rw [State.stopStamping, State.cutSamples_same _ n .chan rfl, State.modChan_chan, s.capture_chan n, Per8.get_set_same,
      Per8.set_set]
  rw [State.suspend, if_pos (beq_iff_eq.mpr h)]
  dsimp only
  rw [State.modStat_chan, State.modChan_chan, hstopped, Per8.get_set_same, Per8.set_set]
  rfl

theorem State.suspend_of_other {s : State} {n : Chan} (h : (s.chan.get n).st ≠ .present) : s.suspend n = s :=
  if_neg (mt beq_iff_eq.mp h)

theorem State.suspend_onlyChan (s : State) (n : Chan) : OnlyChan n s (s.suspend n) := by
  by_cases h : (s.chan.get n).st = .present
  · exact OnlyChan.of_set (State.suspend_of_present h)
  · rw [State.suspend_of_other h]
    exact OnlyChan.refl n s

/-- Each channel in state 5 is suspended as it stood, and no other channel changes. -/
theorem State.eachChan_suspend_chan (s : State) (n : Chan) :
    ((s.chan.get n).st = .present → (s.eachChan fun n t => t.suspend n).chan.get n =
        (s.chan.get n).suspendedAt s.cycleNow (s.countBy n (s.clockOf s.cycleNow))) ∧
      ((s.chan.get n).st ≠ .present → (s.eachChan fun n t => t.suspend n).chan.get n = s.chan.get n) := by
  obtain ⟨t, hsame, hchan, hturn⟩ := State.eachChan_turn (fun n t => State.suspend_same t n)
    (fun n t => State.suspend_onlyChan t n) s n
  rw [hturn]
  refine ⟨fun h => ?_, fun h => ?_⟩
  · have hclock : t.clock = s.clock := hsame .clock rfl
    have htb : t.tb = s.tb := hsame .tb rfl
    rw [State.suspend_of_present (by rw [hchan]; exact h), Per8.get_set_same, State.cycleNow_congr hclock htb,
      State.countBy_congr _ hclock htb (congrArg Channel.edges hchan), hchan]
  · rw [State.suspend_of_other (by rw [hchan]; exact h), hchan]

/-! ### FULL_RUN_START (R486, R498, R583) -/

/-- The run that begins with a trigger. -/
def State.runBegun (s : State) (trig : Trigger) : Run :=
  { rejoin := none, trigger := trig, startTime := BitVec.ofNat 64 s.cycleNow, startClock := s.clock
    mask := s.runMask, outMask := s.runOuts, dieSum := 0, dieN := 0 }

theorem State.fullRunStart_of_due {s : State} {trig : Trigger} (hpending : s.cal.pending = some trig) (hruns : s.fwRuns = true)
    (hboot : s.core.boot = .calib ∨ s.core.boot = .ready) (hheld : s.leave.holding = some .fullRun)
    (hlocked : s.tb.locked = true) (hpassed : s.cal.passed = true) (hrun : s.cal.run = none) :
    s.fullRunStart.chan = (s.eachChan fun n t => t.suspend n).chan ∧
      s.fullRunStart.cal = { s.cal with run := some (s.runBegun trig), pending := none, passed := false } := by
  have hallowed : s.runsAllowed = true := by rcases hboot with h | h <;> simp [State.runsAllowed, h]
  have hdue : (s.fwRuns && s.runsAllowed && s.holds .fullRun && s.tb.locked && s.cal.passed && s.cal.run.isNone) = true := by
    simp [hruns, hallowed, State.holds_iff.mpr hheld, hlocked, hpassed, hrun]
  have hsame : Same [.chan, .stat] s (s.eachChan fun n t => t.suspend n) :=
    Same.eachChan (fun n t => State.suspend_same t n) (Same.refl _ s)
  have hcal : (s.eachChan fun n t => t.suspend n).cal = s.cal := hsame .cal rfl
  rw [← hcal]
  simp only [State.fullRunStart, hpending, hdue, if_true, State.runBegun, and_self]

theorem does_fullRunStart {dt : Nat} {s u : State} {trig : Trigger} (hu : u = advance dt s) (hruns : u.fwRuns = true)
    (hpending : u.cal.pending = some trig) (hheld : u.leave.holding = some .fullRun) (hlocked : u.tb.locked = true)
    (hpassed : u.cal.passed = true) (hrun : u.cal.run = none) (hboot : u.core.boot = .calib ∨ u.core.boot = .ready) :
    Does (.fullRunStart dt) s u [.chan, .stat, .cal] fun t =>
      t.cal.pending = none ∧ t.cal.passed = false ∧
        t.cal.run.map (fun r => (r.rejoin, r.trigger, r.startClock)) = some (none, trig, u.clock) ∧
        ∀ n : Chan, (t.chan.get n).count = (u.chan.get n).count ∧ (t.chan.get n).yarn = (u.chan.get n).yarn ∧
          ((u.chan.get n).st = .present → (t.chan.get n).st = .suspended ∧ (t.chan.get n).pending = false ∧
            (t.chan.get n).susp = some (u.cycleNow, u.countBy n (u.clockOf u.cycleNow))) ∧
          ((u.chan.get n).st ≠ .present → t.chan.get n = u.chan.get n) := by
  have hsame := State.fullRunStart_same u
  refine ⟨u.fullRunStart, hu ▸ exec_fullRunStart dt s, hsame, ?_⟩
  obtain ⟨hchan, hcal⟩ := State.fullRunStart_of_due hpending hruns hboot hheld hlocked hpassed hrun
  refine ⟨congrArg Cal.pending hcal, congrArg Cal.passed hcal, by rw [hcal]; rfl,
    fun n => ⟨hsame .counts rfl n, hsame .yarns rfl n, fun h => ?_, fun h => ?_⟩⟩ <;> rw [hchan]
  · rw [(u.eachChan_suspend_chan n).1 h]
    exact ⟨rfl, rfl, rfl⟩
  · exact (u.eachChan_suspend_chan n).2 h

end Sys2Proof.Machine
end

section
/-! How a full run ends (R337, R338, R501): the channels' way back, their gap markers, the result and the corrections. -/

namespace Sys2Proof.Machine
open Sys2Proof

theorem exec_fullRunEnd (dt : Nat) (m : FullMeas) (s : State) :
    exec (.fullRunEnd dt m) s = .next ((advance dt s).fullRunEnd m) := rfl

/-- What holds before the turns of the channels and is kept by each holds after them. -/
theorem State.eachChan_induct {P : State → Prop} {f : Chan → State → State} (hf : ∀ n t, P t → P (f n t)) {s : State}
    (h : P s) : P (s.eachChan f) :=
  List.foldlRecOn Chan.all _ h fun t ht n _ => hf n t ht

/-! ### The way back of a channel (R501, R506) -/

/-- A channel once the suspension has ended at an instant: in state 5 within its yarn, or in state 2 where it was lost. -/
def Channel.resumed (c : Channel) (inst clock : Nat) : Channel :=
  if c.st = .suspended then
    if c.loss.isSome then
      { c with st := .absentUp, absentAt := clock, stable := 0, startJoin := false, settling := false, missingAt := clock }
    else
      { c with st := .present, pending := false, tickStamped := false, tickSlots := [], presentAt := inst, startJoin := false
               settling := false }
  else c

theorem Channel.resumed_of_other {c : Channel} (inst clock : Nat) (h : c.st ≠ .suspended) : c.resumed inst clock = c := if_neg h

/-- A channel keeps its yarn, its edges and what was captured of it. -/
theorem Channel.resumed_keeps (c : Channel) (inst clock : Nat) :
    (c.resumed inst clock).yarn = c.yarn ∧ (c.resumed inst clock).susp = c.susp ∧ (c.resumed inst clock).edges = c.edges := by
  unfold Channel.resumed
  split
  · split <;> exact ⟨rfl, rfl, rfl⟩
  · exact ⟨rfl, rfl, rfl⟩

/-- A suspended channel is in state 5, or in state 2 where it was lost. -/
theorem Channel.resumed_st {c : Channel} (inst clock : Nat) (h : c.st = .suspended) :
    (c.resumed inst clock).st = if c.loss.isSome then .absentUp else .present := by
  unfold Channel.resumed
  rw [if_pos h]
  split <;> rfl

theorem State.resumeChan_chan (s : State) (n : Chan) (inst : Nat) :
    (s.resumeChan n inst).chan = s.chan.set n ((s.chan.get n).resumed inst s.clock) := by
  by_cases hst : (s.chan.get n).st = .suspended
  · rw [State.resumeChan, if_pos (beq_iff_eq.mpr hst), Channel.resumed, if_pos hst]
    split
    · rw [State.goAbsentUp, State.modChan_modChan]
      rfl
    · exact State.enterPresent_chan s n inst
  · rw [State.resumeChan, if_neg (mt beq_iff_eq.mp hst), Channel.resumed_of_other _ _ hst, Per8.set_get]

/-- Every channel takes its way back as it stood. -/
theorem State.eachChan_resumeChan_chan (s : State) (inst : Nat) (n : Chan) :
    (s.eachChan fun n t => t.resumeChan n inst).chan.get n = (s.chan.get n).resumed inst s.clock := by
  obtain ⟨t, hsame, hchan, hturn⟩ := State.eachChan_turn (fun n t => State.resumeChan_same t n inst)
    (fun n t => OnlyChan.of_set (State.resumeChan_chan t n inst)) s n
  rw [hturn, State.resumeChan_chan, Per8.get_set_same, hchan, hsame .clock rfl]

/-! ### The gap markers (R337, R338) -/

/-- The markers placed in the buffer or waiting for it, oldest first. -/
def State.markers (s : State) : List Item := s.chain.buffer ++ s.chain.fwWait

/-- The two parts of a channel's calibration gap marker for a suspension that ends at an instant. -/
def State.gapItems (s : State) (inst1 : Nat) (n : Chan) : List Item :=
  match (s.chan.get n).susp with
  | some (inst, c) =>
    [{ st := .calGap n (BitVec.ofNat 64 inst) (c.setWidth 40) false false, session := s.tb.session, full := inst },
      { st := .calGap n (BitVec.ofNat 64 inst1) ((s.countBy n (s.clockOf inst1)).setWidth 40) true false
        session := s.tb.session, full := inst1 }]
  | none => []

theorem State.gapItems_congr {s t : State} {n : Chan} (inst1 : Nat) (hclock : t.clock = s.clock) (htb : t.tb = s.tb)
    (hsusp : (t.chan.get n).susp = (s.chan.get n).susp) (hedges : (t.chan.get n).edges = (s.chan.get n).edges) :
    t.gapItems inst1 n = s.gapItems inst1 n := by
  simp only [State.gapItems, hsusp, htb, State.countBy_congr inst1 hclock htb hedges]

theorem State.gapMarkers_markers (s : State) (n : Chan) (inst1 : Nat) :
    (s.gapMarkers n false inst1).markers = s.markers ++ s.gapItems inst1 n := by
  cases hsusp : (s.chan.get n).susp with
  | none => simp only [State.gapMarkers, State.gapItems, hsusp, List.append_nil]
  | some p =>
    simp only [State.gapMarkers, State.gapItems, hsusp, State.markers]
    rw [State.fwMarkerItem_waiting, State.fwMarkerItem_waiting, List.append_assoc]
    rfl

/-- The gap markers of channels in turn stand one behind the other. -/
theorem State.foldl_gapMarkers_markers (inst1 : Nat) {l : List Chan} (hl : l.Nodup) (s : State) :
    (l.foldl (fun t n => t.gapMarkers n false inst1) s).markers = s.markers ++ l.flatMap (s.gapItems inst1) := by
  induction l generalizing s with
  | nil => exact (List.append_nil _).symm
  | cons n l ih =>
    obtain ⟨hn, hl⟩ := List.nodup_cons.mp hl
    have hsame := State.gapMarkers_same s n false inst1
    have hrest : l.flatMap ((s.gapMarkers n false inst1).gapItems inst1) = l.flatMap (s.gapItems inst1) :=
      List.flatMap_congr fun m hm => by
        have hchan := OnlyChan.of_set (State.gapMarkers_chan s n false inst1) m fun h => hn (h ▸ hm)
        exact State.gapItems_congr inst1 (hsame .clock rfl) (hsame .tb rfl) (congrArg Channel.susp hchan)
          (congrArg Channel.edges hchan)
    rw [List.foldl_cons, ih hl, hrest, State.gapMarkers_markers, List.append_assoc, List.flatMap_cons]

theorem State.endSuspension_chan (s : State) (inst : Nat) (n : Chan) :
    (s.endSuspension inst).chan.get n = { (s.chan.get n).resumed inst s.clock with susp := none } := by
  rw [State.endSuspension, State.eachChan_chan (g := fun _ c => { c with susp := none })
    (fun n t => State.gapMarkers_chan t n false inst), State.eachChan_resumeChan_chan]

theorem State.endSuspension_markers (s : State) (inst : Nat) :
    (s.endSuspension inst).markers = s.markers ++ Chan.all.flatMap (s.gapItems inst) := by
  have hsame : Same [.chan, .faults] s (s.eachChan fun n t => t.resumeChan n inst) :=
    Same.eachChan (fun n t => State.resumeChan_same t n inst) (Same.refl _ s)
  have hchan := s.eachChan_resumeChan_chan inst
  have hended : (s.endSuspension inst).markers = (s.eachChan fun n t => t.resumeChan n inst).markers ++
      Chan.all.flatMap ((s.eachChan fun n t => t.resumeChan n inst).gapItems inst) :=
    State.foldl_gapMarkers_markers inst (by decide) _
  rw [hended]
  generalize s.eachChan (fun n t => t.resumeChan n inst) = t at hsame hchan ⊢
  have hitems : t.gapItems inst = s.gapItems inst := funext fun n => by
    obtain ⟨-, hsusp, hedges⟩ := (s.chan.get n).resumed_keeps inst s.clock
    rw [← hchan n] at hsusp hedges
    exact State.gapItems_congr inst (hsame .clock rfl) (hsame .tb rfl) hsusp hedges
  rw [hitems, State.markers, hsame .chain rfl, State.markers]

/-! ### The first yarns (R179, R508) -/

/-- What a channel of the start-up step does when its yarn may start, and any other does not. -/
def State.firstYarn (s : State) (inst : Nat) (n : Chan) : State :=
  if (s.chan.get n).startJoin && (s.chan.get n).st == .joining then s.startYarn n inst else s

theorem State.startYarns_eq (s : State) (inst : Nat) : s.startYarns inst = s.eachChan fun n t => t.firstYarn inst n := rfl

theorem State.firstYarn_of_joining {s : State} {n : Chan} (inst : Nat) (hst : (s.chan.get n).st = .joining)
    (hjoin : (s.chan.get n).startJoin = true) : s.firstYarn inst n = s.startYarn n inst := if_pos (by simp [hst, hjoin])

theorem State.firstYarn_of_other {s : State} {n : Chan} (inst : Nat) (hst : (s.chan.get n).st ≠ .joining) :
    s.firstYarn inst n = s := if_neg (by simp [hst])

theorem State.startYarns_turn (s : State) (inst : Nat) (n : Chan) :
    ∃ t : State, t.chan.get n = s.chan.get n ∧ (s.startYarns inst).chan.get n = (t.firstYarn inst n).chan.get n := by
  rw [State.startYarns_eq]
  obtain ⟨t, -, hchan, hturn⟩ := State.eachChan_turn (ps := [.chan, .yarns, .stat, .chain, .faults])
    (f := fun n t => t.firstYarn inst n)
    (fun n t => Same.ite (State.startYarn_same t n inst) (Same.refl _ t))
    (fun n t => OnlyChan.ite (OnlyChan.of_set (State.startYarn_chan t n inst)) (OnlyChan.refl n t)) s n
  exact ⟨t, hchan, hturn⟩

/-- A channel of the start-up step is in state 5 in its first yarn. -/
theorem State.startYarns_of_joining {s : State} {n : Chan} (inst : Nat) (hst : (s.chan.get n).st = .joining)
    (hjoin : (s.chan.get n).startJoin = true) :
    ((s.startYarns inst).chan.get n).st = .present ∧
      ((s.startYarns inst).chan.get n).yarn = (s.chan.get n).yarn + 1 := by
  obtain ⟨t, hchan, hturn⟩ := s.startYarns_turn inst n
  rw [← hchan] at hst hjoin ⊢
  rw [hturn, State.firstYarn_of_joining inst hst hjoin, State.startYarn_chan, Per8.get_set_same]
  exact ⟨rfl, rfl⟩

theorem State.startYarns_of_other {s : State} {n : Chan} (inst : Nat) (hst : (s.chan.get n).st ≠ .joining) :
    (s.startYarns inst).chan.get n = s.chan.get n := by
  obtain ⟨t, hchan, hturn⟩ := s.startYarns_turn inst n
  rw [hturn, State.firstYarn_of_other inst (by rw [hchan]; exact hst), hchan]

/-- A yarn's start puts its marker behind those that stand. -/
theorem State.startYarn_markers (s : State) (n : Chan) (inst : Nat) :
    (s.startYarn n inst).markers = s.markers ++ [s.yarnStartItem n inst] := by
  have hstat := State.statYarnStart_same (s.yarnTold n inst) n inst (s.countBy n (s.clockOf inst))
  rw [State.markers, State.startYarn_eq, State.enterPresent_same _ n inst .chain rfl, hstat .chain rfl]
  exact State.fwMarkerItem_waiting _ _

theorem State.startYarns_markers (s : State) (inst : Nat) : ∃ more : List Item, (s.startYarns inst).markers = s.markers ++ more :=
  State.eachChan_induct (P := fun t => ∃ more : List Item, t.markers = s.markers ++ more)
    (fun n t ⟨more, hmore⟩ => by
      split
      · exact ⟨more ++ [t.yarnStartItem n inst], by rw [State.startYarn_markers, hmore, List.append_assoc]⟩
      · exact ⟨more, hmore⟩)
    ⟨[], (List.append_nil _).symm⟩

/-! ### Faults that stay clear -/

theorem State.clearFault_clears (s : State) (code subj : Byte) : (s.clearFault code subj).faultActive code subj = false := by
  rw [State.clearFault_eq]
  exact Faults.cleared_active ..

/-- No clearing makes a fault active. -/
theorem State.clearFault_keeps_clear {s : State} {code subj : Byte} (c d : Byte) (h : s.faultActive code subj = false) :
    (s.clearFault c d).faultActive code subj = false := by
  rw [State.clearFault_eq]
  unfold State.faultActive Faults.cleared at *
  split
  · simp only [List.contains_eq_mem, decide_eq_false_iff_not] at h ⊢
    exact fun hmem => h (List.mem_of_mem_filter hmem)
  · exact h

theorem State.startYarns_keeps_clear {s : State} {code subj : Byte} (inst : Nat) (h : s.faultActive code subj = false) :
    (s.startYarns inst).faultActive code subj = false :=
  State.eachChan_induct (P := fun t => t.faultActive code subj = false)
    (fun n t ht => by
      have hstat := State.statYarnStart_same (t.yarnTold n inst) n inst (t.countBy n (t.clockOf inst))
      split
      · rw [State.startYarn_eq]
        refine State.clearFault_keeps_clear _ _ ?_
        rw [State.faultActive, State.modChan_faults, hstat .faults rfl]
        exact ht
      · exact ht)
    h

/-! ### FULL_RUN_END (R501, R506) -/

/-- The cells and segments of what the run measured have been judged (R491, R492). -/
def State.fullJudged (s : State) (r : Run) (m : FullMeas) : State :=
  (s.eachChan fun n t => if r.mask.get n then t.judgeCells n (m.chans.get n) else t).eachOut fun o t =>
    if r.outMask.get o then t.judgeSegs o (m.outs.get o) else t

/-- The result waits to be settled and its corrections are in use. -/
def State.fullStored (s : State) (r : Run) (m : FullMeas) : State :=
  let res := s.fullResult r m
  let t := (s.fullJudged r m).useSet res.set
  { t with cal := { t.cal with
    run := none, results := t.cal.results ++ [res], lastTemp := some m.temp, lastEnd := some s.clock
    lastEndTime := res.endTime, lastDie := m.temp, lastRref := m.rref, trims := true } }

/-- The suspension is over, LEAVE released and the faults that a full run ends are clear. -/
def State.fullOver (s : State) (r : Run) (m : FullMeas) : State :=
  (((((s.fullStored r m).endSuspension s.cycleNow).releaseFor .fullRun).clearFault 0x65 0xFF).clearFault 0x57 0).clearFault 0x57 1

/-- What a full run that ends leads to: the yarns of the start-up step, and READY where this was the start-up run. -/
theorem State.fullRunEnd_of_run {s : State} {r : Run} (m : FullMeas) (hrun : s.cal.run = some r) (hrejoin : r.rejoin = none)
    (hruns : s.fwRuns = true) :
    s.fullRunEnd m =
      if s.core.boot == .calib then ((s.fullOver r m).startYarns s.cycleNow).ready
      else (s.fullOver r m).startYarns s.cycleNow := by
  have hgo : ¬(r.rejoin.isSome || !s.fwRuns) = true := by simp [hrejoin, hruns]
  simp only [State.fullRunEnd, hrun, if_neg hgo]
  rfl

section Ended
variable (s : State) (r : Run) (m : FullMeas)

theorem State.fullJudged_same : Same [.faults] s (s.fullJudged r m) :=
  Same.eachOut (fun o t => Same.ite (State.judgeSegs_same t o _) (Same.refl _ t))
    (Same.eachChan (fun n t => Same.ite (State.judgeCells_same t n _) (Same.refl _ t)) (Same.refl _ s))

theorem State.fullStored_same : Same [.ao, .cal, .faults] s (s.fullStored r m) :=
  Same.upd_cal rfl (Same.step (State.useSet_same _ _) rfl (Same.mono (s.fullJudged_same r m) rfl))

theorem State.fullStored_cal :
    (s.fullStored r m).cal = { s.cal with
      work := some (s.fullResult r m).set, builtAt := s.sens.die, bank := !s.cal.bank, other := s.bankNow, swapAt := s.cycle + 1
      run := none, results := s.cal.results ++ [s.fullResult r m], lastTemp := some m.temp, lastEnd := some s.clock
      lastEndTime := (s.fullResult r m).endTime, lastDie := m.temp, lastRref := m.rref, trims := true } := by
  have hsame := s.fullJudged_same r m
  have hcal : (s.fullJudged r m).cal = s.cal := hsame .cal rfl
  have hsens : (s.fullJudged r m).sens = s.sens := hsame .sens rfl
  have hcycle : (s.fullJudged r m).cycle = s.cycle := State.cycle_congr (hsame .clock rfl) (hsame .tb rfl)
  have hbank : (s.fullJudged r m).bankNow = s.bankNow := by rw [State.bankNow, hcycle, hcal, State.bankNow]
  simp only [State.fullStored, State.useSet_cal, hcal, hsens, hcycle, hbank]

theorem State.fullOver_same : Same [.chan, .chain, .ao, .cal, .leave, .faults] s (s.fullOver r m) :=
  Same.step (State.clearFault_same _ _ _) rfl <| Same.step (State.clearFault_same _ _ _) rfl <|
    Same.step (State.clearFault_same _ _ _) rfl <| Same.step (State.releaseFor_same _ _) rfl <|
      Same.step (State.endSuspension_same _ _) rfl (Same.mono (s.fullStored_same r m) rfl)

/-- Once the suspension has ended LEAVE and the faults alone change. -/
theorem State.fullOver_same_ended :
    Same [.leave, .faults] ((s.fullStored r m).endSuspension s.cycleNow) (s.fullOver r m) :=
  Same.step (State.clearFault_same _ _ _) rfl <| Same.step (State.clearFault_same _ _ _) rfl <|
    Same.step (State.clearFault_same _ _ _) rfl (Same.mono (State.releaseFor_same _ _) rfl)

theorem State.fullOver_cal : (s.fullOver r m).cal = (s.fullStored r m).cal :=
  (s.fullOver_same_ended r m .cal rfl).trans (State.endSuspension_same _ _ .cal rfl)

theorem State.fullOver_chan (n : Chan) :
    (s.fullOver r m).chan.get n = { (s.chan.get n).resumed s.cycleNow s.clock with susp := none } := by
  have hstored := s.fullStored_same r m
  rw [s.fullOver_same_ended r m .chan rfl, State.endSuspension_chan, hstored .chan rfl, hstored .clock rfl]

theorem State.fullOver_markers :
    (s.fullOver r m).markers = s.markers ++ Chan.all.flatMap (s.gapItems s.cycleNow) := by
  have hstored := s.fullStored_same r m
  have hchan := hstored .chan rfl
  have hitems : (s.fullStored r m).gapItems s.cycleNow = s.gapItems s.cycleNow := funext fun n =>
    State.gapItems_congr _ (hstored .clock rfl) (hstored .tb rfl) (congrArg (fun p => (p.get n).susp) hchan)
      (congrArg (fun p => (p.get n).edges) hchan)
  have hmarkers : (s.fullStored r m).markers = s.markers := by rw [State.markers, hstored .chain rfl, State.markers]
  rw [State.markers, s.fullOver_same_ended r m .chain rfl, ← hitems, ← hmarkers]
  exact State.endSuspension_markers _ _

theorem State.fullOver_holding_none (hheld : s.leave.holding = some .fullRun) : (s.fullOver r m).leave.holding = none := by
  have hended : ((s.fullStored r m).endSuspension s.cycleNow).leave = s.leave :=
    (State.endSuspension_same _ _ .leave rfl).trans (s.fullStored_same r m .leave rfl)
  rw [State.fullOver]
  generalize (s.fullStored r m).endSuspension s.cycleNow = t at hended ⊢
  rw [State.clearFault_same _ _ _ .leave rfl, State.clearFault_same _ _ _ .leave rfl, State.clearFault_same _ _ _ .leave rfl]
  exact State.releaseFor_holding_none (hended ▸ hheld)

theorem State.fullOver_faultActive : (s.fullOver r m).faultActive 0x65 0xFF = false := by
  rw [State.fullOver]
  exact State.clearFault_keeps_clear _ _ (State.clearFault_keeps_clear _ _ (State.clearFault_clears _ _ _))

/-- From the end of the suspension on the yarns of the start-up step start, and the start-up may be over. -/
theorem State.fullRunEnd_after (hrun : s.cal.run = some r) (hrejoin : r.rejoin = none) (hruns : s.fwRuns = true) :
    Same [.ao, .cal, .core] ((s.fullOver r m).startYarns s.cycleNow) (s.fullRunEnd m) ∧
      (∃ done : Bool, (s.fullRunEnd m).cal = { (s.fullStored r m).cal with startupDone := done }) ∧
      (s.core.boot = .calib → (s.fullRunEnd m).core.boot = .ready) := by
  have hstarted := State.startYarns_same (s.fullOver r m) s.cycleNow
  have hcal : ((s.fullOver r m).startYarns s.cycleNow).cal = (s.fullStored r m).cal := by
    rw [← s.fullOver_cal r m]
    exact hstarted .cal rfl
  rw [State.fullRunEnd_of_run m hrun hrejoin hruns, ← hcal]
  generalize (s.fullOver r m).startYarns s.cycleNow = t
  split
  · exact ⟨State.ready_same t, ⟨true, rfl⟩, fun _ => rfl⟩
  · rename_i hboot
    exact ⟨Same.refl _ t, ⟨t.cal.startupDone, rfl⟩, fun h => absurd (beq_iff_eq.mpr h) hboot⟩

variable {s r}
variable (hrun : s.cal.run = some r) (hrejoin : r.rejoin = none) (hruns : s.fwRuns = true)
include hrun hrejoin hruns

theorem State.fullRunEnd_holding_none (hheld : s.leave.holding = some .fullRun) : (s.fullRunEnd m).leave.holding = none := by
  obtain ⟨hafter, -⟩ := s.fullRunEnd_after r m hrun hrejoin hruns
  have hstarted := State.startYarns_same (s.fullOver r m) s.cycleNow
  rw [hafter .leave rfl, hstarted .leave rfl, s.fullOver_holding_none r m hheld]

theorem State.fullRunEnd_faultActive : (s.fullRunEnd m).faultActive 0x65 0xFF = false := by
  obtain ⟨hafter, -⟩ := s.fullRunEnd_after r m hrun hrejoin hruns
  have hfaults : (s.fullRunEnd m).faults = ((s.fullOver r m).startYarns s.cycleNow).faults := hafter .faults rfl
  have hclear := State.startYarns_keeps_clear s.cycleNow (s.fullOver_faultActive r m)
  rw [State.faultActive] at hclear ⊢
  rw [hfaults, hclear]

/-- The gap markers stand behind those of before, and the yarn starts of the start-up step behind them. -/
theorem State.fullRunEnd_markers :
    ∃ more : List Item, (s.fullRunEnd m).markers = s.markers ++ Chan.all.flatMap (s.gapItems s.cycleNow) ++ more := by
  obtain ⟨hafter, -⟩ := s.fullRunEnd_after r m hrun hrejoin hruns
  rw [State.markers, hafter .chain rfl, ← s.fullOver_markers r m]
  exact State.startYarns_markers _ _

/-- A suspended channel goes on in its yarn, or was lost. -/
theorem State.fullRunEnd_of_suspended {n : Chan} (hst : (s.chan.get n).st = .suspended) :
    ((s.fullRunEnd m).chan.get n).yarn = (s.chan.get n).yarn ∧
      ((s.fullRunEnd m).chan.get n).st = if (s.chan.get n).loss.isSome then .absentUp else .present := by
  obtain ⟨hafter, -⟩ := s.fullRunEnd_after r m hrun hrejoin hruns
  obtain ⟨hyarn, -⟩ := (s.chan.get n).resumed_keeps s.cycleNow s.clock
  have hresumed := Channel.resumed_st s.cycleNow s.clock hst
  have hover := s.fullOver_chan r m n
  have hother : ((s.fullOver r m).chan.get n).st ≠ .joining := by
    rw [hover]
    dsimp only
    rw [hresumed]
    split <;> decide
  rw [hafter .chan rfl, State.startYarns_of_other _ hother, hover]
  exact ⟨hyarn, hresumed⟩

/-- A channel of the start-up step is in state 5 in its first yarn. -/
theorem State.fullRunEnd_of_joining {n : Chan} (hst : (s.chan.get n).st = .joining) (hjoin : (s.chan.get n).startJoin = true) :
    ((s.fullRunEnd m).chan.get n).st = .present ∧ ((s.fullRunEnd m).chan.get n).yarn = (s.chan.get n).yarn + 1 := by
  obtain ⟨hafter, -⟩ := s.fullRunEnd_after r m hrun hrejoin hruns
  have hover := s.fullOver_chan r m n
  rw [Channel.resumed_of_other _ _ (by rw [hst]; decide)] at hover
  obtain ⟨hpresent, hyarn⟩ := State.startYarns_of_joining (s := s.fullOver r m) (n := n) s.cycleNow
    (by rw [hover]; exact hst) (by rw [hover]; exact hjoin)
  rw [hafter .chan rfl]
  exact ⟨hpresent, by rw [hyarn, hover]⟩

end Ended

end Sys2Proof.Machine
end

section
/-! How a calibration result is settled (R502, R511, R530, R535, R536, R543): its report, its drawer, and the compaction that makes
room in the log. -/

namespace Sys2Proof.Machine
open Sys2Proof

theorem exec_drawerCommit (dt : Nat) (s : State) : exec (.drawerCommit dt) s = .next (advance dt s).drawerCommit := rfl

theorem exec_compaction (dt : Nat) (s : State) : exec (.compaction dt) s = .next (advance dt s).compaction := rfl

/-! ### DRAWER_COMMIT (R502, R511, R530) -/

theorem State.closeReport_cal (s : State) (r : RunResult) (outcome slot : Nat) (prev : Option CalSet) :
    (s.closeReport r outcome slot prev).cal = { s.cal with report := some (r.report outcome slot prev) } :=
  State.control_same _ _ _ _ .cal rfl

/-- The result settled next is the oldest of those that wait. -/
theorem State.results_of_nextCommit {s : State} {r : RunResult} {slot : Nat} {prev : Option CalSet}
    (h : s.nextCommit = some (r, slot, prev)) : s.cal.results ≠ [] := by
  intro hnone
  simp [State.nextCommit, hnone] at h

/-- The commit number has been taken and the records written to the log. -/
def State.commitWritten (s : State) (r : RunResult) (slot : Nat) (stored : Bool) : State :=
  (s.rowIncrement .commit).appendRecs (r.records slot ((s.rowIncrement .commit).rowValue .commit % 4294967296) stored)

theorem State.commitWritten_same (s : State) (r : RunResult) (slot : Nat) (stored : Bool) :
    Same [.free, .flash, .mem, .faults] s (s.commitWritten r slot stored) :=
  (State.rowIncrement_same s .commit).trans (State.appendRecs_same _ _)

section Commit
variable {s : State} {r : RunResult} {slot : Nat} {prev : Option CalSet} (hnext : s.nextCommit = some (r, slot, prev))
include hnext

theorem State.drawerCommit_of_gap (hgap : s.gapOnTheWay = true) : s.drawerCommit = s := by
  simp only [State.drawerCommit, hnext, hgap, Bool.or_true, if_true]

variable (hruns : s.fwRuns = true) (hgap : s.gapOnTheWay = false)
include hruns hgap

theorem State.drawerCommit_of_abandoned (habandoned : r.abandoned = true) :
    s.drawerCommit = s.dropResult.closeReport r 3 0xFF none := by
  simp [State.drawerCommit, hnext, hruns, hgap, habandoned]

/-- In a read-only drawer area the result becomes the session drawer. -/
theorem State.drawerCommit_of_readOnly (habandoned : r.abandoned = false) (hreadOnly : s.readOnly = true) :
    s.drawerCommit = State.closeReport (State.dropResult { s with cal := { s.cal with sessionDrawer := some r.set } }) r
      (if s.sealed then 1 else 2) 0xFF s.cal.sessionDrawer := by
  simp [State.drawerCommit, hnext, hruns, hgap, habandoned, hreadOnly]

variable (habandoned : r.abandoned = false) (hreadOnly : s.readOnly = false)
include habandoned hreadOnly

theorem State.drawerCommit_of_room (hheld : s.leave.holding = some .flashProgram) (hop : s.flash.op = none)
    (hbrace : s.power.brace = false) (herasing : s.drawersErasing = false) (hroom : s.needsCompaction s.commitLengths = false) :
    s.drawerCommit =
      ((s.commitWritten r slot prev.isSome).releaseFor .flashProgram).dropResult.closeReport r 0 slot prev := by
  simp [State.drawerCommit, State.commitWritten, hnext, hruns, hgap, habandoned, hreadOnly, State.holds_iff.mpr hheld, hop, hbrace,
    herasing, hroom]

/-- With no room in the log the result waits for a compaction. -/
theorem State.drawerCommit_of_full (hfull : s.needsCompaction s.commitLengths = true) : s.drawerCommit = s := by
  simp [State.drawerCommit, hnext, hruns, hgap, habandoned, hreadOnly, hfull]

end Commit

theorem does_drawerCommit_written {dt slot : Nat} {s u : State} {r : RunResult} {prev : Option CalSet} (hu : u = advance dt s)
    (hnext : u.nextCommit = some (r, slot, prev)) (hruns : u.fwRuns = true) (hgap : u.gapOnTheWay = false)
    (habandoned : r.abandoned = false) (hreadOnly : u.readOnly = false) (hheld : u.leave.holding = some .flashProgram)
    (hop : u.flash.op = none) (hbrace : u.power.brace = false) (herasing : u.drawersErasing = false)
    (hroom : u.needsCompaction u.commitLengths = false) :
    Does (.drawerCommit dt) s u [.free, .pack, .cal, .flash, .mem, .leave, .faults] fun t =>
      t.leave.holding = none ∧ t.cal.results = u.cal.results.tail ∧ t.cal.report = some (r.report 0 slot prev) := by
  have hwritten := u.commitWritten_same r slot prev.isSome
  have hleave : (u.commitWritten r slot prev.isSome).leave = u.leave := hwritten .leave rfl
  have hcal : (u.commitWritten r slot prev.isSome).cal = u.cal := hwritten .cal rfl
  refine ⟨u.drawerCommit, hu ▸ exec_drawerCommit dt s, u.drawerCommit_same, ?_⟩
  rw [State.drawerCommit_of_room hnext hruns hgap habandoned hreadOnly hheld hop hbrace herasing hroom]
  generalize u.commitWritten r slot prev.isSome = w at hleave hcal ⊢
  have hreleased := State.releaseFor_holding_none (s := w) (hleave ▸ hheld)
  have hkept : (w.releaseFor .flashProgram).cal = w.cal := State.releaseFor_same w _ .cal rfl
  rw [State.closeReport_same _ _ _ _ _ .leave rfl, State.closeReport_cal]
  refine ⟨hreleased, ?_, rfl⟩
  rw [State.dropResult]
  dsimp only
  rw [hkept, hcal]

/-! ### The head of the drawer log (R527, R536)

Only the records appended move the head: the journal's entries and the erases leave it where it stands. -/

theorem State.foldl_head {α : Type} {f : State → α → State} (hf : ∀ t a, (f t a).flash.head = t.flash.head) (l : List α)
    (s : State) : (l.foldl f s).flash.head = s.flash.head :=
  List.foldlRecOn (motive := fun t => t.flash.head = s.flash.head) l f rfl fun t ht a _ => (hf t a).trans ht

@[simp] theorem State.spoilErase_head (s : State) (p : Nat) : (s.spoilErase p).flash.head = s.flash.head := by
  unfold State.spoilErase
  split
  · rw [State.blurTally]
    refine State.foldl_head (fun t c => ?_) _ (s.flashEraseSector p)
    rfl
  · rfl

@[simp] theorem State.spoilProgram_head (s : State) (x : Nat) (bs : List Byte) :
    (s.spoilProgram x bs).flash.head = s.flash.head := by
  unfold State.spoilProgram
  split <;> rfl

@[simp] theorem State.retried_head (s : State) (p n : Nat) : (s.retried p n).flash.head = s.flash.head := by
  have hwear (t : State) (k : Nat) : (t.wear p k).flash.head = t.flash.head := by
    unfold State.wear
    split <;> rfl
  rw [State.retried, hwear]
  refine State.foldl_head (fun t i => ?_) _ s
  rfl

@[simp] theorem State.eraseNow_head (s : State) (p : Nat) : (s.eraseNow p).flash.head = s.flash.head := by
  have hnote (t : State) (took : Nat) : (t.noteTook p took).flash.head = t.flash.head := by
    unfold State.noteTook
    dsimp only
    split <;> rfl
  rw [State.eraseNow, State.retried_head, hnote]
  split
  · exact State.spoilErase_head _ p
  · rfl

@[simp] theorem State.programNow_head (s : State) (x : Nat) (bs : List Byte) :
    (s.programNow x bs).flash.head = s.flash.head := by
  rw [State.programNow, State.retried_head]
  split
  · exact State.spoilProgram_head _ x bs
  · rfl

@[simp] theorem State.journalPut_head (s : State) (w : Nat) : (s.journalPut w).flash.head = s.flash.head :=
  s.programNow_head _ _

@[simp] theorem State.journalComplete_head (s : State) (i : Nat) : (s.journalComplete i).flash.head = s.flash.head :=
  State.programNow_head _ _ _

@[simp] theorem State.completeErased_head (s : State) (i p : Nat) : (s.completeErased i p).flash.head = s.flash.head := by
  unfold State.completeErased
  split
  · exact s.journalComplete_head i
  · rfl

@[simp] theorem State.journalRoom_head (s : State) : s.journalRoom.flash.head = s.flash.head := by
  unfold State.journalRoom
  dsimp only
  split
  · rfl
  · rw [State.completeErased_head, State.eraseNow_head, State.journalPut_head]
    refine State.foldl_head (fun t i => ?_) _ _
    split
    · exact t.journalPut_head _
    · rfl

@[simp] theorem State.journalBegin_head (s : State) (w : Nat) : (s.journalBegin w).2.flash.head = s.flash.head := by
  rw [State.journalBegin, State.journalPut_head, State.journalRoom_head]

@[simp] theorem State.journaledErase_head (s : State) (area p : Nat) :
    (s.journaledErase area p).flash.head = s.flash.head := by
  rw [State.journaledErase, State.completeErased_head, State.eraseNow_head, State.journalBegin_head]

/-- Records appended to the log take the head along, each within one sector. -/
theorem State.appendRecs_head (rs : List (List Byte)) (s : State) :
    (s.appendRecs rs).flash.head = (placeAll s.flash.head (rs.map List.length)).1 := by
  induction rs generalizing s with
  | nil => rfl
  | cons b rs ih => exact ih _

/-! ### COMPACTION (R535, R536, R543) -/

theorem State.recBytes_length (s : State) (d : DrawerRec) : (s.recBytes d).length = d.len := by
  simp [State.recBytes, State.flashGets, memGets]

/-- A compaction moves the tail past eight sectors, and the head past the copies from a sector boundary on. -/
theorem State.compact_flash (s : State) :
    s.compact.flash.tail = (s.flash.tail + 8) % 64 ∧
      s.compact.flash.head = (placeAll (4096 * ((s.flash.head + 4095) / 4096) % 262144)
        ((eight s.flash.tail).flatMap fun l =>
          (s.drawerRecs.filter fun r => r.logical == l && liveRec s.drawerRecs r).map (·.len))).1 := by
  refine ⟨rfl, ?_⟩
  have hlengths : (((eight s.flash.tail).flatMap fun l =>
      s.drawerRecs.filter fun r => r.logical == l && liveRec s.drawerRecs r).map s.recBytes).map List.length =
        (eight s.flash.tail).flatMap fun l =>
          (s.drawerRecs.filter fun r => r.logical == l && liveRec s.drawerRecs r).map (·.len) := by
    simp only [List.map_flatMap, List.map_map, Function.comp_def, State.recBytes_length]
  rw [← hlengths, State.compact]
  dsimp only
  rw [State.journalComplete_head, State.journalComplete_head, State.foldl_head (fun t l => t.journaledErase_head 1 _),
    State.journalBegin_head, State.appendRecs_head, State.journalBegin_head]

theorem State.compaction_of_due {s : State} (hmay : s.mayWork .flashProgram = true) (hready : s.journalReady = true)
    (hreadOnly : s.readOnly = false) (hresults : s.cal.results ≠ []) (hfull : s.needsCompaction s.commitLengths = true)
    (herasing : s.drawersErasing = false) : s.compaction = s.compact.releaseFor .flashProgram :=
  if_pos (by simp [hmay, hready, hreadOnly, hresults, hfull, herasing])

theorem does_compaction {dt : Nat} {s u : State} (hu : u = advance dt s) (hmay : u.mayWork .flashProgram = true)
    (hready : u.journalReady = true) (hreadOnly : u.readOnly = false) (hresults : u.cal.results ≠ [])
    (hfull : u.needsCompaction u.commitLengths = true) (herasing : u.drawersErasing = false) :
    Does (.compaction dt) s u [.free, .flash, .mem, .leave, .faults] fun t =>
      t.leave.holding = none ∧ t.flash.tail = (u.flash.tail + 8) % 64 ∧
        t.flash.head = (placeAll (4096 * ((u.flash.head + 4095) / 4096) % 262144)
          ((eight u.flash.tail).flatMap fun l =>
            (u.drawerRecs.filter fun r => r.logical == l && liveRec u.drawerRecs r).map (·.len))).1 := by
  obtain ⟨-, hheld, -⟩ := State.mayWork_iff.mp hmay
  have hleave : u.compact.leave = u.leave := u.compact_same .leave rfl
  have hflash := u.compact_flash
  refine ⟨u.compaction, hu ▸ exec_compaction dt s, u.compaction_same, ?_⟩
  rw [State.compaction_of_due hmay hready hreadOnly hresults hfull herasing]
  generalize u.compact = w at hleave hflash ⊢
  rw [State.releaseFor_same w _ .flash rfl]
  exact ⟨State.releaseFor_holding_none (hleave ▸ hheld), hflash⟩

end Sys2Proof.Machine

open Sys2Proof Sys2Proof.Machine

/-- Settles O52: how a full run suspends the channels, how it ends, and what becomes of a result that waits. -/
theorem fullRunsSuspendAndSettle : Obligations.FullRunsSuspendAndSettle := by
  refine ⟨⟨?start, fun dt s u m r hu hruns hrun hrejoin hheld => ?ends⟩,
    fun dt slot s u r prev hu hruns hnext => ⟨fun hgap => ?waits, fun hgap => ⟨fun habandoned => ?abandoned,
      fun habandoned hreadOnly => ?readOnly,
      fun habandoned hreadOnly hheld hop hbrace herasing => ⟨fun hroom => ?written, fun hfull => ⟨?full, ?compaction⟩⟩⟩⟩⟩
  case start =>
    intro dt s u trig hu hruns hpending hheld hlocked hpassed hrun hboot
    exact does_fullRunStart hu hruns hpending hheld hlocked hpassed hrun hboot
  case ends =>
    have hsame := State.fullRunEnd_same u m
    obtain ⟨-, ⟨done, hcal⟩, hready⟩ := u.fullRunEnd_after r m hrun hrejoin hruns
    rw [u.fullStored_cal r m] at hcal
    have hheldNone := State.fullRunEnd_holding_none m hrun hrejoin hruns hheld
    have hfault := State.fullRunEnd_faultActive m hrun hrejoin hruns
    have hmarkers := State.fullRunEnd_markers m hrun hrejoin hruns
    refine ⟨u.fullRunEnd m, hu ▸ exec_fullRunEnd dt m s, hsame, ?_⟩
    dsimp only
    rw [hcal]
    refine ⟨hheldNone, rfl, rfl, rfl, rfl, rfl, rfl, rfl, List.map_append, hready, hfault, hmarkers,
      fun n => ⟨hsame .counts rfl n, fun hst _ => ?_, fun hst hjoin =>
        State.fullRunEnd_of_joining m hrun hrejoin hruns hst hjoin⟩⟩
    obtain ⟨hyarn, hback⟩ := State.fullRunEnd_of_suspended m hrun hrejoin hruns hst
    exact ⟨hyarn, fun hkept => by rw [hback, hkept]; rfl, fun hlost => by rw [hback, hlost]; rfl⟩
  case waits => rw [exec_drawerCommit, ← hu, State.drawerCommit_of_gap hnext hgap]
  case abandoned =>
    refine ⟨_, by rw [exec_drawerCommit, ← hu, State.drawerCommit_of_abandoned hnext hruns hgap habandoned],
      Same.step (State.closeReport_same _ _ _ _ _) rfl (Same.mono u.dropResult_same rfl), ?_⟩
    exact State.closeReport_cal ..
  case readOnly =>
    refine ⟨_, by rw [exec_drawerCommit, ← hu, State.drawerCommit_of_readOnly hnext hruns hgap habandoned hreadOnly],
      Same.step (State.closeReport_same _ _ _ _ _) rfl (Same.step (State.dropResult_same _) rfl (Same.upd_cal rfl (Same.refl _ u))),
      ?_⟩
    dsimp only
    rw [State.closeReport_cal]
    exact ⟨rfl, rfl⟩
  case written => exact does_drawerCommit_written hu hnext hruns hgap habandoned hreadOnly hheld hop hbrace herasing hroom
  case full =>
    rw [exec_drawerCommit, ← hu, State.drawerCommit_of_full hnext hruns hgap habandoned hreadOnly hfull]
  case compaction =>
    intro hrecovered hready
    exact does_compaction hu (State.mayWork_iff.mpr ⟨hruns, hheld, hop, hbrace, hrecovered⟩) hready hreadOnly
      (State.results_of_nextCommit hnext) hfull herasing
end

section
/-! The stores of the cabinet (R360): what a write of one store, a check of its pointers and the close of its drop run leave. -/

namespace Sys2Proof.Machine
open Sys2Proof

/-! ### One store and no other (R360) -/

@[simp] theorem State.modStore_store_same (s : State) (st : StoreId) (f : Store → Store) :
    (s.modStore st f).store st = f (s.store st) := by
  cases st <;> rfl

theorem State.modStore_store_ne (s : State) {st o : StoreId} (f : Store → Store) (h : o ≠ st) :
    (s.modStore st f).store o = s.store o := by
  cases st <;> cases o
  case raw.shelf | shelf.raw => rfl
  all_goals exact absurd rfl h

/-- States with the same cabinet have the same stores. -/
theorem State.store_of_cab {s t : State} (h : t.cab = s.cab) (st : StoreId) : t.store st = s.store st := by
  cases st
  · exact congrArg Cabinet.raw h
  · exact congrArg Cabinet.shelf h

/-- The capacity of a store is that of the strapped split (R127). -/
theorem State.capacity_of_strap {s t : State} (h : t.strap = s.strap) (st : StoreId) : t.capacity st = s.capacity st := by
  unfold State.capacity State.split State.code
  rw [h]

/-- What stands in the cabinet beside the stores and the drop runs that have closed. -/
def Cabinet.beside (c : Cabinet) : Cabinet := { c with raw := .reset, shelf := .reset, runsClosed := [] }

theorem Cabinet.intro_of_beside {c d : Cabinet} (h : d.beside = c.beside) : d.intro = c.intro := by
  have hintro : d.beside.intro = c.beside.intro := by rw [h]
  exact hintro

theorem Cabinet.counts_of_beside {c d : Cabinet} (h : d.beside = c.beside) :
    d.scrubbing = c.scrubbing ∧ d.scrubLeft = c.scrubLeft ∧ d.eccLost = c.eccLost := by
  have heq : d.beside.scrubbing = c.beside.scrubbing ∧ d.beside.scrubLeft = c.beside.scrubLeft ∧
      d.beside.eccLost = c.beside.eccLost := by
    rw [h]
    exact ⟨rfl, rfl, rfl⟩
  exact heq

theorem State.modStore_beside (s : State) (st : StoreId) (f : Store → Store) :
    (s.modStore st f).cab.beside = s.cab.beside := by
  cases st <;> rfl

/-! ### The check of the pointers (R387) -/

theorem State.checkStore_of_sound {s : State} {st : StoreId} (h : (s.store st).sound (s.capacity st) = true) :
    s.checkStore st = s :=
  if_pos (by rw [h, Bool.true_or])

/-- A check can only set the mark of a mismatch in its store. -/
theorem State.checkStore_store_same (s : State) (st : StoreId) :
    ∃ m : Option (BitVec 64), (s.checkStore st).store st = { s.store st with mismatch := m } := by
  unfold State.checkStore
  split
  · exact ⟨(s.store st).mismatch, rfl⟩
  · exact ⟨_, s.modStore_store_same st _⟩

theorem State.checkStore_store_ne (s : State) {st o : StoreId} (h : o ≠ st) : (s.checkStore st).store o = s.store o := by
  unfold State.checkStore
  split
  · rfl
  · exact s.modStore_store_ne _ h

/-- No check moves what a store holds or counts. -/
theorem State.checkStore_keeps_store (s : State) (st o : StoreId) :
    ((s.checkStore st).store o).held = (s.store o).held ∧ ((s.checkStore st).store o).bytes = (s.store o).bytes ∧
      ((s.checkStore st).store o).dropped = (s.store o).dropped := by
  by_cases h : o = st
  · subst h
    obtain ⟨m, hm⟩ := s.checkStore_store_same o
    rw [hm]
    exact ⟨rfl, rfl, rfl⟩
  · rw [s.checkStore_store_ne h]
    exact ⟨rfl, rfl, rfl⟩

theorem State.checkStore_held (s : State) (st o : StoreId) : ((s.checkStore st).store o).held = (s.store o).held := by
  obtain ⟨hheld, -, -⟩ := s.checkStore_keeps_store st o
  exact hheld

theorem State.checkStore_beside (s : State) (st : StoreId) : (s.checkStore st).cab.beside = s.cab.beside := by
  unfold State.checkStore
  split
  · rfl
  · exact s.modStore_beside st _

/-! ### The end of a drop run (R368, R369) -/

theorem State.closeDropRun_store_same (s : State) (st : StoreId) :
    (s.closeDropRun st).store st = { s.store st with run := none } := by
  unfold State.closeDropRun
  split
  · cases st <;> rfl
  · next h => rw [← h]

theorem State.closeDropRun_store_ne (s : State) {st o : StoreId} (h : o ≠ st) :
    (s.closeDropRun st).store o = s.store o := by
  unfold State.closeDropRun
  split
  · have hne := s.modStore_store_ne (fun q => { q with run := none }) h
    rw [← hne]
    cases o <;> rfl
  · rfl

theorem State.closeDropRun_keeps_dropped (s : State) (st o : StoreId) :
    ((s.closeDropRun st).store o).dropped = (s.store o).dropped := by
  by_cases h : o = st
  · rw [h, s.closeDropRun_store_same st]
  · rw [s.closeDropRun_store_ne h]

theorem State.closeDropRun_beside (s : State) (st : StoreId) : (s.closeDropRun st).cab.beside = s.cab.beside := by
  unfold State.closeDropRun
  split
  · exact s.modStore_beside st _
  · rfl

end Sys2Proof.Machine
end

section
/-! Take-up and flush (R359 to R368, R390 to R393). -/

namespace Sys2Proof.Machine
open Sys2Proof

/-! ### What each command runs -/

theorem exec_skeinTakeUp (dt : Nat) (flip : BitVec 26) (s : State) :
    exec (.skeinTakeUp dt flip) s = .next ((advance dt s).takeUp flip) := rfl

theorem exec_flush (dt : Nat) (s : State) : exec (.flush dt) s = .next (advance dt s).flush := rfl

/-! ### Take-up (R359 to R368) -/

/-- The released skeins but the first, which the controller has taken. -/
def State.taken (s : State) (rest : List Skein) : State := { s with pack := { s.pack with released := rest } }

theorem State.takeUp_of_blocked {s : State} {k : Skein} {rest : List Skein} (flip : BitVec 26)
    (hreleased : s.pack.released = k :: rest)
    (h : s.cab.burst = true ∨ k.intro = false ∧ (s.store k.home).mismatch.isSome = true) : s.takeUp flip = s := by
  simp only [State.takeUp, hreleased]
  refine if_pos ?_
  rcases h with hburst | ⟨hintro, hmatch⟩
  · rw [hburst, Bool.true_or]
  · rw [Skein.toIntro, hintro, hmatch, Bool.not_false, Bool.true_and, Bool.or_true]

theorem State.takeUp_of_open {s : State} {k : Skein} {rest : List Skein} (flip : BitVec 26)
    (hreleased : s.pack.released = k :: rest) (hburst : s.cab.burst = false)
    (h : k.intro = true ∨ (s.store k.home).mismatch = none) : s.takeUp flip = (s.taken rest).placeSkein k flip := by
  simp only [State.takeUp, hreleased]
  refine if_neg ?_
  rcases h with hintro | hmatch
  · simp [hburst, Skein.toIntro, hintro]
  · simp [hburst, hmatch]

theorem State.placeSkein_of_intro {s : State} {k : Skein} (flip : BitVec 26) (hintro : k.intro = true) :
    s.placeSkein k flip = { s with cab := { s.cab with intro := s.cab.intro ++ [k] } } := if_pos hintro

theorem State.placeSkein_of_thinned {s : State} {k : Skein} (flip : BitVec 26) (hintro : k.intro = false)
    (hthins : s.thins k = true) : s.placeSkein k flip = { s with cab := { s.cab with thinned := s.cab.thinned + 1 } } := by
  rw [State.placeSkein, Skein.toIntro, hintro, hthins]
  rfl

theorem State.placeSkein_of_room {s : State} {k : Skein} (flip : BitVec 26) (hintro : k.intro = false)
    (hthins : s.thins k = false) (hroom : (s.store k.home).bytes + k.room ≤ s.capacity k.home) :
    s.placeSkein k flip = s.acceptSkein k.home k flip := by
  rw [State.placeSkein, Skein.toIntro, hintro, hthins, if_pos hroom]
  rfl

theorem State.placeSkein_of_full {s : State} {k : Skein} (flip : BitVec 26) (hintro : k.intro = false)
    (hthins : s.thins k = false) (hfull : s.capacity k.home < (s.store k.home).bytes + k.room) :
    s.placeSkein k flip = s.dropSkein k.home k := by
  rw [State.placeSkein, Skein.toIntro, hintro, hthins, if_neg (Nat.not_le.mpr hfull)]
  rfl

/-- What is kept of the shelf for other skeins counts with a summary and a status skein (R362, R363). -/
theorem Skein.room_eq (k : Skein) : k.room = k.size + if k.typ = typeSummary ∨ k.typ = typeStatus then 65536 else 0 := by
  unfold Skein.room
  split <;> rfl

/-- A store that accepts a skein holds it behind the others. -/
theorem State.acceptSkein_store_same (s : State) (st : StoreId) (k : Skein) (flip : BitVec 26) :
    ((s.acceptSkein st k flip).store st).held = (s.store st).held ++ [k] ∧
      ((s.acceptSkein st k flip).store st).bytes = (s.store st).bytes + k.size ∧
      ((s.acceptSkein st k flip).store st).dropped = (s.store st).dropped := by
  unfold State.acceptSkein
  obtain ⟨hheld, hbytes, hdropped⟩ := State.checkStore_keeps_store ((s.closeDropRun st).modStore st fun q =>
    { q with held := q.held ++ [k], writeA := movePtr q.writeA k.size (s.capacity st)
             writeB := movePtr (q.writeB ^^^ flip) k.size (s.capacity st), bytes := q.bytes + k.size }) st st
  rw [hheld, hbytes, hdropped, State.modStore_store_same, State.closeDropRun_store_same]
  exact ⟨rfl, rfl, rfl⟩

theorem State.acceptSkein_store_ne (s : State) {st o : StoreId} (k : Skein) (flip : BitVec 26) (h : o ≠ st) :
    (s.acceptSkein st k flip).store o = s.store o :=
  ((State.checkStore_store_ne _ h).trans (State.modStore_store_ne _ _ h)).trans (s.closeDropRun_store_ne h)

/-- A store that drops a skein counts it and holds what it held. -/
theorem State.dropSkein_store_same (s : State) (st : StoreId) (k : Skein) :
    ((s.dropSkein st k).store st).held = (s.store st).held ∧ ((s.dropSkein st k).store st).bytes = (s.store st).bytes ∧
      ((s.dropSkein st k).store st).dropped = (s.store st).dropped + 1 := by
  rw [State.dropSkein, State.modStore_store_same]
  exact ⟨rfl, rfl, rfl⟩

theorem State.dropSkein_store_ne (s : State) {st o : StoreId} (k : Skein) (h : o ≠ st) :
    (s.dropSkein st k).store o = s.store o := s.modStore_store_ne _ h

/-- A skein that is not thinned joins its own store where it has room and is dropped from it where it has none. -/
theorem State.placeSkein_stores {s : State} {k : Skein} (flip : BitVec 26) (hintro : k.intro = false)
    (hthins : s.thins k = false) :
    ((s.store k.home).bytes + k.room ≤ s.capacity k.home →
      ((s.placeSkein k flip).store k.home).held = (s.store k.home).held ++ [k] ∧
        ((s.placeSkein k flip).store k.home).bytes = (s.store k.home).bytes + k.size ∧
        ((s.placeSkein k flip).store k.home).dropped = (s.store k.home).dropped) ∧
      (s.capacity k.home < (s.store k.home).bytes + k.room →
        ((s.placeSkein k flip).store k.home).held = (s.store k.home).held ∧
          ((s.placeSkein k flip).store k.home).bytes = (s.store k.home).bytes ∧
          ((s.placeSkein k flip).store k.home).dropped = (s.store k.home).dropped + 1) ∧
      ∀ o : StoreId, o ≠ k.home → (s.placeSkein k flip).store o = s.store o := by
  refine ⟨fun hroom => ?_, fun hfull => ?_, fun o ho => ?_⟩
  · rw [State.placeSkein_of_room flip hintro hthins hroom]
    exact s.acceptSkein_store_same k.home k flip
  · rw [State.placeSkein_of_full flip hintro hthins hfull]
    exact s.dropSkein_store_same k.home k
  · by_cases hroom : (s.store k.home).bytes + k.room ≤ s.capacity k.home
    · rw [State.placeSkein_of_room flip hintro hthins hroom]
      exact s.acceptSkein_store_ne k flip ho
    · rw [State.placeSkein_of_full flip hintro hthins (Nat.lt_of_not_le hroom)]
      exact s.dropSkein_store_ne k ho

/-- Which skeins are thinned (R366). -/
theorem State.thins_iff {s : State} {k : Skein} {b : List Byte} (hbody : k.body = .bytes b) :
    s.thins k = true ↔ k.typ = typeStatus ∧ s.partner = false ∧ (leNat ((b.drop 8).take 4)).testBit 0 = false ∧
      fullOf k.era (BitVec.ofNat 64 (leNat (b.take 8))) % 2400000000000000 ≠ 0 := by
  simp [State.thins, State.thinning, Skein.keptStatus, hbody, Config.sec, and_assoc]

/-- Every other skein is kept: one of another type, one with a partner, one with a start record or at a whole 600 s. -/
theorem State.thins_eq_false {s : State} {k : Skein}
    (h : k.typ ≠ typeStatus ∨ s.partner = true ∨ (∃ b : List Byte, k.body = .bytes b ∧
      ((leNat ((b.drop 8).take 4)).testBit 0 = true ∨
        fullOf k.era (BitVec.ofNat 64 (leNat (b.take 8))) % 2400000000000000 = 0))) : s.thins k = false := by
  rcases h with htyp | hpartner | ⟨b, hbody, hkept⟩
  · simp [State.thins, htyp]
  · simp [State.thins, State.thinning, hpartner]
  · refine Bool.eq_false_iff.mpr fun hthins => ?_
    obtain ⟨-, -, hstart, htime⟩ := (State.thins_iff hbody).mp hthins
    rcases hkept with hk | hk
    · exact absurd (hk.symm.trans hstart) (by decide)
    · exact htime hk

theorem Skein.home_eq (k : Skein) : k.home = if k.typ = typeLive ∨ k.typ = typeBacklog then .raw else .shelf := by
  simp [Skein.home, Skein.isRaw]

theorem does_skeinTakeUp {dt : Nat} {flip : BitVec 26} {s u : State} {k : Skein} {rest : List Skein} (hu : u = advance dt s)
    (hreleased : u.pack.released = k :: rest) (hburst : u.cab.burst = false) (hintro : k.intro = false)
    (hthins : u.thins k = false) (hmatch : (u.store k.home).mismatch = none) :
    Does (.skeinTakeUp dt flip) s u [.pack, .cab] fun t =>
      t.pack = { u.pack with released := rest } ∧
      ((u.store k.home).bytes + k.room ≤ u.capacity k.home →
        (t.store k.home).held = (u.store k.home).held ++ [k] ∧
          (t.store k.home).bytes = (u.store k.home).bytes + k.size ∧
          (t.store k.home).dropped = (u.store k.home).dropped) ∧
      (u.capacity k.home < (u.store k.home).bytes + k.room →
        (t.store k.home).held = (u.store k.home).held ∧ (t.store k.home).bytes = (u.store k.home).bytes ∧
          (t.store k.home).dropped = (u.store k.home).dropped + 1) ∧
      (∀ st : StoreId, st ≠ k.home → t.store st = u.store st) := by
  refine ⟨u.takeUp flip, hu ▸ exec_skeinTakeUp dt flip s, u.takeUp_same flip, ?_⟩
  rw [State.takeUp_of_open flip hreleased hburst (.inr hmatch)]
  exact ⟨(u.taken rest).placeSkein_same k flip .pack rfl, State.placeSkein_stores (s := u.taken rest) flip hintro hthins⟩

/-! ### Flush (R390 to R393) -/

/-- Both stores checked, with no drop run open. -/
def State.flushReady (s : State) : State :=
  (((s.checkStore .raw).checkStore .shelf).closeDropRun .raw).closeDropRun .shelf

theorem State.flushReady_same (s : State) : Same [.cab] s s.flushReady :=
  ((((s.checkStore_same .raw).trans (State.checkStore_same _ .shelf)).trans (State.closeDropRun_same _ .raw)).trans
    (State.closeDropRun_same _ .shelf))

theorem State.flushReady_beside (s : State) : s.flushReady.cab.beside = s.cab.beside :=
  (((State.closeDropRun_beside _ .shelf).trans (State.closeDropRun_beside _ .raw)).trans
    (State.checkStore_beside _ .shelf)).trans (s.checkStore_beside .raw)

theorem State.flushReady_dropped (s : State) (o : StoreId) : (s.flushReady.store o).dropped = (s.store o).dropped := by
  obtain ⟨-, -, hraw⟩ := s.checkStore_keeps_store .raw o
  obtain ⟨-, -, hshelf⟩ := (s.checkStore .raw).checkStore_keeps_store .shelf o
  rw [State.flushReady, State.closeDropRun_keeps_dropped, State.closeDropRun_keeps_dropped, hshelf, hraw]

/-- The backlog discarded, and a transmission that has ended in this cycle told of it. -/
def State.flushed (s : State) : State :=
  { s.flushReady with
    cab := { s.flushReady.cab with
      flushing := false, scrubIn := .raw, scrubPos := 0
      scrubLeft := (s.scrubWithout .raw 0 s.scrubTotal s.flushReady.cab).scrubLeft
      raw := s.flushReady.cab.raw.emptied, shelf := s.flushReady.cab.shelf.emptied }
    port := { s.flushReady.port with
      cut := s.flushReady.port.cut.filter (fun c => c.1 == Src.intro)
      ended := s.flushReady.port.ended.map fun (e : Ended) => { e with flushed := true } } }

theorem State.flush_of_idle {s : State} (hflushing : s.cab.flushing = true) (hidle : s.port.tx = none) :
    s.flush = s.flushed.hwMarker (.flush s.tb.time (sat32 (s.cab.raw.held.length + s.cab.shelf.held.length))
      (!s.cab.raw.held.isEmpty) (!s.cab.shelf.held.isEmpty)) := by
  have hsome {α : Type} (l : List α) : decide (0 < l.length) = !l.isEmpty := by cases l <;> rfl
  rw [← hsome, ← hsome]
  exact if_pos (by rw [hflushing, hidle]; rfl)

theorem State.flush_of_transmission {s : State} (h : s.port.tx.isSome = true) : s.flush = s :=
  if_neg (by simp [Option.isNone_eq_false_iff.mpr h])

theorem does_flush {dt : Nat} {s u : State} (hu : u = advance dt s) (hflushing : u.cab.flushing = true)
    (hidle : u.port.tx = none) :
    Does (.flush dt) s u [.chain, .cab, .port] fun t =>
      t.cab.raw.held = [] ∧ t.cab.shelf.held = [] ∧ t.cab.raw.bytes = 0 ∧ t.cab.shelf.bytes = 0 ∧
        t.cab.flushing = false ∧ t.cab.intro = u.cab.intro ∧ t.cab.raw.dropped = u.cab.raw.dropped ∧
        (∀ e : Ended, u.port.ended = some e → t.port.ended = some { e with flushed := true }) ∧
        t.chain = u.chain.offered
          { st := .flush u.tb.time (sat32 (u.cab.raw.held.length + u.cab.shelf.held.length))
              (!u.cab.raw.held.isEmpty) (!u.cab.shelf.held.isEmpty)
            session := u.tb.session, full := u.full } := by
  have hready := u.flushReady_same
  have hchain : u.flushed.chain = u.chain := hready .chain rfl
  have htb : u.flushed.tb = u.tb := hready .tb rfl
  have hintro : u.flushReady.cab.intro = u.cab.intro := Cabinet.intro_of_beside u.flushReady_beside
  refine ⟨u.flush, hu ▸ exec_flush dt s, u.flush_same, ?_⟩
  rw [State.flush_of_idle hflushing hidle]
  refine ⟨rfl, rfl, rfl, rfl, rfl, hintro, u.flushReady_dropped .raw,
    fun e hended => ?_, ?_⟩
  · show u.flushReady.port.ended.map _ = _
    rw [hready .port rfl, hended]
    rfl
  · rw [State.hwMarker_chain, State.item, State.full, htb, hchain]
    rfl

end Sys2Proof.Machine

open Sys2Proof Sys2Proof.Machine

/-- Settles O41: FLUSH_N is recognised from 1 µs on, and one edge more changes nothing. -/
theorem flushRequestsJoin : Obligations.FlushRequestsJoin := by
  intro dt low s u hu hset
  have htaken (h : 1000000 ≤ low) :
      exec (.flushRequest ⟨dt, low⟩) s = .next { u with cab := { u.cab with flushing := true } } := by
    rw [exec_flushRequest, ← hu, State.onPin_taken u .flushN false low _ h (by decide), hset, State.when_true]
  refine ⟨htaken, fun h => next_onPin_ignored (hu ▸ exec_flushRequest dt low s) h, fun h hflushing => ?_⟩
  rw [htaken h, ← hflushing]

/-- Settles O42: a flush waits for the transmission in progress, and then discards what both stores hold. -/
theorem flushesDiscard : Obligations.FlushesDiscard := by
  refine fun dt s u hu hflushing => ⟨fun htx => ?_, does_flush hu hflushing⟩
  rw [exec_flush, ← hu, State.flush_of_transmission htx]

/-- Settles O39: what a store takes, drops, thins and leaves waiting, skein by skein. -/
theorem storesTakeSkeins : Obligations.StoresTakeSkeins := by
  refine fun dt flip s u k rest hu hreleased => ⟨fun hblocked => ?blocked, fun hburst hintro => ?intro,
    fun b hburst hintro hmatch hbody htyp hpartner hstart htime => ?thinned, State.thins_eq_false, k.home_eq,
    fun hburst hintro hthins hmatch => ?placed⟩
  case blocked => rw [exec_skeinTakeUp, ← hu, State.takeUp_of_blocked flip hreleased hblocked]
  case intro =>
    rw [exec_skeinTakeUp, ← hu, State.takeUp_of_open flip hreleased hburst (.inl hintro),
      State.placeSkein_of_intro flip hintro]
    rfl
  case thinned =>
    have hthins : u.thins k = true := (State.thins_iff hbody).mpr ⟨htyp, hpartner, hstart, htime⟩
    rw [exec_skeinTakeUp, ← hu, State.takeUp_of_open flip hreleased hburst (.inr hmatch),
      State.placeSkein_of_thinned (s := u.taken rest) flip hintro hthins]
    rfl
  case placed =>
    have hneeds := k.room_eq
    have hdoes := does_skeinTakeUp (flip := flip) hu hreleased hburst hintro hthins hmatch
    simp only [hneeds, ← Nat.add_assoc] at hdoes
    exact hdoes
end

section
/-! What a full reset leaves (R361, R579, R580, R582, R588). -/

namespace Sys2Proof.Machine
open Sys2Proof

theorem exec_resetAssert (dt : Nat) (c : ResetCause) (s : State) :
    exec (.resetAssert dt c) s = .next ((advance dt s).resetBy c) := rfl

/-- RESET_N is recognised from 1 µs low on (R97); the other causes have no width. -/
theorem State.resetBy_of_recognised {s : State} {c : ResetCause} (h : ∀ low, c = .pin low → 1000000 ≤ low) :
    s.resetBy c = s.fullReset c := by
  cases c with
  | pin low => exact s.onPin_taken .resetN false low (fun t => t.fullReset (.pin low)) (h low rfl) (by decide)
  | _ => rfl

/-- LEAVE is released and asked for no more. -/
theorem State.leaveAtReset_free (s : State) : s.leaveAtReset.holding = none ∧ s.leaveAtReset.reqs = [] := by
  unfold State.leaveAtReset
  split <;> exact ⟨rfl, rfl⟩

theorem State.cutOp_of_idle {s : State} (h : s.flash.op = none) : s.cutOp = s := by
  unfold State.cutOp
  rw [h]

/-- A reset that is asserted: every domain but keep stands as after reset, and the flash with what it holds. -/
theorem State.fullReset_of_running {s : State} (c : ResetCause) (h : s.core.boot ≠ .inReset) :
    s.fullReset c =
      { State.reset with
        clock := s.cutOp.clock, free := s.cutOp.free, pending := s.cutOp.pending
        keep := s.keepAtReset (s.causeCode c)
        core := { Core.reset with heldTo := s.holdOf (s.causeCode c) }
        leave := s.leaveAtReset
        snap := { Snap.reset with load := s.snap.load }
        flash := { s.cutOp.flash with erases := [], head := 0, tail := 0, jnext := 0, worn := [] }
        svc := { Service.reset with fuse := if s.svc.fuse = .driving then .disturbed else s.svc.fuse } } :=
  if_neg (mt beq_iff_eq.mp h)

/-- A cause that arises in a reset: recorded in the cycle of the assertion where its code is lower, and held as long as it holds. -/
theorem State.fullReset_of_inReset {s : State} (c : ResetCause) (h : s.core.boot = .inReset) :
    s.fullReset c =
      if s.clock < s.keep.assertedTo ∧ s.causeCode c < s.keep.cause then
        { s with keep := { s.keep with cause := s.causeCode c }
                 core := { s.core with heldTo := max s.core.heldTo (s.holdOf (s.causeCode c)) } }
      else { s with core := { s.core with heldTo := max s.core.heldTo (s.holdOf (s.causeCode c)) } } :=
  if_pos (beq_iff_eq.mpr h)

theorem State.cutOp_op (s : State) : s.cutOp.flash.op = none := by
  unfold State.cutOp
  split
  · rfl
  · next h => exact h

end Sys2Proof.Machine

open Sys2Proof Sys2Proof.Machine

/-- Settles O22: a reset asserted out of one and within one, under the code of its cause. -/
theorem fullResetAsserts : Obligations.FullResetAsserts := by
  intro dt held s u c code hu hlow hheld hcode
  have hcause : u.causeCode c = code := by
    rw [hcode]
    cases c with
    | supplyInBrace => simp [State.causeCode]
    | _ => rfl
  have hhold : u.holdOf code = held := hheld.symm
  have hexec : exec (.resetAssert dt c) s = .next (u.fullReset c) := by
    rw [exec_resetAssert, ← hu, State.resetBy_of_recognised hlow]
  refine ⟨fun hboot => ?_, fun hboot => ?_⟩
  · refine ⟨u.fullReset c, hexec, (u.fullReset_same c).mono rfl, ?_⟩
    obtain ⟨hholding, hreqs⟩ := u.leaveAtReset_free
    rw [State.fullReset_of_running c hboot, hcause, hhold]
    exact ⟨rfl, rfl, rfl, rfl, rfl, rfl, rfl, rfl, rfl, rfl, rfl, rfl, rfl, rfl, rfl, rfl, rfl, rfl, rfl, rfl, rfl, rfl, rfl,
      rfl, rfl, rfl, hholding, hreqs, rfl, rfl, u.cutOp_op,
      fun hidle => by rw [State.cutOp_of_idle hidle]; exact ⟨rfl, rfl⟩⟩
  · rw [hexec, State.fullReset_of_inReset c hboot, hcause, hhold]
end

section
/-! A skein that leaves its store (R373, R384, R385), and one found uncorrectable. -/

namespace Sys2Proof.Machine
open Sys2Proof

/-! ### The oldest skein of a store goes (R373, R385) -/

theorem Store.remove_of_head {q : Store} {k : Skein} {rest : List Skein} (cap : Nat) (h : q.held = k :: rest) :
    (q.remove k cap).held = rest := by
  simp only [Store.remove, h, if_true]
  rfl

/-- Nothing is held in front of the oldest. -/
theorem Store.ahead_of_head {q : Store} {k : Skein} {rest : List Skein} (h : q.held = k :: rest) : q.ahead k = 0 := by
  simp [Store.ahead, h]

theorem State.takeOut_store (s : State) (st o : StoreId) (k : Skein) :
    (s.takeOut st k).store o = (s.modStore st fun q => q.remove k (s.capacity st)).store o := by
  cases o <;> rfl

theorem State.takeOut_held_of_head {s : State} {st : StoreId} {k : Skein} {rest : List Skein}
    (h : (s.store st).held = k :: rest) : ((s.takeOut st k).store st).held = rest := by
  rw [State.takeOut_store, State.modStore_store_same, Store.remove_of_head _ h]

theorem State.takeOut_store_ne (s : State) {st o : StoreId} (k : Skein) (h : o ≠ st) : (s.takeOut st k).store o = s.store o := by
  rw [State.takeOut_store, s.modStore_store_ne _ h]

/-- Beside the stores only the scrub pass is told (R384). -/
theorem State.takeOut_beside (s : State) (st : StoreId) (k : Skein) :
    (s.takeOut st k).cab.beside = s.scrubWithout st ((s.store st).ahead k) k.size s.cab.beside := by
  have hbeside := s.modStore_beside st fun q => q.remove k (s.capacity st)
  rw [← hbeside]
  rfl

theorem State.takeOut_eccLost (s : State) (st : StoreId) (k : Skein) : (s.takeOut st k).cab.eccLost = s.cab.eccLost := by
  have heq : (s.takeOut st k).cab.beside.eccLost = s.cab.eccLost := by rw [State.takeOut_beside]; rfl
  exact heq

/-! ### A skein with an uncorrectable word (R385) -/

/-- The state of `discardBad` before fault 0x36 is logged. -/
def State.lost (s : State) (st : StoreId) (k : Skein) : State :=
  { s.takeOut st k with
    cab := { (s.takeOut st k).cab with eccLost := satSucc (s.takeOut st k).cab.eccLost }
    port := { (s.takeOut st k).port with
      tx := (s.takeOut st k).port.tx.map fun (x : Tx) => x.without st k
      cut := (s.takeOut st k).port.cut.filter fun c => c != (Src.store st, k.session, k.seq) } }

theorem State.discardBad_of_head {s : State} {st : StoreId} {k : Skein} {rest : List Skein}
    (h : (s.store st).held = k :: rest) :
    s.discardBad st k = ((s.lost st k).log 0x36 (storeByte st) k.seq (k.session.setWidth 32)).checkStore st := by
  have hany : ((s.store st).held.any fun x => x.closeNo == k.closeNo) = true := by simp [h]
  rw [State.discardBad, hany]
  rfl

theorem State.lost_store (s : State) (st o : StoreId) (k : Skein) : (s.lost st k).store o = (s.takeOut st k).store o := by
  cases o <;> rfl

/-- The oldest skein goes; the other store keeps what it holds. -/
theorem State.discardBad_stores {s : State} {st : StoreId} {k : Skein} {rest : List Skein}
    (h : (s.store st).held = k :: rest) :
    ((s.discardBad st k).store st).held = rest ∧
      ∀ o : StoreId, o ≠ st → ((s.discardBad st k).store o).held = (s.store o).held := by
  have hlost (o : StoreId) : ((s.lost st k).log 0x36 (storeByte st) k.seq (k.session.setWidth 32)).store o =
      (s.takeOut st k).store o := (State.store_of_cab (State.log_same _ _ _ _ _ .cab rfl) o).trans (s.lost_store st o k)
  rw [State.discardBad_of_head h]
  refine ⟨?_, fun o ho => ?_⟩
  · rw [State.checkStore_held, hlost, State.takeOut_held_of_head h]
  · rw [State.checkStore_held, hlost, s.takeOut_store_ne k ho]

theorem State.discardBad_beside {s : State} {st : StoreId} {k : Skein} {rest : List Skein}
    (h : (s.store st).held = k :: rest) :
    (s.discardBad st k).cab.beside =
      { s.scrubWithout st 0 k.size s.cab.beside with eccLost := satSucc s.cab.eccLost } := by
  have hbeside := s.takeOut_beside st k
  rw [Store.ahead_of_head h] at hbeside
  rw [State.discardBad_of_head h, State.checkStore_beside, ← hbeside, ← s.takeOut_eccLost st k]
  rfl

theorem State.discardBad_faults {s : State} {st : StoreId} {k : Skein} {rest : List Skein}
    (h : (s.store st).held = k :: rest) :
    (s.discardBad st k).faults = s.faults.logged 0x36 s.tb.time (storeByte st) k.seq (k.session.setWidth 32) := by
  have hout := s.takeOut_same st k
  have hfaults : (s.lost st k).faults = s.faults := hout .faults rfl
  have htb : (s.lost st k).tb = s.tb := hout .tb rfl
  rw [State.discardBad_of_head h, State.checkStore_same _ st .faults rfl, State.log_eq, htb]
  exact congrArg (fun f : Faults => f.logged 0x36 s.tb.time (storeByte st) k.seq (k.session.setWidth 32)) hfaults

theorem State.eccLost_discardBad {s : State} {st : StoreId} {k : Skein} {rest : List Skein}
    (h : (s.store st).held = k :: rest) :
    (s.discardBad st k).cab.eccLost.toNat = min 65535 (s.cab.eccLost.toNat + 1) := by
  have heq : (s.discardBad st k).cab.beside.eccLost = satSucc s.cab.eccLost := by rw [State.discardBad_beside h]
  exact (congrArg BitVec.toNat heq).trans (satSucc_toNat _)

/-- The burst in progress goes on without what it was to read of the skein (R384). -/
theorem State.scrub_discardBad {s : State} {st : StoreId} {k : Skein} {rest : List Skein} (h : (s.store st).held = k :: rest) :
    (s.discardBad st k).cab.scrubbing = s.cab.scrubbing ∧
      (s.discardBad st k).cab.scrubLeft = (s.scrubWithout st 0 k.size s.cab).scrubLeft := by
  have heq : (s.discardBad st k).cab.beside.scrubbing = s.cab.scrubbing ∧
      (s.discardBad st k).cab.beside.scrubLeft = (s.scrubWithout st 0 k.size s.cab).scrubLeft := by
    rw [State.discardBad_beside h]
    exact ⟨rfl, rfl⟩
  exact heq

/-- What a burst has still to read once bytes have left at the start of the raw ring. -/
theorem State.scrubWithout_raw_left (s : State) (size : Nat) (c : Cabinet) :
    (s.scrubWithout .raw 0 size c).scrubLeft =
      c.scrubLeft - (min size (s.scrubFrom + s.cab.scrubLeft) - s.scrubFrom) := by
  simp [State.scrubWithout]

theorem storeByte_eq (st : StoreId) : storeByte st = if st = .raw then 2 else 3 := by cases st <;> rfl

end Sys2Proof.Machine
end

section
/-! Drop run markers, refresh bursts, scrub bursts and store resets (R369, R381 to R389). -/

namespace Sys2Proof.Machine
open Sys2Proof

/-! ### What each command runs -/

theorem exec_droppedSkeinMarker (dt : Nat) (s : State) :
    exec (.droppedSkeinMarker dt) s = .next (advance dt s).droppedMarker := rfl

theorem exec_refreshBurst (dt : Nat) (s : State) : exec (.refreshBurst dt) s = .next (advance dt s).refreshBurst := rfl

theorem exec_refreshBurstEnd (dt : Nat) (s : State) :
    exec (.refreshBurstEnd dt) s = .next { advance dt s with cab := { (advance dt s).cab with burst := false } } := rfl

theorem exec_scrubRequest (dt : Nat) (s : State) : exec (.scrubRequest dt) s = .next (advance dt s).scrubRequest := rfl

theorem exec_scrubBurst (dt corrected : Nat) (bad : List Nat) (flip : BitVec 26) (s : State) :
    exec (.scrubBurst dt corrected bad flip) s = .next ((advance dt s).scrubBurst corrected bad flip) := rfl

theorem exec_scrubBurstEnd (dt : Nat) (s : State) : exec (.scrubBurstEnd dt) s = .next (advance dt s).scrubEnd := rfl

theorem exec_storeReset (dt : Nat) (st : StoreId) (s : State) :
    exec (.storeReset dt st) s = .next ((advance dt s).storeReset st) := rfl

/-! ### The marker of a drop run (R369) -/

/-- The code of a store's dropped skeins. -/
def dropCode : StoreId → Byte
  | .raw => 0x34
  | .shelf => 0x35

/-- The oldest closed run taken and counted. -/
def State.runTaken (s : State) (st : StoreId) (rest : List (StoreId × StoreRun)) : State :=
  State.occurs { s with cab := { s.cab with runsClosed := rest } } (dropCode st)

/-- What the marker of a drop run tells. -/
def State.runEvent (s : State) (st : StoreId) (r : StoreRun) : FaultEvent :=
  { code := dropCode st, raised := true, held := false, time := r.time, subject := storeByte st, detailA := r.firstSeq
    detailB := sat32 r.n, occ := s.faults.count (dropCode st) + 1 }

theorem State.takeRun_eq {s : State} {st : StoreId} {r : StoreRun} {rest : List (StoreId × StoreRun)}
    (h : s.cab.runsClosed = (st, r) :: rest) :
    s.takeRun = (s.runTaken st rest).write typeFault (s.runEvent st r).bytes false := by
  have hcount : (s.runTaken st rest).faults.count (dropCode st) = s.faults.count (dropCode st) + 1 :=
    s.faults.count_bump (dropCode st) 1
  rw [State.runEvent, ← hcount]
  simp only [State.takeRun, h]
  rfl

theorem does_droppedSkeinMarker {dt : Nat} {s u : State} {st : StoreId} {r : StoreRun} {rest : List (StoreId × StoreRun)}
    (hu : u = advance dt s) (hclosed : u.cab.runsClosed = (st, r) :: rest) (hruns : u.fwRuns = true)
    (hqueue : u.pack.ctlQueue = []) (hfree : u.ctlFree = true) (hidle : u.readIdle = true) (hold : u.pack.ctlOld = false) :
    Does (.droppedSkeinMarker dt) s u [.pack, .cab, .faults] fun t =>
      t.cab = { u.cab with runsClosed := rest } ∧
        ∃ k : Skein, t.pack.released = u.pack.released ++ [k] ∧ k.typ = typeFault ∧
          k.body.content = (u.runEvent st r).bytes := by
  have hmarker : u.droppedMarker = (u.runTaken st rest).write typeFault (u.runEvent st r).bytes false := by
    rw [State.droppedMarker, if_pos hruns, State.takeRun_eq hclosed]
  have hcab := (u.runTaken st rest).write_same typeFault (u.runEvent st r).bytes false .cab rfl
  refine ⟨u.droppedMarker, hu ▸ exec_droppedSkeinMarker dt s, u.droppedMarker_same, ?_⟩
  dsimp only
  rw [hmarker, hcab, State.write_of_free (s := u.runTaken st rest) _ _ _ hruns hqueue hfree hidle,
    State.closeCtl_pack (s := u.runTaken st rest) hold rfl (show typeFault ≠ typeEcho by decide)]
  exact ⟨rfl, _, rfl, rfl, rfl⟩

/-! ### Extended refresh (R381) -/

theorem State.refreshBurst_of_due {s : State} (hext : s.cab.extRefresh = true) (hburst : s.cab.burst = false)
    (hdue : ∀ t0 : Nat, s.cab.burstAt = some t0 → 128000000000 ≤ s.clock - t0) :
    s.refreshBurst = { s with cab := { s.cab with burst := true, burstAt := some s.clock } } := by
  rw [State.refreshBurst, hext, hburst]
  refine if_pos ?_
  cases hat : s.cab.burstAt with
  | none => rfl
  | some t0 => exact decide_eq_true (hdue t0 hat)

theorem State.refreshBurst_of_early {s : State}
    (h : s.cab.extRefresh = false ∨ ∃ t0 : Nat, s.cab.burstAt = some t0 ∧ s.clock - t0 < 128000000000) :
    s.refreshBurst = s := by
  rw [State.refreshBurst]
  refine if_neg ?_
  rcases h with hext | ⟨t0, hat, hearly⟩
  · simp [hext]
  · simp [hat, Config.ms, hearly]

/-! ### Scrub requests (R383) -/

/-- A scrub is due 64 s after the end of the last while a store holds a skein. -/
theorem State.wants_scrub {s : State} (hidle : s.cab.scrubbing = false) (hheld : s.cab.raw.held ≠ [] ∨ s.cab.shelf.held ≠ []) :
    s.wants .scrub = decide (256000000000000 ≤ s.clock - s.cab.scrubAt) := by
  have hsome : (s.cab.raw.held.isEmpty && s.cab.shelf.held.isEmpty) = false := by
    rw [Bool.and_eq_false_iff, List.isEmpty_eq_false_iff, List.isEmpty_eq_false_iff]
    exact hheld
  rw [State.wants, hsome, hidle]
  rfl

theorem does_scrubRequest {dt : Nat} {s u : State} (hu : u = advance dt s) (hruns : u.fwRuns = true)
    (hwants : u.wants .scrub = true) (hholding : u.leave.holding = none) (hreqs : u.leave.reqs.contains .scrub = false) :
    Does (.scrubRequest dt) s u [.leave] fun t => t.leave.reqs = u.leave.reqs ++ [.scrub] := by
  refine ⟨u.scrubRequest, hu ▸ exec_scrubRequest dt s, u.scrubRequest_same, ?_⟩
  obtain ⟨p, i, l, c, w, f, hrequest⟩ := u.requestLeave_eq .scrub hreqs (by simp [hholding])
  rw [State.scrubRequest, hruns, hwants, if_pos (Bool.and_self true), hrequest]

theorem State.scrubRequest_of_early {s : State} (h : s.wants .scrub = false) : s.scrubRequest = s :=
  if_neg (by simp [h])

/-! ### Scrub bursts (R382, R384 to R387) -/

/-- A burst has begun and its corrections count. -/
def State.scrubBegun (s : State) (corrected : Nat) : State :=
  State.correctWords { s with cab := { s.cab with scrubbing := true, scrubLeft := scrubBytes } } corrected

/-- The next burst reads a skein of this store. -/
def State.scrubReaches (s : State) (st : StoreId) : Bool :=
  (List.range s.scrubOrder.length).any fun i =>
    decide (0 < s.scrubReads i) && ((s.scrubOrder[i]?).map (·.1)) == some st

/-- The stores that a burst from `s` reads are checked in `t`. -/
def State.scrubChecked (s t : State) : State :=
  (t.when (s.scrubReaches .raw) fun t => t.checkStore .raw).when (s.scrubReaches .shelf) fun t => t.checkStore .shelf

theorem State.scrubBurst_of_blocked {s : State} (corrected : Nat) (bad : List Nat) (flip : BitVec 26)
    (h : s.cab.burst = true ∨ s.power.brace = true) : s.scrubBurst corrected bad flip = s := by
  rw [State.scrubBurst]
  refine if_neg ?_
  rcases h with hburst | hbrace
  · simp [hburst]
  · simp [hbrace]

/-- Firmware may begin a scrub burst: it holds LEAVE for one, and neither a burst nor brace is in progress. -/
def State.mayScrub (s : State) : Bool :=
  s.fwRuns && s.holds .scrub && !s.cab.scrubbing && !s.cab.burst && !s.power.brace

theorem State.mayScrub_of {s : State} (hruns : s.fwRuns = true) (hholding : s.leave.holding = some .scrub)
    (hidle : s.cab.scrubbing = false) (hburst : s.cab.burst = false) (hbrace : s.power.brace = false) :
    s.mayScrub = true := by
  simp [State.mayScrub, State.holds, hruns, hholding, hidle, hburst, hbrace]

theorem State.scrubBurst_of_clean {s : State} (corrected : Nat) (flip : BitVec 26) (h : s.mayScrub = true) :
    s.scrubBurst corrected [] flip = s.scrubChecked (s.scrubBegun corrected) := if_pos h

theorem State.scrubBurst_of_first {s : State} {k : Skein} {rest : List Skein} (flip : BitVec 26) (h : s.mayScrub = true)
    (hheld : s.cab.raw.held = k :: rest) (hreads : 0 < s.scrubReads 0) :
    s.scrubBurst 0 [0] flip = s.scrubChecked (((s.scrubBegun 0).upsetRead .raw flip).discardBad .raw k) := by
  have horder : s.scrubOrder[0]? = some (.raw, k) := by simp [State.scrubOrder, hheld]
  have hplaces : ([0].eraseDups.filter fun i => decide (0 < s.scrubReads i)) = [0] := by
    simp only [show ([0] : List Nat).eraseDups = [0] from rfl, List.filter_cons, List.filter_nil, hreads, decide_true, if_true]
  have hhit : (([0].eraseDups.filter fun i => decide (0 < s.scrubReads i)).filterMap fun i => s.scrubOrder[i]?) =
      [(.raw, k)] := by
    rw [hplaces]
    simp [horder]
  unfold State.mayScrub at h
  rw [State.scrubBurst, if_pos h]
  simp only [hhit]
  rfl

theorem State.correctWords_cab (s : State) (n : Nat) :
    (s.correctWords n).cab = { s.cab with corrected := s.cab.corrected + BitVec.ofNat 32 n } := by
  unfold State.correctWords
  split
  · next h => simp [h]
  · exact State.logLimited_same _ _ _ _ _ _ .cab rfl

theorem State.scrubBegun_cab (s : State) (corrected : Nat) :
    (s.scrubBegun corrected).cab =
      { s.cab with scrubbing := true, scrubLeft := 4194304, corrected := s.cab.corrected + BitVec.ofNat 32 corrected } :=
  State.correctWords_cab _ _

theorem State.scrubBegun_same (s : State) (corrected : Nat) : Same [.cab, .faults] s (s.scrubBegun corrected) :=
  (Same.upd_cab rfl (Same.refl _ _)).trans (State.correctWords_same _ corrected)

theorem State.scrubChecked_of_sound {s t : State} (h : ∀ st : StoreId, (t.store st).sound (t.capacity st) = true) :
    s.scrubChecked t = t := by
  have hcheck (b : Bool) (st : StoreId) : (t.when b fun t => t.checkStore st) = t := by
    cases b
    · rfl
    · exact State.checkStore_of_sound (h st)
  rw [State.scrubChecked, hcheck, hcheck]

theorem State.scrubChecked_same (s t : State) : Same [.cab] t (s.scrubChecked t) :=
  Same.when (fun v => v.checkStore_same .shelf) (State.when_same fun v => v.checkStore_same .raw)

/-- The checks at the end of a burst move neither what the stores hold nor what stands beside them. -/
theorem State.scrubChecked_keeps (s t : State) :
    (∀ o : StoreId, ((s.scrubChecked t).store o).held = (t.store o).held) ∧
      (s.scrubChecked t).cab.beside = t.cab.beside := by
  have hwhen (b : Bool) (st : StoreId) (v : State) :
      (∀ o : StoreId, ((v.when b fun w => w.checkStore st).store o).held = (v.store o).held) ∧
        (v.when b fun w => w.checkStore st).cab.beside = v.cab.beside := by
    cases b
    · exact ⟨fun _ => rfl, rfl⟩
    · exact ⟨fun o => v.checkStore_held st o, v.checkStore_beside st⟩
  obtain ⟨hraw, hrawBeside⟩ := hwhen (s.scrubReaches .raw) .raw t
  obtain ⟨hshelf, hshelfBeside⟩ := hwhen (s.scrubReaches .shelf) .shelf (t.when (s.scrubReaches .raw) fun w => w.checkStore .raw)
  exact ⟨fun o => (hshelf o).trans (hraw o), hshelfBeside.trans hrawBeside⟩

theorem does_scrubBurst_clean {dt corrected : Nat} {flip : BitVec 26} {s u : State} (hu : u = advance dt s)
    (hmay : u.mayScrub = true) (hsound : ∀ st : StoreId, (u.store st).sound (u.capacity st) = true) :
    Does (.scrubBurst dt corrected [] flip) s u [.cab, .faults] fun t =>
      t.cab = { u.cab with
        scrubbing := true, scrubLeft := 4194304, corrected := u.cab.corrected + BitVec.ofNat 32 corrected } := by
  have hsame := u.scrubBegun_same corrected
  have hcab := u.scrubBegun_cab corrected
  have hstore (st : StoreId) : (u.scrubBegun corrected).store st = u.store st := by
    cases st <;> simp only [State.store, hcab]
  have hrun : u.scrubBurst corrected [] flip = u.scrubBegun corrected := by
    rw [State.scrubBurst_of_clean corrected flip hmay]
    refine State.scrubChecked_of_sound fun st => ?_
    rw [hstore, State.capacity_of_strap (hsame .strap rfl)]
    exact hsound st
  refine ⟨u.scrubBurst corrected [] flip, hu ▸ exec_scrubBurst dt corrected [] flip s, ?_⟩
  rw [hrun]
  exact ⟨hsame, hcab⟩

/-- What a burst reads of the oldest skein of the raw ring. -/
theorem State.scrubReads_first {s : State} {k : Skein} {rest : List Skein} (hheld : s.cab.raw.held = k :: rest) :
    s.scrubReads 0 = min k.size (s.scrubFrom + 4194304) - s.scrubFrom := by
  simp [State.scrubReads, State.scrubOrder, hheld, scrubBytes]

theorem does_scrubBurst_bad {dt : Nat} {flip : BitVec 26} {s u : State} {k : Skein} {rest : List Skein} (hu : u = advance dt s)
    (hmay : u.mayScrub = true) (hheld : u.cab.raw.held = k :: rest) (hreads : 0 < u.scrubReads 0) :
    Does (.scrubBurst dt 0 [0] flip) s u [.cab, .port, .faults] fun t =>
      t.cab.raw.held = rest ∧ t.cab.shelf.held = u.cab.shelf.held ∧
        t.cab.scrubbing = true ∧ t.cab.scrubLeft = 4194304 - u.scrubReads 0 ∧
        t.cab.eccLost.toNat = min 65535 (u.cab.eccLost.toNat + 1) ∧
        t.faults = u.faults.logged 0x36 u.tb.time 2 k.seq (k.session.setWidth 32) := by
  have hhead : (((u.scrubBegun 0).upsetRead .raw flip).store .raw).held = k :: rest := hheld
  obtain ⟨hraw, hshelf⟩ := State.discardBad_stores hhead
  obtain ⟨hon, hleft⟩ := State.scrub_discardBad hhead
  have hlost := State.eccLost_discardBad hhead
  have hfaults := State.discardBad_faults hhead
  rw [State.scrubWithout_raw_left] at hleft
  refine ⟨u.scrubBurst 0 [0] flip, hu ▸ exec_scrubBurst dt 0 [0] flip s, u.scrubBurst_same 0 [0] flip, ?_⟩
  rw [State.scrubBurst_of_first flip hmay hheld hreads, State.scrubReads_first hheld]
  have hsame := u.scrubChecked_same (((u.scrubBegun 0).upsetRead .raw flip).discardBad .raw k)
  obtain ⟨hstores, hkept⟩ := u.scrubChecked_keeps (((u.scrubBegun 0).upsetRead .raw flip).discardBad .raw k)
  obtain ⟨hscrubbing, hscrubLeft, hecc⟩ := Cabinet.counts_of_beside hkept
  exact ⟨(hstores .raw).trans hraw, (hstores .shelf).trans (hshelf .shelf (by decide)), hscrubbing.trans hon,
    hscrubLeft.trans hleft, (congrArg BitVec.toNat hecc).trans hlost, (hsame .faults rfl).trans hfaults⟩

/-! ### The end of a scrub burst (R383, R384) -/

theorem does_scrubBurstEnd {dt : Nat} {s u : State} (hu : u = advance dt s) (hholding : u.leave.holding = some .scrub)
    (hon : u.cab.scrubbing = true) :
    Does (.scrubBurstEnd dt) s u [.cab, .leave] fun t =>
      t.cab.scrubbing = false ∧ t.cab.scrubAt = u.clock ∧ t.leave.holding = none ∧
        ∀ p : Nat, p = u.scrubFrom + u.cab.scrubLeft →
          (t.cab.scrubIn, t.cab.scrubPos) =
            (if p < u.cab.raw.heldBytes then (.raw, p)
            else if p < u.scrubTotal then (.shelf, p - u.cab.raw.heldBytes)
            else (.raw, 0)) := by
  have hend : u.scrubEnd = (u.scrubTo u.cab.scrubLeft).releaseFor .scrub := if_pos hon
  have hcab : u.scrubEnd.cab = (u.scrubTo u.cab.scrubLeft).cab := by
    rw [hend]
    exact State.releaseFor_same _ _ .cab rfl
  refine ⟨u.scrubEnd, hu ▸ exec_scrubBurstEnd dt s, u.scrubEnd_same, ?_⟩
  dsimp only
  rw [hcab]
  refine ⟨rfl, rfl, ?_, fun p hp => ?_⟩
  · rw [hend]
    exact State.releaseFor_holding_none hholding
  · rw [hp]
    rfl

/-! ### Store resets (R384, R388, R389) -/

/-- The code of a store's reset. -/
def resetCode : StoreId → Byte
  | .raw => 0x32
  | .shelf => 0x33

/-- The store of a reset emptied, its transmission cut and its drop run closed. -/
def State.storeEmptied (s : State) (st : StoreId) : State :=
  ((s.dropTx st).closeDropRun st).modStore st fun q => { Store.reset with dropped := q.dropped }

/-- The state of `storeReset` before its fault is logged. -/
def State.storeCleared (s : State) (st : StoreId) (time : BitVec 64) : State :=
  { s.storeEmptied st with
    port := { (s.storeEmptied st).port with
      cut := (s.storeEmptied st).port.cut.filter fun c => c.1 != Src.store st
      ended := (s.storeEmptied st).port.ended.filter fun e => e.tx.src != Src.store st }
    cab := s.scrubWithout st 0 (s.store st).heldBytes (s.storeEmptied st).cab
    chain := { (s.storeEmptied st).chain with
      resets := (s.storeEmptied st).chain.resets ++
        [{ st := .storeReset time (sat32 (s.store st).held.length) st, session := s.tb.session, full := s.full }] } }

theorem State.storeReset_of_mismatch {s : State} {st : StoreId} {time : BitVec 64} (h : (s.store st).mismatch = some time) :
    s.storeReset st =
      (s.storeCleared st time).log (resetCode st) (storeByte st) (sat32 (s.store st).held.length) 0 := by
  simp only [State.storeReset, h]
  rfl

theorem State.storeEmptied_same (s : State) (st : StoreId) : Same [.free, .port, .cab] s (s.storeEmptied st) :=
  (((s.dropTx_same st).mono rfl).trans ((State.closeDropRun_same _ st).mono rfl)).trans
    ((State.modStore_same _ st _).mono rfl)

theorem State.storeEmptied_stores (s : State) (st : StoreId) :
    (s.storeEmptied st).store st = { Store.reset with dropped := (s.store st).dropped } ∧
      ∀ o : StoreId, o ≠ st → (s.storeEmptied st).store o = s.store o := by
  have hdrop (o : StoreId) : (s.dropTx st).store o = s.store o := State.store_of_cab (s.dropTx_same st .cab rfl) o
  refine ⟨?_, fun o ho => ?_⟩
  · rw [State.storeEmptied, State.modStore_store_same, State.closeDropRun_keeps_dropped, hdrop]
  · rw [State.storeEmptied, State.modStore_store_ne _ _ ho, State.closeDropRun_store_ne _ ho, hdrop]

theorem State.storeEmptied_beside (s : State) (st : StoreId) : (s.storeEmptied st).cab.beside = s.cab.beside :=
  ((State.modStore_beside _ st _).trans (State.closeDropRun_beside _ st)).trans
    (congrArg Cabinet.beside (s.dropTx_same st .cab rfl))

/-- A skein of the store on the lanes is off them; another stays. -/
theorem State.dropTx_tx {s : State} {x : Tx} (st : StoreId) (h : s.port.tx = some x) :
    (s.dropTx st).port.tx = if x.src = .store st then none else some x := by
  simp only [State.dropTx, h]
  split
  · rfl
  · exact h

theorem State.storeEmptied_port (s : State) (st : StoreId) : (s.storeEmptied st).port = (s.dropTx st).port :=
  (State.modStore_same _ st _ .port rfl).trans (State.closeDropRun_same _ st .port rfl)

theorem State.storeCleared_store (s : State) (st o : StoreId) (time : BitVec 64) :
    (s.storeCleared st time).store o = (s.storeEmptied st).store o := by
  cases o <;> rfl

theorem does_storeReset {dt : Nat} {s u : State} {st : StoreId} {time : BitVec 64} (hu : u = advance dt s)
    (hmatch : (u.store st).mismatch = some time) :
    Does (.storeReset dt st) s u [.free, .chain, .cab, .port, .faults] fun t =>
      t.store st = { Store.reset with dropped := (u.store st).dropped } ∧
        (∀ o : StoreId, o ≠ st → t.store o = u.store o) ∧ t.cab.intro = u.cab.intro ∧
        t.cab.scrubLeft = (u.scrubWithout st 0 (u.store st).heldBytes u.cab).scrubLeft ∧
        (∀ x : Tx, u.port.tx = some x → t.port.tx = if x.src = .store st then none else some x) ∧
        t.chain = { u.chain with resets := u.chain.resets ++
          [{ st := .storeReset time (sat32 (u.store st).held.length) st, session := u.tb.session, full := u.full }] } ∧
        t.faults = u.faults.logged (resetCode st) u.tb.time (storeByte st) (sat32 (u.store st).held.length) 0 := by
  have hempty := u.storeEmptied_same st
  obtain ⟨hstore, hother⟩ := u.storeEmptied_stores st
  have hbeside := u.storeEmptied_beside st
  obtain ⟨-, hleft, -⟩ := Cabinet.counts_of_beside hbeside
  have htb : (u.storeCleared st time).tb = u.tb := hempty .tb rfl
  have hchain : (u.storeEmptied st).chain = u.chain := hempty .chain rfl
  have hfaults : (u.storeCleared st time).faults = u.faults := hempty .faults rfl
  have hintro : (u.storeEmptied st).cab.intro = u.cab.intro := Cabinet.intro_of_beside hbeside
  refine ⟨u.storeReset st, hu ▸ exec_storeReset dt st s, u.storeReset_same st, ?_⟩
  rw [State.storeReset_of_mismatch hmatch, State.log_eq, htb, hfaults]
  refine ⟨?_, fun o ho => ?_, hintro, ?_, fun x hx => ?_, ?_, rfl⟩
  · exact (State.store_of_cab rfl st).trans ((u.storeCleared_store st st time).trans hstore)
  · exact (State.store_of_cab rfl o).trans ((u.storeCleared_store st o time).trans (hother o ho))
  · exact congrArg (fun left => left - _) hleft
  · exact (congrArg Stream.tx (u.storeEmptied_port st)).trans (State.dropTx_tx st hx)
  · rw [← hchain]
    rfl

/-- A burst reads no more than before a reset, and of a reset raw ring nothing of what it was in. -/
theorem State.scrubWithout_left (s : State) (st : StoreId) (size : Nat) :
    (s.scrubWithout st 0 size s.cab).scrubLeft ≤ s.cab.scrubLeft ∧
      (st = .raw → s.cab.scrubIn = .raw → (s.scrubWithout st 0 size s.cab).scrubLeft =
        s.cab.scrubLeft - (min size (s.cab.scrubPos + s.cab.scrubLeft) - s.cab.scrubPos)) := by
  refine ⟨Nat.sub_le _ _, fun hst hin => ?_⟩
  have hfrom : s.scrubFrom = s.cab.scrubPos := by rw [State.scrubFrom, hin]
  rw [hst, State.scrubWithout_raw_left, hfrom]

theorem resetCode_eq (st : StoreId) : resetCode st = if st = .raw then 0x32 else 0x33 := by cases st <;> rfl

theorem dropCode_eq (st : StoreId) : dropCode st = if st = .raw then 0x34 else 0x35 := by cases st <;> rfl

end Sys2Proof.Machine

open Sys2Proof Sys2Proof.Machine

/-- Settles O40: the marker of a drop run, refresh and scrub bursts, and the reset of a store. -/
theorem storesAreKept : Obligations.StoresAreKept := by
  refine ⟨⟨?marker, fun dt s u hu => ⟨fun hext hburst hdue => ?burst, fun hearly => ?early, ?burstEnd⟩⟩,
    fun dt s u hu hruns => ⟨fun hidle hheld hholding hreqs => ⟨fun hdue => ?request, fun hearly => ?noRequest⟩,
      fun hholding hidle => ⟨fun corrected bad flip hblocked => ?blocked, fun corrected flip hburst hbrace hsound => ?clean,
        fun k rest flip hburst hbrace hheld hreads => ?bad⟩, fun hholding hon => does_scrubBurstEnd hu hholding hon⟩,
    fun dt s u st time hu hmatch => ?reset⟩
  case marker =>
    intro dt s u st r rest hu hclosed hruns hqueue hfree hidle hold
    rw [← dropCode_eq, ← storeByte_eq]
    exact does_droppedSkeinMarker hu hclosed hruns hqueue hfree hidle hold
  case burst => rw [exec_refreshBurst, ← hu, State.refreshBurst_of_due hext hburst hdue]
  case early => rw [exec_refreshBurst, ← hu, State.refreshBurst_of_early hearly]
  case burstEnd => rw [exec_refreshBurstEnd, ← hu]
  case request =>
    exact does_scrubRequest hu hruns ((State.wants_scrub hidle hheld).trans (decide_eq_true hdue)) hholding hreqs
  case noRequest =>
    have hwants : u.wants .scrub = false := (State.wants_scrub hidle hheld).trans (decide_eq_false (Nat.not_le.mpr hearly))
    rw [exec_scrubRequest, ← hu, State.scrubRequest_of_early hwants]
  case blocked => rw [exec_scrubBurst, ← hu, State.scrubBurst_of_blocked corrected bad flip hblocked]
  case clean => exact does_scrubBurst_clean hu (State.mayScrub_of hruns hholding hidle hburst hbrace) hsound
  case bad => exact does_scrubBurst_bad hu (State.mayScrub_of hruns hholding hidle hburst hbrace) hheld hreads
  case reset =>
    obtain ⟨t, hexec, hsame, hstore, hother, hintro, hleft, htx, hchain, hfaults⟩ := does_storeReset hu hmatch
    obtain ⟨hless, hraw⟩ := u.scrubWithout_left st (u.store st).heldBytes
    rw [resetCode_eq, storeByte_eq] at hfaults
    refine ⟨t, hexec, hsame, hstore, hother, hintro, hleft ▸ hless, fun hst hin => ?_, htx, hchain, hfaults⟩
    have hgone := hraw hst hin
    subst hst
    exact hleft.trans hgone
end

section
/-! The introduction and the end of alignment (R402, R408, R414, R427). -/

namespace Sys2Proof.Machine
open Sys2Proof

/-! ### What each command runs -/

theorem exec_introductionClose (dt : Nat) (s : State) :
    exec (.introductionClose dt) s = .next (advance dt s).introductionClose := rfl

theorem exec_alignmentDone (dt : Nat) (s : State) : exec (.alignmentDone dt) s = .next (advance dt s).alignmentDone := rfl

/-! ### Introduction skeins on their way to the control buffer (R317, R414) -/

/-- The echo of an introduction numbers nothing behind it: it closes as any other control skein does. -/
theorem State.closeCtl_pack_of_intro {s : State} {c : Ctl} (hold : s.pack.ctlOld = false) (htyp : c.typ = typeEcho)
    (hintro : c.intro = true) :
    (s.closeCtl c).pack = { s.pack with
      released := s.pack.released ++ [s.ctlSkein c], seq := s.pack.seq + 1, closed := s.pack.closed + 1 } := by
  have hcontrol : (s.writtenSkein c).isControl = true := by
    rw [Skein.isControl, Skein.isRaw, State.writtenSkein, State.skein, htyp]
    rfl
  have hrank : (s.ctlSkein c).rank = 2 := by
    rw [Skein.rank, Skein.isRaw, State.ctlSkein, State.writtenSkein, State.skein, htyp, hintro]
    rfl
  have hlast := Skein.join_of_last hrank s.pack.released
  rw [State.closeCtl_of_current c hold, if_neg (by simp [hintro]), State.release_of_control hcontrol,
    State.number_of_current rfl, ← hlast]
  rfl

/-- With a closed control skein in the buffer a skein waits behind those that wait. -/
theorem State.control_of_full {s : State} (typ : BitVec 6) (body : List Byte) (intro : Bool) (hfree : s.ctlFree = false) :
    s.control typ body intro =
      { s with pack := { s.pack with ctlQueue := s.pack.ctlQueue ++ [{ typ := typ, body := body, intro := intro }] } } :=
  if_neg (by simp [hfree])

/-- The introduction's echo. -/
def State.introEcho (s : State) : Skein := s.ctlSkein { typ := typeEcho, body := s.echoBody, intro := true }

/-- The state once the echo of the introduction has closed. -/
def State.echoClosed (s : State) : State := s.control typeEcho s.echoBody true

theorem State.echoClosed_pack {s : State} (hqueue : s.pack.ctlQueue = []) (hfree : s.ctlFree = true) (hidle : s.readIdle = true)
    (hold : s.pack.ctlOld = false) :
    s.echoClosed.pack.released = s.pack.released ++ [s.introEcho] ∧ s.echoClosed.pack.ctlQueue = [] ∧
      s.echoClosed.ctlFree = false := by
  have hpack : s.echoClosed.pack = { s.pack with
      released := s.pack.released ++ [s.introEcho], seq := s.pack.seq + 1, closed := s.pack.closed + 1 } := by
    rw [State.echoClosed, State.control_of_free _ _ _ hqueue hfree hidle]
    exact State.closeCtl_pack_of_intro hold rfl rfl
  refine ⟨congrArg Packer.released hpack, (congrArg Packer.ctlQueue hpack).trans hqueue, ?_⟩
  have hcontrol : s.introEcho.isControl = true := rfl
  simp [State.ctlFree, hpack, hcontrol]

/-- The descriptor gathered behind a full buffer: the introduction is written, and the port stays where it stands. -/
theorem State.closeDescriptor_of_full {s : State} (howed : s.port.introOwed = true) (hqueue : s.pack.ctlQueue = [])
    (hfree : s.ctlFree = false) :
    s.closeDescriptor = { s with
      pack := { s.pack with ctlQueue := [{ typ := typeIntro, body := s.descriptor, intro := true }] }
      port := { s.port with introOwed := false, introClosed := true } } := by
  have hwaits : s.introWaits = false := by rw [State.introWaits, hqueue]; rfl
  rw [State.closeDescriptor, howed, hwaits, State.control_of_full _ _ _ hfree, hqueue]
  refine (if_pos rfl).trans (if_neg ?_)
  simp [State.introWaits]

theorem State.closeDescriptor_of_waiting {s : State} (h : s.introWaits = true) : s.closeDescriptor = s :=
  if_neg (by simp [h])

/-! ### INTRODUCTION_CLOSE (R414) -/

section
variable {s : State} (hruns : s.fwRuns = true) (hup : s.port.up = true) (hst : s.port.st = .align)
  (hclosed : s.port.introClosed = false) (howed : s.port.introOwed = false) (hheld : s.introHeld = false)
include hruns hup hst hclosed howed hheld

theorem State.introductionClose_of_no_report (hreport : s.cal.report = none) :
    s.introductionClose = (s.echoClosed.modPort fun p => { p with introOwed := true }).closeDescriptor := by
  simp only [State.introductionClose, Stream.aligning, hruns, hup, hst, hclosed, howed, hheld, hreport]
  rfl

theorem State.introductionClose_of_report {b : List Byte} (hreport : s.cal.report = some b) :
    s.introductionClose =
      ((s.echoClosed.control typeReport b true).modPort fun p => { p with introOwed := true }).closeDescriptor := by
  simp only [State.introductionClose, Stream.aligning, hruns, hup, hst, hclosed, howed, hheld, hreport]
  rfl

end

theorem does_introductionClose {dt : Nat} {s u : State} (hu : u = advance dt s) (hup : u.port.up = true)
    (hst : u.port.st = .align) (hruns : u.fwRuns = true) (hclosed : u.port.introClosed = false)
    (howed : u.port.introOwed = false) (hheld : u.introHeld = false) (hqueue : u.pack.ctlQueue = [])
    (hfree : u.ctlFree = true) (hidle : u.readIdle = true) (hold : u.pack.ctlOld = false) :
    Does (.introductionClose dt) s u [.pack, .port] fun t =>
      t.port.st = .align ∧
      (∃ k : Skein, t.pack.released = u.pack.released ++ [k] ∧ k.intro = true ∧ k.typ = typeEcho ∧
        k.body = .bytes u.echoBody) ∧
      (u.cal.report = none → t.port.introClosed = true ∧ t.pack.ctlQueue.map (·.typ) = [typeIntro]) ∧
      (u.cal.report.isSome = true → t.port.introOwed = true ∧ t.pack.ctlQueue.map (·.typ) = [typeReport]) := by
  obtain ⟨hreleased, hempty, hfull⟩ := State.echoClosed_pack hqueue hfree hidle hold
  have hport : u.echoClosed.port = u.port := State.control_same _ _ _ _ .port rfl
  refine ⟨u.introductionClose, hu ▸ exec_introductionClose dt s, u.introductionClose_same, ?_⟩
  cases hreport : u.cal.report with
  | none =>
    rw [State.introductionClose_of_no_report hruns hup hst hclosed howed hheld hreport,
      State.closeDescriptor_of_full (s := u.echoClosed.modPort fun p => { p with introOwed := true }) rfl hempty hfull]
    exact ⟨(congrArg Stream.st hport).trans hst, ⟨u.introEcho, hreleased, rfl, rfl, rfl⟩, fun _ => ⟨rfl, rfl⟩,
      fun h => absurd h (by decide)⟩
  | some b =>
    rw [State.introductionClose_of_report hruns hup hst hclosed howed hheld hreport, State.control_of_full _ _ _ hfull, hempty,
      State.closeDescriptor_of_waiting rfl]
    exact ⟨(congrArg Stream.st hport).trans hst, ⟨u.introEcho, hreleased, rfl, rfl, rfl⟩, fun h => absurd h (by simp),
      fun _ => ⟨rfl, rfl⟩⟩

/-! ### ALIGNMENT_DONE (R402, R408, R427) -/

/-- The alignment columns are out and fault 0x43 has cleared. -/
def State.columnsOut (s : State) : State :=
  { s with port := { s.port with aligned := true }, faults := s.faults.cleared 0x43 s.tb.time 0xFF }

theorem State.alignmentDone_of_align {s : State} (hup : s.port.up = true) (hst : s.port.st = .align) :
    s.alignmentDone = s.columnsOut.settlePort := by
  have hcleared : (s.modPort fun p => { p with aligned := true }).clearFault 0x43 0xFF = s.columnsOut :=
    State.clearFault_eq ..
  rw [← hcleared]
  exact if_pos (by simp [hup, hst])

theorem State.alignmentDone_of_closed {s : State} (hup : s.port.up = true) (hst : s.port.st = .align)
    (hclosed : s.port.introClosed = true) (hwaits : s.introWaits = false) :
    s.alignmentDone = { s.columnsOut with port := { s.columnsOut.port with st := .introducing } } := by
  have hready : (s.columnsOut.port.st == .align && s.columnsOut.port.aligned && s.columnsOut.port.introClosed &&
      !s.columnsOut.introWaits) = true := by
    simp [State.columnsOut, State.introWaits, hst, hclosed, show s.pack.ctlQueue.any (·.intro) = false from hwaits]
  rw [State.alignmentDone_of_align hup hst]
  exact if_pos hready

theorem State.alignmentDone_of_open {s : State} (hup : s.port.up = true) (hst : s.port.st = .align)
    (hclosed : s.port.introClosed = false) : s.alignmentDone = s.columnsOut := by
  rw [State.alignmentDone_of_align hup hst]
  exact if_neg (by simp [State.columnsOut, hclosed])

end Sys2Proof.Machine
end

section
/-! The drain order and the start of a transmission (R376, R385, R402, R403, R417, R421). -/

namespace Sys2Proof.Machine
open Sys2Proof

theorem exec_skeinTransmitStart (dt corrected : Nat) (uncorrectable : Bool) (s : State) :
    exec (.skeinTransmitStart dt corrected uncorrectable) s = .next ((advance dt s).transmitStart corrected uncorrectable) := rfl

/-! ### The drain order (R417, R421) -/

/-- The oldest skein of a store with the store it is held in. -/
def State.oldest (s : State) (st : StoreId) : Option (StoreId × Skein) := (s.store st).held.head?.map fun k => (st, k)

theorem State.oldest_of_head {s : State} {st : StoreId} {k : Skein} {rest : List Skein} (h : (s.store st).held = k :: rest) :
    s.oldest st = some (st, k) := by
  rw [State.oldest, h]
  rfl

theorem State.held_of_oldest {s : State} {st o : StoreId} {k : Skein} (h : s.oldest o = some (st, k)) :
    ∃ rest : List Skein, (s.store st).held = k :: rest := by
  obtain ⟨q, hq, hpair⟩ := Option.map_eq_some_iff.mp h
  obtain ⟨rfl, rfl⟩ := Prod.mk.inj hpair
  exact List.head?_eq_some_iff.mp hq

/-- The choice is the oldest skein of a store. -/
theorem State.drainChoice_oldest {s : State} {x : StoreId × Skein} (h : s.drainChoice = some x) :
    ∃ o : StoreId, s.oldest o = some x := by
  unfold State.drainChoice at h
  dsimp only at h
  split at h
  · next c hcut =>
    obtain ⟨⟨src, key⟩, -, hfound⟩ := List.exists_of_findSome?_eq_some hcut
    cases src with
    | store st => cases st <;> exact ⟨_, hfound.trans h⟩
    | intro => cases hfound
  · exact ⟨.shelf, h⟩
  · exact ⟨.raw, h⟩
  · next a b hraw hshelf =>
    split at h
    · split at h
      · exact ⟨.raw, hraw.trans h⟩
      · exact ⟨.shelf, hshelf.trans h⟩
    · split at h
      · exact ⟨.raw, hraw.trans h⟩
      · exact ⟨.shelf, hshelf.trans h⟩

theorem State.drainChoice_head {s : State} {st : StoreId} {k : Skein} (h : s.drainChoice = some (st, k)) :
    ∃ rest : List Skein, (s.store st).held = k :: rest := by
  obtain ⟨o, ho⟩ := State.drainChoice_oldest h
  exact State.held_of_oldest ho

section
variable {s : State} {a b : Skein} {ra rb : List Skein} (hraw : s.cab.raw.held = a :: ra) (hshelf : s.cab.shelf.held = b :: rb)
include hraw hshelf

/-- The older by close order. -/
theorem State.drainChoice_by_close (hcut : s.port.cut = []) (hinter : s.interleaved = false) :
    s.drainChoice = some (if a.closeNo < b.closeNo then (.raw, a) else (.shelf, b)) := by
  simp only [State.drainChoice, hraw, hshelf, hcut, hinter]
  exact (apply_ite some ..).symm

/-- In turn, the shelf first. -/
theorem State.drainChoice_in_turn (hcut : s.port.cut = []) (hinter : s.interleaved = true) :
    s.drainChoice = some (if s.port.last = some .shelf then (.raw, a) else (.shelf, b)) := by
  simp only [State.drainChoice, hraw, hshelf, hcut, hinter]
  cases s.port.last with
  | none => rfl
  | some st => cases st <;> rfl

/-- A skein that was cut off before either. -/
theorem State.drainChoice_of_cut {st : StoreId} {se : BitVec 16} {q : BitVec 32} (hcut : s.port.cut = [(.store st, se, q)]) :
    s.drainChoice = s.oldest st := by
  have hrawOldest : s.oldest .raw = some (.raw, a) := State.oldest_of_head hraw
  have hshelfOldest : s.oldest .shelf = some (.shelf, b) := State.oldest_of_head hshelf
  simp only [State.drainChoice, hraw, hshelf, hcut]
  cases st
  · exact hrawOldest.symm
  · exact hshelfOldest.symm

end

/-! ### SKEIN_TRANSMIT_START (R376, R385, R402, R403) -/

theorem State.transmitStart_of_early {s : State} (n : Nat) (bad : Bool) (h : s.clock < s.port.freeAt) :
    s.transmitStart n bad = s :=
  if_pos (by simp [h])

section
variable {s : State} {st : StoreId} {k : Skein} (hup : s.port.up = true) (hhost : s.port.host = true) (htx : s.port.tx = none)
  (hst : s.port.st = .drain) (hburst : s.cab.burst = false) (hflush : s.cab.flushing = false)
  (hchoice : s.drainChoice = some (st, k)) (hmatch : (s.store st).mismatch = none) (hfree : s.port.freeAt ≤ s.clock)
include hup hhost htx hst hburst hflush hchoice hmatch hfree

theorem State.transmitStart_of_choice (bad : Bool) :
    s.transmitStart 0 bad =
      if bad then (s.discardBad st k).modPort fun p => { p with last := some st }
      else (s.startTx (.store st) k).checkStore st := by
  have hintro : s.introChoice = none := by simp [State.introChoice, hst]
  simp only [State.transmitStart, hup, hhost, htx, hintro, hst, hburst, hflush, hchoice, hmatch,
    decide_eq_false (Nat.not_lt.mpr hfree)]
  rfl

theorem State.transmitStart_of_sound (hsound : (s.store st).sound (s.capacity st) = true) :
    s.transmitStart 0 false = s.startTx (.store st) k :=
  (State.transmitStart_of_choice hup hhost htx hst hburst hflush hchoice hmatch hfree false).trans
    (State.checkStore_of_sound (s := s.startTx (.store st) k)
      (by rwa [State.store_of_cab (s.startTx_same (.store st) k .cab rfl),
        State.capacity_of_strap (s.startTx_same (.store st) k .strap rfl)]))

end

/-- No skein is sent in place of one that is discarded. -/
theorem State.discardBad_tx {s : State} (st : StoreId) (k : Skein) (h : s.port.tx = none) : (s.discardBad st k).port.tx = none := by
  have hlost : (s.lost st k).port.tx = none := by
    have hport : (s.takeOut st k).port = s.port := s.takeOut_same st k .port rfl
    rw [State.lost, hport, h]
    rfl
  unfold State.discardBad
  split
  · exact h
  · rw [State.checkStore_same _ st .port rfl]
    exact hlost

theorem does_skeinTransmitStart_bad {dt : Nat} {s u : State} {st : StoreId} {k : Skein} (hu : u = advance dt s)
    (hup : u.port.up = true) (hhost : u.port.host = true) (htx : u.port.tx = none) (hst : u.port.st = .drain)
    (hburst : u.cab.burst = false) (hflush : u.cab.flushing = false) (hchoice : u.drainChoice = some (st, k))
    (hmatch : (u.store st).mismatch = none) (hfree : u.port.freeAt ≤ u.clock) :
    Does (.skeinTransmitStart dt 0 true) s u [.cab, .port, .faults] fun t =>
      t.port.tx = none ∧ t.port.last = some st ∧ t.cab.eccLost.toNat = min 65535 (u.cab.eccLost.toNat + 1) ∧
        (u.store st).held = k :: (t.store st).held ∧
        t.faults = u.faults.logged 0x36 u.tb.time (storeByte st) k.seq (k.session.setWidth 32) := by
  obtain ⟨rest, hhead⟩ := State.drainChoice_head hchoice
  obtain ⟨hheld, -⟩ := State.discardBad_stores hhead
  have hstore := State.store_of_cab (s := u.discardBad st k)
    (t := (u.discardBad st k).modPort fun p => { p with last := some st }) rfl st
  refine ⟨u.transmitStart 0 true, hu ▸ exec_skeinTransmitStart dt 0 true s, u.transmitStart_same 0 true, ?_⟩
  rw [State.transmitStart_of_choice hup hhost htx hst hburst hflush hchoice hmatch hfree true, if_pos rfl]
  beta_reduce
  rw [hstore, hheld]
  exact ⟨State.discardBad_tx st k htx, rfl, State.eccLost_discardBad hhead, hhead, State.discardBad_faults hhead⟩

theorem does_skeinTransmitStart {dt : Nat} {s u : State} {st : StoreId} {k : Skein} (hu : u = advance dt s)
    (hup : u.port.up = true) (hhost : u.port.host = true) (htx : u.port.tx = none) (hst : u.port.st = .drain)
    (hburst : u.cab.burst = false) (hflush : u.cab.flushing = false) (hchoice : u.drainChoice = some (st, k))
    (hmatch : (u.store st).mismatch = none) (hfree : u.port.freeAt ≤ u.clock)
    (hsound : (u.store st).sound (u.capacity st) = true) :
    Does (.skeinTransmitStart dt 0 false) s u [.port] fun t =>
      t.port = { u.port with
        tx := some { src := .store st, skein := k, again := u.port.cut.contains (.store st, k.session, k.seq)
                     lowSeen := false, gone := false }
        last := some st
        disparity := idled u.idleColumns u.port.disparity } := by
  have hstart := State.transmitStart_of_sound hup hhost htx hst hburst hflush hchoice hmatch hfree hsound
  refine ⟨u.transmitStart 0 false, hu ▸ exec_skeinTransmitStart dt 0 false s, ?_⟩
  rw [hstart]
  exact ⟨u.startTx_same (.store st) k, rfl⟩

/-- At least 2 idle columns between skeins, at most 8 before one that was already held (R403). -/
theorem State.idleColumns_between {s : State} (h : s.port.idleMin = 2) :
    2 ≤ s.idleColumns ∧ (s.port.prompt = true → s.idleColumns ≤ 8) := by
  refine ⟨h ▸ Nat.le_add_right _ _, fun hprompt => ?_⟩
  have hmod := Nat.mod_lt (Config.idleColumns s.clock) (show 0 < 7 by decide)
  rw [State.idleColumns, h, hprompt]
  exact Nat.add_le_add_left (Nat.le_of_lt_succ hmod) 2

end Sys2Proof.Machine
end

section
/-! The end of a transmission (R373, R399, R408, R419, R423). -/

namespace Sys2Proof.Machine
open Sys2Proof

theorem exec_transmissionComplete (dt : Nat) (flip : BitVec 26) (s : State) :
    exec (.transmissionComplete dt flip) s = .next ((advance dt s).transmissionComplete flip) := rfl

/-- The lanes idle again behind the last column of a skein. -/
def State.txIdle (s : State) (x : Tx) : State :=
  s.modPort fun p => { p with
    tx := none, freeAt := s.clock + 2 * s.columnTime, idleMin := 2
    disparity := s.carried (x.skein.wire x.again) p.disparity }

/-- A complete transmission: its PKT pulse, and what it leaves for a HOSTRDY low of its cycle. -/
def State.txEnded (s : State) (x : Tx) : State :=
  (s.txIdle x).pulsePkt.modPort fun p => { p with
    ended := some (s.endedNow x), cut := p.cut.filter fun c => c != (x.src, x.skein.session, x.skein.seq) }

/-- The skein sent leaves where it was held. -/
def State.txFreed (s : State) (x : Tx) (flip : BitVec 26) : State :=
  match x.src with
  | .store st => if x.gone then s else s.freeSkein st x.skein flip
  | .intro => State.settleIntro { s with cab := { s.cab with intro := s.cab.intro.drop 1 } }

theorem State.transmissionComplete_of_cut {s : State} {x : Tx} (flip : BitVec 26) (htx : s.port.tx = some x)
    (hlow : x.lowSeen = true) : s.transmissionComplete flip = s.txIdle x := by
  simp only [State.transmissionComplete, htx, hlow]
  rfl

theorem State.transmissionComplete_of_whole {s : State} {x : Tx} (flip : BitVec 26) (htx : s.port.tx = some x)
    (hlow : x.lowSeen = false) : ∃ prompt : Stream → Bool,
    s.transmissionComplete flip = ((s.txEnded x).txFreed x flip).modPort fun p => { p with prompt := prompt p } := by
  simp only [State.transmissionComplete, htx, hlow, Bool.false_eq_true, if_false]
  exact ⟨_, rfl⟩

/-- The pulse begins within 40 ns and lasts 18 ns to 25 ns (R423). -/
theorem State.txEnded_port (s : State) (x : Tx) :
    (s.txEnded x).port.tx = none ∧ (s.txEnded x).port.pkt = s.port.pkt + 1 ∧ s.clock ≤ (s.txEnded x).port.pktFrom ∧
      (s.txEnded x).port.pktFrom ≤ s.clock + 160000 ∧ (s.txEnded x).port.pktFrom + 72000 ≤ (s.txEnded x).port.pktTo ∧
      (s.txEnded x).port.pktTo ≤ (s.txEnded x).port.pktFrom + 100000 := by
  have hfrom : (s.txEnded x).port.pktFrom = s.clock + Config.freeNat s.free % 160001 := rfl
  have hto : (s.txEnded x).port.pktTo =
      s.clock + Config.freeNat s.free % 160001 + 72000 + Config.freeNat (s.free + 1) % 28001 := rfl
  rw [hfrom, hto]
  exact ⟨rfl, rfl, by omega, by omega, by omega, by omega⟩

/-- The skein that leaves changes nothing of the pulse. -/
theorem State.txFreed_port (s : State) (x : Tx) (flip : BitVec 26) :
    ∃ (st : Port) (last : Option StoreId), (s.txFreed x flip).port = { s.port with st := st, last := last } := by
  unfold State.txFreed
  split
  · next st _ =>
    split
    · exact ⟨_, _, rfl⟩
    · exact ⟨s.port.st, s.port.last, s.freeSkein_same st x.skein flip .port rfl⟩
  · unfold State.settleIntro
    split
    · exact ⟨_, _, rfl⟩
    · exact ⟨_, _, rfl⟩

/-- The skein at the head of a store is freed, and nothing else held. -/
theorem State.freeSkein_stores {s : State} {st : StoreId} {k : Skein} {rest : List Skein} (flip : BitVec 26)
    (h : (s.store st).held = k :: rest) :
    ((s.freeSkein st k flip).store st).held = rest ∧
      (∀ o : StoreId, o ≠ st → (s.freeSkein st k flip).store o = s.store o) ∧
      (s.freeSkein st k flip).cab.intro = s.cab.intro := by
  refine ⟨?_, fun o ho => ?_, ?_⟩
  · rw [State.freeSkein, State.checkStore_held, State.upsetRead, State.modStore_store_same]
    exact State.takeOut_held_of_head h
  · rw [State.freeSkein, State.checkStore_store_ne _ ho, State.upsetRead, State.modStore_store_ne _ _ ho,
      s.takeOut_store_ne k ho]
  · have hbeside : (s.freeSkein st k flip).cab.beside = (s.takeOut st k).cab.beside :=
      (State.checkStore_beside _ st).trans (State.modStore_beside _ st _)
    have hintro : (s.takeOut st k).cab.beside.intro = s.cab.intro := by rw [State.takeOut_beside]; rfl
    exact (Cabinet.intro_of_beside hbeside).trans hintro

theorem State.txEnded_cab (s : State) (x : Tx) : (s.txEnded x).cab = s.cab := rfl

theorem State.txFreed_of_store {s : State} {x : Tx} {st : StoreId} (flip : BitVec 26) (hsrc : x.src = .store st) :
    s.txFreed x flip = if x.gone then s else s.freeSkein st x.skein flip := by
  rw [State.txFreed, hsrc]

theorem State.txFreed_of_intro {s : State} {x : Tx} (flip : BitVec 26) (hsrc : x.src = .intro) :
    (s.txFreed x flip).cab = { s.cab with intro := s.cab.intro.drop 1 } := by
  rw [State.txFreed, hsrc]
  exact State.settleIntro_same _ .cab rfl

theorem does_transmissionComplete {dt : Nat} {flip : BitVec 26} {s u : State} {x : Tx} (hu : u = advance dt s)
    (htx : u.port.tx = some x) (hlow : x.lowSeen = false) :
    Does (.transmissionComplete dt flip) s u [.free, .cab, .port] fun t =>
      t.port.tx = none ∧ t.port.pkt = u.port.pkt + 1 ∧ u.clock ≤ t.port.pktFrom ∧
        t.port.pktFrom ≤ u.clock + 160000 ∧ t.port.pktFrom + 72000 ≤ t.port.pktTo ∧
        t.port.pktTo ≤ t.port.pktFrom + 100000 ∧
        (∀ (st : StoreId) (rest : List Skein), x.src = .store st → x.gone = false →
          (u.store st).held = x.skein :: rest →
          (t.store st).held = rest ∧ (∀ o : StoreId, o ≠ st → t.store o = u.store o) ∧ t.cab.intro = u.cab.intro) ∧
        (∀ st : StoreId, x.src = .store st → x.gone = true → t.cab = u.cab) ∧
        (x.src = .intro →
          t.cab.intro = u.cab.intro.drop 1 ∧ t.cab.raw = u.cab.raw ∧ t.cab.shelf = u.cab.shelf) := by
  obtain ⟨prompt, hwhole⟩ := State.transmissionComplete_of_whole flip htx hlow
  obtain ⟨st, last, hport⟩ := (u.txEnded x).txFreed_port x flip
  obtain ⟨hnone, hpkt, hfrom, hfromTo, hlong, hshort⟩ := u.txEnded_port x
  have hended (o : StoreId) : (u.txEnded x).store o = u.store o := State.store_of_cab (u.txEnded_cab x) o
  refine ⟨u.transmissionComplete flip, hu ▸ exec_transmissionComplete dt flip s, u.transmissionComplete_same flip, ?_⟩
  have hcab : (u.transmissionComplete flip).cab = ((u.txEnded x).txFreed x flip).cab := by rw [hwhole]; rfl
  have hstore (o : StoreId) : (u.transmissionComplete flip).store o = ((u.txEnded x).txFreed x flip).store o :=
    State.store_of_cab hcab o
  have hpulse : (u.transmissionComplete flip).port = { (u.txEnded x).port with
      st := st, last := last, prompt := prompt { (u.txEnded x).port with st := st, last := last } } := by
    rw [hwhole, State.modPort_port, hport]
  simp only [hpulse, hcab, hstore]
  refine ⟨hnone, hpkt, hfrom, hfromTo, hlong, hshort, fun o rest hsrc hgone hheld => ?_, fun o hsrc hgone => ?_, fun hsrc => ?_⟩
  · rw [State.txFreed_of_store flip hsrc, hgone, if_neg Bool.false_ne_true]
    have hfreed := State.freeSkein_stores (s := u.txEnded x) flip hheld
    simpa only [hended, State.txEnded_cab] using hfreed
  · rw [State.txFreed_of_store flip hsrc, hgone]
    rfl
  · rw [State.txFreed_of_intro flip hsrc]
    exact ⟨rfl, rfl, rfl⟩

end Sys2Proof.Machine

open Sys2Proof Sys2Proof.Machine

/-- Settles O44: the introduction gathered and ALIGN left, the drain order, and a transmission from its first column to its last. -/
theorem portSends : Obligations.PortSends := by
  refine ⟨fun dt s u hu hup hst => ⟨does_introductionClose hu hup hst, fun hclosed hwaits => ?closed, fun hclosed => ?aligned⟩,
    fun dt s u st k hu hup hhost htx hst hburst hflush hchoice hmatch => ⟨fun n bad hearly => ?early, fun hfree hsound => ?starts,
      fun hfree => ?discards, State.idleColumns_between⟩,
    fun s a b ra rb hraw hshelf => ⟨fun hcut hinter _ => State.drainChoice_by_close hraw hshelf hcut hinter,
      State.drainChoice_in_turn hraw hshelf, fun _ _ hcut => (State.drainChoice_of_cut hraw hshelf hcut).trans (State.oldest_of_head hraw),
      fun _ _ hcut => (State.drainChoice_of_cut hraw hshelf hcut).trans (State.oldest_of_head hshelf)⟩,
    fun dt flip s u x hu htx => ⟨fun hlow => ?cut, does_transmissionComplete hu htx⟩⟩
  case closed =>
    rw [exec_alignmentDone, ← hu, State.alignmentDone_of_closed hup hst hclosed hwaits]
    rfl
  case aligned =>
    rw [exec_alignmentDone, ← hu, State.alignmentDone_of_open hup hst hclosed]
    rfl
  case early => rw [exec_skeinTransmitStart, ← hu, State.transmitStart_of_early n bad hearly]
  case starts => exact does_skeinTransmitStart hu hup hhost htx hst hburst hflush hchoice hmatch hfree hsound
  case discards =>
    rw [← storeByte_eq]
    exact does_skeinTransmitStart_bad hu hup hhost htx hst hburst hflush hchoice hmatch hfree
  case cut =>
    rw [exec_transmissionComplete, ← hu, State.transmissionComplete_of_cut flip htx hlow]
    rfl
end

section
/-! What every command does to the queue and to the clock, and what an idle step does. -/

namespace Sys2Proof.Machine
open Sys2Proof

/-! ### The clock never runs back (log 3) -/

theorem State.setEpoch_clock_le (s : State) (source : BitVec 2) (epoch : Nat) : s.clock ≤ (s.setEpoch source epoch).clock := by
  obtain ⟨-, -, hclock, -⟩ := s.setEpoch_begins source epoch
  exact hclock ▸ Nat.le_max_left _ _

theorem State.epochFree_clock_le (s : State) : s.clock ≤ s.epochFree.clock := by
  unfold State.epochFree
  split
  · exact s.setEpoch_clock_le _ _
  · exact le_rfl

theorem State.epochTimeout_clock_le (s : State) : s.clock ≤ s.epochTimeout.clock := by
  unfold State.epochTimeout
  split
  · exact (s.log 0x23 0xFF 0 0).setEpoch_clock_le _ _
  · exact le_rfl

theorem State.ppsLater_clock (s : State) : s.ppsLater.clock = s.clock := State.ppsLater_same s .clock rfl

theorem State.ppsEdge_clock_le (s : State) : s.clock ≤ s.ppsEdge.clock := by
  unfold State.ppsEdge
  split
  · exact le_rfl
  · split
    · exact (State.ppsLater_clock s).ge
    · split
      · split
        · exact s.epochTimeout_clock_le.trans (State.ppsLater_clock _).ge
        · have hnoted : (if s.ppsUse = 2 then (s.setEpoch 1 s.ppsEpoch).ppsNote 0 else s.setEpoch 1 s.ppsEpoch).clock =
              (s.setEpoch 1 s.ppsEpoch).clock := by
            split
            · exact State.ppsNote_same _ _ .clock rfl
            · rfl
          rw [State.tetherSecond_same _ .clock rfl, hnoted]
          exact s.setEpoch_clock_le _ _
      · exact le_rfl

/-! ### Every command -/

theorem touches_keeps_pending (i : Instr) : (touches i).contains .pending = false := by
  cases i <;> rfl

/-- Beyond its own time a command lets time pass up to an epoch or up to the wrap, and never takes any back. -/
theorem exec_clock_le {i : Instr} {s t : State} (hexec : exec i s = .next t) : s.clock + i.dt ≤ t.clock := by
  have hpassed : s.clock + i.dt = (advance i.dt s).clock := (advance_clock i.dt s).symm
  have hframe : Same (touches i) (advance i.dt s) t := commandFrames i s t hexec
  have hrun {u : State} (hu : exec i s = .next u) : t = u := Host.Outcome.next.inj (hexec.symm.trans hu)
  rw [hpassed]
  cases i with
  | timeCounterWrap =>
    rw [hrun rfl, advance_clock]
    split
    · exact (Nat.le_add_right _ _).trans_eq (advance_clock _ _).symm
    · exact le_rfl
  | epochSet => exact hrun rfl ▸ State.epochFree_clock_le _
  | epochPpsTimeout => exact hrun rfl ▸ State.epochTimeout_clock_le _
  | ppsEdge => exact hrun rfl ▸ State.ppsEdge_clock_le _
  | _ => exact (hframe .clock rfl).ge

/-! ### An idle step (log 2) -/

/-- A back-die cycle on the time counter, with the carry of its era (R46, R68). -/
theorem Timebase.move_cycle (tb : Timebase) :
    tb.move Config.cycle = { tb with
      time := tb.time + 12800
      era := if 2 ^ 64 ≤ tb.time.toNat + 12800 then tb.era + 1 else tb.era
      wrapped := tb.wrapped || decide (2 ^ 64 ≤ tb.time.toNat + 12800) } := by
  have htime : BitVec.ofNat 64 (tb.time.toNat + 12800) = tb.time + 12800 := by
    rw [BitVec.ofNat_add, BitVec.ofNat_toNat, BitVec.setWidth_eq]
    rfl
  have hera : tb.era + BitVec.ofNat 16 ((tb.time.toNat + 12800) / 2 ^ 64) =
      if 2 ^ 64 ≤ tb.time.toNat + 12800 then tb.era + 1 else tb.era := by
    have := tb.time.isLt
    split
    · rw [show (tb.time.toNat + 12800) / 2 ^ 64 = 1 by omega]
      rfl
    · rw [show (tb.time.toNat + 12800) / 2 ^ 64 = 0 by omega]
      exact BitVec.add_zero _
  rw [Timebase.move, Config.cycle, htime, hera]

/-- A back-die cycle on, the next one has begun. -/
theorem State.cycle_lt_next (s : State) : s.cycle < s.cycleAt (s.clock + Config.cycle) := by
  simp only [State.cycle, State.cycleAt, Config.cycle]
  omega

theorem step_of_idle {s : State} (h : s.pending = []) : step s = .next (advance Config.cycle s) := by
  rw [step, h]

end Sys2Proof.Machine

open Sys2Proof Sys2Proof.Machine

/-- Settles O4: each command keeps the form, by the law of what it runs or by its frame. -/
theorem stepKeepsFlashForm : Obligations.StepKeepsFlashForm := fun _ _ hwf hstep => (step_keeps hstep).2 hwf

/-- Settles O1. -/
theorem stepRunsFront : Obligations.StepRunsFront := fun _ _ _ => rfl

/-- Settles O6: every command has a frame without the queue, and none takes time back. -/
theorem everyCommandAnswers : Obligations.EveryCommandAnswers := by
  intro i s
  obtain ⟨t, hexec, hsame, -⟩ := does_touches i s
  have hpending : t.pending = s.pending :=
    (hsame .pending (touches_keeps_pending i)).trans (advance_same i.dt s .pending rfl)
  exact ⟨t, hexec, hpending, exec_clock_le hexec⟩

/-- Settles O2: a back-die cycle passes, and where nothing is on its way it passes alone. -/
theorem idleStepPassesTime : Obligations.IdleStepPassesTime := by
  refine ⟨fun s hidle => ⟨_, step_of_idle hidle, advance_same _ s, advance_clock _ s, ?_⟩, fun s hidle hlate hflights =>
    ⟨_, step_of_idle hidle, advance_same_of_quiet _ hlate hflights, ?_⟩⟩
  · rw [advance_tb, Timebase.move_cycle]
  · have hrest : s.atRest = true := by simp [State.atRest, hlate, hflights]
    rw [advance_quiet _ s hrest]
    exact if_pos s.cycle_lt_next
end

section
/-! What a frame of the service port can do (R621 to R623, R631, R633), and the two obligations on frames without an effect. -/

namespace Sys2Proof.Machine
open Sys2Proof

/-! ### A frame and its answer (R621, R622) -/

/-- The state with another answer of the service port, and what SVC_IO carried of it and of the frame. -/
def State.answered (s : State) (req : List Byte) (crc : Byte) (answer : List Byte) : State :=
  { s with svc := { s.svc with answer := answer, wire := svcLine req crc answer } }

/-- What a frame has done goes out on the line. -/
def State.onWire (s : State) (req : List Byte) (crc : Byte) : State := s.answered req crc s.svc.answer

section
variable {s : State} {bytes : List Byte} {crc : Byte} {busy allowed : Bool} {act : State → State}

theorem State.frame_inReset (h : s.outOfReset = false) : s.frame bytes crc busy allowed act = s :=
  if_pos (by rw [h]; rfl)

/-- With the fuse blown or disturbed nothing is driven (R633). -/
theorem State.frame_dead (hup : s.outOfReset = true) (hfuse : s.svc.fuse = .blown ∨ s.svc.fuse = .disturbed) :
    s.frame bytes crc busy allowed act = s.answered bytes crc [] := by
  unfold State.frame
  rw [if_neg (by simp [hup])]
  obtain h | h := hfuse <;> rw [h] <;> rfl

/-- While BLOW acts every frame finds the port busy (R631). -/
theorem State.frame_driving (hup : s.outOfReset = true) (hfuse : s.svc.fuse = .driving) :
    s.frame bytes crc busy allowed act = s.answered bytes crc [0x02, crc8 [0x02]] := by
  unfold State.frame
  rw [if_neg (by simp [hup]), hfuse]
  rfl

theorem State.frame_intact (hup : s.outOfReset = true) (hfuse : s.svc.fuse = .intact) :
    s.frame bytes crc busy allowed act =
      if crc8 bytes ≠ crc then s.answered bytes crc [0x04, crc8 [0x04]]
      else if busy = true then s.answered bytes crc [0x02, crc8 [0x02]]
      else if allowed = true then (act s).onWire bytes crc
      else s.answered bytes crc [0x03, crc8 [0x03]] := by
  unfold State.frame
  rw [if_neg (by simp [hup]), hfuse]
  dsimp only
  split
  · rfl
  · split
    · rfl
    · split <;> rfl

/-- A good frame whose conditions hold acts, and what its action answers goes out. -/
theorem State.frame_accepted (hup : s.outOfReset = true) (hfuse : s.svc.fuse = .intact) (hcrc : crc8 bytes = crc)
    (hbusy : busy = false) (hallowed : allowed = true) :
    s.frame bytes crc busy allowed act = (act s).onWire bytes crc := by
  rw [State.frame_intact hup hfuse, if_neg (not_not_intro hcrc), if_neg (by simp [hbusy]), if_pos hallowed]

/-- One whose conditions do not hold is refused. -/
theorem State.frame_refused (hup : s.outOfReset = true) (hfuse : s.svc.fuse = .intact) (hcrc : crc8 bytes = crc)
    (hbusy : busy = false) (hallowed : allowed = false) :
    s.frame bytes crc busy allowed act = s.answered bytes crc [0x03, crc8 [0x03]] := by
  rw [State.frame_intact hup hfuse, if_neg (not_not_intro hcrc), if_neg (by simp [hbusy]), if_neg (by simp [hallowed])]

/-- What a frame that does not act leaves: the state, but for an empty answer or one of a status alone. -/
def Unaccepted (s t : State) : Prop :=
  t = s ∨ (t = { s with svc := { s.svc with answer := [], wire := t.svc.wire } }) ∨
    ∃ st : Byte, (st = 0x02 ∨ st = 0x03 ∨ st = 0x04 ∨ st = 0x05) ∧
      t = { s with svc := { s.svc with answer := [st, crc8 [st]], wire := t.svc.wire } }

theorem State.answered_unaccepted {status : Byte}
    (h : status = 0x02 ∨ status = 0x03 ∨ status = 0x04 ∨ status = 0x05) :
    Unaccepted s (s.answered bytes crc [status, crc8 [status]]) := .inr (.inr ⟨status, h, rfl⟩)

/-- A frame acts, with its fuse intact, its CRC right and its conditions given, or changes nothing (R623). -/
theorem State.frame_cases :
    (s.svc.fuse = .intact ∧ allowed = true ∧ s.frame bytes crc busy allowed act = (act s).onWire bytes crc) ∨
      Unaccepted s (s.frame bytes crc busy allowed act) := by
  cases hup : s.outOfReset with
  | false => exact .inr (.inl (State.frame_inReset hup))
  | true =>
    cases hfuse : s.svc.fuse with
    | blown => exact .inr (State.frame_dead hup (.inl hfuse) ▸ .inr (.inl rfl))
    | disturbed => exact .inr (State.frame_dead hup (.inr hfuse) ▸ .inr (.inl rfl))
    | driving => exact .inr (State.frame_driving hup hfuse ▸ State.answered_unaccepted (.inl rfl))
    | intact =>
      rw [State.frame_intact hup hfuse]
      split
      · exact .inr (State.answered_unaccepted (.inr (.inr (.inl rfl))))
      · split
        · exact .inr (State.answered_unaccepted (.inl rfl))
        · split
          · exact .inl ⟨rfl, ‹_›, rfl⟩
          · exact .inr (State.answered_unaccepted (.inr (.inl rfl)))

/-- A frame whose action answers 0x01 is answered so, or changes nothing. -/
theorem State.frame_of_ok (hact : (act s).svc.answer.head? = some 0x01) :
    (s.frame bytes crc busy allowed act).svc.answer.head? = some 0x01 ∨ Unaccepted s (s.frame bytes crc busy allowed act) :=
  State.frame_cases.imp_left fun ⟨_, _, h⟩ => h ▸ hact

end

theorem State.verify_head (s : State) : s.verify.svc.answer.head? = some 0x01 := by
  unfold State.verify
  dsimp only
  split <;> rfl

/-! ### Every frame (R623, R633) -/

/-- Every command that carries a frame gives it to the port, or, with an opcode of the table as an unknown one, does nothing. -/
theorem exec_of_frame {i : Instr} {dt : Nat} (s : State) (h : i.isFrame dt = true) :
    (∃ op : Byte, i = .serviceUnknownOpcode dt op ∧ knownOpcode op = true ∧ exec i s = .next (advance dt s)) ∨
      ∃ (bytes : List Byte) (crc : Byte) (busy allowed : Bool) (act : State → State),
        exec i s = .next ((advance dt s).frame bytes crc busy allowed act) ∧
        ((act (advance dt s)).svc.answer.head? = some 0x01 ∨
          act (advance dt s) = (advance dt s).reply 0x05 []) := by
  have hdt {d : Nat} (h : (d == dt) = true) : d = dt := beq_iff_eq.mp h
  cases i with
  | ident d | openPort d | read d | halt d | resume d | reset d | erase d | program d | blow d =>
    obtain rfl := hdt h
    exact .inr ⟨_, _, _, _, _, rfl, .inl rfl⟩
  | verify d =>
    obtain rfl := hdt h
    exact .inr ⟨_, _, _, _, _, rfl, .inl (State.verify_head _)⟩
  | serviceUnknownOpcode d op =>
    obtain rfl := hdt h
    cases hop : knownOpcode op with
    | true => exact .inl ⟨op, rfl, hop, congrArg Host.Outcome.next (if_pos hop)⟩
    | false => exact .inr ⟨_, _, _, _, _, congrArg Host.Outcome.next (if_neg (Bool.eq_false_iff.mp hop)), .inr rfl⟩
  | _ => exact absurd h Bool.noConfusion

end Sys2Proof.Machine

open Sys2Proof Sys2Proof.Machine

/-- Settles O58: a frame acts and answers 0x01, or its whole effect is the answer. -/
theorem serviceErrorsChangeNothing : Obligations.ServiceErrorsChangeNothing := by
  rintro i dt s t u rfl hframe hexec
  have hrun {v : State} (hv : exec i s = .next v) : t = v := Host.Outcome.next.inj (hexec.symm.trans hv)
  obtain ⟨op, -, -, hnone⟩ | ⟨bytes, crc, busy, allowed, act, hacts, hok | hunknown⟩ := exec_of_frame s hframe
  · exact .inr (.inl (hrun hnone))
  · exact hrun hacts ▸ State.frame_of_ok hok
  · refine .inr (hrun hacts ▸ State.frame_cases.elim (fun ⟨_, _, h⟩ => ?_) id)
    rw [h, hunknown]
    exact State.answered_unaccepted (s := advance dt s) (.inr (.inr (.inr rfl)))
end

section
/-! The blown fuse (R631, R633): no frame does anything more, and nothing but a full reset of a part with another fuse writes it. -/

namespace Sys2Proof.Machine
open Sys2Proof

/-! ### A frame of a dead port (R633) -/

/-- A frame of a port whose fuse is blown is driven no answer, and leaves the rest as it is. -/
theorem State.frame_blown {s : State} (bytes : List Byte) (crc : Byte) (busy allowed : Bool) (act : State → State)
    (hfuse : s.svc.fuse = .blown) :
    ∃ t : State, s.frame bytes crc busy allowed act = t ∧
      t = { s with svc := { s.svc with answer := t.svc.answer, wire := t.svc.wire } } ∧
      (s.outOfReset = true → t.svc.answer = [] ∧ t.svc.wire = svcLine bytes crc []) := by
  cases hup : s.outOfReset with
  | false => exact ⟨s, State.frame_inReset hup, rfl, fun h => absurd h Bool.noConfusion⟩
  | true => exact ⟨s.answered bytes crc [], State.frame_dead hup (.inl hfuse), rfl, fun _ => ⟨rfl, rfl⟩⟩

theorem exec_serviceFrameAbort (dt : Nat) (s : State) : exec (.serviceFrameAbort dt) s = .next (advance dt s) := rfl

/-! ### What writes the fuse (R631, R632) -/

/-- A blown fuse of `s` is blown in `t`. -/
def KeepsBlown (s t : State) : Prop := s.svc.fuse = .blown → t.svc.fuse = .blown

theorem KeepsBlown.of_same {ps : List Part} {s t : State} (h : Same ps s t) (hps : ps.contains .fuse = false) :
    KeepsBlown s t := fun hblown => (h .fuse hps).trans hblown

theorem State.fullReset_keepsBlown (s : State) (c : ResetCause) : KeepsBlown s (s.fullReset c) := by
  intro hblown
  by_cases hboot : s.core.boot = .inReset
  · rw [State.fullReset_of_inReset c hboot]
    split <;> exact hblown
  · rw [State.fullReset_of_running c hboot]
    show (if s.svc.fuse = .driving then Fuse.disturbed else s.svc.fuse) = .blown
    rw [hblown]
    rfl

theorem State.resetBy_keepsBlown (s : State) (c : ResetCause) : KeepsBlown s (s.resetBy c) := by
  cases c with
  | pin low =>
    show KeepsBlown s (s.onPin .resetN false low fun t => t.fullReset (.pin low))
    obtain h | h | h | h := s.onPin_cases .resetN false low fun t => t.fullReset (.pin low)
    · rw [h]; exact id
    · rw [h]; exact s.fullReset_keepsBlown _
    · rw [h]; exact id
    · rw [h]; exact s.drawBit.2.fullReset_keepsBlown _
  | _ => exact s.fullReset_keepsBlown _

theorem State.resetRelease_keepsBlown (s : State) (sense : FuseSense) : KeepsBlown s (s.resetRelease sense) := by
  intro hblown
  have hsensed : senseFuse s.svc.fuse sense = .blown := if_pos hblown
  unfold State.resetRelease
  dsimp only
  split
  · split
    · exact hsensed
    · exact (State.raise_same _ _ _ _ _ .fuse rfl).trans hsensed
  · exact hblown

theorem State.beginRestart_keepsBlown (s : State) (pc : Option (BitVec 32)) : KeepsBlown s (s.beginRestart pc) := by
  unfold State.beginRestart
  dsimp only
  split
  · exact s.fullReset_keepsBlown _
  · exact fun hblown => (State.withdrawLeave_same _ .fuse rfl).trans ((State.dropHold_same _ .fuse rfl).trans hblown)

theorem State.fetchError_keepsBlown (s : State) (sector offset : Nat) : KeepsBlown s (s.fetchError sector offset) := by
  unfold State.fetchError
  split
  · have hmarked : (s.markBad [8 * ((4096 * sector + offset) / 8)]).svc.fuse = s.svc.fuse := State.markBad_same s _ .fuse rfl
    exact fun hblown => State.beginRestart_keepsBlown _ _ (hmarked.trans hblown)
  · exact id

theorem State.frame_keepsBlown (s : State) (bytes : List Byte) (crc : Byte) (busy allowed : Bool) (act : State → State) :
    KeepsBlown s (s.frame bytes crc busy allowed act) := by
  intro hblown
  obtain ⟨t, heq, ht, -⟩ := State.frame_blown bytes crc busy allowed act hblown
  rw [heq, ht]
  exact hblown

theorem exec_keepsBlown {i : Instr} {s t : State} (hexec : exec i s = .next t) : KeepsBlown s t := by
  have hpass : KeepsBlown s (advance i.dt s) := .of_same (advance_same i.dt s) rfl
  have hrun {u : State} (hu : exec i s = .next u) (h : KeepsBlown (advance i.dt s) u) : KeepsBlown s t := by
    obtain rfl := Host.Outcome.next.inj (hexec.symm.trans hu)
    exact h ∘ hpass
  by_cases hfuse : (touches i).contains .fuse = false
  · exact hrun hexec (.of_same (commandFrames i s t hexec) hfuse)
  · cases i with
    | resetAssert => exact hrun rfl (State.resetBy_keepsBlown _ _)
    | watchdogExpiry dt pc =>
      refine hrun rfl ?_
      unfold State.when
      split
      · exact State.beginRestart_keepsBlown _ _
      · exact id
    | firmwareFetchError => exact hrun rfl (State.fetchError_keepsBlown _ _ _)
    | reset => exact hrun rfl (State.frame_keepsBlown _ _ _ _ _ _)
    | blow => exact hrun rfl (State.frame_keepsBlown _ _ _ _ _ _)
    | resetRelease => exact hrun rfl (State.resetRelease_keepsBlown _ _)
    | fuseBlowDone dt =>
      refine hrun rfl ?_
      unfold State.when
      split
      · exact fun _ => rfl
      · exact id
    | _ => exact absurd rfl hfuse

end Sys2Proof.Machine

open Sys2Proof Sys2Proof.Machine

/-- Settles O59: a frame of a dead port leaves its answer alone, which is none, and no command writes another fuse over a blown one. -/
theorem blownPortIsDead : Obligations.BlownPortIsDead := by
  refine ⟨?_, fun i s t hexec => exec_keepsBlown hexec⟩
  rintro i dt s u rfl (hframe | rfl) hblown
  · obtain ⟨op, rfl, hknown, hnone⟩ | ⟨bytes, crc, busy, allowed, act, hacts, -⟩ := exec_of_frame s hframe
    · exact ⟨_, hnone, rfl, fun _ _ h => absurd (hknown.symm.trans (h op rfl)) Bool.noConfusion⟩
    · obtain ⟨t, heq, ht, hdead⟩ := State.frame_blown bytes crc busy allowed act hblown
      refine ⟨t, heq ▸ hacts, ht, fun hup _ _ => ?_⟩
      obtain ⟨hanswer, hwire⟩ := hdead hup
      exact ⟨hanswer, bytes, crc, hwire⟩
  · exact ⟨_, exec_serviceFrameAbort dt s, rfl, fun _ h => absurd h Bool.noConfusion⟩
end

section
/-! A halt in which flash was changed (R628): what runs in a halt leaves the core halted and the change noted. -/

namespace Sys2Proof.Machine
open Sys2Proof

/-! ### What keeps the halt -/

/-- Where `s` stands in a halt in which flash was changed, `t` does. -/
def KeepsHalt (s t : State) : Prop :=
  s.core.halted = true ∧ s.svc.changed = true → t.core.halted = true ∧ t.svc.changed = true

theorem KeepsHalt.refl (s : State) : KeepsHalt s s := id

theorem KeepsHalt.trans {s t u : State} (h : KeepsHalt s t) (h' : KeepsHalt t u) : KeepsHalt s u := h' ∘ h

theorem KeepsHalt.of_same {ps : List Part} {s t : State} (h : Same ps s t)
    (hps : ps.contains .core = false ∧ ps.contains .svc = false) : KeepsHalt s t := by
  rintro ⟨hhalted, hchanged⟩
  exact ⟨(congrArg Core.halted (h .core hps.1)).trans hhalted, (congrArg Service.changed (h .svc hps.2)).trans hchanged⟩

/-- An operation more that leaves the core and the service port out of its frame. -/
theorem KeepsHalt.step {ps : List Part} {s t u : State} (h' : Same ps t u)
    (hps : ps.contains .core = false ∧ ps.contains .svc = false) (h : KeepsHalt s t) : KeepsHalt s u :=
  h.trans (.of_same h' hps)

theorem KeepsHalt.ite {c : Prop} {_ : Decidable c} {s t u : State} (ht : KeepsHalt s t) (hu : KeepsHalt s u) :
    KeepsHalt s (if c then t else u) := by
  split
  · exact ht
  · exact hu

/-- Another state with the same marks. -/
theorem KeepsHalt.congr {s t u : State} (h : KeepsHalt s t) (hhalted : u.core.halted = t.core.halted)
    (hchanged : u.svc.changed = t.svc.changed) : KeepsHalt s u := by
  intro hs
  rw [hhalted, hchanged]
  exact h hs

theorem KeepsHalt.modChan {s t : State} (h : KeepsHalt s t) (n : Chan) (f : Channel → Channel) : KeepsHalt s (t.modChan n f) := h

/-- What only running firmware does is not done in a halt. -/
theorem KeepsHalt.of_fwRuns {s t : State} (h : s.fwRuns = false → t = s) : KeepsHalt s t := by
  rintro ⟨hhalted, hchanged⟩
  have hstill : s.fwRuns = false := by simp [State.fwRuns, hhalted]
  rw [h hstill]
  exact ⟨hhalted, hchanged⟩

/-! ### Start-up and the epoch (R49 to R51, R583, R586) -/

theorem State.settleBoot_keepsHalt (s : State) : KeepsHalt s s.settleBoot := .ite id (.refl s)

theorem State.stepSix_keepsHalt (s : State) : KeepsHalt s s.stepSix :=
  .ite (fun h => State.settleBoot_keepsHalt _ h) (.refl s)

theorem State.ready_keepsHalt (s : State) : KeepsHalt s s.ready :=
  .step (State.endCalStep_same { s with core := { s.core with boot := .ready } }) ⟨rfl, rfl⟩ (.congr (.refl s) rfl rfl)

theorem State.startupAbandoned_keepsHalt (s : State) (inst : Nat) : KeepsHalt s (s.startupAbandoned inst) := by
  refine .ite (.step (State.raise_same _ _ _ _ _) ⟨rfl, rfl⟩ ?_) ?_
  · exact .congr (.of_same (State.endCalStep_same s) ⟨rfl, rfl⟩) rfl rfl
  · have hyarns : KeepsHalt s (s.rebuild.startYarns inst) :=
      .step (State.startYarns_same _ _) ⟨rfl, rfl⟩ (.of_same (State.rebuild_same s) ⟨rfl, rfl⟩)
    exact .congr (hyarns.trans (State.ready_keepsHalt _)) rfl rfl

theorem State.resetRelease_keepsHalt (s : State) (sense : FuseSense) : KeepsHalt s (s.resetRelease sense) :=
  .ite (.ite id (.step (State.raise_same _ _ _ _ _) ⟨rfl, rfl⟩ id)) (.refl s)

theorem State.strapLatch_keepsHalt (s : State) (r : StrapRead) : KeepsHalt s (s.strapLatch r) := by
  unfold State.strapLatch
  with_reducible refine .ite ?_ (.refl s)
  with_reducible refine .congr (t := State.strapFaults _) (.step (State.strapFaults_same _) ⟨rfl, rfl⟩ ?_) rfl rfl
  exact .step (Same.eachChan (fun n t => State.startChannel_same t n) (Same.refl _ _)) ⟨rfl, rfl⟩ (.congr (.refl s) rfl rfl)

theorem State.pllLock_keepsHalt (s : State) : KeepsHalt s s.pllLock :=
  .ite (.step (State.clearFault_same _ _ _) ⟨rfl, rfl⟩ (.step (State.clearFault_same _ _ _) ⟨rfl, rfl⟩ id)) (.refl s)

theorem State.setEpoch_keepsHalt (s : State) (source : BitVec 2) (epoch : Nat) : KeepsHalt s (s.setEpoch source epoch) := by
  have hbegun : KeepsHalt s (s.epochBegun source epoch) :=
    .congr (.of_same (advance_same (epoch - s.clock) s) ⟨rfl, rfl⟩) rfl rfl
  rw [State.setEpoch_eq]
  exact (KeepsHalt.step (s.epochEchoed_same source epoch) ⟨rfl, rfl⟩ hbegun).trans (State.stepSix_keepsHalt _)

theorem State.epochFree_keepsHalt (s : State) : KeepsHalt s s.epochFree := .ite (s.setEpoch_keepsHalt _ _) (.refl s)

theorem State.epochTimeout_keepsHalt (s : State) : KeepsHalt s s.epochTimeout :=
  .ite (.trans (.of_same (State.log_same _ _ _ _ _) ⟨rfl, rfl⟩) (State.setEpoch_keepsHalt _ _ _)) (.refl s)

theorem State.ppsEdge_keepsHalt (s : State) : KeepsHalt s s.ppsEdge := by
  have hlater (t : State) : KeepsHalt t t.ppsLater := .of_same (State.ppsLater_same t) ⟨rfl, rfl⟩
  have hset : KeepsHalt s (s.setEpoch 1 s.ppsEpoch) := s.setEpoch_keepsHalt _ _
  refine .ite (.refl s) (.ite (hlater s) (.ite (.ite (s.epochTimeout_keepsHalt.trans (hlater _)) ?_) (.refl s)))
  exact .step (State.tetherSecond_same _) ⟨rfl, rfl⟩ (.ite (.step (State.ppsNote_same _ _) ⟨rfl, rfl⟩ hset) hset)

/-! ### Runs and joins (R170, R505 to R508, R594) -/

theorem State.abandonRun_keepsHalt (s : State) : KeepsHalt s s.abandonRun := by
  unfold State.abandonRun
  split
  · dsimp only
    have hdrawn : KeepsHalt s s.drawNat.2.drawNat.2 := id
    split
    · refine .step (State.log_same _ _ _ _ _) ⟨rfl, rfl⟩ (.step (State.lateGap_same _ _ _) ⟨rfl, rfl⟩ ?_)
      exact .step (State.goAbsentUp_same _ _) ⟨rfl, rfl⟩ (.step (State.releaseFor_same _ _) ⟨rfl, rfl⟩ id)
    · refine .ite (.trans ?_ (State.startupAbandoned_keepsHalt _ _)) (.ite (.step (State.requestRun_same _ _) ⟨rfl, rfl⟩ ?_) ?_)
      all_goals
        refine .step (State.log_same _ _ _ _ _) ⟨rfl, rfl⟩ (.step (State.releaseFor_same _ _) ⟨rfl, rfl⟩ ?_)
        refine .step (Same.eachChan (fun n t => State.lateGap_same t n _) (Same.refl _ _)) ⟨rfl, rfl⟩ ?_
        exact .step (Same.eachChan (fun n t => State.resumeChan_same t n _) (Same.refl _ _)) ⟨rfl, rfl⟩ id
  · exact .refl s

theorem State.pllUnlock_keepsHalt (s : State) : KeepsHalt s s.pllUnlock := by
  unfold State.pllUnlock
  refine .ite (.refl s) (.ite ?_ (.ite id (.refl s)))
  refine .step (State.releaseFor_same _ _) ⟨rfl, rfl⟩ (.step (State.dropRequest_same _ _) ⟨rfl, rfl⟩ ?_)
  refine .trans ?_ (State.abandonRun_keepsHalt _)
  exact .step (State.raise_same _ _ _ _ _) ⟨rfl, rfl⟩ id

theorem State.withdrawJoin_keepsHalt (s : State) (n : Chan) : KeepsHalt s (s.withdrawJoin n) := by
  refine .trans ?_ (State.settleBoot_keepsHalt _)
  refine .step (State.settleJoin_same _) ⟨rfl, rfl⟩ (.step (State.log_same _ _ _ _ _) ⟨rfl, rfl⟩ ?_)
  exact .step (State.dropRequest_same _ _) ⟨rfl, rfl⟩ (.step (State.dropRequest_same _ _) ⟨rfl, rfl⟩ id)

theorem State.presence_keepsHalt (s : State) (n : Chan) (stable : Bool) : KeepsHalt s (s.presence n stable) := by
  unfold State.presence
  dsimp only
  split
  · exact .ite id (.ite id id)
  · exact .ite id (.ite id id)
  · exact .ite (.refl s) (s.withdrawJoin_keepsHalt n)
  · exact .ite (.refl s) id
  all_goals exact .refl s

theorem State.countEdge_keepsHalt (s : State) (n : Chan) (bin : Byte) (narrow : Bool) (pos neg : Int) :
    KeepsHalt s (s.countEdge n bin narrow pos neg) := by
  unfold State.countEdge
  dsimp only
  split
  · exact .ite (.step (State.edgeStamp_same _ _ _ _) ⟨rfl, rfl⟩ fun h => State.presence_keepsHalt _ _ _ h)
      fun h => State.presence_keepsHalt _ _ _ h
  · exact fun h => State.presence_keepsHalt _ _ _ h

theorem State.activeEdge_keepsHalt (s : State) (n : Chan) (bin : Byte) (pulse : Nat) (pos neg : Int) :
    KeepsHalt s (s.activeEdge n bin pulse pos neg) := by
  have hlog (t : State) (b : Bool) : KeepsHalt t
      (if b && (t.chan.get n).st == .present then t.logLimited 0x13 n.val 1 (BitVec.ofNat 8 n.val) 0 else t) :=
    .ite (.of_same (State.logLimited_same _ _ _ _ _ _) ⟨rfl, rfl⟩) (.refl t)
  have hcount (t : State) (b narrow : Bool) (h : KeepsHalt s t) :
      KeepsHalt s (if b then t.countEdge n bin narrow pos neg else t) :=
    .ite (h.trans (t.countEdge_keepsHalt n bin narrow pos neg)) h
  unfold State.activeEdge
  refine .ite (.refl s) (hcount _ _ _ (.trans ?_ (hlog _ _)))
  split
  all_goals split
  all_goals exact id

theorem State.domainReady_keepsHalt (s : State) (n : Chan) : KeepsHalt s (s.domainReady n) := by
  refine .ite (.refl s) (.ite (.trans ?_ (State.settleBoot_keepsHalt _)) (.ite (.of_same (State.later_same _ _) ⟨rfl, rfl⟩)
    (.ite id ?_)))
  all_goals exact .step (State.releaseFor_same _ _) ⟨rfl, rfl⟩ id

theorem State.dropJoin_keepsHalt (s : State) (n : Chan) : KeepsHalt s (s.dropJoin n) := by
  unfold State.dropJoin
  refine .trans (.step (State.settleJoin_same _) ⟨rfl, rfl⟩ ?_) (State.settleBoot_keepsHalt _)
  refine .step (State.log_same _ _ _ _ _) ⟨rfl, rfl⟩ (.step (State.goAbsentUp_same _ _) ⟨rfl, rfl⟩ ?_)
  refine .step (State.gapMarkers_same _ _ _ _) ⟨rfl, rfl⟩ (.step (State.releaseFor_same _ _) ⟨rfl, rfl⟩ ?_)
  exact .step (State.releaseFor_same _ _) ⟨rfl, rfl⟩ (.ite id (.refl s))

theorem State.takeDown_keepsHalt (s : State) (dom : Nat) : KeepsHalt s (s.takeDown dom) := by
  unfold State.takeDown
  with_reducible refine .ite ?chan (.ite (.of_same (State.streamDown_same _ _) ⟨rfl, rfl⟩) (.ite ?outs ?snap))
  case chan =>
    with_reducible refine .modChan (.ite ?_ (.ite (State.dropJoin_keepsHalt s _) (.refl s))) _ _
    exact .of_same (State.loseChannel_same _ _) ⟨rfl, rfl⟩
  case outs => exact .congr (.of_same (State.dropOutputs_same s) ⟨rfl, rfl⟩) rfl rfl
  case snap => exact .congr (.refl s) rfl rfl

theorem State.domainFault_keepsHalt (s : State) (dom : Nat) : KeepsHalt s (s.domainFault dom) := by
  unfold State.domainFault
  with_reducible refine .ite (.trans (.step (State.raiseAgain_same _ _ _ _ _) ⟨rfl, rfl⟩ ?_) (State.takeDown_keepsHalt _ _)) (.refl s)
  exact .congr (.refl s) rfl rfl

/-! ### The end of a flash operation (R30, R523, R593) -/

theorem State.landHalt_keepsHalt (s : State) : KeepsHalt s s.landHalt :=
  .ite (.step (State.dropHold_same { s with core := { s.core with halted := true, haltOwed := false } }) ⟨rfl, rfl⟩
    fun h => ⟨rfl, h.2⟩) (.refl s)

theorem State.endStall_keepsHalt (s : State) (o : FlashOp) : KeepsHalt s (s.endStall o) := by
  have hcost : KeepsHalt s (s.stallCost o) := .ite (.refl s) id
  refine .step (State.resumeLeave_same _) ⟨rfl, rfl⟩ (.step (State.landOwed_same _) ⟨rfl, rfl⟩ ?_)
  exact .step (State.withdrawLeave_same _) ⟨rfl, rfl⟩ (hcost.trans (State.landHalt_keepsHalt _))

theorem State.flashEnd_keepsHalt (s : State) (verified : Bool) (took : Nat) : KeepsHalt s (s.flashEnd verified took) := by
  unfold State.flashEnd
  split
  · next o _ =>
    have hretry (again : FlashOp) (p n : Nat) :
        KeepsHalt s (State.retryFault { s with flash := { s.flash with op := some again } } p n) :=
      .step (State.retryFault_same _ _ _) ⟨rfl, rfl⟩ id
    have hworn : KeepsHalt s (((s.landOp o verified).noteErase o verified took).wear o.kind.sector o.retries) :=
      .step (State.wear_same _ _ _) ⟨rfl, rfl⟩ (.step (State.noteErase_same _ _ _ _) ⟨rfl, rfl⟩
        (.of_same (State.landOp_same _ _ _) ⟨rfl, rfl⟩))
    refine .ite (.refl s) (.ite (.ite (hretry _ _ _) ?_) (.trans ?_ (State.endStall_keepsHalt _ o)))
    · exact .step (State.raise_same _ _ _ _ _) ⟨rfl, rfl⟩ (hretry _ _ _)
    · exact .step (State.checkSpares_same _) ⟨rfl, rfl⟩ (.step (State.releaseOp_same _) ⟨rfl, rfl⟩ fun h => hworn h)
  · exact .refl s

/-- LEAVE is released, and the stall ends. -/
theorem State.releaseOp_endStall_keepsHalt (s : State) (o : FlashOp) : KeepsHalt s (s.releaseOp.endStall o) :=
  .trans (.of_same (State.releaseOp_same s) ⟨rfl, rfl⟩) (State.endStall_keepsHalt _ o)

theorem State.eraseSuspend_keepsHalt (s : State) : KeepsHalt s s.eraseSuspend := by
  unfold State.eraseSuspend
  split
  · split
    · exact .ite (fun h => State.releaseOp_endStall_keepsHalt _ _ h) (.refl s)
    · exact .refl s
  · exact .refl s

theorem State.programStop_keepsHalt (s : State) : KeepsHalt s s.programStop := by
  unfold State.programStop
  split
  · split
    · exact .ite (fun h => State.releaseOp_endStall_keepsHalt _ _ h) (.refl s)
    · exact .refl s
  · exact .refl s

theorem State.braceEntry_keepsHalt (s : State) : KeepsHalt s s.braceEntry := by
  refine .ite ?_ (.refl s)
  refine .step (State.settleWait_same _) ⟨rfl, rfl⟩ (.step (State.modLeave_same _ _) ⟨rfl, rfl⟩ ?_)
  refine .trans ?_ (State.programStop_keepsHalt _)
  refine .step (State.braceScrub_same _) ⟨rfl, rfl⟩ (.step (State.giveBack_same _) ⟨rfl, rfl⟩ ?_)
  exact .step (State.occurs_same _ _) ⟨rfl, rfl⟩ (.step (State.braceMarker_same _ _ _) ⟨rfl, rfl⟩ id)

/-! ### The service port (R626, R628) -/

theorem Unaccepted.keepsHalt {s t : State} (h : Unaccepted s t) : KeepsHalt s t := by
  obtain rfl | h | ⟨st, -, h⟩ := h
  · exact .refl t
  · rw [h]; exact id
  · rw [h]; exact id

/-- A frame keeps the halt where its action does, once accepted. -/
theorem State.frame_keepsHalt {s : State} {bytes : List Byte} {crc : Byte} {busy allowed : Bool} {act : State → State}
    (hact : allowed = true → KeepsHalt s (act s)) : KeepsHalt s (s.frame bytes crc busy allowed act) := by
  obtain ⟨-, hallowed, h⟩ | h := State.frame_cases (s := s) (bytes := bytes) (crc := crc) (busy := busy) (allowed := allowed)
    (act := act)
  · rw [h]
    exact fun hs => hact hallowed hs
  · exact h.keepsHalt

theorem State.verify_keepsHalt (s : State) : KeepsHalt s s.verify := .ite id id

theorem State.svcStart_keepsHalt (s : State) (k : FlashKind) : KeepsHalt s (s.svcStart k) := by
  rintro ⟨hhalted, -⟩
  have hasked := KeepsHalt.of_same (State.requestLeave_same
    (s.modSvc fun v => { v with waiting := some k, verified := false, changed := true }) .service) ⟨rfl, rfl⟩
  exact hasked ⟨hhalted, rfl⟩

/-- A halt asked for again is the same halt. -/
theorem State.halt_keepsHalt (s : State) : KeepsHalt s s.halt := by
  intro h
  unfold State.halt
  dsimp only
  rw [if_pos h.1]
  have hagain (o : Bool) (b : Bool) : KeepsHalt s
      { s with core := { s.core with halted := s.core.halted || o, haltOwed := b } } :=
    fun h => ⟨by rw [h.1]; rfl, h.2⟩
  have hheld (o b fw : Bool) (t : State)
      (ht : t = { s with core := { s.core with halted := s.core.halted || o, haltOwed := b } }) :
      KeepsHalt s (if fw then t else t.dropHold).withdrawLeave :=
    .step (State.withdrawLeave_same _) ⟨rfl, rfl⟩
      (.ite (ht ▸ hagain o b) (.step (State.dropHold_same t) ⟨rfl, rfl⟩ (ht ▸ hagain o b)))
  exact hheld _ _ _ _ rfl h

theorem State.startWon_keepsHalt (s : State) (op : HeavyOp) : KeepsHalt s (s.startWon op) := by
  unfold State.startWon
  dsimp only
  split
  · exact .ite (.step (State.withdrawLeave_same _) ⟨rfl, rfl⟩ id) (.refl s)
  · split
    · exact id
    · exact .refl s

theorem State.winLeave_keepsHalt (s : State) : KeepsHalt s s.winLeave := by
  unfold State.winLeave
  split
  · refine .ite (.trans ?_ (State.startWon_keepsHalt _ _)) (.refl s)
    exact .step (State.enterJoin_same _ _) ⟨rfl, rfl⟩ (.step (State.clearFault_same _ _ _) ⟨rfl, rfl⟩ id)
  · exact .refl s

/-! ### What a halt stops (R593) -/

theorem State.journalRecovery_of_stopped {s : State} (h : s.fwRuns = false) : s.journalRecovery = s := by
  simp only [State.journalRecovery, h, Bool.false_and, Bool.false_eq_true, if_false]

theorem State.rowReconcile_of_stopped {s : State} (h : s.fwRuns = false) : s.rowReconcile = s := if_neg (by simp [h])

theorem State.sessionCommit_of_stopped {s : State} (h : s.fwRuns = false) : s.sessionCommit = s :=
  if_neg (by simp [State.mayWork, h])

theorem State.startupRunAbandon_of_stopped {s : State} (h : s.fwRuns = false) : s.startupRunAbandon = s :=
  if_neg (by simp [h])

theorem State.fetchError_of_stopped {s : State} (sector offset : Nat) (h : s.fwRuns = false) : s.fetchError sector offset = s :=
  if_neg (by simp [h])

theorem exec_watchdogExpiry (dt : Nat) (pc : BitVec 32) (s : State) :
    exec (.watchdogExpiry dt pc) s = .next
      (if ((advance dt s).fwRuns && decide ((advance dt s).core.dogAt ≤ (advance dt s).clock)) = true then
        (advance dt s).beginRestart (some pc) else advance dt s) := rfl

theorem State.fullRunEnd_of_stopped {s : State} (m : FullMeas) (h : s.fwRuns = false) : s.fullRunEnd m = s := by
  unfold State.fullRunEnd
  split
  · exact if_pos (by simp [h])
  · rfl

theorem State.closeFault_of_stopped {s : State} (h : s.fwRuns = false) : s.closeFault = s := by
  unfold State.closeFault
  split
  · exact if_neg (by simp [h])
  · rfl

theorem State.coreRestart_of_halted {s : State} (h : s.core.halted = true) : s.coreRestart = s := if_neg (by simp [h])

/-! ### Every command -/

theorem exec_keepsHalt {i : Instr} {s t : State} (hexec : exec i s = .next t) (hassert : ∀ dt c, i ≠ .resetAssert dt c)
    (hreset : ∀ dt c, i ≠ .reset dt c) : KeepsHalt s t := by
  have hpass : KeepsHalt s (advance i.dt s) := .of_same (advance_same i.dt s) ⟨rfl, rfl⟩
  have hrun {u : State} (hu : exec i s = .next u) (h : KeepsHalt (advance i.dt s) u) : KeepsHalt s t := by
    obtain rfl := Host.Outcome.next.inj (hexec.symm.trans hu)
    exact hpass.trans h
  by_cases hparts : (touches i).contains .core = false ∧ (touches i).contains .svc = false
  · exact hrun hexec (.of_same (commandFrames i s t hexec) hparts)
  · cases i with
    | resetAssert dt c => exact absurd rfl (hassert dt c)
    | reset dt c => exact absurd rfl (hreset dt c)
    | activeEdge => exact hrun rfl (State.activeEdge_keepsHalt _ _ _ _ _ _)
    | controlSkeinClose =>
      exact hrun rfl (.trans (.of_same (State.closeNextCtl_same _) ⟨rfl, rfl⟩) (State.stepSix_keepsHalt _))
    | resetRelease => exact hrun rfl (State.resetRelease_keepsHalt _ _)
    | strapLatch => exact hrun rfl (State.strapLatch_keepsHalt _ _)
    | pllLock => exact hrun rfl (State.pllLock_keepsHalt _)
    | epochSet => exact hrun rfl (State.epochFree_keepsHalt _)
    | epochPpsTimeout => exact hrun rfl (State.epochTimeout_keepsHalt _)
    | ppsEdge => exact hrun rfl (State.ppsEdge_keepsHalt _)
    | pllUnlock => exact hrun rfl (State.pllUnlock_keepsHalt _)
    | domainPowerFault => exact hrun rfl (State.domainFault_keepsHalt _ _)
    | channelDomainReady => exact hrun rfl (State.domainReady_keepsHalt _ _)
    | flashOperationEnd => exact hrun rfl (State.flashEnd_keepsHalt _ _ _)
    | flashEraseSuspend => exact hrun rfl (State.eraseSuspend_keepsHalt _)
    | braceEntry => exact hrun rfl (State.braceEntry_keepsHalt _)
    | leaveWindowExpiry => exact hrun rfl (State.winLeave_keepsHalt _)
    | journalRecovery => exact hrun rfl (.of_fwRuns State.journalRecovery_of_stopped)
    | rowCounterReconcile => exact hrun rfl (.of_fwRuns State.rowReconcile_of_stopped)
    | sessionCommit => exact hrun rfl (.of_fwRuns State.sessionCommit_of_stopped)
    | startupRunAbandon => exact hrun rfl (.of_fwRuns State.startupRunAbandon_of_stopped)
    | watchdogExpiry dt pc =>
      refine hrun (exec_watchdogExpiry dt pc s) (.of_fwRuns fun h => if_neg ?_)
      rw [show (advance dt s).fwRuns = false from h]
      exact Bool.noConfusion
    | firmwareFetchError => exact hrun rfl (.of_fwRuns (State.fetchError_of_stopped _ _))
    | fullRunEnd => exact hrun rfl (.of_fwRuns (State.fullRunEnd_of_stopped _))
    | faultSkeinClose => exact hrun rfl (.of_fwRuns State.closeFault_of_stopped)
    | coreRestart => exact hrun rfl fun h => (State.coreRestart_of_halted h.1).symm ▸ h
    | ident => exact hrun rfl (State.frame_keepsHalt fun _ => id)
    | openPort => exact hrun rfl (State.frame_keepsHalt fun _ => id)
    | read => exact hrun rfl (State.frame_keepsHalt fun _ => id)
    | verify => exact hrun rfl (State.frame_keepsHalt fun _ => State.verify_keepsHalt _)
    | halt => exact hrun rfl (State.frame_keepsHalt fun _ => State.halt_keepsHalt _)
    | resume dt =>
      refine hrun rfl (State.frame_keepsHalt fun hallowed h => absurd hallowed ?_)
      rw [show (advance dt s).svc.changed = true from h.2]
      simp
    | erase => exact hrun rfl (State.frame_keepsHalt fun _ => State.svcStart_keepsHalt _ _)
    | program => exact hrun rfl (State.frame_keepsHalt fun _ => State.svcStart_keepsHalt _ _)
    | blow => exact hrun rfl (State.frame_keepsHalt fun _ => id)
    | fuseBlowDone => exact hrun rfl (.ite id (.refl _))
    | serviceUnknownOpcode => exact hrun rfl (.ite (.refl _) (State.frame_keepsHalt fun _ => id))
    | _ => exact absurd ⟨rfl, rfl⟩ hparts

end Sys2Proof.Machine

open Sys2Proof Sys2Proof.Machine

/-- Settles O11: in a halt the firmware does nothing, RESUME is refused once flash was changed, and nothing else ends a halt. -/
theorem changedHaltHolds : Obligations.ChangedHaltHolds := fun _ _ _ hexec hhalted hchanged hassert hreset =>
  exec_keepsHalt hexec hassert hreset ⟨hhalted, hchanged⟩
end

section
/-! What the service commands answer and do (R593, R621 to R631). -/

namespace Sys2Proof.Machine
open Sys2Proof

/-! ### What each command runs -/

theorem exec_ident (dt : Nat) (crc : Byte) (s : State) :
    exec (.ident dt crc) s = .next ((advance dt s).frame [0x01] crc false true State.ident) := rfl

theorem exec_openPort (dt : Nat) (arg : BitVec 32) (crc : Byte) (s : State) :
    exec (.openPort dt arg crc) s = .next ((advance dt s).frame (0x02 :: le 4 arg.toNat) crc false
      (arg == Config.serial.setWidth 32) fun t => (t.modSvc fun v => { v with opened := true }).reply 0x01 []) := rfl

theorem exec_read (dt : Nat) (addr : BitVec 32) (len crc : Byte) (s : State) :
    exec (.read dt addr len crc) s = .next ((advance dt s).frame (0x03 :: le 4 addr.toNat ++ [len]) crc (advance dt s).svcBusy
      ((advance dt s).svc.opened && decide (1 ≤ len.toNat) && decide (len.toNat ≤ 128) &&
        decide (addr.toNat + len.toNat ≤ 4194304)) fun t => t.svcRead addr.toNat len.toNat) := rfl

theorem exec_verify (dt : Nat) (crc : Byte) (s : State) :
    exec (.verify dt crc) s =
      .next ((advance dt s).frame [0x22] crc (advance dt s).svcBusy (advance dt s).svc.opened State.verify) := rfl

theorem exec_serviceUnknownOpcode (dt : Nat) (op : Byte) (s : State) :
    exec (.serviceUnknownOpcode dt op) s = .next (if knownOpcode op then advance dt s
      else (advance dt s).frame [op] (crc8 [op]) false true fun t => t.reply 0x05 []) := rfl

theorem exec_halt (dt : Nat) (crc : Byte) (s : State) :
    exec (.halt dt crc) s = .next ((advance dt s).frame [0x10] crc false (advance dt s).svc.opened State.halt) := rfl

theorem exec_resume (dt : Nat) (crc : Byte) (s : State) :
    exec (.resume dt crc) s = .next ((advance dt s).frame [0x11] crc false
      ((advance dt s).svc.opened && (advance dt s).core.halted && !(advance dt s).svc.changed) State.resume) := rfl

theorem exec_reset (dt : Nat) (crc : Byte) (s : State) :
    exec (.reset dt crc) s = .next ((advance dt s).frame [0x12] crc false (advance dt s).svc.opened
      fun t => (t.fullReset .service).reply 0x01 []) := rfl

theorem exec_erase (dt : Nat) (sector : BitVec 16) (crc : Byte) (s : State) :
    exec (.erase dt sector crc) s = .next ((advance dt s).frame (0x20 :: le 2 sector.toNat) crc (advance dt s).svcBusy
      ((advance dt s).svc.opened && (advance dt s).core.halted && decide (sector.toNat ≤ 0x17B))
      fun t => t.svcStart (.erase sector.toNat)) := rfl

theorem exec_program (dt : Nat) (addr : BitVec 32) (data : List Byte) (crc : Byte) (s : State) :
    exec (.program dt addr data crc) s =
      .next ((advance dt s).frame (0x21 :: le 4 addr.toNat ++ data) crc (advance dt s).svcBusy
        ((advance dt s).svc.opened && (advance dt s).core.halted && decide (addr.toNat % 256 = 0) &&
          decide (addr.toNat < 0x17C000)) fun t => t.svcStart (.program addr.toNat data)) := rfl

theorem exec_blow (dt : Nat) (arg crc : Byte) (s : State) :
    exec (.blow dt arg crc) s = .next ((advance dt s).frame [0x30, arg] crc false
      ((advance dt s).svc.opened && (advance dt s).svc.verified && !(advance dt s).power.brace && arg == 0xB1)
      fun t => (t.modSvc fun v => { v with fuse := .driving, blowAt := t.clock }).reply 0x01 []) := rfl

theorem exec_fuseBlowDone (dt : Nat) (s : State) :
    exec (.fuseBlowDone dt) s = .next
      (if ((advance dt s).svc.fuse == .driving && decide (2 * Config.ms ≤ (advance dt s).clock - (advance dt s).svc.blowAt)) = true
      then (advance dt s).modSvc fun v => { v with fuse := .blown } else advance dt s) := rfl

/-! ### A frame that is accepted -/

section
variable {i : Instr} {s u : State} {ps : List Part} {P : State → Prop} {bytes : List Byte} {crc : Byte} {busy allowed : Bool}
  {act : State → State}

theorem exec_accepted (hexec : exec i s = .next (u.frame bytes crc busy allowed act)) (hup : u.outOfReset = true)
    (hfuse : u.svc.fuse = .intact) (hcrc : crc8 bytes = crc) (hbusy : busy = false) (hallowed : allowed = true) :
    exec i s = .next ((act u).onWire bytes crc) := by
  rw [hexec, State.frame_accepted hup hfuse hcrc hbusy hallowed]

/-- A command whose frame is accepted does what its action does, and writes the answer. -/
theorem does_accepted (hexec : exec i s = .next ((act u).onWire bytes crc)) (hsame : Same ps u (act u))
    (hsvc : ps.contains .svc = true) (hP : P ((act u).onWire bytes crc)) : Does i s u ps P :=
  ⟨_, hexec, Same.modSvc (f := fun v => { v with wire := svcLine bytes crc v.answer }) (.inr fun _ => rfl) hsvc hsame, hP⟩

end

/-! ### IDENT, READ and VERIFY (R624, R625, R629) -/

/-- The 16 bytes of IDENT's response. -/
def State.identBytes (s : State) : List Byte :=
  le 8 Config.serial.toNat ++ le 4 s.svcVersion ++ le 1 s.svcState ++ [0, 0, 0]

theorem State.identBytes_length (s : State) : s.identBytes.length = 16 := by
  simp [State.identBytes]

theorem State.identBytes_take (s : State) : s.identBytes.take 8 = le 8 Config.serial.toNat := by
  simp only [State.identBytes, List.append_assoc]
  exact List.take_left' (le_length 8 _)

/-- With no uncorrectable word READ returns what the array holds. -/
theorem State.svcRead_of_sound {s : State} (a n : Nat) (h : s.flash.bad = []) :
    s.svcRead a n = State.reply { s with free := s.free + n } 0x01 (memGets s.flash.mem a n) := by
  have hgood (x : Nat) : s.badIn x 8 = false := by simp [State.badIn, h]
  simp [State.svcRead, hgood, memGets]

/-- With none in the image VERIFY returns the CRC of the array. -/
theorem State.verify_of_sound {s : State} (h : s.flash.bad = []) :
    s.verify = (s.modSvc fun v => { v with verified := s.imageOk }).reply 0x01 (le 4 s.imageCrc.toNat) := by
  have hgood : s.badIn 0x10 (s.imageLen - 0x10) = false := by simp [State.badIn, h]
  simp [State.verify, hgood]

theorem knownOpcode_iff (op : Byte) :
    knownOpcode op = true ↔ op ∈ [0x01#8, 0x02#8, 0x03#8, 0x10#8, 0x11#8, 0x12#8, 0x20#8, 0x21#8, 0x22#8, 0x30#8] := by
  simp [knownOpcode]

/-! ### HALT and RESET (R593, R626) -/

/-- HALT forgets what an earlier halt changed, unless that halt still stands (R628). -/
def State.haltAsked (s : State) : State := if s.core.halted then s else s.modSvc fun v => { v with changed := false }

theorem State.haltAsked_same (s : State) : Same [.svc] s s.haltAsked :=
  .ite (Same.refl _ _) (Same.modSvc (.inr fun _ => rfl) rfl (Same.refl _ _))

theorem State.haltAsked_core (s : State) : s.haltAsked.core = s.core := s.haltAsked_same .core rfl

theorem State.haltAsked_changed (s : State) : s.haltAsked.svc.changed = (s.core.halted && s.svc.changed) := by
  unfold State.haltAsked
  cases s.core.halted <;> rfl

/-- A flash operation of the firmware ends first: the halt waits. -/
def State.haltWaits (s : State) : State :=
  State.withdrawLeave { s.haltAsked with core := { s.core with haltOwed := true } }

/-- The core is halted, and gives LEAVE back. -/
def State.haltTaken (s : State) : State :=
  State.withdrawLeave (State.dropHold { s.haltAsked with core := { s.core with halted := true } })

/-- HALT, with `fw` where the firmware's own flash operation has to end first. -/
def State.haltWith (s : State) (fw : Bool) : State :=
  let t := { s.haltAsked with core := { s.haltAsked.core with
    halted := s.haltAsked.core.halted || !fw, haltOwed := s.haltAsked.core.haltOwed || fw } }
  ((if fw then t else t.dropHold).withdrawLeave).reply 0x01 []

theorem State.halt_eq (s : State) :
    s.halt = s.haltWith (match s.flash.op with | some o => !o.service | none => false) := rfl

theorem State.halt_of_owed {s : State} {o : FlashOp} (hop : s.flash.op = some o) (hfw : o.service = false) :
    s.halt = s.haltWaits.reply 0x01 [] := by
  rw [State.halt_eq, hop]
  simp only [hfw, Bool.not_false, State.haltWith, State.haltAsked_core, Bool.not_true, Bool.or_false, Bool.or_true, if_true,
    State.haltWaits]

theorem State.halt_of_free {s : State} (hop : s.flash.op = none) : s.halt = s.haltTaken.reply 0x01 [] := by
  rw [State.halt_eq, hop]
  simp only [State.haltWith, State.haltAsked_core, Bool.not_false, Bool.or_true, Bool.or_false, Bool.false_eq_true, if_false,
    State.haltTaken]

theorem State.haltWaits_same (s : State) :
    Same [.leave] { s.haltAsked with core := { s.core with haltOwed := true } } s.haltWaits := State.withdrawLeave_same _

theorem State.haltTaken_same (s : State) :
    Same [.chan, .leave] { s.haltAsked with core := { s.core with halted := true } } s.haltTaken :=
  Same.step (State.withdrawLeave_same _) rfl (Same.mono (State.dropHold_same _) rfl)

theorem State.fwRuns_of_halted {s : State} (h : s.core.halted = true) : s.fwRuns = false := by
  simp [State.fwRuns, h]

section
variable {dt : Nat} {s u : State}

/-! ### Each command, once its frame is accepted -/

theorem does_ident (hu : u = advance dt s) (hup : u.outOfReset = true) (hfuse : u.svc.fuse = .intact) :
    Does (.ident dt (crc8 [0x01])) s u [.svc] fun t =>
      ∃ b : List Byte, b.length = 16 ∧ b.take 8 = le 8 Config.serial.toNat ∧
        t.svc = { u.svc with
          answer := 0x01 :: b ++ [crc8 (0x01 :: b)]
          wire := svcLine [0x01] (crc8 [0x01]) (0x01 :: b ++ [crc8 (0x01 :: b)]) } :=
  does_accepted (exec_accepted (hu ▸ exec_ident dt _ s) hup hfuse rfl rfl rfl) (State.ident_same u) rfl
    ⟨u.identBytes, u.identBytes_length, u.identBytes_take, rfl⟩

theorem does_read {addr : BitVec 32} {len : Byte} (hu : u = advance dt s) (hup : u.outOfReset = true)
    (hfuse : u.svc.fuse = .intact) (hbusy : u.svcBusy = false) (hopened : u.svc.opened = true) (hmin : 1 ≤ len.toNat)
    (hmax : len.toNat ≤ 128) (hend : addr.toNat + len.toNat ≤ 4194304) (hbad : u.flash.bad = []) :
    Does (.read dt addr len (crc8 (0x03 :: le 4 addr.toNat ++ [len]))) s u [.free, .svc] fun t =>
      ∃ b : List Byte, b = memGets u.flash.mem addr.toNat len.toNat ∧
        t.svc = { u.svc with
          answer := 0x01 :: b ++ [crc8 (0x01 :: b)]
          wire := svcLine (0x03 :: le 4 addr.toNat ++ [len]) (crc8 (0x03 :: le 4 addr.toNat ++ [len]))
            (0x01 :: b ++ [crc8 (0x01 :: b)]) } := by
  have hallowed : (u.svc.opened && decide (1 ≤ len.toNat) && decide (len.toNat ≤ 128) &&
      decide (addr.toNat + len.toNat ≤ 4194304)) = true := by simp [hopened, hmin, hmax, hend]
  refine does_accepted (exec_accepted (hu ▸ exec_read dt addr len _ s) hup hfuse rfl hbusy hallowed)
    (State.svcRead_same u _ _) rfl ⟨_, rfl, ?_⟩
  rw [State.svcRead_of_sound _ _ hbad]
  rfl

theorem does_halt_of_owed {o : FlashOp} (hu : u = advance dt s) (hup : u.outOfReset = true) (hfuse : u.svc.fuse = .intact)
    (hopened : u.svc.opened = true) (hop : u.flash.op = some o) (hfw : o.service = false) :
    Does (.halt dt (crc8 [0x10])) s u [.leave, .core, .svc] fun t =>
      t.core = { u.core with haltOwed := true } ∧ t.svc.answer = [0x01, crc8 [0x01]] := by
  have hexec := exec_accepted (hu ▸ exec_halt dt _ s) hup hfuse rfl rfl hopened
  rw [State.halt_of_owed hop hfw] at hexec
  have hwaits : Same [.leave, .core, .svc] u u.haltWaits :=
    Same.step u.haltWaits_same rfl (Same.upd_core rfl (Same.mono u.haltAsked_same rfl))
  exact does_accepted (act := fun t => t.haltWaits.reply 0x01 []) hexec (Same.step (State.reply_same _ _ _) rfl hwaits) rfl
    ⟨u.haltWaits_same .core rfl, rfl⟩

theorem does_halt_of_free (hu : u = advance dt s) (hup : u.outOfReset = true) (hfuse : u.svc.fuse = .intact)
    (hopened : u.svc.opened = true) (hop : u.flash.op = none) :
    Does (.halt dt (crc8 [0x10])) s u [.chan, .leave, .core, .svc] fun t =>
      t.core = { u.core with halted := true } ∧ t.fwRuns = false ∧
        t.svc.changed = (u.core.halted && u.svc.changed) ∧ t.svc.answer = [0x01, crc8 [0x01]] := by
  have hexec := exec_accepted (hu ▸ exec_halt dt _ s) hup hfuse rfl rfl hopened
  have hframe := State.halt_same u
  rw [State.halt_of_free hop] at hexec hframe
  have hcore : u.haltTaken.core = { u.core with halted := true } := u.haltTaken_same .core rfl
  have hsvc : u.haltTaken.svc = u.haltAsked.svc := u.haltTaken_same .svc rfl
  have hchanged : u.haltTaken.svc.changed = (u.core.halted && u.svc.changed) := by rw [hsvc, State.haltAsked_changed]
  exact does_accepted (act := fun t => t.haltTaken.reply 0x01 []) hexec hframe rfl
    ⟨hcore, State.fwRuns_of_halted (congrArg Core.halted hcore), hchanged, rfl⟩

theorem does_reset (hu : u = advance dt s) (hup : u.outOfReset = true) (hfuse : u.svc.fuse = .intact)
    (hopened : u.svc.opened = true) :
    Does (.reset dt (crc8 [0x12])) s u (touches (.reset dt 0)) fun t =>
      t.core = { Core.reset with heldTo := u.clock + 400000000 } ∧ t.keep.cause = 0x05 ∧ t.cab = .reset ∧
        t.svc.answer = [0x01, crc8 [0x01]] := by
  have hboot : u.core.boot ≠ .inReset := fun h => by simp [State.outOfReset, h] at hup
  have hexec := exec_accepted (hu ▸ exec_reset dt _ s) hup hfuse rfl rfl hopened
  have hframe : Same (touches (.reset dt 0)) u ((u.fullReset .service).reply 0x01 []) :=
    Same.step (State.reply_same (u.fullReset .service) 0x01 []) rfl (State.fullReset_same u .service)
  refine does_accepted (act := fun t => (t.fullReset .service).reply 0x01 []) hexec hframe rfl ?_
  rw [State.fullReset_of_running .service hboot]
  exact ⟨rfl, rfl, rfl, rfl⟩

/-- ERASE and PROGRAM wait for LEAVE, and forget that the image was verified (R627, R628). -/
theorem State.svcStart_asks (k : FlashKind) (hnew : u.leave.reqs.contains .service = false)
    (hheld : u.leave.holding ≠ some .service) :
    (u.svcStart k).svc = { u.svc with
        waiting := some k, verified := false, changed := true, answer := [0x01, crc8 [0x01]] } ∧
      (u.svcStart k).leave.reqs = u.leave.reqs ++ [.service] := by
  obtain ⟨p, i, l, c, w, f, hasked⟩ := State.requestLeave_eq
    (u.modSvc fun v => { v with waiting := some k, verified := false, changed := true }) .service hnew hheld
  rw [State.svcStart, hasked]
  exact ⟨rfl, rfl⟩

theorem does_svcStart {i : Instr} {bytes : List Byte} {crc : Byte} {k : FlashKind}
    (hexec : exec i s = .next ((u.svcStart k).onWire bytes crc)) (hnew : u.leave.reqs.contains .service = false)
    (hheld : u.leave.holding ≠ some .service) :
    Does i s u [.leave, .svc] fun t =>
      t.svc = { u.svc with
        waiting := some k, verified := false, changed := true, answer := [0x01, crc8 [0x01]]
        wire := svcLine bytes crc [0x01, crc8 [0x01]] } ∧ t.leave.reqs = u.leave.reqs ++ [.service] := by
  obtain ⟨hsvc, hreqs⟩ := u.svcStart_asks k hnew hheld
  refine does_accepted (act := fun t => t.svcStart k) hexec (State.svcStart_same u k) rfl ⟨?_, hreqs⟩
  simp only [State.onWire, State.answered, hsvc]

theorem does_erase {sector : BitVec 16} (hu : u = advance dt s) (hup : u.outOfReset = true) (hfuse : u.svc.fuse = .intact)
    (hopened : u.svc.opened = true) (hhalted : u.core.halted = true) (hbusy : u.svcBusy = false)
    (hnew : u.leave.reqs.contains .service = false) (hheld : u.leave.holding ≠ some .service)
    (hsector : sector.toNat ≤ 0x17B) :
    Does (.erase dt sector (crc8 (0x20 :: le 2 sector.toNat))) s u [.leave, .svc] fun t =>
      t.svc = { u.svc with
        waiting := some (.erase sector.toNat), verified := false, changed := true
        answer := [0x01, crc8 [0x01]]
        wire := svcLine (0x20 :: le 2 sector.toNat) (crc8 (0x20 :: le 2 sector.toNat)) [0x01, crc8 [0x01]] } ∧
      t.leave.reqs = u.leave.reqs ++ [.service] := by
  have hallowed : (u.svc.opened && u.core.halted && decide (sector.toNat ≤ 0x17B)) = true := by
    simp [hopened, hhalted, hsector]
  exact does_svcStart (exec_accepted (hu ▸ exec_erase dt sector _ s) hup hfuse rfl hbusy hallowed) hnew hheld

theorem does_program {addr : BitVec 32} {data : List Byte} (hu : u = advance dt s) (hup : u.outOfReset = true)
    (hfuse : u.svc.fuse = .intact) (hopened : u.svc.opened = true) (hhalted : u.core.halted = true)
    (hbusy : u.svcBusy = false) (hnew : u.leave.reqs.contains .service = false)
    (hheld : u.leave.holding ≠ some .service) (hpage : addr.toNat % 256 = 0) (hmax : addr.toNat < 0x17C000) :
    Does (.program dt addr data (crc8 (0x21 :: le 4 addr.toNat ++ data))) s u [.leave, .svc] fun t =>
      t.svc = { u.svc with
        waiting := some (.program addr.toNat data), verified := false, changed := true
        answer := [0x01, crc8 [0x01]]
        wire := svcLine (0x21 :: le 4 addr.toNat ++ data) (crc8 (0x21 :: le 4 addr.toNat ++ data)) [0x01, crc8 [0x01]] } ∧
      t.leave.reqs = u.leave.reqs ++ [.service] := by
  have hallowed : (u.svc.opened && u.core.halted && decide (addr.toNat % 256 = 0) && decide (addr.toNat < 0x17C000)) = true := by
    simp [hopened, hhalted, hpage, hmax]
  exact does_svcStart (exec_accepted (hu ▸ exec_program dt addr data _ s) hup hfuse rfl hbusy hallowed) hnew hheld

theorem exec_fuseBlowDone_of_driving (hu : u = advance dt s) (hfuse : u.svc.fuse = .driving) :
    exec (.fuseBlowDone dt) s = .next
      (if 8000000000 ≤ u.clock - u.svc.blowAt then { u with svc := { u.svc with fuse := .blown } } else u) := by
  have hms : 2 * Config.ms = 8000000000 := rfl
  rw [exec_fuseBlowDone, ← hu]
  simp only [hfuse, hms, beq_self_eq_true, Bool.true_and, decide_eq_true_eq, State.modSvc]

end

end Sys2Proof.Machine

open Sys2Proof Sys2Proof.Machine

/-- Settles O60: each frame that is accepted, by what its action does and answers. -/
theorem serviceWorks : Obligations.ServiceWorks := by
  refine ⟨fun dt s u hu hup hfuse => ⟨does_ident hu hup hfuse, fun arg harg => ?opened, fun arg harg => ?refused,
      fun addr len hbusy hopened hmin hmax hend hbad => does_read hu hup hfuse hbusy hopened hmin hmax hend hbad,
      fun hbusy hopened hbad => ?verified, fun op => ⟨fun hknown => ?known, fun hunknown => ?unknown⟩,
      hu ▸ exec_serviceFrameAbort dt s⟩,
    fun dt s u hu hup => ⟨fun hfuse hopened => ⟨fun o hop hfw => does_halt_of_owed hu hup hfuse hopened hop hfw,
      fun hop => does_halt_of_free hu hup hfuse hopened hop, fun hhalted hchanged => ?resumed,
      does_reset hu hup hfuse hopened, fun hhalted hbusy hnew hheld => ⟨fun sector hsector => ?erases,
        fun addr data _ hpage hmax => ?programs⟩, fun hverified hbrace => ?blows⟩,
      fun hfuse => exec_fuseBlowDone_of_driving hu hfuse⟩⟩
  case opened =>
    rw [exec_openPort, ← hu, State.frame_accepted hup hfuse rfl rfl (beq_iff_eq.mpr harg)]
    rfl
  case refused =>
    rw [exec_openPort, ← hu, State.frame_refused hup hfuse rfl rfl (beq_eq_false_iff_ne.mpr harg)]
    rfl
  case verified =>
    rw [exec_verify, ← hu, State.frame_accepted hup hfuse rfl hbusy hopened, State.verify_of_sound hbad]
    simp only [State.onWire, State.answered, State.reply, State.modSvc]
  case known => rw [exec_serviceUnknownOpcode, ← hu, if_pos ((knownOpcode_iff op).mpr hknown)]
  case unknown =>
    rw [exec_serviceUnknownOpcode, ← hu, if_neg (mt (knownOpcode_iff op).mp hunknown),
      State.frame_accepted hup hfuse rfl rfl rfl]
    rfl
  case resumed =>
    rw [exec_resume, ← hu, State.frame_accepted hup hfuse rfl rfl (by simp [hopened, hhalted, hchanged])]
    rfl
  case erases => exact does_erase hu hup hfuse hopened hhalted hbusy hnew hheld hsector
  case programs => exact does_program hu hup hfuse hopened hhalted hbusy hnew hheld hpage hmax
  case blows =>
    rw [exec_blow, ← hu, State.frame_accepted hup hfuse rfl rfl (by simp [hopened, hverified, hbrace])]
    rfl
end

section
/-! A fault of an analog output (R475 to R480): state 7, its code word kept, its retry wait, and its clearing. -/

namespace Sys2Proof.Machine
open Sys2Proof

theorem Per2.set_set {α : Type} (p : Per2 α) (o : OutNo) (a b : α) : (p.set o a).set o b = p.set o b := by
  fin_cases o <;> rfl

/-! ### What each command runs -/

theorem exec_outputOvercurrent (dt : Nat) (o : OutNo) (s : State) :
    exec (.outputOvercurrent dt o) s = .next ((advance dt s).when
      ((((advance dt s).ao.outs.get o).unwritten (advance dt s).cycle).st == .driven && !(advance dt s).aoCurrent o) fun t =>
        t.faultOutput o 0x54 ((((advance dt s).ao.outs.get o).unwritten (advance dt s).cycle).code.setWidth 32) 0) := rfl

theorem exec_outputRailFault (dt : Nat) (o : OutNo) (vpos vneg : Int) (s : State) :
    exec (.outputRailFault dt o vpos vneg) s = .next ((advance dt s).when
      (((advance dt s).ao.outs.get o).st == .driven && !(advance dt s).aoCurrent o && !(advance dt s).railsMeet o vpos vneg)
      fun t => t.faultOutput o 0x55 (BitVec.ofInt 32 vpos) (BitVec.ofInt 32 vneg)) := rfl

theorem exec_outputOvertemperature (dt : Nat) (o : OutNo) (temp : Int) (s : State) :
    exec (.outputOvertemperature dt o temp) s = .next ((advance dt s).when
      ((advance dt s).stagePowered o && decide (19200 < temp)) fun t => t.faultOutput o 0x56 (BitVec.ofInt 32 temp) 0) := rfl

theorem exec_outputHeadroomFault (dt : Nat) (o : OutNo) (sensed vpin : Nat) (s : State) :
    exec (.outputHeadroomFault dt o sensed vpin) s = .next ((advance dt s).headroomFault o sensed vpin) := rfl

/-! ### An output in state 7 (R478, R479) -/

@[simp] theorem Output.unwritten_st (a : Output) (cycle : Nat) : (a.unwritten cycle).st = a.st := by
  unfold Output.unwritten
  split
  · split <;> rfl
  · rfl

@[simp] theorem Output.unwritten_centre (a : Output) (cycle : Nat) : (a.unwritten cycle).centre = a.centre := by
  unfold Output.unwritten
  split
  · split <;> rfl
  · rfl

/-- An output that a fault has just put in state 7. -/
def State.outFaulted (s : State) (o : OutNo) : Output :=
  { (s.ao.outs.get o).unwritten s.cycle with
    st := .faulted, faultAt := s.clock, wait := s.nextWait o ((s.ao.outs.get o).st == .driven), mismatches := 0 }

/-- A fault is all in its output, its fault and the leave its stage asked for or held. -/
theorem State.faultOutput_ao_faults (s : State) (o : OutNo) (code : Byte) (a b : BitVec 32) :
    (s.faultOutput o code a b).ao = { s.ao with outs := s.ao.outs.set o (s.outFaulted o) } ∧
      (s.faultOutput o code a b).faults = s.faults.raised code s.tb.time (outByte o) a b := by
  have hfreed : Same [.leave] (s.modOut o fun _ => s.outFaulted o)
      (((s.modOut o fun _ => s.outFaulted o).dropRequest (.stagePower o)).releaseFor (.stagePower o)) :=
    Same.step (State.releaseFor_same _ _) rfl (State.dropRequest_same _ _)
  have heq : s.faultOutput o code a b =
      (((s.modOut o fun _ => s.outFaulted o).dropRequest (.stagePower o)).releaseFor (.stagePower o)).raise code (outByte o) a b :=
    rfl
  rw [heq, State.raise_eq]
  refine ⟨hfreed .ao rfl, ?_⟩
  show Faults.raised _ _ _ _ _ _ = _
  rw [hfreed .faults rfl, hfreed .tb rfl]
  rfl

/-- The wait before the retry: doubled where the output fails again before it has been driven for 1 s (R479). -/
theorem State.nextWait_eq (s : State) (o : OutNo) :
    s.nextWait o ((s.ao.outs.get o).st == .driven) =
      if s.outFaulty o = true ∧ ((s.ao.outs.get o).st ≠ .driven ∨ s.clock - (s.ao.outs.get o).connectedAt < 4000000000000)
      then min 64 (2 * (s.ao.outs.get o).wait) else 1 := by
  have hsec : Config.sec = 4000000000000 := rfl
  simp [State.nextWait, hsec]

/-- What a fault of an output leaves, in the terms of R478 and R479. -/
theorem does_faultOutput {i : Instr} {s u : State} {o : OutNo} {code : Byte} {a b : BitVec 32}
    (hexec : exec i s = .next (u.faultOutput o code a b)) :
    Does i s u [.ao, .leave, .faults] fun t =>
      t.faults = u.faults.raised code u.tb.time (BitVec.ofNat 8 o.val) a b ∧ (t.ao.outs.get o).st = .faulted ∧
        (t.ao.outs.get o).code = ((u.ao.outs.get o).unwritten u.cycle).code ∧ (t.ao.outs.get o).faultAt = u.clock ∧
        (t.ao.outs.get o).centre = (u.ao.outs.get o).centre ∧
        (t.ao.outs.get o).wait = (if u.outFaulty o = true ∧ ((u.ao.outs.get o).st ≠ .driven ∨
            u.clock - (u.ao.outs.get o).connectedAt < 4000000000000) then
          min 64 (2 * (u.ao.outs.get o).wait) else 1) ∧
        (∀ p : OutNo, p ≠ o → t.ao.outs.get p = u.ao.outs.get p) := by
  obtain ⟨hao, hfaults⟩ := u.faultOutput_ao_faults o code a b
  refine ⟨_, hexec, State.faultOutput_same u o code a b, hfaults, ?_⟩
  rw [hao]
  dsimp only
  rw [Per2.get_set_same]
  exact ⟨rfl, rfl, rfl, Output.unwritten_centre _ _, u.nextWait_eq o, fun p hp => Per2.get_set_ne _ _ _ _ hp⟩

/-! ### The detectors (R475) -/

/-- Outside brace and 10 ms after its return the detectors run. -/
theorem State.detectorsOn_of_settled {s : State} (hbrace : s.power.brace = false)
    (hsettled : 40000000000 ≤ s.clock - s.power.returnAt) : s.detectorsOn = true := by
  have hms : 10 * Config.ms ≤ s.clock - s.power.returnAt := hsettled
  simp [State.detectorsOn, hbrace, hms]

theorem State.headroomFault_of_lost {s : State} {o : OutNo} {kept : BitVec 18} (sensed vpin : Nat)
    (hkept : kept = ((s.ao.outs.get o).unwritten s.cycle).code) (hst : (s.ao.outs.get o).st = .driven)
    (hcurrent : s.aoCurrent o = true) (hon : s.detectorsOn = true) (hlevel : (500000 : Rat) ≤ s.level o kept) :
    s.headroomFault o sensed vpin =
      s.faultOutput o (if (2 * sensed : Rat) < s.level o kept then 0x52 else 0x53)
        (BitVec.ofInt 32 (roundRat (s.level o kept))) (sat32 vpin) := by
  subst hkept
  unfold State.headroomFault
  exact if_pos (by simp [hst, hcurrent, hon, hlevel])

end Sys2Proof.Machine

open Sys2Proof Sys2Proof.Machine

/-- Settles O49: each detector that finds its fault puts the output in state 7, and nothing else. -/
theorem outputFaults : Obligations.OutputFaults := by
  rintro dt s u o i code a b kept rfl rfl
    (⟨rfl, hvoltage, hst, rfl, rfl, rfl⟩ | ⟨vpos, vneg, rfl, hvoltage, hst, hrails, rfl, rfl, rfl⟩ |
      ⟨temp, rfl, hhot, rfl, rfl, rfl, hpowered⟩ |
      ⟨sensed, vpin, rfl, hcurrent, hst, hbrace, hsettled, hlevel, rfl, rfl, rfl⟩)
  · refine does_faultOutput ((exec_outputOvercurrent dt o s).trans (congrArg _ (if_pos ?_)))
    simp [hvoltage, hst]
  · refine does_faultOutput ((exec_outputRailFault dt o vpos vneg s).trans (congrArg _ (if_pos ?_)))
    simp [hvoltage, hst, hrails]
  · refine does_faultOutput ((exec_outputOvertemperature dt o temp s).trans (congrArg _ (if_pos ?_)))
    simp [hpowered, hhot]
  · refine does_faultOutput ((exec_outputHeadroomFault dt o sensed vpin s).trans (congrArg _ ?_))
    exact State.headroomFault_of_lost sensed vpin rfl hst hcurrent (State.detectorsOn_of_settled hbrace hsettled) hlevel
end

section
/-! How an analog output is established, retried and cleared of its faults (R468 to R470, R477, R479 to R481). -/

namespace Sys2Proof.Machine
open Sys2Proof

/-! ### What each command runs -/

theorem exec_outputEstablish (dt : Nat) (o : OutNo) (s : State) :
    exec (.outputEstablish dt o) s = .next ((advance dt s).outputEstablish o) := rfl

theorem exec_outputStageReady (dt : Nat) (o : OutNo) (vpos vneg : Int) (s : State) :
    exec (.outputStageReady dt o vpos vneg) s = .next ((advance dt s).stageReady o vpos vneg) := rfl

theorem exec_breakBeforeMakeExpiry (dt : Nat) (o : OutNo) (s : State) :
    exec (.breakBeforeMakeExpiry dt o) s = .next ((advance dt s).breakExpiry o) := rfl

theorem exec_outputRetry (dt : Nat) (o : OutNo) (s : State) :
    exec (.outputRetry dt o) s = .next ((advance dt s).outputRetry o) := rfl

theorem exec_outputFaultClear (dt : Nat) (o : OutNo) (s : State) :
    exec (.outputFaultClear dt o) s = .next ((advance dt s).outputFaultClear o) := rfl

/-! ### The establishment begins (R468, R469, R481) -/

theorem State.modOut_modOut (s : State) (o : OutNo) (f g : Output → Output) :
    (s.modOut o f).modOut o g = s.modOut o fun a => g (f a) := by
  simp only [State.modOut, Per2.get_set_same, Per2.set_set]

/-- A request that is made waits, or has been won before. -/
theorem State.requestLeave_asked (s : State) (op : HeavyOp) :
    (s.requestLeave op).leave.reqs.contains op = true ∨ (s.requestLeave op).leave.holding = some op := by
  by_cases hknown : s.leave.reqs.contains op = true ∨ s.leave.holding = some op
  · rwa [State.requestLeave_known s op hknown]
  · obtain ⟨hnew, hheld⟩ := not_or.mp hknown
    obtain ⟨p, i, l, c, w, f, hasked⟩ := State.requestLeave_eq s op (Bool.eq_false_iff.mpr hnew) hheld
    rw [hasked]
    exact .inl (by simp)

theorem State.establish_of_voltage {s : State} {o : OutNo} (h : s.aoCurrent o = false) :
    s.establish o = s.modOut o fun a => { a with st := .powering } := if_neg (by simp [h])

theorem State.establish_of_current {s : State} {o : OutNo} (h : s.aoCurrent o = true) :
    s.establish o = (s.modOut o fun a => { a with st := .leaving }).requestLeave (.stagePower o) := if_pos h

theorem State.outputEstablish_of_enabled {s : State} {o : OutNo} (hruns : s.fwRuns = true)
    (hst : (s.ao.outs.get o).st = .idle) (henabled : s.almostEnabled o = true) (htrims : s.cal.trims = true) :
    s.outputEstablish o = s.establish o := by
  simp [State.outputEstablish, hruns, hst, henabled, htrims]

/-- Only the trims are missing, after an abandoned start-up run with no drawer (R481). -/
theorem State.outputEstablish_of_untrimmed {s : State} {o : OutNo} (hruns : s.fwRuns = true)
    (hst : (s.ao.outs.get o).st = .idle) (henabled : s.almostEnabled o = true) (htrims : s.cal.trims = false)
    (hfault : s.faultActive 0x65 0xFF = true) : s.outputEstablish o = s.raise 0x57 (outByte o) 0 0 := by
  unfold State.outputEstablish
  rw [if_pos (by simp [hruns, hst]), if_neg (by simp [htrims]), henabled, htrims, hfault]
  rfl

theorem does_outputEstablish_of_current {dt : Nat} {s u : State} {o : OutNo} (hu : u = advance dt s)
    (hruns : u.fwRuns = true) (hst : (u.ao.outs.get o).st = .idle) (henabled : u.almostEnabled o = true)
    (htrims : u.cal.trims = true) (hcurrent : u.aoCurrent o = true) :
    Does (.outputEstablish dt o) s u [.ao, .leave] fun t =>
      t.ao = { u.ao with outs := u.ao.outs.set o { u.ao.outs.get o with st := .leaving } } ∧
        (t.leave.reqs.contains (.stagePower o) = true ∨ t.leave.holding = some (.stagePower o)) := by
  have hrun : u.outputEstablish o = _ :=
    (State.outputEstablish_of_enabled hruns hst henabled htrims).trans (State.establish_of_current hcurrent)
  have hasked := State.requestLeave_same (u.modOut o fun a => { a with st := .leaving }) (.stagePower o)
  exact ⟨_, hrun ▸ hu ▸ exec_outputEstablish dt o s, Same.step hasked rfl (Same.mono (State.modOut_same _ _ _) rfl),
    hasked .ao rfl, State.requestLeave_asked _ _⟩

/-! ### The stage is powered (R469, R470, R477) -/

/-- The 50 µs of the break before the make run. -/
theorem State.stageReady_of_current {s : State} {o : OutNo} (vpos vneg : Int) (hruns : s.fwRuns = true)
    (hcurrent : s.aoCurrent o = true) (hst : (s.ao.outs.get o).st = .leaving)
    (hheld : s.leave.holding = some (.stagePower o)) :
    s.stageReady o vpos vneg =
      (s.releaseFor (.stagePower o)).modOut o fun a => { a with st := .breaking, breakUntil := s.clock + 200000000 } := by
  simp [State.stageReady, hruns, hcurrent, hst, State.holds, hheld, Config.us]

theorem State.stageReady_of_voltage {s : State} {o : OutNo} (vpos vneg : Int) (hruns : s.fwRuns = true)
    (hvoltage : s.aoCurrent o = false) (hst : (s.ao.outs.get o).st = .powering) :
    s.stageReady o vpos vneg =
      if s.railsMeet o vpos vneg = true then
        s.modOut o fun a => { a with st := .breaking, breakUntil := s.clock + 200000000 }
      else s.faultOutput o 0x55 (BitVec.ofInt 32 vpos) (BitVec.ofInt 32 vneg) := by
  simp [State.stageReady, hruns, hvoltage, hst, Config.us]

theorem does_outputStageReady_of_current {dt : Nat} {s u : State} {o : OutNo} (vpos vneg : Int) (hu : u = advance dt s)
    (hruns : u.fwRuns = true) (hcurrent : u.aoCurrent o = true) (hst : (u.ao.outs.get o).st = .leaving)
    (hheld : u.leave.holding = some (.stagePower o)) :
    Does (.outputStageReady dt o vpos vneg) s u [.ao, .leave] fun t =>
      t.leave.holding = none ∧ t.ao = { u.ao with outs := u.ao.outs.set o { u.ao.outs.get o with
        st := .breaking, breakUntil := u.clock + 200000000 } } := by
  have hrun := State.stageReady_of_current vpos vneg hruns hcurrent hst hheld
  have hfreed := State.releaseFor_same u (.stagePower o)
  have hao : (u.releaseFor (.stagePower o)).ao = u.ao := hfreed .ao rfl
  obtain ⟨p, w, f, heq⟩ := State.releaseFor_held u (.stagePower o) hheld
  refine ⟨_, hrun ▸ hu ▸ exec_outputStageReady dt o vpos vneg s,
    Same.step (State.modOut_same _ _ _) rfl (Same.mono hfreed rfl), ?_, ?_⟩
  · rw [State.modOut_leave, heq]
  · rw [State.modOut, hao]

theorem State.breakExpiry_of_breaking {s : State} {o : OutNo} (hst : (s.ao.outs.get o).st = .breaking) :
    s.breakExpiry o =
      if (s.ao.outs.get o).breakUntil ≤ s.clock then s.modOut o fun a => { a with st := .ready } else s := by
  simp [State.breakExpiry, hst]

/-! ### The retry (R479) -/

theorem State.outputRetry_of_waiting {s : State} {o : OutNo}
    (h : s.clock - (s.ao.outs.get o).faultAt < (s.ao.outs.get o).wait * 4000000000000) : s.outputRetry o = s := by
  have hwaits : ¬(s.ao.outs.get o).wait * Config.sec ≤ s.clock - (s.ao.outs.get o).faultAt := Nat.not_le.mpr h
  simp [State.outputRetry, hwaits]

/-- The state of an output is none of what enables it. -/
theorem State.almostEnabled_modOut_st (s : State) (o : OutNo) (st : OutState) :
    (s.modOut o fun a => { a with st := st }).almostEnabled o = s.almostEnabled o := by
  show (_ && ((((s.modOut o fun a => { a with st := st }).ao.outs.get o).sourced || _))) = _
  simp only [State.modOut, Per2.get_set_same]
  rfl

/-- The establishment of a voltage stage begins again. -/
theorem State.outputRetry_of_due {s : State} {o : OutNo} (hruns : s.fwRuns = true) (hst : (s.ao.outs.get o).st = .faulted)
    (hdue : (s.ao.outs.get o).wait * 4000000000000 ≤ s.clock - (s.ao.outs.get o).faultAt) (hvoltage : s.aoCurrent o = false)
    (henabled : s.almostEnabled o = true) (htrims : s.cal.trims = true) :
    s.outputRetry o = s.modOut o fun a => { a with st := .powering } := by
  have hwaited : (s.ao.outs.get o).wait * Config.sec ≤ s.clock - (s.ao.outs.get o).faultAt := hdue
  have hrun : s.outputRetry o = (s.modOut o fun a => { a with st := .idle }).outputEstablish o := by
    simp [State.outputRetry, hruns, hst, hwaited]
  have hidle : ((s.modOut o fun a => { a with st := .idle }).ao.outs.get o).st = .idle := by
    simp only [State.modOut, Per2.get_set_same]
  rw [hrun, State.outputEstablish_of_enabled (s := s.modOut o fun a => { a with st := .idle }) hruns hidle
    ((s.almostEnabled_modOut_st o .idle).trans henabled) htrims,
    State.establish_of_voltage (s := s.modOut o fun a => { a with st := .idle }) hvoltage, State.modOut_modOut]

/-! ### The clearing of an output's faults (R480) -/

/-- A fault that clears leaves every other one as it was. -/
theorem Faults.cleared_active_eq (f : Faults) (code : Byte) (time : BitVec 64) (subj : Byte) (p : Byte × Byte) :
    (f.cleared code time subj).active.contains p = (f.active.contains p && p != (code, subj)) := by
  unfold Faults.cleared
  split
  · rw [Bool.eq_iff_iff]
    simp
  · next h =>
    by_cases hp : p = (code, subj)
    · subst hp
      simpa using h
    · simp [hp]

theorem State.faultActive_clearFault (s : State) (code subj c p : Byte) :
    (s.clearFault code subj).faultActive c p = (s.faultActive c p && (c, p) != (code, subj)) := by
  rw [State.clearFault_eq]
  exact Faults.cleared_active_eq _ _ _ _ _

/-- Some codes of a subject clear. -/
def State.clearAll (s : State) (codes : List Byte) (subj : Byte) : State := codes.foldl (fun t c => t.clearFault c subj) s

theorem State.clearAll_same (s : State) (codes : List Byte) (subj : Byte) : Same [.faults] s (s.clearAll codes subj) :=
  Same.foldl (fun t c => State.clearFault_same t c subj) (Same.refl _ _)

theorem State.clearAll_faultActive (s : State) (codes : List Byte) (subj c p : Byte) :
    (s.clearAll codes subj).faultActive c p = (s.faultActive c p && !(codes.contains c && p == subj)) := by
  induction codes generalizing s with
  | nil => simp [State.clearAll]
  | cons d codes ih =>
    have hstep : s.clearAll (d :: codes) subj = (s.clearFault d subj).clearAll codes subj := rfl
    rw [hstep, ih, State.faultActive_clearFault, List.contains_cons, Bool.and_assoc, Bool.and_or_distrib_right, Bool.not_or]
    rfl

theorem State.modOut_faultActive (s : State) (o : OutNo) (f : Output → Output) (c p : Byte) :
    (s.modOut o f).faultActive c p = s.faultActive c p := rfl

theorem State.outputFaultClear_of_due {s : State} {o : OutNo} (hst : (s.ao.outs.get o).st = .driven)
    (hdue : 4000000000000 ≤ s.clock - (s.ao.outs.get o).connectedAt) :
    s.outputFaultClear o = (s.clearAll outFaults (outByte o)).modOut o fun a => { a with wait := 1 } := by
  have hsec : Config.sec ≤ s.clock - (s.ao.outs.get o).connectedAt := hdue
  unfold State.outputFaultClear
  exact if_pos (by simp [hst, hsec])

theorem does_outputFaultClear {dt : Nat} {s u : State} {o : OutNo} (hu : u = advance dt s)
    (hst : (u.ao.outs.get o).st = .driven) (hdue : 4000000000000 ≤ u.clock - (u.ao.outs.get o).connectedAt) :
    Does (.outputFaultClear dt o) s u [.ao, .faults] fun t =>
      t.ao = { u.ao with outs := u.ao.outs.set o { u.ao.outs.get o with wait := 1 } } ∧ t.outFaulty o = false ∧
        (∀ c p : Byte, p ≠ BitVec.ofNat 8 o.val → t.faultActive c p = u.faultActive c p) := by
  have hrun := State.outputFaultClear_of_due hst hdue
  have hclear := u.clearAll_same outFaults (outByte o)
  refine ⟨_, hrun ▸ hu ▸ exec_outputFaultClear dt o s, Same.step (State.modOut_same _ _ _) rfl (Same.mono hclear rfl),
    ?_, ?_, fun c p hp => ?_⟩
  · rw [State.modOut, hclear .ao rfl]
  · refine List.any_eq_false.mpr fun c hc => ?_
    rw [State.modOut_faultActive, State.clearAll_faultActive, List.contains_iff_mem.mpr hc]
    simp
  · rw [State.modOut_faultActive, State.clearAll_faultActive, outByte, beq_eq_false_iff_ne.mpr hp]
    simp

end Sys2Proof.Machine

open Sys2Proof Sys2Proof.Machine

/-- Settles O48: each step of the establishment, the retry, and the clearing, with its condition. -/
theorem outputsAreEstablished : Obligations.OutputsAreEstablished := by
  refine ⟨fun dt s u o hu => ⟨fun hruns hst henabled => ⟨fun htrims hvoltage => ?voltage, fun htrims hcurrent =>
      does_outputEstablish_of_current hu hruns hst henabled htrims hcurrent, fun htrims hfault => ?untrimmed⟩,
      fun vpos vneg hruns => ⟨fun hcurrent hst hheld => does_outputStageReady_of_current vpos vneg hu hruns hcurrent hst hheld,
        fun hvoltage hst hrails => ?meet, fun hvoltage hst hrails => ?fails⟩, fun hst => ?breaks⟩,
    fun dt s u o hu => ⟨fun hruns hst => ⟨fun hwaits => ?waits, fun hdue hvoltage henabled htrims => ?retries⟩,
      fun hst => ⟨fun hearly => ?early, fun hdue => does_outputFaultClear hu hst hdue⟩⟩⟩
  case voltage =>
    rw [exec_outputEstablish, ← hu, State.outputEstablish_of_enabled hruns hst henabled htrims,
      State.establish_of_voltage hvoltage]
    rfl
  case untrimmed =>
    rw [exec_outputEstablish, ← hu, State.outputEstablish_of_untrimmed hruns hst henabled htrims hfault, State.raise_eq]
    rfl
  case meet =>
    rw [exec_outputStageReady, ← hu, State.stageReady_of_voltage vpos vneg hruns hvoltage hst, if_pos hrails]
    rfl
  case fails =>
    have hrun := State.stageReady_of_voltage vpos vneg hruns hvoltage hst
    rw [if_neg (by simp [hrails])] at hrun
    obtain ⟨t, hexec, hsame, hfaults, hfaulted, -⟩ :=
      does_faultOutput (i := .outputStageReady dt o vpos vneg) (hrun ▸ hu ▸ exec_outputStageReady dt o vpos vneg s)
    exact ⟨t, hexec, hsame, hfaulted, hfaults⟩
  case breaks =>
    rw [exec_breakBeforeMakeExpiry, ← hu, State.breakExpiry_of_breaking hst]
    rfl
  case waits => rw [exec_outputRetry, ← hu, State.outputRetry_of_waiting hwaits]
  case retries =>
    refine ⟨_, hu ▸ exec_outputRetry dt o s, ?_⟩
    rw [State.outputRetry_of_due hruns hst hdue hvoltage henabled htrims]
    exact ⟨State.modOut_same _ _ _, rfl⟩
  case early =>
    have hsec : ¬Config.sec ≤ u.clock - (u.ao.outs.get o).connectedAt := Nat.not_le.mpr hearly
    rw [exec_outputFaultClear, ← hu]
    exact congrArg _ (if_neg (by simp [hsec]))
end

section
/-! Output updates and the read-back (R463, R464, R469, R473, R474). -/

namespace Sys2Proof.Machine
open Sys2Proof

/-! ### What each command runs -/

theorem exec_outputUpdate (dt : Nat) (s : State) : exec (.outputUpdate dt) s = .next (advance dt s).outputUpdate := rfl

theorem exec_readBack (dt : Nat) (o : OutNo) (measured : Int) (s : State) :
    exec (.readBack dt o measured) s = .next ((advance dt s).readBack o measured) := rfl

/-! ### One output (R463, R464, R469) -/

/-- The code a source value gives, and whether it was clipped; where the manual states none, the next free code. -/
def State.codeFor (s : State) (o : OutNo) (x : Rat) : BitVec 18 × Bool := (s.codeOf o x).1

theorem State.codeOf_state (s : State) (o : OutNo) (x : Rat) : ∃ f : Nat, (s.codeOf o x).2 = { s with free := f } := by
  unfold State.codeOf
  split
  · exact ⟨s.free, rfl⟩
  · split
    · exact ⟨s.free, rfl⟩
    · exact ⟨_, rfl⟩

theorem State.codeFor_dieTemp {s : State} {o : OutNo} (x : Rat) (h : s.aoSource o = .dieTemp) :
    s.codeFor o x = clipCode ((x + 40) / 165 * 262144) := by
  simp [State.codeFor, State.codeOf, h]

theorem State.codeFor_deviation {s : State} {o : OutNo} {x q : Rat} (h : s.aoSource o ≠ .dieTemp)
    (hq : s.deviation o x = some q) : s.codeFor o x = clipCode (131072 * (1 + q)) := by
  simp [State.codeFor, State.codeOf, h, hq]

/-- The code an update writes: that of its source value, or the previous one again (R464). -/
def State.nextCode (s : State) (o : OutNo) (connecting : Bool) : BitVec 18 × Bool :=
  match s.updateValue o connecting with
  | some x => s.codeFor o x
  | none => ((s.ao.outs.get o).code, (s.ao.outs.get o).saturated)

/-- The output with its code written. -/
def State.written (s : State) (o : OutNo) (connecting : Bool) : Output :=
  { s.ao.outs.get o with
    code := (s.nextCode o connecting).1, saturated := (s.nextCode o connecting).2
    codeAt := if (s.ao.outs.get o).code = (s.nextCode o connecting).1 then (s.ao.outs.get o).codeAt else s.clock
    wrote := some { cycle := s.cycle, code := (s.ao.outs.get o).code, saturated := (s.ao.outs.get o).saturated,
                    codeAt := (s.ao.outs.get o).codeAt }
    trims := s.cal.work.bind fun w => w.outs.get o }

theorem State.writeCode_eq (s : State) (o : OutNo) (connecting : Bool) :
    ∃ f : Nat, s.writeCode o connecting = State.modOut { s with free := f } o fun _ => s.written o connecting := by
  unfold State.writeCode State.written State.nextCode
  cases s.updateValue o connecting with
  | none => exact ⟨s.free, rfl⟩
  | some x =>
    obtain ⟨f, hf⟩ := s.codeOf_state o x
    refine ⟨f, ?_⟩
    dsimp only
    rw [hf]
    rfl

/-- The output after an update: its code written where it is driven, connected where it is ready, and the values used up. -/
def State.outAfter (s : State) (o : OutNo) : Output :=
  Output.consume
    (if s.power.brace = true then s.ao.outs.get o
    else if (s.ao.outs.get o).st = .driven then s.written o false
    else if (s.ao.outs.get o).st = .ready then
      { s.written o true with
        st := .driven, connectedAt := s.clock, readAt := s.clock, mismatches := 0, codeAt := s.clock }
    else s.ao.outs.get o) s.cycle

/-- An update of an output writes it alone, and may draw the free value of its code. -/
theorem State.updateOutput_eq (s : State) (o : OutNo) :
    ∃ f : Nat, s.updateOutput o = { s with free := f, ao := { s.ao with outs := s.ao.outs.set o (s.outAfter o) } } := by
  unfold State.updateOutput State.outAfter
  dsimp only
  split
  · exact ⟨s.free, rfl⟩
  · split
    · obtain ⟨f, hf⟩ := s.writeCode_eq o false
      exact ⟨f, by rw [hf, State.modOut_modOut]; rfl⟩
    · split
      · obtain ⟨f, hf⟩ := s.writeCode_eq o true
        exact ⟨f, by rw [hf, State.modOut_modOut, State.modOut_modOut]; rfl⟩
      · exact ⟨s.free, rfl⟩

/-- What an update leaves of an output, in the terms of R463, R464 and R469. -/
def OutUpdated (u : State) (o : OutNo) (b : Output) : Prop :=
  b.last = (u.ao.outs.get o).latest u.cycle ∧
    (u.power.brace = true → b = (u.ao.outs.get o).consume u.cycle) ∧
    ((u.ao.outs.get o).st ≠ .driven → (u.ao.outs.get o).st ≠ .ready → b = (u.ao.outs.get o).consume u.cycle) ∧
    (u.power.brace = false → (u.ao.outs.get o).st = .driven → b.st = .driven ∧
      (u.updateValue o false = none → b.code = (u.ao.outs.get o).code) ∧
      (∀ x q : Rat, u.updateValue o false = some x → u.aoSource o ≠ .dieTemp → u.deviation o x = some q →
        b.code = (clipCode (131072 * (1 + q))).1) ∧
      (∀ x : Rat, u.updateValue o false = some x → u.aoSource o = .dieTemp →
        b.code = (clipCode ((x + 40) / 165 * 262144)).1)) ∧
    (u.power.brace = false → (u.ao.outs.get o).st = .ready →
      b.st = .driven ∧ b.connectedAt = u.clock ∧
      (∀ x q : Rat, (u.ao.outs.get o).latest u.cycle = some x → u.aoSource o ≠ .dieTemp →
        u.deviation o x = some q → b.code = (clipCode (131072 * (1 + q))).1))

/-- An update that connects takes the most recent value, also under "mean" (R463). -/
theorem State.updateValue_connecting (s : State) (o : OutNo) : s.updateValue o true = (s.ao.outs.get o).latest s.cycle :=
  if_neg (by simp)

theorem State.nextCode_of_value {s : State} {o : OutNo} {connecting : Bool} {x : Rat}
    (h : s.updateValue o connecting = some x) : s.nextCode o connecting = s.codeFor o x := by
  rw [State.nextCode, h]

theorem State.nextCode_of_none {s : State} {o : OutNo} {connecting : Bool} (h : s.updateValue o connecting = none) :
    s.nextCode o connecting = ((s.ao.outs.get o).code, (s.ao.outs.get o).saturated) := by
  rw [State.nextCode, h]

theorem State.outAfter_updated (s : State) (o : OutNo) : OutUpdated s o (s.outAfter o) := by
  have hlast : (s.outAfter o).last = (s.ao.outs.get o).latest s.cycle := by
    unfold State.outAfter
    split
    · rfl
    · split
      · rfl
      · split <;> rfl
  refine ⟨hlast, fun hbrace => ?_, fun hdriven hready => ?_, fun hbrace hdriven => ?_, fun hbrace hready => ?_⟩
  · rw [State.outAfter, if_pos hbrace]
  · rw [State.outAfter, if_neg hdriven, if_neg hready, ite_self]
  · rw [State.outAfter, if_neg (by simp [hbrace]), if_pos hdriven]
    have hcode : ((s.written o false).consume s.cycle).code = (s.nextCode o false).1 := rfl
    rw [hcode]
    refine ⟨hdriven, fun hnone => ?_, fun x q hx hsource hq => ?_, fun x hx hsource => ?_⟩
    · rw [State.nextCode_of_none hnone]
    · rw [State.nextCode_of_value hx, State.codeFor_deviation hsource hq]
    · rw [State.nextCode_of_value hx, State.codeFor_dieTemp x hsource]
  · rw [State.outAfter, if_neg (by simp [hbrace]), if_neg (by simp [hready]), if_pos hready]
    refine ⟨rfl, rfl, fun x q hx hsource hq => ?_⟩
    show (s.nextCode o true).1 = _
    rw [State.nextCode_of_value ((s.updateValue_connecting o).trans hx), State.codeFor_deviation hsource hq]

/-! ### OUTPUT_UPDATE (R247, R248) -/

theorem State.outputUpdate_of_due {s : State} {i : Fin 16} {at_ : Nat} (hset : s.tb.epochSet = true)
    (hdue : s.updateDue = some (i, at_)) :
    s.outputUpdate =
      { ((s.updateOutput 0).updateOutput 1).issue i with
        sched := { (((s.updateOutput 0).updateOutput 1).issue i).sched with updatedAt := some at_ } } := by
  simp only [State.outputUpdate, hdue, hset, if_true]
  rfl

/-- AO0 is updated, then AO1, which finds nothing of it changed. -/
theorem State.updateOutputs_updated (s : State) (o : OutNo) :
    OutUpdated s o (((s.updateOutput 0).updateOutput 1).ao.outs.get o) := by
  obtain ⟨f, hfirst⟩ := s.updateOutput_eq 0
  obtain ⟨g, hsecond⟩ := (s.updateOutput 0).updateOutput_eq 1
  rw [hsecond]
  match o with
  | 0 =>
    show OutUpdated s 0 ((s.updateOutput 0).ao.outs.get 0)
    rw [hfirst]
    exact s.outAfter_updated 0
  | 1 =>
    show OutUpdated s 1 ((s.updateOutput 0).outAfter 1)
    rw [hfirst]
    exact State.outAfter_updated { s with free := f, ao := { s.ao with outs := s.ao.outs.set 0 (s.outAfter 0) } } 1

theorem State.updateOutputs_issue_sched (s : State) (i : Fin 16) :
    (((s.updateOutput 0).updateOutput 1).issue i).sched = (s.issue i).sched := by
  obtain ⟨f, hfirst⟩ := s.updateOutput_eq 0
  obtain ⟨g, hsecond⟩ := (s.updateOutput 0).updateOutput_eq 1
  rw [hsecond, hfirst]
  rfl

/-! ### READ_BACK (R473, R474) -/

/-- The measured level lies more than 0.5 % of the span off. -/
def State.offLevel (s : State) (o : OutNo) (measured : Int) : Bool :=
  decide (((spanHigh (s.aoSpan o) - spanLow (s.aoSpan o) : Int) : Rat) / 200 <
    |(measured : Rat) - s.level o (s.ao.outs.get o).code|)

/-- The output with one more valid read-back. -/
def State.readOut (s : State) (o : OutNo) (off : Bool) : Output :=
  { s.ao.outs.get o with readAt := s.clock, mismatches := if off then (s.ao.outs.get o).mismatches + 1 else 0 }

/-- The read-back is valid, and made: driven, outside runs and brace, 20 µs after the code. -/
def State.readValid (s : State) (o : OutNo) : Bool :=
  (s.ao.outs.get o).st == .driven && s.cal.run.isNone && s.detectorsOn &&
    decide (20 * Config.us ≤ s.clock - (s.ao.outs.get o).codeAt)

theorem State.readBack_eq (s : State) (o : OutNo) (measured : Int) :
    s.readBack o measured =
      if s.readValid o = true then
        if (s.offLevel o measured && decide (3 ≤ (s.ao.outs.get o).mismatches + 1)) = true then
          (s.modOut o fun _ => s.readOut o (s.offLevel o measured)).faultOutput o 0x51
            (BitVec.ofInt 32 (roundRat (s.level o (s.ao.outs.get o).code))) (BitVec.ofInt 32 measured)
        else s.modOut o fun _ => s.readOut o (s.offLevel o measured)
      else s := by
  unfold State.readBack State.readValid State.offLevel
  rw [Int.cast_sub]
  rfl

theorem State.readBack_of_invalid {s : State} {o : OutNo} (measured : Int) (h : s.readValid o = false) :
    s.readBack o measured = s := by
  rw [State.readBack_eq, if_neg (by simp [h])]

theorem State.readBack_of_few {s : State} {o : OutNo} {measured : Int} {off : Bool} (hvalid : s.readValid o = true)
    (hoff : off = s.offLevel o measured) (hfew : off = false ∨ (s.ao.outs.get o).mismatches < 2) :
    s.readBack o measured = s.modOut o fun _ => s.readOut o off := by
  have hnot : ¬(s.offLevel o measured && decide (3 ≤ (s.ao.outs.get o).mismatches + 1)) = true := by
    rw [← hoff]
    obtain h | h := hfew
    · simp [h]
    · simp [show ¬3 ≤ (s.ao.outs.get o).mismatches + 1 by omega]
  rw [State.readBack_eq, if_pos hvalid, if_neg hnot, hoff]

theorem State.readBack_of_third {s : State} {o : OutNo} {measured : Int} (hvalid : s.readValid o = true)
    (hoff : s.offLevel o measured = true) (hthird : 2 ≤ (s.ao.outs.get o).mismatches) :
    s.readBack o measured = (s.modOut o fun _ => s.readOut o true).faultOutput o 0x51
      (BitVec.ofInt 32 (roundRat (s.level o (s.ao.outs.get o).code))) (BitVec.ofInt 32 measured) := by
  rw [State.readBack_eq, if_pos hvalid, if_pos (by simp [hoff]; omega), hoff]

/-- Read-backs and mismatches are none of what a fault takes back. -/
theorem State.readOut_unwritten_code (s : State) (o : OutNo) (off : Bool) (cycle : Nat) :
    ((s.readOut o off).unwritten cycle).code = ((s.ao.outs.get o).unwritten cycle).code := by
  unfold Output.unwritten State.readOut
  dsimp only
  split
  · split <;> rfl
  · rfl

end Sys2Proof.Machine

open Sys2Proof Sys2Proof.Machine

/-- Settles O47: an update does its outputs one after the other, and a read-back counts what lies off. -/
theorem outputsUpdateAndReadBack : Obligations.OutputsUpdateAndReadBack := by
  refine ⟨fun dt at_ i s u hu hset hdue => ?update, fun dt s u o measured off hu hoff => ⟨fun hinvalid => ?invalid,
    fun hsince hbrace hreturn hrun hst => ?_⟩⟩
  case update =>
    refine ⟨_, hu ▸ exec_outputUpdate dt s, State.outputUpdate_same u, ?_⟩
    rw [State.outputUpdate_of_due hset hdue]
    exact ⟨congrArg (fun q : Sched => { q with updatedAt := some at_ }) (u.updateOutputs_issue_sched i),
      fun o => u.updateOutputs_updated o⟩
  case invalid =>
    have hnot : u.readValid o = false := by
      have hus : 20 * Config.us = 80000000 := rfl
      obtain h | h | h | h := hinvalid
      · simp [State.readValid, hus, Nat.not_le.mpr h]
      · simp [State.readValid, State.detectorsOn, h]
      · simp [State.readValid, Option.isSome_iff_ne_none.mp h]
      · simp [State.readValid, h]
    rw [exec_readBack, ← hu, State.readBack_of_invalid measured hnot]
  have hvalid : u.readValid o = true := by
    have hus : 20 * Config.us ≤ u.clock - (u.ao.outs.get o).codeAt := hsince
    simp [State.readValid, hst, hrun, hus, State.detectorsOn_of_settled hbrace hreturn]
  refine ⟨fun hfew => ?few, fun hbad hthird => ?third⟩
  case few =>
    rw [exec_readBack, ← hu, State.readBack_of_few hvalid hoff hfew]
    rfl
  case third =>
    have hlevel : u.offLevel o measured = true := hoff.symm.trans hbad
    refine ⟨_, hu ▸ exec_readBack dt o measured s, State.readBack_same u o measured, ?_⟩
    obtain ⟨hao, hfaults⟩ := (u.modOut o fun _ => u.readOut o true).faultOutput_ao_faults o 0x51
      (BitVec.ofInt 32 (roundRat (u.level o (u.ao.outs.get o).code))) (BitVec.ofInt 32 measured)
    rw [State.readBack_of_third hvalid hlevel hthird, hao, hfaults]
    dsimp only
    rw [Per2.get_set_same]
    refine ⟨rfl, ?_, rfl⟩
    show (((u.modOut o fun _ => u.readOut o true).ao.outs.get o).unwritten u.cycle).code = _
    rw [State.modOut, Per2.get_set_same, State.readOut_unwritten_code]
end

section
/-! The snapshot port: latching, reading and releasing a group (R428 to R450). -/

namespace Sys2Proof.Machine
open Sys2Proof

theorem exec_snapshotPresentation (dt : Nat) (sa : BitVec 9) (hold : Nat) (s : State) :
    exec (.snapshotPresentation dt sa hold) s = .next ((advance dt s).presentation sa hold) := rfl

theorem exec_snapshotGroupTimeout (dt : Nat) (g : Group) (s : State) :
    exec (.snapshotGroupTimeout dt g) s = .next ((advance dt s).groupTimeout g) := rfl

/-! ### The words of a group (R441) -/

theorem groupWords_nodup (g : Group) : (groupWords g).Nodup := by
  cases g with
  | stitch c | sample c | counter c | result c => revert c; decide
  | identity | time | configuration | status | pps | phase | count | output => decide

theorem two_le_length_groupWords (g : Group) : 2 ≤ (groupWords g).length := by
  cases g <;> simp [groupWords]

theorem idxOf_groupWords {g : Group} {i w : Nat} (h : (groupWords g)[i]? = some w) : (groupWords g).idxOf w = i := by
  obtain ⟨hi, rfl⟩ := List.getElem?_eq_some_iff.mp h
  exact (groupWords_nodup g).idxOf_getElem i hi

/-- One word is not all of a group. -/
theorem exists_other_word (g : Group) (w : Nat) : ∃ x ∈ groupWords g, x ≠ w := by
  by_contra hall
  have hrep : groupWords g = List.replicate (groupWords g).length w :=
    List.eq_replicate_of_mem fun x hx => by_contra fun hne => hall ⟨x, hx, hne⟩
  have hone : (groupWords g).length ≤ 1 := List.nodup_replicate.mp (hrep ▸ groupWords_nodup g)
  have := two_le_length_groupWords g
  omega

/-! ### One latch -/

/-- The latch a presentation makes: what the group's words held at the end of the cycle before (R443). -/
def State.freshLatch (s : State) (g : Group) : Latch :=
  { g := g, words := s.cycleBefore.groupNow g, readLow := [], readHigh := [], lastAt := s.clock }

/-- A latch after a presentation of a word that ends at `fin`: it counts as a read when it lasted long enough (R445). -/
def Latch.presented (l : Latch) (w : Nat) (low high counts : Bool) (fin : Nat) : Latch :=
  { (if counts then l.count w low high else l) with lastAt := fin }

theorem Latch.presented_words (l : Latch) (w : Nat) (low high counts : Bool) (fin : Nat) :
    (l.presented w low high counts fin).words = l.words := by
  cases counts <;> rfl

theorem Latch.presented_g (l : Latch) (w : Nat) (low high counts : Bool) (fin : Nat) :
    (l.presented w low high counts fin).g = l.g := by
  cases counts <;> rfl

theorem contains_readAgain (ws : List Nat) (w x : Nat) (b : Bool) :
    (if b then w :: ws.erase w else ws).contains x = true ↔ b = true ∧ x = w ∨ ws.contains x = true := by
  by_cases hx : x = w <;> cases b <;> simp [hx, List.mem_erase_of_ne]

theorem Latch.allRead_presented_iff (l : Latch) (w : Nat) (low high : Bool) (fin : Nat) :
    (l.presented w low high true fin).allRead = true ↔
      ∀ x ∈ groupWords l.g, (low = true ∧ x = w ∨ l.readLow.contains x = true) ∧
        (high = true ∧ x = w ∨ l.readHigh.contains x = true) := by
  simp only [Latch.allRead, Latch.presented, Latch.count, if_true, List.all_eq_true, Bool.and_eq_true,
    contains_readAgain]

/-- A group is not released by the presentation that latches it. -/
theorem State.allRead_freshLatch (s : State) (g : Group) (w : Nat) (low high counts : Bool) (fin : Nat) :
    ((s.freshLatch g).presented w low high counts fin).allRead = false := by
  obtain ⟨x, hx, hne⟩ := exists_other_word g w
  cases counts with
  | true =>
    rw [Bool.eq_false_iff, ne_eq, Latch.allRead_presented_iff]
    exact fun hall => by simpa [State.freshLatch, hne] using (hall x hx).1
  | false => exact List.all_eq_false.mpr ⟨x, hx, by simp [Latch.presented, State.freshLatch]⟩

/-! ### The latches of the port (R443, R444) -/

theorem State.purge_none {s : State} {g : Group} (h : s.latchOf g = none) : s.purge g = s := by
  simp only [State.purge, h]

theorem State.purge_recent {s : State} {g : Group} {l : Latch} (h : s.latchOf g = some l)
    (hl : s.clock ≤ l.lastAt + 8200000) : s.purge g = s := by
  have hns : 2050 * Config.ns = 8200000 := rfl
  simp only [State.purge, h, hns, if_neg (Nat.not_lt.mpr hl)]

theorem latchOf_g {ls : List Latch} {g : Group} {l : Latch} (h : ls.find? (fun x => x.g == g) = some l) : l.g = g := by
  simpa using List.find?_some h

theorem map_latches_of_none {ls : List Latch} {g : Group} (h : ls.find? (fun x => x.g == g) = none) (l' : Latch) :
    (ls.map fun x => if x.g == g then l' else x) = ls := by
  have hne : ∀ x ∈ ls, ¬ (x.g == g) = true := List.find?_eq_none.mp h
  calc (ls.map fun x => if x.g == g then l' else x) = ls.map id :=
        List.map_congr_left fun x hx => if_neg (hne x hx)
    _ = ls := List.map_id ls

/-- What the low and the high byte of the presentation read, by SBYTE and SA0 (R430, R431). -/
def State.readsLow (s : State) (sa : BitVec 9) : Bool := !(s.strap.sbyte && sa.getLsbD 0)

def State.readsHigh (s : State) (sa : BitVec 9) : Bool := !s.strap.sbyte || sa.getLsbD 0

/-- A presentation that latches its group. -/
theorem State.presentGroup_fresh {s : State} {g : Group} (h : s.latchOf g = none) (sa : BitVec 9) (w : Nat) (counts : Bool)
    (fin : Nat) :
    s.presentGroup g sa w true counts fin =
      { s with snap := { s.snap with
        sd := s.drives sa ((s.freshLatch g).word w)
        latches := s.snap.latches ++
          [(s.freshLatch g).presented w (s.readsLow sa) (s.readsHigh sa) counts fin] } } := by
  have hlatch : s.latchGroup g = { s with snap := { s.snap with latches := s.snap.latches ++ [s.freshLatch g] } } := by
    simp only [State.latchGroup, h]; rfl
  have hof : State.latchOf { s with snap := { s.snap with latches := s.snap.latches ++ [s.freshLatch g] } } g =
      some (s.freshLatch g) := by
    have hg : ((s.freshLatch g).g == g) = true := beq_self_eq_true g
    simp only [State.latchOf] at h ⊢
    rw [List.find?_append, h, Option.none_or, List.find?_cons_of_pos (p := fun l : Latch => l.g == g) hg]
  have hread := s.allRead_freshLatch g w (s.readsLow sa) (s.readsHigh sa) counts fin
  have hmap : ((s.snap.latches ++ [s.freshLatch g]).map fun x =>
      if x.g == g then (s.freshLatch g).presented w (s.readsLow sa) (s.readsHigh sa) counts fin else x) =
      s.snap.latches ++ [(s.freshLatch g).presented w (s.readsLow sa) (s.readsHigh sa) counts fin] := by
    rw [List.map_append, map_latches_of_none h]
    simp [State.freshLatch]
  unfold State.presentGroup
  simp only [State.purge_none h, if_true, hlatch, hof]
  refine (if_neg (ne_true_of_eq_false hread)).trans ?_
  exact congrArg (fun ls => ({ s with snap := { s.snap with
    sd := s.drives sa ((s.freshLatch g).word w), latches := ls } } : State)) hmap

/-- A presentation of a word of a group that is latched already. -/
theorem State.presentGroup_latched {s : State} {g : Group} {l : Latch} (h : s.latchOf g = some l)
    (hl : s.clock ≤ l.lastAt + 8200000) (sa : BitVec 9) (w : Nat) (counts : Bool) (fin : Nat) :
    s.presentGroup g sa w true counts fin =
      { s with snap := { s.snap with
        sd := s.drives sa (l.word w)
        latches :=
          if (l.presented w (s.readsLow sa) (s.readsHigh sa) counts fin).allRead then
            s.snap.latches.filter fun x => x.g != g
          else s.snap.latches.map fun x =>
            if x.g == g then l.presented w (s.readsLow sa) (s.readsHigh sa) counts fin else x } } := by
  have hlatch : s.latchGroup g = s := by simp only [State.latchGroup, h]
  unfold State.presentGroup
  simp only [State.purge_recent h hl, if_true, hlatch, h]
  cases hread : (l.presented w (s.readsLow sa) (s.readsHigh sa) counts fin).allRead with
  | true => exact (if_pos hread).trans rfl
  | false => exact (if_neg (ne_true_of_eq_false hread)).trans rfl

/-! ### A presentation (R428 to R433, R642) -/

/-- The port with SCS_N and SOE_N low until `fin`. -/
def State.selected (s : State) (fin : Nat) : State := { s with snap := { s.snap with selectedTo := fin } }

theorem State.valid_selected {s : State} {hold : Nat} (fin : Nat) (hload : s.snap.load ≤ 60)
    (hhold : 12000 + 80 * (s.snap.load - 30) ≤ hold) : (s.selected fin).snap.valid hold = true := by
  by_cases h30 : s.snap.load ≤ 30
  · simp only [Snap.valid, Snap.validAfter, State.selected, h30, if_true, decide_eq_true_eq]
    omega
  · simp only [Snap.valid, Snap.validAfter, State.selected, h30, hload, if_true, if_false, decide_eq_true_eq]
    exact hhold

/-- A word of a group presented for `hold` ps, from 4 ns on: SD carries it once it is valid. -/
theorem State.presentation_group {s : State} {sa : BitVec 9} {hold : Nat} {g : Group} (hup : s.snap.up = true)
    (h4 : 4000 ≤ hold) (hg : groupOf (sa.toNat / 2) = some g) :
    s.presentation sa hold =
      (let t := (s.selected (s.clock + 4 * hold)).presentGroup g sa (sa.toNat / 2) true (decide (12000 ≤ hold))
        (s.clock + 4 * hold)
      if (s.selected (s.clock + 4 * hold)).snap.valid hold then t
      else t.drawNat.2.modSnap fun p => { p with sd := s.drives sa (BitVec.ofNat 16 t.drawNat.1) }) := by
  have h1 : ¬ hold ≤ 2000 := by omega
  have h2 : ¬ hold < 4000 := by omega
  unfold State.presentation
  simp only [hup, Bool.not_true, if_neg h1, if_neg h2, hg]
  rfl

theorem State.presentation_short_latches {s : State} {sa : BitVec 9} {hold : Nat} (hup : s.snap.up = true)
    (h2 : hold ≤ 2000) : (s.presentation sa hold).snap.latches = s.snap.latches := by
  unfold State.presentation
  simp only [hup, Bool.not_true, if_pos h2, Bool.false_eq_true, if_false]
  cases groupOf (sa.toNat / 2) <;> exact (apply_ite (fun t : State => t.snap.latches) _ _ _).trans (ite_self _)

theorem State.presentation_reserved {s : State} {sa : BitVec 9} {hold : Nat} (hup : s.snap.up = true)
    (hload : s.snap.load ≤ 60) (hhold : 12000 + 80 * (s.snap.load - 30) ≤ hold) (hg : groupOf (sa.toNat / 2) = none) :
    s.presentation sa hold =
      { s with snap := { s.snap with sd := s.drives sa 0, selectedTo := s.clock + 4 * hold } } := by
  have hvalid := State.valid_selected (s.clock + 4 * hold) hload hhold
  have h1 : ¬ hold ≤ 2000 := by omega
  have h2 : ¬ hold < 4000 := by omega
  have hnot : ¬ (!s.snap.up) = true := by simp [hup]
  refine (if_neg hnot).trans ?_
  simp only [if_neg h1, if_neg h2, hg]
  exact if_pos hvalid

theorem State.presentation_down {s : State} {sa : BitVec 9} {hold : Nat} (hup : s.snap.up = false) :
    s.presentation sa hold = { s with snap := { s.snap with sd := .hiz, selectedTo := 0 } } := by
  have hnot : (!s.snap.up) = true := by simp [hup]
  exact if_pos hnot

/-- The word a latching presentation carries is the group's as the cycle before left it. -/
theorem State.latches_presentation_fresh {s : State} {sa : BitVec 9} {hold : Nat} {g : Group} (hup : s.snap.up = true)
    (h4 : 4000 ≤ hold) (hg : groupOf (sa.toNat / 2) = some g) (hnone : s.latchOf g = none) :
    (s.presentation sa hold).snap.latches = s.snap.latches ++
      [(s.freshLatch g).presented (sa.toNat / 2) (s.readsLow sa) (s.readsHigh sa) (decide (12000 ≤ hold))
        (s.clock + 4 * hold)] := by
  rw [State.presentation_group hup h4 hg, State.presentGroup_fresh (s := s.selected (s.clock + 4 * hold)) hnone]
  exact (apply_ite (fun t : State => t.snap.latches) _ _ _).trans (ite_self _)

/-- A latching presentation that lasts until SD is valid. -/
theorem State.presentation_valid {s : State} {sa : BitVec 9} {hold : Nat} {g : Group} (hup : s.snap.up = true)
    (hload : s.snap.load ≤ 60) (hhold : 12000 + 80 * (s.snap.load - 30) ≤ hold) (hg : groupOf (sa.toNat / 2) = some g) :
    s.presentation sa hold =
      (s.selected (s.clock + 4 * hold)).presentGroup g sa (sa.toNat / 2) true true (s.clock + 4 * hold) := by
  have h4 : 4000 ≤ hold := by omega
  have h12 : decide (12000 ≤ hold) = true := decide_eq_true (by omega)
  rw [State.presentation_group hup h4 hg]
  simp only [State.valid_selected _ hload hhold, if_true, h12]

theorem State.sdNow_of_selected {s : State} (h : s.clock < s.snap.selectedTo) : s.sdNow = s.snap.sd := if_pos h

theorem State.sdNow_of_ended {s : State} (h : s.snap.selectedTo ≤ s.clock) : s.sdNow = .hiz := if_neg (Nat.not_lt.mpr h)

theorem State.groupTimeout_eq {s : State} {g : Group} {l : Latch} (h : s.latchOf g = some l) :
    s.groupTimeout g = if l.lastAt + 8000000 ≤ s.clock then
      { s with snap := { s.snap with latches := s.snap.latches.filter fun l => l.g != g } } else s := by
  unfold State.groupTimeout
  simp only [h]
  rfl

end Sys2Proof.Machine

open Sys2Proof Sys2Proof.Machine

theorem does_snapshot_fresh {dt hold i : Nat} {s u : State} {sa : BitVec 9} {g : Group} (hu : u = advance dt s)
    (hup : u.snap.up = true) (hload : u.snap.load ≤ 60) (hhold : 12000 + 80 * (u.snap.load - 30) ≤ hold)
    (hg : groupOf (sa.toNat / 2) = some g) (hi : (groupWords g)[i]? = some (sa.toNat / 2))
    (hnone : u.latchOf g = none) :
    Does (.snapshotPresentation dt sa hold) s u [.snap] fun t =>
      t.snap.sd = u.drives sa ((u.cycleBefore.groupNow g).getD i 0) ∧ t.sdNow = t.snap.sd ∧
        t.snap.latches = u.snap.latches ++
          [{ g := g, words := u.cycleBefore.groupNow g, readLow := if u.readsLow sa then [sa.toNat / 2] else []
             readHigh := if u.readsHigh sa then [sa.toNat / 2] else [], lastAt := u.clock + 4 * hold }] := by
  have hword : (u.freshLatch g).word (sa.toNat / 2) = (u.cycleBefore.groupNow g).getD i 0 :=
    congrArg ((u.cycleBefore.groupNow g).getD · 0) (idxOf_groupWords hi)
  have hnow : u.clock < u.clock + 4 * hold := by omega
  rw [Does, exec_snapshotPresentation, ← hu, State.presentation_valid hup hload hhold hg,
    State.presentGroup_fresh (s := u.selected (u.clock + 4 * hold)) hnone]
  refine ⟨_, rfl, .upd_snap rfl (.upd_snap rfl (.refl _ _)), congrArg (u.drives sa) hword, State.sdNow_of_selected hnow, rfl⟩

theorem does_snapshot_latched {dt hold i : Nat} {s u : State} {sa : BitVec 9} {g : Group} {l : Latch} (hu : u = advance dt s)
    (hup : u.snap.up = true) (hload : u.snap.load ≤ 60) (hhold : 12000 + 80 * (u.snap.load - 30) ≤ hold)
    (hg : groupOf (sa.toNat / 2) = some g) (hi : (groupWords g)[i]? = some (sa.toNat / 2))
    (hl : u.latchOf g = some l) (hrecent : u.clock ≤ l.lastAt + 8200000) :
    Does (.snapshotPresentation dt sa hold) s u [.snap] fun t =>
      t.snap.sd = u.drives sa (l.words.getD i 0) ∧
        t.snap.latches =
          if (l.presented (sa.toNat / 2) (u.readsLow sa) (u.readsHigh sa) true (u.clock + 4 * hold)).allRead then
            u.snap.latches.filter fun x => x.g != g
          else u.snap.latches.map fun x => if x.g == g then
            l.presented (sa.toNat / 2) (u.readsLow sa) (u.readsHigh sa) true (u.clock + 4 * hold) else x := by
  have hword : l.word (sa.toNat / 2) = l.words.getD i 0 := by
    rw [Latch.word, latchOf_g hl, idxOf_groupWords hi]
  rw [Does, exec_snapshotPresentation, ← hu, State.presentation_valid hup hload hhold hg,
    State.presentGroup_latched (s := u.selected (u.clock + 4 * hold)) hl hrecent]
  exact ⟨_, rfl, .upd_snap rfl (.upd_snap rfl (.refl _ _)), congrArg (u.drives sa) hword, rfl⟩

/-- Settles O46: a presentation of a latched group reads the latch, one of another makes it from the cycle before, and the
group goes when every word of it has been read. -/
theorem snapshotsLatch : Obligations.SnapshotsLatch := by
  unfold Obligations.SnapshotsLatch
  intro dt s u sa hold low high out hu hlow hhigh hout
  have hout' : out = u.drives sa := funext hout
  have hlow' : low = u.readsLow sa := hlow.trans (Bool.not_and _ _).symm
  have hhigh' : high = u.readsHigh sa := hhigh
  subst hout' hlow' hhigh'
  have hexec : exec (.snapshotPresentation dt sa hold) s = .next (u.presentation sa hold) := hu ▸ rfl
  refine ⟨fun hup => ?_, fun hup hload hhold => ⟨fun g i hg hi => ⟨fun hnone => ?_, fun l hl hrecent => ?_⟩, fun hg => ?_⟩,
    fun hup h2 => ?_, fun g hup h4 hg hnone => ?_, State.sdNow_of_ended, fun g l hl => ?_⟩
  · rw [hexec, State.presentation_down hup]
  · exact does_snapshot_fresh hu hup hload hhold hg hi hnone
  · obtain ⟨t, ht, hsame, hsd, hlatches⟩ := does_snapshot_latched hu hup hload hhold hg hi hl hrecent
    have hiff := l.allRead_presented_iff (sa.toNat / 2) (u.readsLow sa) (u.readsHigh sa) (u.clock + 4 * hold)
    rw [latchOf_g hl] at hiff
    refine ⟨t, ht, hsame, hsd, fun hall => ?_, fun ⟨x, hx, hnot⟩ => ?_⟩
    · rw [hlatches, if_pos (hiff.mpr hall)]
    · rw [hlatches, if_neg fun hread => hnot (hiff.mp hread x hx)]
      rfl
  · rw [hexec, State.presentation_reserved hup hload hhold hg]
  · exact ⟨_, hexec, State.presentation_same u sa hold, State.presentation_short_latches hup h2⟩
  · refine ⟨_, hexec, State.presentation_same u sa hold, ?_⟩
    have hfind : u.snap.latches.find? (fun l => l.g == g) = none := hnone
    show ((u.presentation sa hold).snap.latches.find? fun l => l.g == g).map (·.words) = _
    rw [State.latches_presentation_fresh hup h4 hg hnone, List.find?_append, hfind, Option.none_or,
      List.find?_cons_of_pos (p := fun l : Latch => l.g == g) (by simp [Latch.presented_g, State.freshLatch])]
    exact congrArg some (Latch.presented_words _ _ _ _ _ _)
  · rw [exec_snapshotGroupTimeout, ← hu, State.groupTimeout_eq hl]

end

section
/-! HOSTRDY, discovery, a lost partner and a short circuit at the stream port (R407 to R427). -/

namespace Sys2Proof.Machine
open Sys2Proof

/-! ### What each command runs -/

theorem exec_hostrdyHigh (dt hi : Nat) (s : State) :
    exec (.hostrdyHigh ⟨dt, hi⟩) s =
      .next (if hi < 1000000000 then advance dt s else (advance dt s).when (advance dt s).outOfReset fun t => t.hostHigh) := by
  show Host.Outcome.next (State.onPin ..) = _
  rw [State.onPin_hostrdy]
  rfl

theorem exec_hostrdyLow (dt low : Nat) (s : State) :
    exec (.hostrdyLow ⟨dt, low⟩) s =
      .next (if low < 1000000 then advance dt s else (advance dt s).when (advance dt s).outOfReset fun t => t.hostLow) := by
  show Host.Outcome.next (State.onPin ..) = _
  rw [State.onPin_hostrdy]
  rfl

theorem exec_discovery (dt : Nat) (s : State) : exec (.discovery dt) s = .next (advance dt s).discover := rfl

theorem exec_partnerLoss (dt : Nat) (s : State) : exec (.partnerLoss dt) s = .next (advance dt s).partnerLoss := rfl

theorem exec_streamShortCircuit (dt : Nat) (lane : Fin 5) (s : State) :
    exec (.streamShortCircuit dt lane) s = .next ((advance dt s).shortCircuit lane) := rfl

/-! ### Cut-off (R420, R421) -/

/-- The cut-off skeins once `x` is among them: the one of its side, introduction or drain, is this one. -/
def Tx.cutAfter (x : Tx) (cut : List (Src × BitVec 16 × BitVec 32)) : List (Src × BitVec 16 × BitVec 32) :=
  (cut.filter fun c => (c.1 == Src.intro) != (x.src == Src.intro)) ++ [(x.src, x.skein.session, x.skein.seq)]

theorem Tx.mem_cutAfter (x : Tx) (cut : List (Src × BitVec 16 × BitVec 32)) :
    (x.cutAfter cut).contains (x.src, x.skein.session, x.skein.seq) = true := by
  simp [Tx.cutAfter]

/-- The repeat marker as it enters the hardware markers' input. -/
def State.againItem (s : State) (x : Tx) : Item :=
  { st := .again s.tb.time x.skein.seq x.skein.session, session := s.tb.session, full := s.full }

theorem State.hwMarker_eq (s : State) (st : Stitch) :
    s.hwMarker st = { s with chain := s.chain.offered { st := st, session := s.tb.session, full := s.full } } := by
  have hempty : (s.chain.hwWait.isEmpty && decide (s.chain.buffer.length < 8)) = true ↔
      s.chain.hwWait = [] ∧ s.chain.buffer.length < 8 := by simp
  unfold State.hwMarker Chain.offered
  simp only [hempty]
  rfl

theorem State.cutOff_of_flight {s : State} {x : Tx} (htx : s.port.tx = some x) (hlow : x.lowSeen = false)
    (hgone : x.gone = false) :
    s.cutOff false = { s with
      port := { s.port with tx := some { x with lowSeen := true }, cut := x.cutAfter s.port.cut }
      chain := s.chain.offered (s.againItem x)
      faults := s.faults.logged 0x42 s.tb.time 0xFF x.skein.seq (x.skein.session.setWidth 32) } := by
  have hdetail : BitVec.ofNat 32 (x.skein.session.toNat + 65536 * boolNat false) = x.skein.session.setWidth 32 := by
    apply BitVec.eq_of_toNat_eq
    simp [boolNat]
  simp only [State.cutOff, htx, hlow, hgone, Bool.or_self, Bool.false_eq_true, if_false, State.hwMarker_eq, State.log_eq,
    hdetail]
  rfl

/-! ### HOSTRDY high (R407, R410) -/

/-- The port with HOSTRDY high. -/
def State.hostUp (s : State) : State := { s with port := { s.port with host := true, shorted := false } }

theorem State.hostHigh_of_high {s : State} (h : s.port.host = true) : s.hostHigh = s := if_pos h

theorem State.hostHigh_of_unpaused {s : State} (h : s.port.host = false) (hst : s.port.st ≠ .paused) :
    s.hostHigh = s.hostUp :=
  (if_neg (ne_true_of_eq_false h)).trans (if_neg (mt eq_of_beq hst))

/-- The paused port is back in the state the pause came from. -/
def State.unpaused (s : State) : State :=
  s.hostUp.modPort fun p => { p with st := p.pausedFrom, last := if p.pausedFrom == .drain then none else p.last }

theorem State.hostHigh_of_paused {s : State} (h : s.port.host = false) (hst : s.port.st = .paused) :
    s.hostHigh = s.unpaused.settlePort :=
  (if_neg (ne_true_of_eq_false h)).trans (if_pos (beq_iff_eq.mpr hst))

theorem State.hostHigh_from_align {s : State} (h : s.port.host = false) (hst : s.port.st = .paused)
    (hfrom : s.port.pausedFrom = .align) :
    s.hostHigh = { s with port := { s.port with
      host := true, shorted := false
      st := if s.port.aligned = true ∧ s.port.introClosed = true ∧ s.introWaits = false then .introducing
            else .align } } := by
  have hback : s.unpaused = { s.hostUp with port := { s.hostUp.port with st := .align } } := by
    simp only [State.unpaused, State.modPort, State.hostUp, hfrom]
    rfl
  have hsettle : ((Port.align == .align) && s.port.aligned && s.port.introClosed && !s.introWaits) = true ↔
      s.port.aligned = true ∧ s.port.introClosed = true ∧ s.introWaits = false := by simp [and_assoc]
  rw [State.hostHigh_of_paused h hst, hback]
  by_cases hgo : s.port.aligned = true ∧ s.port.introClosed = true ∧ s.introWaits = false
  · rw [if_pos hgo]
    exact if_pos (hsettle.mpr hgo)
  · rw [if_neg hgo]
    exact if_neg (mt hsettle.mp hgo)

theorem State.hostHigh_from_later {s : State} (h : s.port.host = false) (hst : s.port.st = .paused)
    (hfrom : s.port.pausedFrom = .introducing ∨ s.port.pausedFrom = .drain) :
    s.hostHigh = { s with port := { s.port with
      host := true, shorted := false, st := s.port.pausedFrom
      last := if s.port.pausedFrom = .drain then none else s.port.last } } := by
  have hsettle : s.unpaused.settlePort = s.unpaused := by
    refine if_neg ?_
    have hst' : s.unpaused.port.st = s.port.pausedFrom := rfl
    rcases hfrom with hfrom | hfrom <;> simp [hst', hfrom]
  rw [State.hostHigh_of_paused h hst, hsettle]
  rcases hfrom with hfrom | hfrom <;> simp only [State.unpaused, State.modPort, State.hostUp, hfrom] <;> rfl

/-! ### HOSTRDY low (R407, R409, R420) -/

theorem State.hostLow_of_low {s : State} (h : s.port.host = false) : s.hostLow = s := if_pos (by simp [h])

theorem State.endedInCycle_none {s : State} (h : ∀ e : Ended, s.port.ended = some e → e.cycle ≠ s.cycle) :
    s.endedInCycle = none := by
  unfold State.endedInCycle
  split
  · next e he => exact if_neg (by simp [h e he])
  · rfl

theorem State.endedInCycle_some {s : State} {e : Ended} (he : s.port.ended = some e) (hcycle : e.cycle = s.cycle)
    (htx : s.port.tx = none) : s.endedInCycle = some e := by
  simp [State.endedInCycle, he, hcycle, htx]

theorem State.reopen_none {s : State} (h : s.endedInCycle = none) : s.reopen = s := by
  simp only [State.reopen, h]

/-- The port at the falling edge of HOSTRDY. -/
def State.hostDown (s : State) (clock : Nat) : State :=
  { s with port := { s.port with host := false, lowAt := clock, prompt := false } }

/-- The port paused where it stands. -/
def Stream.pausedHere (p : Stream) (ending gone : Bool) : Stream :=
  { p with st := .paused, pausedFrom := p.st, tx := if ending then none else p.tx
           cut := if gone then p.cut.filter fun c => c.1 == Src.intro else p.cut }

/-- The skein of a transmission that ended in this cycle has been flushed with its store. -/
def State.endedGone (s : State) : Bool := match s.endedInCycle with | some e => e.discarded | none => false

theorem State.hostLow_of_up {s : State} (h : s.port.host = true)
    (hst : s.reopen.port.st = .align ∨ s.reopen.port.st = .introducing ∨ s.reopen.port.st = .drain) :
    s.hostLow = ((s.reopen.hostDown s.clock).cutOff false).modPort (·.pausedHere s.port.tx.isNone s.endedGone) := by
  have hup : ((s.reopen.hostDown s.clock).port.st == .align || (s.reopen.hostDown s.clock).port.st == .introducing ||
      (s.reopen.hostDown s.clock).port.st == .drain) = true := by
    show (s.reopen.port.st == .align || s.reopen.port.st == .introducing || s.reopen.port.st == .drain) = true
    rcases hst with hst | hst | hst <;> rw [hst] <;> rfl
  have hhost : ¬ (!s.port.host) = true := by simp [h]
  exact (if_neg hhost).trans (if_pos hup)

theorem State.hostLow_same_of_not_ended {s : State} (h : s.port.host = true)
    (hst : s.port.st = .align ∨ s.port.st = .introducing ∨ s.port.st = .drain) (hend : s.endedInCycle = none) :
    Same [.chain, .port, .faults] s s.hostLow := by
  have hreopen := State.reopen_none hend
  rw [State.hostLow_of_up h (hreopen.symm ▸ hst), hreopen]
  exact .step (State.modPort_same _ _) rfl (.step (State.cutOff_same _ _) rfl (.upd_port rfl (.refl _ _)))

theorem State.hostLow_of_idle {s : State} (h : s.port.host = true)
    (hst : s.port.st = .align ∨ s.port.st = .introducing ∨ s.port.st = .drain) (hend : s.endedInCycle = none)
    (htx : s.port.tx = none) :
    s.hostLow = { s with port := { s.port with
      host := false, lowAt := s.clock, prompt := false, st := .paused, pausedFrom := s.port.st } } := by
  have hreopen := State.reopen_none hend
  have hidle : (s.hostDown s.clock).port.tx = none := htx
  rw [State.hostLow_of_up h (hreopen.symm ▸ hst), hreopen, State.cutOff_of_none false hidle]
  simp only [State.endedGone, hend, State.modPort, Stream.pausedHere, State.hostDown, htx]
  rfl

theorem State.hostLow_of_flight {s : State} {x : Tx} (h : s.port.host = true)
    (hst : s.port.st = .align ∨ s.port.st = .introducing ∨ s.port.st = .drain) (hend : s.endedInCycle = none)
    (htx : s.port.tx = some x) (hlow : x.lowSeen = false) (hgone : x.gone = false) :
    s.hostLow = { s with
      port := { s.port with
        host := false, lowAt := s.clock, prompt := false, st := .paused, pausedFrom := s.port.st
        tx := some { x with lowSeen := true }, cut := x.cutAfter s.port.cut }
      chain := s.chain.offered (s.againItem x)
      faults := s.faults.logged 0x42 s.tb.time 0xFF x.skein.seq (x.skein.session.setWidth 32) } := by
  have hreopen := State.reopen_none hend
  have hflight : (s.hostDown s.clock).port.tx = some x := htx
  rw [State.hostLow_of_up h (hreopen.symm ▸ hst), hreopen, State.cutOff_of_flight hflight hlow hgone]
  simp only [State.endedGone, hend, htx]
  rfl

/-! ### A low in the cycle of the last column (R422) -/

/-- The port with the transmission that has just ended in flight again. -/
def State.inFlightAgain (s : State) (e : Ended) : State :=
  { s with port := { s.port with
    tx := some e.tx, st := e.st, pkt := s.port.pkt - 1, pktFrom := 0, pktTo := 0, ended := none } }

/-- What a reopened transmission puts back: the skein at the head of its store, or one more in the flush marker. -/
def State.heldAgain (s : State) (e : Ended) : State :=
  if e.discarded then s.flushMore e.tx.src
  else
    match e.tx.src with
    | .intro => { s with cab := { s.cab with intro := e.tx.skein :: s.cab.intro } }
    | .store st =>
      let u := s.modStore st fun q =>
        { q with held := e.tx.skein :: q.held, readA := e.readA, readB := e.readB, holes := e.holes
                 bytes := q.bytes + e.freed }
      { u with cab := { u.cab with scrubPos := if u.cab.scrubIn = st then e.scrubPos else u.cab.scrubPos
                                   scrubLeft := e.scrubLeft } }

theorem State.reopen_some {s : State} {e : Ended} (h : s.endedInCycle = some e) (hgone : e.tx.gone = false) :
    s.reopen = (s.inFlightAgain e).heldAgain e := by
  simp only [State.reopen, h, hgone, Bool.false_eq_true, if_false]
  rfl

theorem State.heldAgain_same (s : State) (e : Ended) : Same [.chain, .cab] s (s.heldAgain e) := by
  unfold State.heldAgain
  refine .ite ((s.flushMore_same e.tx.src).mono rfl) ?_
  cases e.tx.src with
  | intro => exact .upd_cab rfl (.refl _ _)
  | store st => exact .upd_cab rfl (((s.modStore_same st _)).mono rfl)

/-- A flush has taken the skein: the stores stay as they are. -/
theorem State.heldAgain_of_flushed {s : State} {e : Ended} {st : StoreId} (hsrc : e.tx.src = .store st)
    (hflushed : e.flushed = true) : (s.heldAgain e).cab = s.cab ∧ e.discarded = true := by
  have hdisc : e.discarded = true := by simp [Ended.discarded, hsrc, hflushed]
  have hcab : (s.flushMore e.tx.src).cab = s.cab := s.flushMore_same e.tx.src .cab rfl
  exact ⟨by rw [State.heldAgain, if_pos hdisc, hcab], hdisc⟩

theorem State.heldAgain_store {s : State} {e : Ended} {st : StoreId} (hsrc : e.tx.src = .store st)
    (hflushed : e.flushed = false) :
    ((s.heldAgain e).store st).held = e.tx.skein :: (s.store st).held ∧ e.discarded = false := by
  have hdisc : e.discarded = false := by simp [Ended.discarded, hflushed]
  refine ⟨?_, hdisc⟩
  rw [State.heldAgain, if_neg (ne_true_of_eq_false hdisc), hsrc]
  cases st <;> rfl

theorem State.heldAgain_intro {s : State} {e : Ended} (hsrc : e.tx.src = .intro) :
    (s.heldAgain e).cab.intro = e.tx.skein :: s.cab.intro ∧ e.discarded = false := by
  have hdisc : e.discarded = false := by simp [Ended.discarded, hsrc]
  refine ⟨?_, hdisc⟩
  rw [State.heldAgain, if_neg (ne_true_of_eq_false hdisc), hsrc]

/-- The reopened transmission at the falling edge is cut off, held and paused. -/
theorem State.hostLow_of_ended {s : State} {e : Ended} (h : s.port.host = true) (hend : s.endedInCycle = some e)
    (htx : s.port.tx = none) (hst : e.st = .introducing ∨ e.st = .drain) (hgone : e.tx.gone = false)
    (hlow : e.tx.lowSeen = false) :
    s.hostLow.port = { s.port with
        host := false, lowAt := s.clock, prompt := false, st := .paused, pausedFrom := e.st, tx := none
        pkt := s.port.pkt - 1, pktFrom := 0, pktTo := 0, ended := none
        cut := if e.discarded then (e.tx.cutAfter s.port.cut).filter fun c => c.1 == Src.intro
          else e.tx.cutAfter s.port.cut } ∧
      s.hostLow.faults = s.faults.logged 0x42 s.tb.time 0xFF e.tx.skein.seq (e.tx.skein.session.setWidth 32) ∧
      s.hostLow.cab = ((s.inFlightAgain e).heldAgain e).cab := by
  have hsame := (s.inFlightAgain e).heldAgain_same e
  have hport : ((s.inFlightAgain e).heldAgain e).port = (s.inFlightAgain e).port := hsame .port rfl
  have hfaults : ((s.inFlightAgain e).heldAgain e).faults = s.faults := hsame .faults rfl
  have htb : ((s.inFlightAgain e).heldAgain e).tb = s.tb := hsame .tb rfl
  have hreopen := State.reopen_some hend hgone
  have hst' : s.reopen.port.st = .align ∨ s.reopen.port.st = .introducing ∨ s.reopen.port.st = .drain := by
    rw [hreopen, hport]
    exact .inr hst
  have hflight : (((s.inFlightAgain e).heldAgain e).hostDown s.clock).port.tx = some e.tx := by
    show ((s.inFlightAgain e).heldAgain e).port.tx = _
    rw [hport]
    rfl
  rw [State.hostLow_of_up h hst', hreopen, State.cutOff_of_flight hflight hlow hgone]
  refine ⟨?_, ?_, rfl⟩
  · simp only [State.modPort, Stream.pausedHere, State.hostDown, hport, State.endedGone, hend, htx, Option.isNone_none,
      if_true]
    rfl
  · show ((s.inFlightAgain e).heldAgain e).faults.logged 0x42 ((s.inFlightAgain e).heldAgain e).tb.time 0xFF _ _ = _
    rw [hfaults, htb]

/-! ### Discovery and loss (R408, R412, R427) -/

theorem State.streamDown_of_idle {s : State} (st : Port) (h : s.port.tx = none) :
    s.streamDown st = { s with port := { s.port with
      st := st, up := false, aligned := false, introClosed := false, introOwed := false, prompt := false
      ended := none } } := by
  simp only [State.streamDown, State.cutOff_of_none true h, State.modPort, h]

end Sys2Proof.Machine

open Sys2Proof Sys2Proof.Machine

theorem does_hostrdyLow_ended {dt low : Nat} {s u : State} {e : Ended} (hu : u = advance dt s) (hout : u.outOfReset = true)
    (hlow : 1000000 ≤ low) (hhost : u.port.host = true) (hended : u.port.ended = some e) (hcycle : e.cycle = u.cycle)
    (htx : u.port.tx = none) (hst : e.st = .introducing ∨ e.st = .drain) (hgone : e.tx.gone = false)
    (hseen : e.tx.lowSeen = false) :
    Does (.hostrdyLow ⟨dt, low⟩) s u [.chain, .cab, .port, .faults] fun t =>
      t.port.st = .paused ∧ t.port.pausedFrom = e.st ∧ t.port.tx = none ∧ t.port.pkt = u.port.pkt - 1 ∧
        t.faults.last = 0x42 ∧
        (∀ st : StoreId, e.tx.src = .store st → e.flushed = false →
          t.port.cut.contains (e.tx.src, e.tx.skein.session, e.tx.skein.seq) = true ∧
            (t.store st).held = e.tx.skein :: (u.store st).held) ∧
        (∀ st : StoreId, e.tx.src = .store st → e.flushed = true →
          (t.store st).held = (u.store st).held ∧ ∀ c : Src × BitVec 16 × BitVec 32, t.port.cut.contains c = true →
            c.1 = .intro) ∧
        (e.tx.src = .intro →
          t.port.cut.contains (.intro, e.tx.skein.session, e.tx.skein.seq) = true ∧
            t.cab.intro = e.tx.skein :: u.cab.intro) := by
  obtain ⟨hport, hfaults, hcab⟩ :=
    State.hostLow_of_ended hhost (State.endedInCycle_some hended hcycle htx) htx hst hgone hseen
  have hexec : exec (.hostrdyLow ⟨dt, low⟩) s = .next u.hostLow := by
    rw [exec_hostrdyLow, ← hu, if_neg (Nat.not_lt.mpr hlow), hout, State.when_true]
  have hcut (hdisc : e.discarded = false) : u.hostLow.port.cut = e.tx.cutAfter u.port.cut := by
    rw [hport, hdisc]
    rfl
  refine ⟨_, hexec, u.hostLow_same, by rw [hport], by rw [hport], by rw [hport], by rw [hport], by rw [hfaults]; rfl,
    fun st hsrc hflushed => ?_, fun st hsrc hflushed => ?_, fun hsrc => ?_⟩
  · obtain ⟨hheld, hdisc⟩ := State.heldAgain_store (s := u.inFlightAgain e) hsrc hflushed
    exact ⟨hcut hdisc ▸ e.tx.mem_cutAfter _, (congrArg Store.held (State.store_of_cab hcab st)).trans hheld⟩
  · obtain ⟨hcab', hdisc⟩ := State.heldAgain_of_flushed (s := u.inFlightAgain e) hsrc hflushed
    refine ⟨congrArg Store.held (State.store_of_cab (s := u) (hcab.trans hcab') st), fun c hc => ?_⟩
    rw [hport, hdisc, if_pos rfl, List.contains_iff_mem, List.mem_filter] at hc
    exact eq_of_beq hc.2
  · obtain ⟨hintro, hdisc⟩ := State.heldAgain_intro (s := u.inFlightAgain e) hsrc
    exact ⟨hcut hdisc ▸ hsrc ▸ e.tx.mem_cutAfter _, (congrArg Cabinet.intro hcab).trans hintro⟩

theorem does_discovery {dt : Nat} {s u : State} (hu : u = advance dt s) (hruns : u.fwRuns = true) (hst : u.port.st = .down)
    (hhost : u.port.host = true) (hshort : u.port.shorted = false) (hecho : u.pack.echoDone = true)
    (hstandby : u.power.standby = false) (hoff : u.streamOff = false) (hheld : u.domainHeld 8 = false) :
    Does (.discovery dt) s u [.port, .power] fun t =>
      t.port = { u.port with
        st := .align, up := true, aligned := false, introClosed := false, introOwed := false
        disparity := [false, false, false, false], idleMin := 2048, prompt := false } := by
  refine ⟨u.discover, hu ▸ exec_discovery dt s, u.discover_same, ?_⟩
  rw [State.discover, if_pos (by simp [hruns, hst, hhost, hshort, hecho, hstandby, hoff, hheld])]
  rfl

/-- A partner lost for 10 s. -/
theorem exec_partnerLoss_cases {dt : Nat} {s u : State} (hu : u = advance dt s) (hruns : u.fwRuns = true)
    (hst : u.port.st = .paused) (hhost : u.port.host = false) :
    (u.clock - u.port.lowAt < 40000000000000 → exec (.partnerLoss dt) s = .next u) ∧
    (40000000000000 ≤ u.clock - u.port.lowAt → u.port.tx = none →
      exec (.partnerLoss dt) s = .next { u with
        port := { u.port with
          st := .down, up := false, aligned := false, introClosed := false, introOwed := false, prompt := false
          ended := none }
        faults := u.faults.logged 0x41 u.tb.time 0xFF
          (sat32 (u.cab.raw.held.length + u.cab.shelf.held.length))
          (sat32 ((u.cab.raw.heldBytes + u.cab.shelf.heldBytes + 1023) / 1024)) }) := by
  have hsec : 10 * Config.sec = 40000000000000 := rfl
  rw [exec_partnerLoss, ← hu]
  refine ⟨fun hearly => congrArg _ (if_neg ?_), fun hlate htx => congrArg _ ((if_pos ?_).trans ?_)⟩
  · simp [hsec, Nat.not_le.mpr hearly]
  · simp [hsec, hruns, hst, hhost, hlate]
  · rw [State.streamDown_of_idle _ htx, State.log_eq]

theorem exec_streamShortCircuit_of_up {dt : Nat} {s u : State} (lane : Fin 5) (hu : u = advance dt s)
    (hup : u.port.up = true) (htx : u.port.tx = none) :
    exec (.streamShortCircuit dt lane) s = .next { u with
      port := { u.port with
        st := .down, up := false, aligned := false, introClosed := false, introOwed := false, prompt := false
        ended := none, shorted := true }
      faults := u.faults.raised 0x43 u.tb.time 0xFF (BitVec.ofNat 32 lane.val) 0 } := by
  rw [exec_streamShortCircuit, ← hu, State.shortCircuit, if_pos hup, State.streamDown_of_idle _ htx, State.raise_eq]
  rfl

/-- Settles O43: each level of HOSTRDY by the state the port stands in, a reopened transmission for a low in the cycle of
the last column. -/
theorem portFollowsItsHost : Obligations.PortFollowsItsHost := by
  unfold Obligations.PortFollowsItsHost
  refine ⟨fun dt hi low s u hu hout => ?_, fun dt s u hu hruns hst hhost => exec_partnerLoss_cases hu hruns hst hhost,
    fun dt s u lane hu hup htx => exec_streamShortCircuit_of_up lane hu hup htx⟩
  have hhigh (h : 1000000000 ≤ hi) : exec (.hostrdyHigh ⟨dt, hi⟩) s = .next u.hostHigh := by
    rw [exec_hostrdyHigh, ← hu, if_neg (Nat.not_lt.mpr h), hout, State.when_true]
  have hlow (h : 1000000 ≤ low) : exec (.hostrdyLow ⟨dt, low⟩) s = .next u.hostLow := by
    rw [exec_hostrdyLow, ← hu, if_neg (Nat.not_lt.mpr h), hout, State.when_true]
  refine ⟨fun h => ?_, fun h => ?_, fun h hhost => ?_, fun h hhost => ?_, fun h hhost hst hfrom => ?_,
    fun h hhost hst hfrom => ?_, fun h hhost hst => ?_, fun h hhost hst hend => ⟨fun htx => ?_, fun x htx hseen hgone => ?_⟩,
    fun e h hhost hended hcycle htx hst hgone hseen =>
      does_hostrdyLow_ended hu hout h hhost hended hcycle htx hst hgone hseen,
    fun hruns hst hhost hshort hecho hstandby hoff hheld =>
      does_discovery hu hruns hst hhost hshort hecho hstandby hoff hheld⟩
  · rw [exec_hostrdyHigh, ← hu, if_pos h]
  · rw [exec_hostrdyLow, ← hu, if_pos h]
  · rw [hhigh h, State.hostHigh_of_high hhost]
  · rw [hlow h, State.hostLow_of_low hhost]
  · rw [hhigh h, State.hostHigh_from_align hhost hst hfrom]
  · rw [hhigh h, State.hostHigh_from_later hhost hst hfrom]
  · rw [hhigh h, State.hostHigh_of_unpaused hhost hst]
    rfl
  · rw [hlow h, State.hostLow_of_idle hhost hst (State.endedInCycle_none hend) htx]
  · have hend' := State.endedInCycle_none hend
    refine ⟨_, hlow h, State.hostLow_same_of_not_ended hhost hst hend', ?_⟩
    rw [State.hostLow_of_flight hhost hst hend' htx hseen hgone]
    exact ⟨rfl, rfl, rfl, x.mem_cutAfter _, rfl, rfl⟩

end

section
/-! The pre-check of a run and the abandoned start-up run (R486 to R488, R507, R508). -/

namespace Sys2Proof.Machine
open Sys2Proof

/-! ### What each command runs -/

theorem exec_precheckStart (dt : Nat) (s : State) : exec (.precheckStart dt) s = .next (advance dt s).precheckStart := rfl

theorem exec_precheckResult (dt ohms : Nat) (s : State) :
    exec (.precheckResult dt ohms) s = .next ((advance dt s).when (advance dt s).fwRuns fun t => t.precheckResult ohms) := rfl

theorem exec_startupRunAbandon (dt : Nat) (s : State) :
    exec (.startupRunAbandon dt) s = .next (advance dt s).startupRunAbandon := rfl

/-! ### The pre-check (R486 to R488, R496) -/

/-- A pending run wants one pass, once the reports of the runs before it have closed; with none pending a failure or a
waiting join wants it. -/
def State.checkWanted (s : State) : Bool :=
  if s.cal.pending.isSome then !s.cal.passed && !s.reportWaits else s.cal.failedAt.isSome || s.joinAhead

/-- The second after a failed check is over (R488). -/
def State.checkDue (s : State) : Bool := match s.cal.failedAt with | some t => decide (Config.sec ≤ s.clock - t) | none => true

theorem State.precheckStart_eq (s : State) :
    s.precheckStart =
      if s.fwRuns && s.runsAllowed && s.checkWanted && s.cal.checking.isNone && s.checkDue && s.cal.run.isNone then
        { s with cal := { s.cal with checking := some s.clock } }
      else s := rfl

theorem State.runsAllowed_iff (s : State) : s.runsAllowed = true ↔ s.core.boot = .calib ∨ s.core.boot = .ready := by
  simp [State.runsAllowed]

theorem State.checkWanted_of_pending {s : State} (h : s.cal.pending.isSome = true) (hpassed : s.cal.passed = false)
    (hreport : s.reportWaits = false) : s.checkWanted = true := by
  simp [State.checkWanted, h, hpassed, hreport]

theorem State.checkWanted_of_none {s : State} (h : s.cal.pending = none)
    (hwants : s.cal.failedAt.isSome = true ∨ s.joinAhead = true) : s.checkWanted = true := by
  simpa [State.checkWanted, h] using hwants

theorem State.checkWanted_of_report {s : State} (h : s.cal.pending.isSome = true) (hreport : s.reportWaits = true) :
    s.checkWanted = false := by
  simp [State.checkWanted, h, hreport]

theorem State.checkDue_of_late {s : State} (h : ∀ t0 : Nat, s.cal.failedAt = some t0 → 4000000000000 ≤ s.clock - t0) :
    s.checkDue = true := by
  have hsec : Config.sec = 4000000000000 := rfl
  unfold State.checkDue
  split
  · next t0 ht => simpa [hsec] using h t0 ht
  · rfl

theorem State.checkDue_of_early {s : State} {t0 : Nat} (ht : s.cal.failedAt = some t0) (h : s.clock - t0 < 4000000000000) :
    s.checkDue = false := by
  have hsec : Config.sec = 4000000000000 := rfl
  simp [State.checkDue, ht, hsec, h]

/-- A check in the band has passed: fault 0x61 clears, and the pass is for the pending run or else for a waiting join. -/
def State.checkPassed (s : State) : State :=
  { s with
    cal := { s.cal with
      checking := none, failedAt := none, passed := s.cal.pending.isSome
      joinPassed := s.cal.joinPassed || (!s.cal.pending.isSome && s.joinAhead) }
    faults := s.faults.cleared 0x61 s.tb.time 0xFF }

theorem State.checkPassed_same (s : State) : Same [.cal, .faults] s s.checkPassed :=
  .upd_faults (t := { s with cal := s.checkPassed.cal }) rfl (.upd_cal rfl (.refl _ _))

theorem State.precheckResult_of_pass {s : State} {ohms t0 : Nat} (ht : s.cal.checking = some t0)
    (hover : 8000000000 ≤ s.clock - t0) (hlow : 9800 ≤ ohms) (hhigh : ohms ≤ 10200) :
    s.precheckResult ohms = s.checkPassed.when s.cal.pending.isSome fun t => t.requestLeave .fullRun := by
  have hearly : ¬ s.clock - t0 < checkTime := Nat.not_lt.mpr hover
  simp only [State.precheckResult, ht, if_neg hearly, if_pos (And.intro hlow hhigh), State.clearFault_eq]
  rfl

theorem State.precheckResult_of_fail {s : State} {ohms t0 : Nat} (ht : s.cal.checking = some t0)
    (hover : 8000000000 ≤ s.clock - t0) (hout : ohms < 9800 ∨ 10200 < ohms) :
    s.precheckResult ohms =
      State.raise { s with cal := { s.cal with checking := none, failedAt := some t0 } } 0x61 0xFF (sat32 ohms) 0 := by
  have hearly : ¬ s.clock - t0 < checkTime := Nat.not_lt.mpr hover
  have hband : ¬(9800 ≤ ohms ∧ ohms ≤ 10200) := by omega
  simp only [State.precheckResult, ht, if_neg hearly, if_neg hband]

theorem State.precheckResult_of_early {s : State} {ohms t0 : Nat} (ht : s.cal.checking = some t0)
    (hearly : s.clock - t0 < 8000000000) : s.precheckResult ohms = s := by
  simp only [State.precheckResult, ht]
  exact if_pos hearly

/-! ### The abandoned start-up run (R507, R508, R585) -/

section Drawers
variable {s t : State} (h : t.flash = s.flash)
include h

theorem State.secCells_of_flash (p : Nat) : t.secCells p = s.secCells p := by rw [State.secCells, State.secCells, h]

theorem State.badIn_of_flash (lo len : Nat) : t.badIn lo len = s.badIn lo len := by rw [State.badIn, State.badIn, h]

theorem State.recordAt_of_flash (cells : List Host.Cell) (l p o : Nat) : t.recordAt cells l p o = s.recordAt cells l p o := by
  simp only [State.recordAt, State.badIn_of_flash h]

theorem State.walkSector_of_flash (cells : List Host.Cell) (l p n : Nat) :
    ∀ o, t.walkSector cells l p n o = s.walkSector cells l p n o := by
  induction n with
  | zero => exact fun _ => rfl
  | succ n ih =>
    intro o
    simp only [State.walkSector, State.recordAt_of_flash h, ih]

theorem State.retireCopy_of_flash (p : Nat) : t.retireCopy p = s.retireCopy p := by
  simp only [State.retireCopy, State.secCells_of_flash h, State.badIn_of_flash h]

theorem State.retireTable_of_flash : t.retireTable = s.retireTable := by
  simp only [State.retireTable, State.retireCopy_of_flash h]

theorem State.drawerSector_of_flash (l : Nat) : t.drawerSector l = s.drawerSector l := by
  simp only [State.drawerSector, State.phys, State.retireTable_of_flash h]

theorem State.sectorRecs_of_flash (l : Nat) : t.sectorRecs l = s.sectorRecs l := by
  unfold State.sectorRecs
  dsimp only
  rw [State.drawerSector_of_flash h, State.secCells_of_flash h]
  simp only [State.walkSector_of_flash h]

/-- The stored drawers are read from the flash array alone. -/
theorem State.drawers_of_flash : t.drawers = s.drawers := by
  have hrecs : t.drawerRecs = s.drawerRecs := by
    simp only [State.drawerRecs, funext (State.sectorRecs_of_flash h)]
  simp only [State.drawers, hrecs]

end Drawers

/-- The start-up run is asked for no more. -/
def State.unasked (s : State) : State := { s with cal := { s.cal with pending := none } }

theorem State.unasked_drawers (s : State) : s.unasked.drawers = s.drawers := State.drawers_of_flash rfl

theorem State.startupRunAbandon_of_early {s : State} (h : s.clock - s.cal.stepAt < 4000000000000) :
    s.startupRunAbandon = s := by
  have hsec : Config.sec = 4000000000000 := rfl
  exact if_neg (by simp [hsec, h])

theorem State.startupRunAbandon_of_late {s : State} (hruns : s.fwRuns = true) (hboot : s.core.boot = .calib)
    (hdone : s.cal.startupDone = false) (hrun : s.cal.run = none) (hpassed : s.cal.passed = false)
    (hlate : 4000000000000 ≤ s.clock - s.cal.stepAt) :
    s.startupRunAbandon = s.unasked.startupAbandoned s.cycleNow := by
  have hsec : Config.sec = 4000000000000 := rfl
  exact if_pos (by simp [hruns, hboot, hdone, hrun, hpassed, hsec, hlate])

theorem State.startupAbandoned_of_none {s : State} (inst : Nat) (h : s.drawers = []) (hpending : s.cal.pending = none) :
    s.startupAbandoned inst = { s with
      cal := { s.cal with startupDone := true, pending := some .startup }
      ao := { s.ao with up := s.ao.up || (s.aoWanted && !s.power.standby && !s.domainHeld 9) }
      faults := s.faults.raised 0x65 s.tb.time 0xFF 0 0 } := by
  unfold State.startupAbandoned
  rw [if_pos (by simp [h]), State.raise_eq, State.endCalStep, hpending]
  rfl

theorem State.startupAbandoned_of_stored {s : State} (inst : Nat) (h : s.drawers ≠ []) :
    s.startupAbandoned inst =
      { (s.rebuild.startYarns inst).ready with cal := { (s.rebuild.startYarns inst).ready.cal with trims := true } } :=
  if_neg (by simpa using h)

theorem State.rebuild_pending (s : State) : s.rebuild.cal.pending = s.cal.pending := by
  unfold State.rebuild
  split
  · rfl
  · rw [State.useSet_cal]

/-- With a drawer stored the unit is ready, and the channels of the start-up step are in their first yarn. -/
theorem State.startupAbandoned_stored_parts {s : State} (inst : Nat) (h : s.drawers ≠ []) :
    (s.startupAbandoned inst).core.boot = .ready ∧ (s.startupAbandoned inst).cal.trims = true ∧
      (s.startupAbandoned inst).cal.startupDone = true ∧ (s.startupAbandoned inst).cal.pending = s.cal.pending ∧
      ∀ n : Chan, (s.chan.get n).startJoin = true → (s.chan.get n).st = .joining →
        ((s.startupAbandoned inst).chan.get n).st = .present ∧
          ((s.startupAbandoned inst).chan.get n).yarn = (s.chan.get n).yarn + 1 := by
  have hcal : (s.rebuild.startYarns inst).cal = s.rebuild.cal := State.startYarns_same _ inst .cal rfl
  have hchan : s.rebuild.chan = s.chan := s.rebuild_same .chan rfl
  rw [State.startupAbandoned_of_stored inst h]
  refine ⟨rfl, rfl, rfl, ?_, fun n hjoin hst => ?_⟩
  · show (s.rebuild.startYarns inst).cal.pending = _
    rw [hcal, State.rebuild_pending]
  · rw [← hchan] at hjoin hst ⊢
    exact State.startYarns_of_joining inst hst hjoin

end Sys2Proof.Machine

open Sys2Proof Sys2Proof.Machine

theorem does_precheckResult_of_pending {dt ohms t0 : Nat} {s u : State} (hu : u = advance dt s) (hruns : u.fwRuns = true)
    (ht : u.cal.checking = some t0) (hover : 8000000000 ≤ u.clock - t0) (hlow : 9800 ≤ ohms) (hhigh : ohms ≤ 10200)
    (hpending : u.cal.pending.isSome = true) :
    Does (.precheckResult dt ohms) s u [.cal, .leave, .faults] fun t =>
      t.cal = { u.cal with checking := none, failedAt := none, passed := true } ∧
        t.faults = u.faults.cleared 0x61 u.tb.time 0xFF ∧
        (t.leave.reqs.contains .fullRun = true ∨ t.leave.holding = some .fullRun) := by
  have hexec : exec (.precheckResult dt ohms) s = .next (u.precheckResult ohms) := by
    rw [exec_precheckResult, ← hu, hruns, State.when_true]
  have hasked := State.requestLeave_same u.checkPassed .fullRun
  have hcal : u.checkPassed.cal = { u.cal with checking := none, failedAt := none, passed := true } := by
    simp [State.checkPassed, hpending]
  rw [Does, hexec, State.precheckResult_of_pass ht hover hlow hhigh, hpending, State.when_true]
  exact ⟨_, rfl, .step hasked rfl (u.checkPassed_same.mono rfl), (hasked .cal rfl).trans hcal, hasked .faults rfl,
    State.requestLeave_asked _ _⟩

/-- Settles O51: the pre-check by what is pending and when, the abandoned start-up run by the drawers stored. -/
theorem runsAreChecked : Obligations.RunsAreChecked := by
  unfold Obligations.RunsAreChecked
  refine ⟨fun dt s u hu hruns => ⟨fun hcalib hready => ?_, fun hchecking hrun hboot => ⟨fun hwants => ?_,
      fun hpending hreport => ?_⟩, fun ohms t0 ht hearly => ?_, fun ohms t0 ht hover => ?_⟩, fun dt s u hu hruns hboot hdone hrun hpassed => ?_⟩
  · have hallowed : u.runsAllowed = false := Bool.eq_false_iff.mpr fun h => (u.runsAllowed_iff.mp h).elim hcalib hready
    rw [exec_precheckStart, ← hu, State.precheckStart_eq, if_neg (by simp [hallowed])]
  · have hallowed := u.runsAllowed_iff.mpr hboot
    have hwanted : u.checkWanted = true := hwants.elim
      (fun ⟨hpending, hpassed, hreport⟩ => State.checkWanted_of_pending hpending hpassed hreport)
      (fun ⟨hpending, hwant⟩ => State.checkWanted_of_none hpending hwant)
    rw [exec_precheckStart, ← hu, State.precheckStart_eq]
    refine ⟨fun hlate => ?_, fun ⟨t0, ht, hearly⟩ => ?_⟩
    · rw [if_pos (by simp [hruns, hallowed, hwanted, hchecking, hrun, State.checkDue_of_late hlate])]
    · rw [if_neg (by simp [State.checkDue_of_early ht hearly])]
  · rw [exec_precheckStart, ← hu, State.precheckStart_eq, if_neg (by simp [State.checkWanted_of_report hpending hreport])]
  · rw [exec_precheckResult, ← hu, hruns, State.when_true, State.precheckResult_of_early ht hearly]
  · refine ⟨fun hlow hhigh hpending => does_precheckResult_of_pending hu hruns ht hover hlow hhigh hpending,
      fun hlow hhigh hpending => ?_, fun hout => ?_⟩
    · rw [exec_precheckResult, ← hu, hruns, State.when_true, State.precheckResult_of_pass ht hover hlow hhigh,
        State.checkPassed, hpending]
      rfl
    · rw [exec_precheckResult, ← hu, hruns, State.when_true, State.precheckResult_of_fail ht hover hout, State.raise_eq]
  · refine ⟨fun hearly => ?_, fun hlate => ⟨fun hnone => ?_, fun hstored => ?_⟩⟩
    · rw [exec_startupRunAbandon, ← hu, State.startupRunAbandon_of_early hearly]
    · rw [exec_startupRunAbandon, ← hu, State.startupRunAbandon_of_late hruns hboot hdone hrun hpassed hlate,
        State.startupAbandoned_of_none (s := u.unasked) _ (u.unasked_drawers.trans hnone) rfl]
      rfl
    · obtain ⟨t, ht, hsame, -⟩ := does_touches (.startupRunAbandon dt) s
      have hexec : exec (.startupRunAbandon dt) s = .next (u.unasked.startupAbandoned u.cycleNow) := by
        rw [exec_startupRunAbandon, ← hu, State.startupRunAbandon_of_late hruns hboot hdone hrun hpassed hlate]
      obtain rfl : t = u.unasked.startupAbandoned u.cycleNow := Host.Outcome.next.inj (ht.symm.trans hexec)
      refine ⟨_, hexec, hu ▸ hsame, ?_⟩
      exact State.startupAbandoned_stored_parts (s := u.unasked) u.cycleNow (u.unasked_drawers.trans_ne hstored)

end

section
/-! The third core restart within 60 s (R592). -/

namespace Sys2Proof.Machine
open Sys2Proof

theorem exec_firmwareFetchError (dt sector offset : Nat) (s : State) :
    exec (.firmwareFetchError dt sector offset) s = .next ((advance dt s).fetchError sector offset) := rfl

/-- A core with firmware running is out of reset. -/
theorem State.boot_of_fwRuns {s : State} (h : s.fwRuns = true) : s.core.boot ≠ .inReset := by
  intro hboot
  simp [State.fwRuns, hboot] at h

/-- The core restarts of the last 60 s, as R592 counts them. -/
theorem State.recentRestarts_eq (s : State) :
    s.recentRestarts = s.core.restarts.filter fun r => decide (s.clock - r < 240000000000000) := rfl

theorem State.beginRestart_of_third {s : State} (pc : Option (BitVec 32)) (h : 2 ≤ s.recentRestarts.length) :
    s.beginRestart pc = s.fullReset .restartLimit := if_pos h

/-- The state once the word a fetch found uncorrectable is marked and fault 0xF3 logged. -/
def State.fetchLogged (s : State) (sector offset : Nat) : State :=
  (s.markBad [8 * ((4096 * sector + offset) / 8)]).log 0xF3 0xFF (BitVec.ofNat 32 sector) (BitVec.ofNat 32 offset)

theorem State.fetchLogged_same (s : State) (sector offset : Nat) : Same [.flash, .faults] s (s.fetchLogged sector offset) :=
  .step (State.log_same _ _ _ _ _) rfl ((State.markBad_same _ _).mono rfl)

theorem State.fetchError_of_running {s : State} (sector offset : Nat) (h : s.fwRuns = true) :
    s.fetchError sector offset = (s.fetchLogged sector offset).beginRestart none := if_pos h

/-- The reset that a third restart becomes. -/
theorem State.fullReset_restartLimit {s : State} (h : s.core.boot ≠ .inReset) :
    (s.fullReset .restartLimit).core.boot = .inReset ∧ (s.fullReset .restartLimit).keep.cause = 0x04 := by
  rw [State.fullReset_of_running _ h]
  exact ⟨rfl, rfl⟩

end Sys2Proof.Machine

open Sys2Proof Sys2Proof.Machine

/-- What a command leaves, whatever it does, is within what it may touch. -/
theorem does_of_exec {i : Instr} {s t : State} {P : State → Prop} (hexec : exec i s = .next t) (hP : P t) :
    Does i s (advance i.dt s) (touches i) P :=
  ⟨t, hexec, commandFrames i s t hexec, hP⟩

theorem exec_watchdogExpiry_early {dt : Nat} {pc : BitVec 32} {s u : State} (hu : u = advance dt s)
    (h : u.clock < u.core.dogAt) : exec (.watchdogExpiry dt pc) s = .next u := by
  rw [exec_watchdogExpiry, ← hu, if_neg (by simp [h])]

theorem exec_watchdogExpiry_due {dt : Nat} {pc : BitVec 32} {s u : State} (hu : u = advance dt s) (hruns : u.fwRuns = true)
    (h : u.core.dogAt ≤ u.clock) : exec (.watchdogExpiry dt pc) s = .next (u.beginRestart (some pc)) := by
  rw [exec_watchdogExpiry, ← hu, if_pos (by simp [hruns, h])]

/-- Settles O23: a restart with two others in its minute is the reset of cause 0x04. -/
theorem thirdRestartResets : Obligations.ThirdRestartResets := by
  unfold Obligations.ThirdRestartResets
  intro s u dt hu hruns hrecent
  have hboot := State.boot_of_fwRuns hruns
  refine ⟨fun pc hdue => ?_, fun pc hearly => exec_watchdogExpiry_early hu hearly, fun sector offset => ?_⟩
  · have hexec := exec_watchdogExpiry_due (pc := pc) hu hruns hdue
    rw [State.beginRestart_of_third _ hrecent] at hexec
    exact hu ▸ does_of_exec hexec (State.fullReset_restartLimit hboot)
  · have hlogged := u.fetchLogged_same sector offset
    have hcore : (u.fetchLogged sector offset).core = u.core := hlogged .core rfl
    have hclock : (u.fetchLogged sector offset).clock = u.clock := hlogged .clock rfl
    have hrecent' : 2 ≤ (u.fetchLogged sector offset).recentRestarts.length := by
      rw [State.recentRestarts_eq, hcore, hclock]
      exact hrecent
    have hexec : exec (.firmwareFetchError dt sector offset) s =
        .next ((u.fetchLogged sector offset).fullReset .restartLimit) := by
      rw [exec_firmwareFetchError, ← hu, State.fetchError_of_running _ _ hruns, State.beginRestart_of_third _ hrecent']
    exact hu ▸ does_of_exec hexec (State.fullReset_restartLimit (hcore ▸ hboot))

end

section
/-! A core restart begins (R589, R590, R593, R674). -/

namespace Sys2Proof.Machine
open Sys2Proof

/-! ### LEAVE at the restart (R573, R674) -/

/-- An operation that goes on without the firmware: one of the service engine or the scrub, or a domain that powers up. -/
def State.holdStays (s : State) (op : HeavyOp) : Bool :=
  op == .service || op == .scrub || (match op with | .join n | .startupPower n => (s.chan.get n).settling | _ => false)

theorem State.holdStays_cases {s : State} {op : HeavyOp} (h : s.holdStays op = true) :
    op = .service ∨ op = .scrub ∨
      ∃ n : Chan, (op = .join n ∨ op = .startupPower n) ∧ (s.chan.get n).settling = true := by
  cases op with
  | service => exact .inl rfl
  | scrub => exact .inr (.inl rfl)
  | join n => exact .inr (.inr ⟨n, .inl rfl, h⟩)
  | startupPower n => exact .inr (.inr ⟨n, .inr rfl, h⟩)
  | fullRun | flashErase | flashProgram | stagePower => exact absurd h (by simp [State.holdStays])

/-- LEAVE is given back for an operation that has not begun, whose request waits again. -/
def State.gaveBack (s : State) (op : HeavyOp) : State :=
  State.settleWait ((s.unjoin op).releaseLeave.modLeave fun l => { l with reqs := op :: l.reqs, phase := .deferred })

theorem State.dropHold_of_none {s : State} (h : s.leave.holding = none) : s.dropHold = s := by
  simp only [State.dropHold, h]

theorem State.dropHold_of_held {s : State} {op : HeavyOp} (h : s.leave.holding = some op) :
    s.dropHold = if s.holdStays op then s else if s.underWay op then s.releaseLeave else s.gaveBack op := by
  have hback (hidle : ¬s.underWay op = true) : s.giveBack = s.gaveBack op := by
    simp only [State.giveBack, h]
    exact if_neg hidle
  simp only [State.dropHold, h]
  refine ite_congr rfl (fun _ => rfl) fun _ => ?_
  split
  · rfl
  · next hidle => exact hback hidle

theorem State.releaseLeave_holding {s : State} {op : HeavyOp} (h : s.leave.holding = some op) :
    s.releaseLeave.leave.holding = none := by
  have hfor : s.releaseFor op = s.releaseLeave := if_pos h
  exact hfor ▸ State.releaseFor_holding_none h

theorem State.gaveBack_holding {s : State} {op : HeavyOp} (h : s.leave.holding = some op) :
    (s.gaveBack op).leave.holding = none := by
  have hunjoin : (s.unjoin op).leave = s.leave := s.unjoin_same op .leave rfl
  obtain ⟨w, f, hsettled⟩ := State.settleWait_eq
    ((s.unjoin op).releaseLeave.modLeave fun l => { l with reqs := op :: l.reqs, phase := .deferred })
  rw [State.gaveBack, hsettled]
  exact State.releaseLeave_holding (hunjoin ▸ h)

theorem State.gaveBack_chan (s : State) (op : HeavyOp) : (s.gaveBack op).chan = (s.unjoin op).chan :=
  (State.settleWait_same _ .chan rfl).trans (State.releaseLeave_same _ .chan rfl)

/-- What LEAVE stays held for was held before, and goes on. -/
theorem State.dropHold_holding {s : State} {op : HeavyOp} (h : s.dropHold.leave.holding = some op) :
    s.leave.holding = some op ∧ s.holdStays op = true := by
  cases hheld : s.leave.holding with
  | none =>
    rw [State.dropHold_of_none hheld, hheld] at h
    cases h
  | some held =>
    rw [State.dropHold_of_held hheld] at h
    by_cases hstays : s.holdStays held = true
    · rw [if_pos hstays, hheld] at h
      cases h
      exact ⟨rfl, hstays⟩
    · have hnone : s.releaseLeave.leave.holding = none ∧ (s.gaveBack held).leave.holding = none :=
        ⟨State.releaseLeave_holding hheld, State.gaveBack_holding hheld⟩
      rw [if_neg hstays, apply_ite (fun t : State => t.leave.holding), hnone.1, hnone.2, ite_self] at h
      cases h

/-- A channel stays as it is, or its join, which had won LEAVE, waits in state 3 again. -/
theorem State.unjoin_chan {s : State} {op : HeavyOp} (h : s.leave.holding = some op) (n : Chan) :
    (s.unjoin op).chan.get n = s.chan.get n ∨
      (s.holds (.join n) = true ∨ s.holds (.startupPower n) = true) ∧
        (s.unjoin op).chan.get n = { s.chan.get n with st := .qualified } := by
  have hback (m : Chan) (hm : m = n → s.holds (.join n) = true ∨ s.holds (.startupPower n) = true) :
      (s.modChan m fun c => { c with st := .qualified }).chan.get n = s.chan.get n ∨
        (s.holds (.join n) = true ∨ s.holds (.startupPower n) = true) ∧
          (s.modChan m fun c => { c with st := .qualified }).chan.get n = { s.chan.get n with st := .qualified } := by
    by_cases hmn : m = n
    · subst hmn
      exact .inr ⟨hm rfl, by rw [State.modChan_chan, Per8.get_set_same]⟩
    · exact .inl (by rw [State.modChan_chan, Per8.get_set_ne _ _ _ _ (Ne.symm hmn)])
  cases op with
  | join m => exact hback m fun hmn => .inl (by simp [State.holds, h, hmn])
  | startupPower m => exact hback m fun hmn => .inr (by simp [State.holds, h, hmn])
  | fullRun | flashErase | flashProgram | stagePower | service | scrub => exact .inl rfl

theorem State.dropHold_chan (s : State) (n : Chan) :
    s.dropHold.chan.get n = s.chan.get n ∨
      (s.holds (.join n) = true ∨ s.holds (.startupPower n) = true) ∧
        s.dropHold.chan.get n = { s.chan.get n with st := .qualified } := by
  cases hheld : s.leave.holding with
  | none => exact .inl (by rw [State.dropHold_of_none hheld])
  | some op =>
    rw [State.dropHold_of_held hheld]
    split
    · exact .inl rfl
    · split
      · exact .inl (by rw [State.releaseLeave_same _ .chan rfl])
      · rw [State.gaveBack_chan]
        exact State.unjoin_chan hheld n

/-! ### The restart (R590, R593) -/

/-- The core has stopped for a restart. -/
def State.restartBegun (s : State) (pc : Option (BitVec 32)) : State :=
  { s with core := { s.core with
    restarting := some s.clock, restartPc := pc, restarts := s.clock :: s.recentRestarts } }

theorem State.restartBegun_stopped (s : State) (pc : Option (BitVec 32)) : (s.restartBegun pc).fwRuns = false := by
  simp [State.fwRuns, State.restartBegun]

theorem State.beginRestart_of_few {s : State} (pc : Option (BitVec 32)) (h : s.recentRestarts.length < 2) :
    s.beginRestart pc = (s.restartBegun pc).dropHold.withdrawLeave := if_neg (Nat.not_le.mpr h)

theorem State.beginRestart_same_begun {s : State} (pc : Option (BitVec 32)) (h : s.recentRestarts.length < 2) :
    Same [.chan, .leave] (s.restartBegun pc) (s.beginRestart pc) := by
  rw [State.beginRestart_of_few pc h]
  exact .step (State.withdrawLeave_same _) rfl (State.dropHold_same _)

theorem State.restartBegun_same (s : State) (pc : Option (BitVec 32)) : Same [.core] s (s.restartBegun pc) :=
  .upd_core rfl (.refl _ _)

theorem State.fwRuns_congr {s t : State} (hcore : t.core = s.core) (hflash : t.flash = s.flash) : t.fwRuns = s.fwRuns := by
  rw [State.fwRuns, State.fwRuns, hcore, hflash]

end Sys2Proof.Machine

open Sys2Proof Sys2Proof.Machine

/-- What a restart below the limit of R592 leaves of the core, the channels and LEAVE (R590, R593, R674). -/
theorem beginRestart_leaves {u : State} (pc : BitVec 32)
    (hfew : (u.core.restarts.filter fun r => decide (u.clock - r < 240000000000000)).length < 2) :
    Same [.chan, .leave, .core] u (u.beginRestart (some pc)) ∧
      (u.beginRestart (some pc)).core = { u.core with
        restarting := some u.clock, restartPc := some pc
        restarts := u.clock :: u.core.restarts.filter fun r => decide (u.clock - r < 240000000000000) } ∧
      (u.beginRestart (some pc)).fwRuns = false ∧
      (∀ n : Chan, (u.beginRestart (some pc)).chan.get n = u.chan.get n ∨
        (u.holds (.join n) = true ∨ u.holds (.startupPower n) = true) ∧
          (u.beginRestart (some pc)).chan.get n = { u.chan.get n with st := .qualified }) ∧
      (∀ op : HeavyOp, (u.beginRestart (some pc)).leave.holding = some op → u.leave.holding = some op ∧
        (op = .service ∨ op = .scrub ∨
          ∃ n : Chan, (op = .join n ∨ op = .startupPower n) ∧ (u.chan.get n).settling = true)) := by
  have hsame := State.beginRestart_same_begun (some pc) hfew
  have hchan : (u.beginRestart (some pc)).chan = (u.restartBegun (some pc)).dropHold.chan := by
    rw [State.beginRestart_of_few _ hfew]
    exact State.withdrawLeave_same _ .chan rfl
  have hholding : (u.beginRestart (some pc)).leave.holding = (u.restartBegun (some pc)).dropHold.leave.holding := by
    obtain ⟨b, p, w, f, hleave⟩ := State.withdrawLeave_keepsHold (u.restartBegun (some pc)).dropHold
    rw [State.beginRestart_of_few _ hfew, hleave]
  refine ⟨.step hsame rfl ((u.restartBegun_same _).mono rfl), hsame .core rfl, ?_, fun n => ?_, fun op hop => ?_⟩
  · rw [State.fwRuns_congr (hsame .core rfl) (hsame .flash rfl)]
    exact u.restartBegun_stopped _
  · rw [hchan]
    exact State.dropHold_chan (u.restartBegun (some pc)) n
  · obtain ⟨hheld, hstays⟩ := State.dropHold_holding (hholding ▸ hop)
    exact ⟨hheld, State.holdStays_cases hstays⟩

theorem does_firmwareFetchError {dt sector offset : Nat} {s u : State} (hu : u = advance dt s) (hruns : u.fwRuns = true)
    (hfew : (u.core.restarts.filter fun r => decide (u.clock - r < 240000000000000)).length < 2) :
    Does (.firmwareFetchError dt sector offset) s u [.chan, .flash, .leave, .core, .faults] fun t =>
      t.core.restarting = some u.clock ∧ t.flash.mem = u.flash.mem ∧
        t.flash.bad.contains (8 * ((4096 * sector + offset) / 8)) = true ∧
        t.faults = u.faults.logged 0xF3 u.tb.time 0xFF (BitVec.ofNat 32 sector) (BitVec.ofNat 32 offset) := by
  have hlogged := u.fetchLogged_same sector offset
  have hclock : (u.fetchLogged sector offset).clock = u.clock := hlogged .clock rfl
  have hfew' : (u.fetchLogged sector offset).recentRestarts.length < 2 := by
    rw [State.recentRestarts_eq, hlogged .core rfl, hclock]
    exact hfew
  have hsame := State.beginRestart_same_begun none hfew'
  have hflash : (u.fetchLogged sector offset).flash = (u.markBad [8 * ((4096 * sector + offset) / 8)]).flash :=
    State.log_same _ _ _ _ _ .flash rfl
  have hbegun := (u.fetchLogged sector offset).restartBegun_same none
  have hexec : exec (.firmwareFetchError dt sector offset) s = .next ((u.fetchLogged sector offset).beginRestart none) := by
    rw [exec_firmwareFetchError, ← hu, State.fetchError_of_running _ _ hruns]
  refine ⟨_, hexec, .step hsame rfl (.step hbegun rfl (hlogged.mono rfl)), ?_, ?_, ?_, ?_⟩
  · rw [hsame .core rfl]
    exact congrArg some hclock
  · rw [hsame .flash rfl]
    have hmem := congrArg Flash.mem hflash
    exact hmem
  · rw [hsame .flash rfl]
    refine (congrArg (fun f : Flash => f.bad.contains (8 * ((4096 * sector + offset) / 8))) hflash).trans ?_
    simp only [State.markBad, List.contains_iff_mem, List.mem_append, List.mem_filter, List.mem_singleton]
    by_cases hmem : 8 * ((4096 * sector + offset) / 8) ∈ u.flash.bad
    · exact .inl hmem
    · exact .inr ⟨trivial, by simpa using hmem⟩
  · rw [hsame .faults rfl]
    exact congrArg State.faults (State.log_eq _ _ _ _ _)

end

section
/-! The restarted firmware resumes (R591). -/

namespace Sys2Proof.Machine
open Sys2Proof

theorem exec_coreRestart (dt : Nat) (s : State) : exec (.coreRestart dt) s = .next (advance dt s).coreRestart := rfl

/-! ### The open journal entries (R543, R544) -/

section Journal
variable {s t : State} (hflash : t.flash = s.flash)
include hflash

theorem State.phys_of_flash (p : Nat) : t.phys p = s.phys p := by
  simp only [State.phys, State.retireTable_of_flash hflash]

theorem State.journalWord_of_flash (i w : Nat) : t.journalWord i w = s.journalWord i w := by
  have haddr : t.journalAddr i = s.journalAddr i := by simp only [State.journalAddr, State.phys_of_flash hflash]
  have hnat (a n : Nat) : t.flashNat a n = s.flashNat a n := by simp only [State.flashNat, State.flashGets, hflash]
  simp only [State.journalWord, haddr, hnat, State.badIn_of_flash hflash]

theorem State.openEntries_of_flash : t.openEntries = s.openEntries := by
  have hopen : t.journalOpen = s.journalOpen :=
    funext fun i => by simp only [State.journalOpen, State.journalBegan, State.journalWord_of_flash hflash]
  rw [State.openEntries, State.openEntries, hopen, hflash]

theorem State.nextOpen_congr (hreadOnly : t.readOnly = s.readOnly) : t.nextOpen = s.nextOpen := by
  simp only [State.nextOpen, State.openEntries_of_flash hflash, hreadOnly, State.entryDrawer, State.entryType,
    State.entryField, State.journalWord_of_flash hflash]

end Journal

/-! ### What the steps keep of LEAVE (R573, R591) -/

/-- An erase is asked for, or LEAVE is held for it. -/
def State.asksErase (s : State) : Prop := s.leave.reqs.contains .flashErase = true ∨ s.leave.holding = some .flashErase

theorem State.asksErase_congr {s t : State} (h : t.leave = s.leave) (hs : s.asksErase) : t.asksErase := by
  rw [State.asksErase, h]
  exact hs

theorem State.settleWait_asksErase {s : State} (h : s.asksErase) : s.settleWait.asksErase := by
  obtain ⟨w, f, hsettled⟩ := s.settleWait_eq
  rw [hsettled]
  exact h

theorem State.startRequest_asksErase {s : State} (h : s.asksErase) : s.startRequest.asksErase := by
  obtain ⟨p, i, f, c, hstarted⟩ := s.startRequest_eq
  rw [hstarted]
  exact h

theorem State.releaseFor_asksErase {s : State} {op : HeavyOp} (hop : op ≠ .flashErase) (h : s.asksErase) :
    (s.releaseFor op).asksErase := by
  by_cases hheld : s.leave.holding = some op
  · have hreqs : s.leave.reqs.contains .flashErase = true :=
      h.resolve_right fun herase => hop (Option.some.inj (hheld.symm.trans herase))
    have hrelease : s.releaseFor op =
        (s.modLeave fun l => { l with holding := none, phase := .idle, releasedAt := some s.clock }).startRequest.settleWait :=
      (if_pos hheld).trans (if_pos (by simp [hheld]))
    rw [hrelease]
    exact State.settleWait_asksErase (State.startRequest_asksErase (.inl hreqs))
  · rwa [State.releaseFor_other _ _ hheld]

theorem State.dropRequest_asksErase {s : State} {op : HeavyOp} (hop : op ≠ .flashErase) (h : s.asksErase) :
    (s.dropRequest op).asksErase := by
  have hdropped : (s.modLeave fun l => { l with reqs := l.reqs.filter fun r => r != op }).asksErase := by
    refine h.imp_left fun hreqs => ?_
    simp only [State.modLeave, List.contains_iff_mem, List.mem_filter] at hreqs ⊢
    exact ⟨hreqs, by simpa using hop.symm⟩
  unfold State.dropRequest
  refine State.settleWait_asksErase ?_
  split
  · exact hdropped
  · exact hdropped

theorem State.resumeLeave_asksErase {s : State} (h : s.asksErase) : s.resumeLeave.asksErase := by
  have hback : (s.modLeave fun l => { l with withdrawn := false }).asksErase := h
  unfold State.resumeLeave
  split
  · exact State.settleWait_asksErase hback
  · exact State.settleWait_asksErase (State.startRequest_asksErase hback)

theorem State.resumeLeave_withdrawn (s : State) : s.resumeLeave.leave.withdrawn = false := by
  unfold State.resumeLeave
  split
  · obtain ⟨w, f, hsettled⟩ := (s.modLeave fun l => { l with withdrawn := false }).settleWait_eq
    rw [hsettled]
    rfl
  · obtain ⟨p, i, e, c, hstarted⟩ := (s.modLeave fun l => { l with withdrawn := false }).startRequest_eq
    obtain ⟨w, f, hsettled⟩ := (s.modLeave fun l => { l with withdrawn := false }).startRequest.settleWait_eq
    rw [hsettled, hstarted]
    rfl

/-! ### What the steps keep of the runs -/

theorem KeepsRuns.run {s t : State} (h : KeepsRuns s t) : t.cal.run = s.cal.run := congrArg (·.1) h

theorem KeepsRuns.results {s t : State} (h : KeepsRuns s t) : t.cal.results = s.cal.results := congrArg (·.2.1) h

/-! ### Steps 1 and 2: the open entries and the index -/

theorem State.restartIndex_keepsRuns (s : State) : KeepsRuns s s.restartIndex :=
  have hindex : KeepsRuns s s.buildIndex := .step s.buildIndex_same rfl (.refl s)
  .ite (.ite (hindex.trans (State.rebuild_keepsRuns _)) hindex) (.refl s)

/-- The recovery after a restart waits, and its first hold of LEAVE is asked for. -/
def State.recoveryAsked (s : State) : State :=
  State.requestLeave { s with core := { s.core with recovering := true } } .flashErase

theorem State.restartRecovery_of_open {s : State} (hrecovered : s.core.recovered = true) (hopen : s.nextOpen.isSome = true) :
    s.restartRecovery = s.recoveryAsked :=
  (if_neg (by simp [hrecovered])).trans (if_pos hopen)

theorem State.recoveryAsked_core (s : State) : s.recoveryAsked.core = { s.core with recovering := true } :=
  State.requestLeave_same _ _ .core rfl

theorem State.restartRecovery_core (s : State) : ∃ r : Bool, s.restartRecovery.core = { s.core with recovering := r } := by
  unfold State.restartRecovery
  split
  · exact ⟨s.core.recovering, rfl⟩
  · split
    · exact ⟨true, s.recoveryAsked_core⟩
    · exact ⟨s.core.recovering, s.restartIndex_same .core rfl⟩

theorem State.restartRecovery_keepsRuns (s : State) : KeepsRuns s s.restartRecovery :=
  .ite (.refl s) (.ite (congrArg Cal.runs (State.requestLeave_same _ _ .cal rfl)) s.restartIndex_keepsRuns)

/-! ### Step 3: the suspensions end -/

/-- What the restart drops of the runs. -/
def State.runsDropped (s : State) : State :=
  { s with cal := { s.cal with run := none, checking := none, joinPassed := false, joinWaits := none } }

/-- A full run cut off is asked for again, and its suspension is over. -/
def State.runAskedAgain (s : State) (g : Trigger) : State :=
  (State.endSuspension { s with cal := { s.cal with
    pending := some (s.cal.pending.getD g), passed := false } } s.cycleNow).releaseFor .fullRun

/-- The trigger of the full run in progress. -/
def State.fullTrigger (s : State) : Option Trigger :=
  match s.cal.run with | some r => if r.rejoin.isNone then some r.trigger else none | none => none

/-- The runs as the restart leaves them. -/
def State.runsEnded (s : State) : State :=
  match s.fullTrigger with | some g => s.runsDropped.runAskedAgain g | none => s.runsDropped

theorem State.runAskedAgain_same (s : State) (g : Trigger) :
    Same [.chan, .chain, .leave, .faults]
      { s with cal := { s.cal with pending := some (s.cal.pending.getD g), passed := false } } (s.runAskedAgain g) :=
  .step (State.releaseFor_same _ _) rfl ((State.endSuspension_same _ _).mono rfl)

/-- No run is in progress, and every result waits as it did. -/
theorem State.runsEnded_cal (s : State) : s.runsEnded.cal.run = none ∧ s.runsEnded.cal.results = s.cal.results := by
  unfold State.runsEnded
  split
  · next g _ =>
    rw [State.runAskedAgain_same _ g .cal rfl]
    exact ⟨rfl, rfl⟩
  · exact ⟨rfl, rfl⟩

theorem State.runsEnded_same (s : State) : Same [.chan, .chain, .cal, .leave, .faults] s s.runsEnded := by
  have hdropped : Same [.cal] s s.runsDropped := .upd_cal rfl (.refl _ _)
  unfold State.runsEnded
  split
  · exact .step (State.runAskedAgain_same _ _) rfl (.upd_cal rfl (hdropped.mono rfl))
  · exact hdropped.mono rfl

theorem State.runsEnded_asksErase {s : State} (h : s.asksErase) : s.runsEnded.asksErase := by
  unfold State.runsEnded
  split
  · exact State.releaseFor_asksErase (by decide) (State.asksErase_congr (State.endSuspension_same _ _ .leave rfl) h)
  · exact h

theorem Channel.resumed_count (c : Channel) (inst clock : Nat) : (c.resumed inst clock).count = c.count := by
  unfold Channel.resumed
  split
  · split <;> rfl
  · rfl

theorem State.runsEnded_count (s : State) (n : Chan) : (s.runsEnded.chan.get n).count = (s.chan.get n).count := by
  unfold State.runsEnded
  split
  · rw [State.runAskedAgain, State.releaseFor_same _ _ .chan rfl, State.endSuspension_chan]
    exact Channel.resumed_count _ _ _
  · rfl

/-- A joining channel is in state 2 once the restart has reached it. -/
theorem State.restartJoin_chan (s : State) (n : Chan) :
    (s.restartJoin n).chan = s.chan.set n
      (if (s.chan.get n).st == .joining then
        { s.chan.get n with
          st := .absentUp, absentAt := s.clock, stable := 0, startJoin := false, settling := false, susp := none }
      else s.chan.get n) := by
  unfold State.restartJoin
  split
  · rw [State.log_same _ _ _ _ _ .chan rfl, State.releaseFor_same _ _ .chan rfl, State.releaseFor_same _ _ .chan rfl,
      State.gapMarkers_chan, State.goAbsentUp, State.modChan_chan, Per8.get_set_same, Per8.set_set]
  · rw [Per8.set_get]

theorem State.restartJoin_turn (s : State) (n : Chan) :
    ((s.restartJoin n).chan.get n).st ≠ .joining ∧ ((s.restartJoin n).chan.get n).count = (s.chan.get n).count := by
  rw [State.restartJoin_chan, Per8.get_set_same]
  split
  · exact ⟨by simp, rfl⟩
  · next h => exact ⟨by simpa using h, rfl⟩

theorem State.restartJoin_asksErase {s : State} (n : Chan) (h : s.asksErase) : (s.restartJoin n).asksErase := by
  unfold State.restartJoin
  split
  · have hmarked : ((s.goAbsentUp n).gapMarkers n true s.cycleNow).asksErase :=
      State.asksErase_congr (State.gapMarkers_same _ _ _ _ .leave rfl) h
    refine State.asksErase_congr (State.log_same _ _ _ _ _ .leave rfl) ?_
    exact State.releaseFor_asksErase (by simp) (State.releaseFor_asksErase (by simp) hmarked)
  · exact h

theorem State.settleBoot_core (s : State) : ∃ b : Boot, s.settleBoot.core = { s.core with boot := b } := by
  unfold State.settleBoot
  dsimp only
  split
  · exact ⟨.calib, rfl⟩
  · exact ⟨s.core.boot, rfl⟩

theorem State.settleBoot_keepsRuns (s : State) : KeepsRuns s s.settleBoot := by
  unfold State.settleBoot
  exact .ite rfl (.refl s)

/-- The channels of the restart in turn. -/
def State.joinsEnded (s : State) : State := s.eachChan fun n t => t.restartJoin n

theorem State.joinsEnded_same (s : State) : Same [.chan, .chain, .leave, .faults] s s.joinsEnded :=
  Same.eachChan (fun n t => State.restartJoin_same t n) (.refl _ _)

theorem State.joinsEnded_chan (s : State) (n : Chan) :
    (s.joinsEnded.chan.get n).st ≠ .joining ∧ (s.joinsEnded.chan.get n).count = (s.chan.get n).count := by
  obtain ⟨t, -, hchan, hturn⟩ := State.eachChan_turn (fun n t => State.restartJoin_same t n)
    (fun n t => OnlyChan.of_set (State.restartJoin_chan t n)) s n
  rw [State.joinsEnded, hturn, ← hchan]
  exact t.restartJoin_turn n

theorem State.restartRun_joinsEnded (s : State) : s.restartRun = s.runsEnded.joinsEnded.settleBoot := rfl

theorem State.restartRun_chan (s : State) (n : Chan) :
    (s.restartRun.chan.get n).st ≠ .joining ∧ (s.restartRun.chan.get n).count = (s.chan.get n).count := by
  obtain ⟨hst, hcount⟩ := s.runsEnded.joinsEnded_chan n
  rw [State.restartRun_joinsEnded, State.settleBoot_same _ .chan rfl]
  exact ⟨hst, hcount.trans (s.runsEnded_count n)⟩

theorem State.restartRun_core (s : State) : ∃ b : Boot, s.restartRun.core = { s.core with boot := b } := by
  obtain ⟨b, hb⟩ := s.runsEnded.joinsEnded.settleBoot_core
  have hcore : s.runsEnded.joinsEnded.core = s.core :=
    (s.runsEnded.joinsEnded_same .core rfl).trans (s.runsEnded_same .core rfl)
  exact ⟨b, by rw [State.restartRun_joinsEnded, hb, hcore]⟩

theorem State.restartRun_cal (s : State) : s.restartRun.cal.run = none ∧ s.restartRun.cal.results = s.cal.results := by
  have hsettled := s.runsEnded.joinsEnded.settleBoot_keepsRuns
  have hcal : s.runsEnded.joinsEnded.cal = s.runsEnded.cal := s.runsEnded.joinsEnded_same .cal rfl
  obtain ⟨hrun, hresults⟩ := s.runsEnded_cal
  rw [State.restartRun_joinsEnded, hsettled.run, hsettled.results, hcal]
  exact ⟨hrun, hresults⟩

theorem State.restartRun_asksErase {s : State} (h : s.asksErase) : s.restartRun.asksErase := by
  rw [State.restartRun_joinsEnded]
  refine State.asksErase_congr (State.settleBoot_same _ .leave rfl) ?_
  exact State.eachChan_induct (P := State.asksErase) (fun n _ => State.restartJoin_asksErase n) (State.runsEnded_asksErase h)

/-! ### Step 5: the outputs -/

theorem State.restartOutput_asksErase {s : State} (o : OutNo) (h : s.asksErase) : (s.restartOutput o).asksErase := by
  unfold State.restartOutput
  dsimp only
  split
  · exact State.releaseFor_asksErase (by simp) (State.dropRequest_asksErase (by simp) h)
  · exact h

/-- The outputs of the restart in turn. -/
def State.outputsRestarted (s : State) : State := s.eachOut fun o t => t.restartOutput o

theorem State.outputsRestarted_same (s : State) : Same [.ao, .leave] s s.outputsRestarted :=
  Same.eachOut (fun o t => State.restartOutput_same t o) (.refl _ _)

theorem State.outputsRestarted_asksErase {s : State} (h : s.asksErase) : s.outputsRestarted.asksErase :=
  List.foldlRecOn OutNo.all _ h fun _ ht o _ => State.restartOutput_asksErase o ht

/-! ### The steps together -/

/-- The firmware runs again, and what the restart loses is gone. -/
def State.resumed (s : State) : State :=
  State.restartLosses { s with core := { s.core with restarting := none, dogAt := s.clock + dogTime } }

/-- The steps up to the suspensions. -/
def State.restartedRuns (s : State) : State := s.resumed.restartRecovery.restartRun

theorem State.restartSteps_eq (s : State) : s.restartSteps = s.restartedRuns.outputsRestarted.resumeLeave := rfl

theorem State.restartSteps_same_runs (s : State) : Same [.ao, .leave] s.restartedRuns s.restartSteps :=
  .step (State.resumeLeave_same _) rfl s.restartedRuns.outputsRestarted_same

theorem State.restartedRuns_core (s : State) :
    s.restartedRuns.core.restarting = none ∧
      s.restartedRuns.core.recovering = s.resumed.restartRecovery.core.recovering := by
  obtain ⟨b, hb⟩ := s.resumed.restartRecovery.restartRun_core
  obtain ⟨r, hr⟩ := s.resumed.restartRecovery_core
  have hcore : s.restartedRuns.core = { s.resumed.restartRecovery.core with boot := b } := hb
  rw [hcore]
  exact ⟨by rw [hr]; rfl, rfl⟩

theorem State.restartedRuns_cal (s : State) :
    s.restartedRuns.cal.run = none ∧
      s.restartedRuns.cal.results = if s.readOnly then [] else s.cal.results.filter fun r => !r.abandoned := by
  obtain ⟨hrun, hresults⟩ := s.resumed.restartRecovery.restartRun_cal
  have hkept := s.resumed.restartRecovery_keepsRuns.results
  unfold State.restartedRuns
  refine ⟨hrun, ?_⟩
  rw [hresults, hkept]
  rfl

theorem State.restartedRuns_chan (s : State) (n : Chan) :
    (s.restartedRuns.chan.get n).st ≠ .joining ∧ (s.restartedRuns.chan.get n).count = (s.chan.get n).count := by
  have hchan : s.resumed.restartRecovery.chan = s.chan := s.resumed.restartRecovery_same .chan rfl
  rw [← hchan]
  exact s.resumed.restartRecovery.restartRun_chan n

theorem State.restartedRuns_pack (s : State) : s.restartedRuns.pack = s.resumed.pack :=
  (State.restartRun_same _ .pack rfl).trans (State.restartRecovery_same _ .pack rfl)

/-- With an entry open its recovery waits for LEAVE, which is asked for. -/
theorem State.restartSteps_recovers {s : State} (hrecovered : s.core.recovered = true) (hopen : s.nextOpen.isSome = true) :
    s.restartSteps.core.recovering = true ∧ s.restartSteps.asksErase := by
  have hopen' : s.resumed.nextOpen.isSome = true := by
    rw [State.nextOpen_congr (s := s) (t := s.resumed) rfl rfl]
    exact hopen
  have hrecovery : s.resumed.restartRecovery = s.resumed.recoveryAsked := State.restartRecovery_of_open hrecovered hopen'
  refine ⟨?_, ?_⟩
  · rw [s.restartSteps_same_runs .core rfl, s.restartedRuns_core.2, hrecovery, State.recoveryAsked_core]
  · have hasked : s.resumed.restartRecovery.asksErase := hrecovery ▸ State.requestLeave_asked _ _
    rw [State.restartSteps_eq]
    exact State.resumeLeave_asksErase (State.outputsRestarted_asksErase (State.restartRun_asksErase hasked))

/-! ### CORE_RESTART -/

/-- Fault 0xF2 tells of a watchdog expiry. -/
def State.expiryTold (s : State) (pc : BitVec 32) (recent : Nat) : State :=
  State.log { s with core := { s.core with restartPc := none } } 0xF2 0xFF pc (BitVec.ofNat 32 recent)

theorem State.expiryTold_same (s : State) (pc : BitVec 32) (recent : Nat) : Same [.core, .faults] s (s.expiryTold pc recent) :=
  .step (State.log_same _ _ _ _ _) rfl (.upd_core rfl (.refl _ _))

theorem State.expiryTold_core (s : State) (pc : BitVec 32) (recent : Nat) :
    (s.expiryTold pc recent).core = { s.core with restartPc := none } := State.log_same _ _ _ _ _ .core rfl

theorem State.expiryTold_faults (s : State) (pc : BitVec 32) (recent : Nat) :
    (s.expiryTold pc recent).faults = s.faults.logged 0xF2 s.tb.time 0xFF pc (BitVec.ofNat 32 recent) := by
  rw [State.expiryTold, State.log_eq]

theorem State.coreRestart_eq {s : State} {begun : Nat} (hbegun : s.core.restarting = some begun) (hrun : s.core.halted = false) :
    s.coreRestart =
      match s.core.restartPc with
      | some pc => s.restartSteps.expiryTold pc s.recentRestarts.length
      | none => s.restartSteps := by
  have hgo : (s.core.restarting.isSome && !s.core.halted) = true := by simp [hbegun, hrun]
  exact (if_pos hgo).trans rfl

/-- A restart adds to its steps what it tells of an expiry. -/
theorem State.coreRestart_same_steps {s : State} {begun : Nat} (hbegun : s.core.restarting = some begun)
    (hrun : s.core.halted = false) : Same [.core, .faults] s.restartSteps s.coreRestart := by
  rw [State.coreRestart_eq hbegun hrun]
  split
  · exact s.restartSteps.expiryTold_same _ _
  · exact .refl _ _

theorem State.coreRestart_core {s : State} {begun : Nat} (hbegun : s.core.restarting = some begun)
    (hrun : s.core.halted = false) :
    s.coreRestart.core.restarting = s.restartSteps.core.restarting ∧
      s.coreRestart.core.recovering = s.restartSteps.core.recovering := by
  rw [State.coreRestart_eq hbegun hrun]
  split
  · rw [State.expiryTold_core]
    generalize s.restartSteps.core = c
    exact ⟨rfl, rfl⟩
  · exact ⟨rfl, rfl⟩

theorem State.expiryTold_tells (s : State) (pc : BitVec 32) (recent : Nat) :
    (s.expiryTold pc recent).faults.last = 0xF2 ∧ (s.expiryTold pc recent).core.restartPc = none ∧
      (s.expiryTold pc recent).faults.events.getLast?.map (fun e => (e.code, e.held, e.detailA)) =
        some (0xF2, false, pc) := by
  rw [State.expiryTold_core, State.expiryTold_faults]
  exact ⟨rfl, rfl, by simp [Faults.logged]⟩

theorem State.coreRestart_of_expiry {s : State} {begun : Nat} {pc : BitVec 32} (hbegun : s.core.restarting = some begun)
    (hrun : s.core.halted = false) (hpc : s.core.restartPc = some pc) :
    s.coreRestart = s.restartSteps.expiryTold pc s.recentRestarts.length := by
  rw [State.coreRestart_eq hbegun hrun, hpc]

section Restarted
variable {s : State} {begun : Nat} (hbegun : s.core.restarting = some begun) (hrun : s.core.halted = false)
include hbegun hrun

theorem State.coreRestart_cal :
    s.coreRestart.cal.run = none ∧
      s.coreRestart.cal.results = if s.readOnly then [] else s.cal.results.filter fun r => !r.abandoned := by
  rw [State.coreRestart_same_steps hbegun hrun .cal rfl, s.restartSteps_same_runs .cal rfl]
  exact s.restartedRuns_cal

theorem State.coreRestart_chan (n : Chan) :
    (s.coreRestart.chan.get n).st ≠ .joining ∧ (s.coreRestart.chan.get n).count = (s.chan.get n).count := by
  rw [State.coreRestart_same_steps hbegun hrun .chan rfl, s.restartSteps_same_runs .chan rfl]
  exact s.restartedRuns_chan n

theorem State.coreRestart_ctlQueue :
    s.coreRestart.pack.ctlQueue =
      if s.pack.echoDone then s.pack.ctlQueue.filter fun c => c.typ == typeFault else s.pack.ctlQueue := by
  rw [State.coreRestart_same_steps hbegun hrun .pack rfl, s.restartSteps_same_runs .pack rfl, State.restartedRuns_pack]
  rfl

theorem State.coreRestart_restarting : s.coreRestart.core.restarting = none := by
  rw [(State.coreRestart_core hbegun hrun).1, s.restartSteps_same_runs .core rfl]
  exact s.restartedRuns_core.1

theorem State.coreRestart_withdrawn : s.coreRestart.leave.withdrawn = false := by
  rw [State.coreRestart_same_steps hbegun hrun .leave rfl, State.restartSteps_eq]
  exact State.resumeLeave_withdrawn _

theorem State.coreRestart_recovers (hrecovered : s.core.recovered = true) (hopen : s.nextOpen.isSome = true) :
    s.coreRestart.core.recovering = true ∧ s.coreRestart.asksErase := by
  obtain ⟨hrecovers, hasked⟩ := State.restartSteps_recovers hrecovered hopen
  exact ⟨(State.coreRestart_core hbegun hrun).2.trans hrecovers,
    State.asksErase_congr (State.coreRestart_same_steps hbegun hrun .leave rfl) hasked⟩

theorem State.coreRestart_tells {pc : BitVec 32} (hpc : s.core.restartPc = some pc) :
    s.coreRestart.faults.last = 0xF2 ∧ s.coreRestart.core.restartPc = none ∧
      s.coreRestart.faults.events.getLast?.map (fun e => (e.code, e.held, e.detailA)) = some (0xF2, false, pc) := by
  rw [State.coreRestart_of_expiry hbegun hrun hpc]
  exact State.expiryTold_tells _ _ _

end Restarted

theorem State.coreRestart_runsClosed (s : State) : s.coreRestart.cab.runsClosed = s.cab.runsClosed := by
  rw [s.coreRestart_same .cab rfl]

end Sys2Proof.Machine

end

section
/-! Domain resets (R594, R595). -/

namespace Sys2Proof.Machine
open Sys2Proof

theorem exec_domainPowerFault (dt : Nat) (dom : Fin 11) (s : State) :
    exec (.domainPowerFault dt dom) s = .next ((advance dt s).domainFault dom.val) := rfl

theorem exec_domainRestore (dt : Nat) (dom : Fin 11) (s : State) :
    exec (.domainRestore dt dom) s = .next ((advance dt s).domainRestore dom.val) := rfl

theorem exec_domainFaultClear (dt : Nat) (dom : Fin 11) (s : State) :
    exec (.domainFaultClear dt dom) s = .next ((advance dt s).domainClear dom.val) := rfl

/-! ### The domains -/

/-- A domain is that of a channel, the stream port, the outputs or the snapshot port. -/
theorem domain_cases (dom : Fin 11) : (∃ n : Chan, n.val = dom.val) ∨ dom = 8 ∨ dom = 9 ∨ dom = 10 := by
  revert dom
  decide

theorem chan_ofNat_val (n : Chan) : Fin.ofNat 8 n.val = n := by
  revert n
  decide

theorem State.domainUp_channel (s : State) (n : Chan) : s.domainUp n.val = (s.chan.get n).up := by
  rw [State.domainUp, if_pos n.isLt, chan_ofNat_val]

/-! ### Faults that are only added to -/

/-- The faults that are held in `s` are held in `t`, whose log goes on from that of `s`. -/
def FaultsGrow (s t : State) : Prop :=
  t.faults.active = s.faults.active ∧ ∃ more : List FaultEvent, t.faults.events = s.faults.events ++ more

theorem FaultsGrow.of_eq {s t : State} (h : t.faults = s.faults) : FaultsGrow s t := by
  rw [FaultsGrow, h]
  exact ⟨rfl, [], (List.append_nil _).symm⟩

theorem FaultsGrow.of_logged {s t : State} {code subj : Byte} {time : BitVec 64} {a b : BitVec 32}
    (h : t.faults = s.faults.logged code time subj a b) : FaultsGrow s t := by
  rw [FaultsGrow, h]
  exact ⟨rfl, _, rfl⟩

theorem FaultsGrow.faultActive {s t : State} (h : FaultsGrow s t) (code subj : Byte) :
    t.faultActive code subj = s.faultActive code subj := by
  rw [State.faultActive, State.faultActive, h.1]

theorem State.cutOff_faultsGrow (s : State) (partly : Bool) : FaultsGrow s (s.cutOff partly) := by
  unfold State.cutOff
  split
  · dsimp only
    split
    · exact .of_eq rfl
    · rw [State.log_eq]
      exact .of_logged rfl
  · exact .of_eq rfl

/-- A raise of a held fault, whether it is active already or not, adds its event (R354, R601). -/
theorem State.raiseAgain_events (s : State) (code subj : Byte) (a b : BitVec 32) :
    (s.raiseAgain code subj a b).faultActive code subj = true ∧
      (s.raiseAgain code subj a b).faults.events = s.faults.events ++
        [{ code := code, raised := true, held := true, time := s.tb.time, subject := subj, detailA := a, detailB := b
           occ := s.faults.count code + 1 }] := by
  unfold State.raiseAgain
  by_cases hactive : s.faultActive code subj = true
  · rw [if_pos hactive]
    refine ⟨hactive, ?_⟩
    simp [State.event, State.occurs, State.occur, Faults.bump, Faults.count]
  · have hnew : ¬s.faults.active.contains (code, subj) = true := hactive
    rw [if_neg hactive, State.raise_eq]
    refine ⟨Faults.raised_active .., ?_⟩
    simp only [Faults.raised, if_neg hnew]

/-! ### A channel whose domain fails (R594) -/

theorem State.stopStamping_chan (s : State) (n : Chan) :
    (s.stopStamping n).chan = s.chan.set n { s.chan.get n with pending := false, tickSlots := [] } := by
  rw [State.stopStamping, State.cutSamples_same _ _ .chan rfl, State.modChan_chan]

/-- The channel as a loss leaves it: what it had counted is kept, and from state 5 it goes to state 2. -/
def Channel.lost (c : Channel) (r : LossRec) (clock : Nat) : Channel :=
  let kept := { c with pending := false, tickSlots := [], loss := some r, stable := 0 }
  if c.st = .present then
    { kept with st := .absentUp, absentAt := clock, startJoin := false, settling := false, missingAt := clock }
  else kept

theorem Channel.lost_keeps (c : Channel) (r : LossRec) (clock : Nat) :
    (c.lost r clock).yarn = c.yarn ∧ (c.lost r clock).count = c.count ∧ (c.lost r clock).loss = some r ∧
      (c.lost r clock).st = if c.st = .present then .absentUp else c.st := by
  unfold Channel.lost
  split <;> exact ⟨rfl, rfl, rfl, rfl⟩

/-- What the hardware keeps of a loss now. -/
def State.lossNow (s : State) (n : Chan) : LossRec :=
  { time := BitVec.ofNat 64 s.cycleNow, full := s.cycleNow, count := s.countBy n (s.clockOf s.cycleNow)
    session := s.tb.session }

theorem State.loseChannel_chan (s : State) (n : Chan) :
    (s.loseChannel n).chan = s.chan.set n ((s.chan.get n).lost (s.lossNow n) s.clock) := by
  have hstopped (count : BitVec 48) : ((s.stopStamping n).statYarnEnd n s.cycleNow count).chan =
      s.chan.set n { s.chan.get n with pending := false, tickSlots := [] } :=
    (State.statYarnEnd_same _ _ _ _ .chan rfl).trans (s.stopStamping_chan n)
  have hclock (count : BitVec 48) : ((s.stopStamping n).statYarnEnd n s.cycleNow count).clock = s.clock :=
    (State.statYarnEnd_same _ _ _ _ .clock rfl).trans (State.stopStamping_same s n .clock rfl)
  unfold State.loseChannel Channel.lost
  dsimp only
  split
  · simp only [State.goAbsentUp, State.modChan_chan, State.modChan_clock, hstopped, hclock, Per8.get_set_same, Per8.set_set]
    rfl
  · simp only [State.modChan_chan, hstopped, Per8.get_set_same, Per8.set_set]
    rfl

/-- The run in progress is the channel's rejoin run. -/
def State.rejoins (s : State) (n : Chan) : Bool := match s.cal.run with | some r => r.rejoin == some n | none => false

/-- The join of a channel whose domain fails is given up, and with it its rejoin run. -/
def State.rejoinDropped (s : State) (n : Chan) : State :=
  if s.rejoins n then { s with cal := { s.cal with run := none } } else s

/-- LEAVE is given back for the join, and a suspension of its channel is over. -/
def State.joinReleased (s : State) (n : Chan) : State :=
  (((s.rejoinDropped n).releaseFor (.join n)).releaseFor (.startupPower n)).gapMarkers n true s.cycleNow

/-- The channel of the join in state 2, with fault 0x16. -/
def State.joinFailed (s : State) (n : Chan) : State := ((s.joinReleased n).goAbsentUp n).log 0x16 (BitVec.ofNat 8 n.val) 0 0

theorem State.dropJoin_eq (s : State) (n : Chan) : s.dropJoin n = (s.joinFailed n).settleJoin.settleBoot := rfl

theorem State.rejoinDropped_same (s : State) (n : Chan) : Same [.cal] s (s.rejoinDropped n) :=
  .ite (.upd_cal rfl (.refl _ _)) (.refl _ _)

theorem State.rejoinDropped_run (s : State) (n : Chan) :
    (s.rejoinDropped n).cal.report = s.cal.report ∧
      ∀ r : Run, (s.rejoinDropped n).cal.run = some r → r.rejoin ≠ some n := by
  unfold State.rejoinDropped
  split
  · exact ⟨rfl, fun r hr => absurd hr (by simp)⟩
  · next hother => exact ⟨rfl, fun r hr hrejoin => hother (by simp [State.rejoins, hr, hrejoin])⟩

theorem State.joinReleased_same (s : State) (n : Chan) : Same [.chan, .chain, .leave] (s.rejoinDropped n) (s.joinReleased n) :=
  .step (State.gapMarkers_same _ _ _ _) rfl (.step (State.releaseFor_same _ _) rfl ((State.releaseFor_same _ _).mono rfl))

theorem State.joinFailed_same (s : State) (n : Chan) :
    Same [.chan, .chain, .leave, .faults] (s.rejoinDropped n) (s.joinFailed n) :=
  .step (State.log_same _ _ _ _ _) rfl (.step (State.goAbsentUp_same _ _) rfl ((s.joinReleased_same n).mono rfl))

theorem State.joinFailed_chan (s : State) (n : Chan) :
    (s.joinFailed n).chan = s.chan.set n { s.chan.get n with
      susp := none, st := .absentUp, absentAt := (s.joinReleased n).clock, stable := 0, startJoin := false
      settling := false } := by
  have hreleased : (s.joinReleased n).chan = s.chan.set n { s.chan.get n with susp := none } := by
    rw [State.joinReleased, State.gapMarkers_chan, State.releaseFor_same _ _ .chan rfl, State.releaseFor_same _ _ .chan rfl,
      s.rejoinDropped_same n .chan rfl]
  rw [State.joinFailed, State.log_same _ _ _ _ _ .chan rfl, State.goAbsentUp, State.modChan_chan, hreleased,
    Per8.get_set_same, Per8.set_set]

theorem State.joinFailed_faults (s : State) (n : Chan) :
    (s.joinFailed n).faults = s.faults.logged 0x16 s.tb.time (BitVec.ofNat 8 n.val) 0 0 := by
  have hbefore : Same [.cal, .chan, .chain, .leave] s ((s.joinReleased n).goAbsentUp n) :=
    .step (State.goAbsentUp_same _ _) rfl (.step (s.joinReleased_same n) rfl ((s.rejoinDropped_same n).mono rfl))
  rw [State.joinFailed, State.log_eq, ← hbefore .faults rfl, ← hbefore .tb rfl]

theorem State.settleBoot_report (s : State) : s.settleBoot.cal.report = s.cal.report := by
  unfold State.settleBoot
  dsimp only
  split <;> rfl

/-- After the join has failed the calibration alone settles. -/
theorem State.dropJoin_same_failed (s : State) (n : Chan) : Same [.cal, .core] (s.joinFailed n) (s.dropJoin n) :=
  .step (State.settleBoot_same _) rfl ((State.settleJoin_same _).mono rfl)

theorem State.dropJoin_cal (s : State) (n : Chan) :
    (s.dropJoin n).cal.report = s.cal.report ∧ ∀ r : Run, (s.dropJoin n).cal.run = some r → r.rejoin ≠ some n := by
  have hfailed : (s.joinFailed n).cal = (s.rejoinDropped n).cal := s.joinFailed_same n .cal rfl
  have hrun : (s.dropJoin n).cal.run = (s.rejoinDropped n).cal.run := by
    rw [← hfailed, State.dropJoin_eq]
    exact (State.settleBoot_keepsRuns (s.joinFailed n).settleJoin).run
  have hreport : (s.dropJoin n).cal.report = (s.rejoinDropped n).cal.report := by
    rw [← hfailed, State.dropJoin_eq, State.settleBoot_report]
    rfl
  rw [hrun, hreport]
  exact s.rejoinDropped_run n

/-- What becomes of a channel whose domain fails, before it is down. -/
def State.channelFailed (s : State) (n : Chan) : State :=
  if ((s.chan.get n).st == .present || (s.chan.get n).st == .suspended) && (s.chan.get n).loss.isNone then s.loseChannel n
  else if (s.chan.get n).st == .joining then s.dropJoin n else s

theorem State.takeDown_channel (s : State) (n : Chan) :
    s.takeDown n.val = (s.channelFailed n).modChan n fun c => { c with up := false } := by
  unfold State.takeDown
  rw [if_pos n.isLt, chan_ofNat_val]
  rfl

theorem State.channelFailed_of_lost {s : State} {n : Chan}
    (hst : (s.chan.get n).st = .present ∨ (s.chan.get n).st = .suspended)
    (hloss : (s.chan.get n).loss = none) : s.channelFailed n = s.loseChannel n := if_pos (by simp [hst, hloss])

theorem State.channelFailed_of_joining {s : State} {n : Chan} (hst : (s.chan.get n).st = .joining) :
    s.channelFailed n = s.dropJoin n := (if_neg (by simp [hst])).trans (if_pos (by simp [hst]))

theorem State.channelFailed_of_other {s : State} {n : Chan} (hpresent : (s.chan.get n).st ≠ .present)
    (hsuspended : (s.chan.get n).st ≠ .suspended) (hjoining : (s.chan.get n).st ≠ .joining) : s.channelFailed n = s :=
  (if_neg (by simp [hpresent, hsuspended])).trans (if_neg (by simp [hjoining]))

theorem State.dropJoin_chan (s : State) (n : Chan) :
    (s.dropJoin n).chan = s.chan.set n { s.chan.get n with
      susp := none, st := .absentUp, absentAt := (s.joinReleased n).clock, stable := 0, startJoin := false
      settling := false } :=
  (s.dropJoin_same_failed n .chan rfl).trans (s.joinFailed_chan n)

theorem State.dropJoin_faults (s : State) (n : Chan) :
    (s.dropJoin n).faults = s.faults.logged 0x16 s.tb.time (BitVec.ofNat 8 n.val) 0 0 :=
  (s.dropJoin_same_failed n .faults rfl).trans (s.joinFailed_faults n)

/-- The channel keeps its yarn and its count, and no other changes. -/
theorem State.channelFailed_chan (s : State) (n : Chan) :
    ∃ c : Channel, (s.channelFailed n).chan = s.chan.set n c ∧ c.yarn = (s.chan.get n).yarn ∧
      c.count = (s.chan.get n).count := by
  unfold State.channelFailed
  split
  · have hchan := s.loseChannel_chan n
    obtain ⟨hyarn, hcount, -, -⟩ := (s.chan.get n).lost_keeps (s.lossNow n) s.clock
    exact ⟨_, hchan, hyarn, hcount⟩
  · split
    · exact ⟨_, s.dropJoin_chan n, rfl, rfl⟩
    · exact ⟨_, (Per8.set_get _ _).symm, rfl, rfl⟩

theorem State.channelFailed_faultsGrow (s : State) (n : Chan) : FaultsGrow s (s.channelFailed n) := by
  unfold State.channelFailed
  split
  · exact .of_eq (s.loseChannel_same n .faults rfl)
  · split
    · exact .of_logged (s.dropJoin_faults n)
    · exact .of_eq rfl

/-- What the end of its domain does to a channel. -/
theorem State.takeDown_chan (s : State) (n : Chan) :
    OnlyChan n s (s.takeDown n.val) ∧ ((s.takeDown n.val).chan.get n).up = false ∧
      ((s.takeDown n.val).chan.get n).yarn = (s.chan.get n).yarn ∧
      ((s.takeDown n.val).chan.get n).count = (s.chan.get n).count := by
  obtain ⟨c, hchan, hyarn, hcount⟩ := s.channelFailed_chan n
  rw [State.takeDown_channel, State.modChan_chan, hchan, Per8.get_set_same, Per8.get_set_same]
  exact ⟨(OnlyChan.of_set hchan).trans (State.modChan_onlyChan _ _ _), rfl, hyarn, hcount⟩

theorem State.takeDown_of_lost {s : State} {n : Chan} (hst : (s.chan.get n).st = .present ∨ (s.chan.get n).st = .suspended)
    (hloss : (s.chan.get n).loss = none) :
    ((s.takeDown n.val).chan.get n).st = (if (s.chan.get n).st = .present then .absentUp else (s.chan.get n).st) ∧
      ((s.takeDown n.val).chan.get n).loss.isSome = true := by
  have hchan := s.loseChannel_chan n
  obtain ⟨-, -, hlost, hstate⟩ := (s.chan.get n).lost_keeps (s.lossNow n) s.clock
  rw [State.takeDown_channel, State.modChan_chan, State.channelFailed_of_lost hst hloss, hchan, Per8.get_set_same,
    Per8.get_set_same]
  exact ⟨hstate, Option.isSome_iff_exists.mpr ⟨_, hlost⟩⟩

theorem State.takeDown_of_joining {s : State} {n : Chan} (hst : (s.chan.get n).st = .joining) :
    ((s.takeDown n.val).chan.get n).st = .absentUp ∧ (s.takeDown n.val).faults.last = 0x16 ∧
      (s.takeDown n.val).cal.report = s.cal.report ∧
      ∀ r : Run, (s.takeDown n.val).cal.run = some r → r.rejoin ≠ some n := by
  have hchan := s.dropJoin_chan n
  obtain ⟨hreport, hrun⟩ := s.dropJoin_cal n
  have hlast : (s.dropJoin n).faults.last = 0x16 := by rw [s.dropJoin_faults n]; rfl
  rw [State.takeDown_channel, State.channelFailed_of_joining hst, State.modChan_chan, hchan, Per8.get_set_same,
    Per8.get_set_same]
  exact ⟨rfl, hlast, hreport, hrun⟩

theorem State.takeDown_of_other {s : State} {n : Chan} (hpresent : (s.chan.get n).st ≠ .present)
    (hsuspended : (s.chan.get n).st ≠ .suspended) (hjoining : (s.chan.get n).st ≠ .joining) :
    (s.takeDown n.val).chan.get n = { s.chan.get n with up := false } := by
  rw [State.takeDown_channel, State.channelFailed_of_other hpresent hsuspended hjoining, State.modChan_chan, Per8.get_set_same]

/-! ### The other domains (R594) -/

theorem State.dropOutputs_code (s : State) (o : OutNo) :
    (s.dropOutputs.ao.outs.get o).code = (s.ao.outs.get o).code := by
  have hkept (o : OutNo) (t : State) : ((t.dropRequest (.stagePower o)).releaseFor (.stagePower o)).ao = t.ao :=
    (State.releaseFor_same _ _ .ao rfl).trans (State.dropRequest_same t _ .ao rfl)
  rw [State.dropOutputs, State.eachOut_outs (g := fun _ a =>
    { a with st := if a.st == .faulted then .faulted else .idle, mismatches := 0 })]
  intro o t
  dsimp only [State.modOut]
  rw [hkept]

/-- A domain that is taken down is down, whatever faults that logs. -/
theorem State.takeDown_down (s : State) (dom : Fin 11) :
    (s.takeDown dom.val).domainUp dom.val = false ∧ FaultsGrow s (s.takeDown dom.val) ∧
      (8 ≤ dom.val → (s.takeDown dom.val).chan = s.chan) := by
  obtain ⟨n, hn⟩ | rfl | rfl | rfl := domain_cases dom
  · obtain ⟨-, hup, -, -⟩ := s.takeDown_chan n
    rw [← hn]
    refine ⟨(State.domainUp_channel _ _).trans hup, ?_, fun h => absurd n.isLt (by omega)⟩
    rw [State.takeDown_channel]
    exact s.channelFailed_faultsGrow n
  · exact ⟨rfl, s.cutOff_faultsGrow true, fun _ => s.streamDown_same .down .chan rfl⟩
  · exact ⟨rfl, .of_eq (s.dropOutputs_same .faults rfl), fun _ => s.dropOutputs_same .chan rfl⟩
  · exact ⟨rfl, .of_eq rfl, fun _ => rfl⟩

/-! ### DOMAIN_POWER_FAULT (R594, R595) -/

/-- The domain's failures in a row, at most 3. -/
def State.failCount (s : State) (dom : Nat) : Nat := min 3 (s.power.fails.getD dom 0 + 1)

/-- The failure is counted, the time of the fault kept and fault 0xF4 raised. -/
def State.failed (s : State) (dom : Nat) : State :=
  State.raiseAgain { s with power := { s.power with
    fails := s.power.fails.set dom (s.failCount dom)
    downAt := (dom, s.clock) :: s.power.downAt.filter fun d => d.1 != dom } }
    0xF4 (BitVec.ofNat 8 dom) (BitVec.ofNat 32 (s.failCount dom)) 0

theorem State.failed_same (s : State) (dom : Nat) : Same [.power, .faults] s (s.failed dom) :=
  .step (State.raiseAgain_same _ _ _ _ _) rfl (.upd_power rfl (.refl _ _))

theorem State.failed_power (s : State) (dom : Nat) :
    (s.failed dom).power = { s.power with
      fails := s.power.fails.set dom (s.failCount dom)
      downAt := (dom, s.clock) :: s.power.downAt.filter fun d => d.1 != dom } := State.raiseAgain_same _ _ _ _ _ .power rfl

theorem State.failed_faults (s : State) (dom : Nat) :
    (s.failed dom).faultActive 0xF4 (BitVec.ofNat 8 dom) = true ∧
      (s.failed dom).faults.events = s.faults.events ++
        [{ code := 0xF4, raised := true, held := true, time := s.tb.time, subject := BitVec.ofNat 8 dom
           detailA := BitVec.ofNat 32 (s.failCount dom), detailB := 0, occ := s.faults.count 0xF4 + 1 }] :=
  State.raiseAgain_events _ _ _ _ _

theorem State.domainFault_of_up {s : State} {dom : Nat} (hout : s.outOfReset = true) (hup : s.domainUp dom = true) :
    s.domainFault dom = (s.failed dom).takeDown dom := if_pos (by simp [hout, hup])

/-! ### DOMAIN_RESTORE (R594, R595) -/

theorem State.bringUp_channel (s : State) (n : Chan) :
    s.bringUp n.val = State.powered n.val
      (if (s.chan.get n).st == .absentDown then (s.modChan n fun c => { c with up := true }).goAbsentUp n
      else s.modChan n fun c => { c with up := true }) := by
  unfold State.bringUp
  rw [if_pos n.isLt, chan_ofNat_val]
  dsimp only
  split <;> rfl

theorem State.bringUp_outputs (s : State) :
    s.bringUp 9 = if s.power.standby = true then s else State.powered 9 { s with ao := { s.ao with up := true } } := rfl

theorem State.bringUp_downAt (s : State) (dom : Fin 11) : (s.bringUp dom.val).power.downAt = s.power.downAt := by
  obtain ⟨n, hn⟩ | rfl | rfl | rfl := domain_cases dom
  · rw [← hn, State.bringUp_channel]
    split <;> rfl
  · rfl
  · show (s.bringUp 9).power.downAt = _
    rw [State.bringUp_outputs]
    split <;> rfl
  · rfl

/-- All but the stream domain, which waits for a discovery, and the AO domain in standby are up. -/
theorem State.bringUp_up (s : State) (dom : Fin 11) (hstream : dom ≠ 8) (hstandby : dom = 9 → s.power.standby = false) :
    (s.bringUp dom.val).domainUp dom.val = true := by
  obtain ⟨n, hn⟩ | rfl | rfl | rfl := domain_cases dom
  · rw [← hn, State.bringUp_channel, State.domainUp_channel]
    split
    · show (((s.modChan n fun c => { c with up := true }).goAbsentUp n).chan.get n).up = true
      rw [State.goAbsentUp, State.modChan_chan, Per8.get_set_same, State.modChan_chan, Per8.get_set_same]
    · show ((s.modChan n fun c => { c with up := true }).chan.get n).up = true
      rw [State.modChan_chan, Per8.get_set_same]
  · exact absurd rfl hstream
  · have hup : ¬ s.power.standby = true := by simp [hstandby rfl]
    show (s.bringUp 9).domainUp 9 = true
    rw [State.bringUp_outputs, if_neg hup]
    rfl
  · rfl

/-- The domain is held down no more. -/
def State.unheld (s : State) (dom : Nat) : State :=
  { s with power := { s.power with downAt := s.power.downAt.filter fun d => d.1 != dom } }

theorem State.unheld_domainHeld {s t : State} {dom : Nat} (h : t.power.downAt = (s.unheld dom).power.downAt) :
    t.domainHeld dom = false := by
  rw [State.domainHeld, h]
  simp [State.unheld]

theorem State.domainRestore_of_found {s : State} {dom at_ : Nat}
    (h : s.power.downAt.find? (fun d => d.1 == dom) = some (dom, at_)) :
    s.domainRestore dom =
      if decide (40000000000 ≤ s.clock - at_) && decide (s.power.fails.getD dom 0 < 3) then (s.unheld dom).bringUp dom
      else s := by
  simp only [State.domainRestore, h]
  rfl

theorem State.domainClear_of_found {s : State} {dom at_ : Nat}
    (h : s.power.upAt.find? (fun d => d.1 == dom) = some (dom, at_)) (hup : s.domainUp dom = true) :
    s.domainClear dom =
      if 4000000000000 ≤ s.clock - at_ then
        { s with power := { s.power with fails := s.power.fails.set dom 0 }
                 faults := s.faults.cleared 0xF4 s.tb.time (BitVec.ofNat 8 dom) }
      else s := by
  have hsec : Config.sec = 4000000000000 := rfl
  simp only [State.domainClear, h, hup, Bool.true_and, decide_eq_true_eq, hsec, State.clearFault_eq]

/-- What a power-good fault leaves of the channel whose domain it takes down. -/
def ChannelFell (n : Chan) (u t : State) : Prop :=
  OnlyChan n u t ∧
    (t.chan.get n).yarn = (u.chan.get n).yarn ∧ (t.chan.get n).count = (u.chan.get n).count ∧
    ((u.chan.get n).st = .present → (u.chan.get n).loss = none →
      (t.chan.get n).st = .absentUp ∧ (t.chan.get n).loss.isSome = true) ∧
    ((u.chan.get n).st = .suspended → (u.chan.get n).loss = none →
      (t.chan.get n).st = .suspended ∧ (t.chan.get n).loss.isSome = true) ∧
    ((u.chan.get n).st = .joining →
      (t.chan.get n).st = .absentUp ∧ t.faults.last = 0x16 ∧ t.cal.report = u.cal.report ∧
        (∀ r : Run, t.cal.run = some r → r.rejoin ≠ some n)) ∧
    ((u.chan.get n).st ≠ .present → (u.chan.get n).st ≠ .suspended → (u.chan.get n).st ≠ .joining →
      t.chan.get n = { u.chan.get n with up := false })

theorem State.takeDown_channelFell (s : State) (n : Chan) : ChannelFell n s (s.takeDown n.val) := by
  obtain ⟨honly, -, hyarn, hcount⟩ := s.takeDown_chan n
  refine ⟨honly, hyarn, hcount, fun hst hloss => ?_, fun hst hloss => ?_, State.takeDown_of_joining, State.takeDown_of_other⟩
  · have hlost := State.takeDown_of_lost (.inl hst) hloss
    rwa [if_pos hst] at hlost
  · have hlost := State.takeDown_of_lost (.inr hst) hloss
    rwa [if_neg (by simp [hst]), hst] at hlost

theorem ChannelFell.congr {n : Chan} {u v t : State} (hchan : v.chan = u.chan) (hcal : v.cal = u.cal)
    (h : ChannelFell n v t) : ChannelFell n u t := by
  unfold ChannelFell OnlyChan at h ⊢
  rwa [hchan, hcal] at h

end Sys2Proof.Machine

open Sys2Proof Sys2Proof.Machine

theorem does_domainPowerFault {dt : Nat} {s u : State} {dom : Fin 11} (hu : u = advance dt s) (hout : u.outOfReset = true)
    (hup : u.domainUp dom.val = true) (hfails : u.power.fails.length = 11) :
    Does (.domainPowerFault dt dom) s u (touches (.domainPowerFault dt dom)) fun t =>
      t.domainUp dom.val = false ∧ t.domainHeld dom.val = true ∧
        t.power.fails[dom.val]? = some (u.failCount dom.val) ∧
        t.faultActive 0xF4 (BitVec.ofNat 8 dom.val) = true ∧
        (∃ more : List FaultEvent, t.faults.events = u.faults.events ++
          ({ code := 0xF4, raised := true, held := true, time := u.tb.time, subject := BitVec.ofNat 8 dom.val,
             detailA := BitVec.ofNat 32 (u.failCount dom.val), detailB := 0,
             occ := u.faults.count 0xF4 + 1 } :: more)) ∧
        (∀ n : Chan, n.val = dom.val → ChannelFell n u t) ∧
        (8 ≤ dom.val → t.chan = u.chan) ∧
        (dom = 8 → t.port.st = .down ∧ t.port.tx = none ∧ t.port.aligned = false ∧ t.port.introClosed = false) ∧
        (dom = 9 → ∀ o : OutNo,
          (t.ao.outs.get o).st = (if (u.ao.outs.get o).st = .faulted then .faulted else .idle) ∧
            (t.ao.outs.get o).code = (u.ao.outs.get o).code) ∧
        (dom = 10 → t.snap.latches = [] ∧ t.snap.sd = .hiz) := by
  have hfailed := u.failed_same dom.val
  have hao : (u.failed dom.val).ao = u.ao := hfailed .ao rfl
  obtain ⟨hactive, hevents⟩ := u.failed_faults dom.val
  obtain ⟨hdown, hgrow, hchan⟩ := (u.failed dom.val).takeDown_down dom
  have hpower : ((u.failed dom.val).takeDown dom.val).power = (u.failed dom.val).power :=
    State.takeDown_same _ _ .power rfl
  obtain ⟨more, hmore⟩ := hgrow.2
  have hexec : exec (.domainPowerFault dt dom) s = .next ((u.failed dom.val).takeDown dom.val) := by
    rw [exec_domainPowerFault, ← hu, State.domainFault_of_up hout hup]
  refine ⟨_, hexec, Same.step (State.takeDown_same _ _) rfl (hfailed.mono rfl), hdown, ?_, ?_, (hgrow.faultActive _ _).trans hactive, ?_,
    fun n hn => ?_, fun h8 => (hchan h8).trans (hfailed .chan rfl), fun h8 => ?_, fun h9 o => ?_, fun h10 => ?_⟩
  · rw [State.domainHeld, hpower, State.failed_power]
    simp
  · rw [hpower, State.failed_power]
    exact List.getElem?_set_self (dom.isLt.trans_eq hfails.symm)
  · exact ⟨more, by rw [hmore, hevents, List.append_assoc, List.singleton_append]⟩
  · have hfell := (u.failed dom.val).takeDown_channelFell n
    rw [hn] at hfell
    exact hfell.congr (hfailed .chan rfl) (hfailed .cal rfl)
  · subst h8
    exact ⟨rfl, rfl, rfl, rfl⟩
  · subst h9
    have hst := (u.failed 9).dropOutputs_out o
    have hcode := (u.failed 9).dropOutputs_code o
    rw [show (u.failed 9).ao = u.ao from hao] at hst hcode
    refine ⟨hst.trans ?_, hcode⟩
    simp only [beq_iff_eq]
  · subst h10
    exact ⟨rfl, rfl⟩

theorem does_domainRestore {dt at_ : Nat} {s u : State} {dom : Fin 11} (hu : u = advance dt s)
    (hfound : u.power.downAt.find? (fun d => d.1 == dom.val) = some (dom.val, at_)) :
    (u.clock - at_ < 40000000000 ∨ 3 ≤ u.power.fails.getD dom.val 0 → exec (.domainRestore dt dom) s = .next u) ∧
    (40000000000 ≤ u.clock - at_ → u.power.fails.getD dom.val 0 < 3 →
      Does (.domainRestore dt dom) s u [.chan, .snap, .ao, .power] fun t =>
        t.domainHeld dom.val = false ∧
          (dom ≠ 8 → (dom = 9 → u.power.standby = false) → t.domainUp dom.val = true)) := by
  refine ⟨fun hstays => ?_, fun hlate hfew => ?_⟩
  · rw [exec_domainRestore, ← hu, State.domainRestore_of_found hfound, if_neg]
    simp only [Bool.and_eq_true, decide_eq_true_eq]
    omega
  · have hexec : exec (.domainRestore dt dom) s = .next ((u.unheld dom.val).bringUp dom.val) := by
      rw [exec_domainRestore, ← hu, State.domainRestore_of_found hfound, if_pos (by simp only [hlate, hfew, decide_true]; rfl)]
    exact ⟨_, hexec, .step (State.bringUp_same _ _) rfl (.upd_power rfl (.refl _ _)),
      State.unheld_domainHeld (State.bringUp_downAt _ dom), fun hstream hstandby => State.bringUp_up _ dom hstream hstandby⟩

/-- Settles O35: a restart by what LEAVE is held for, its resumption step by step, and each domain by what it powers. -/
theorem coreAndDomainsRestart : Obligations.CoreAndDomainsRestart := by
  unfold Obligations.CoreAndDomainsRestart
  refine ⟨⟨fun dt s u hu hruns => ⟨fun pc hearly => exec_watchdogExpiry_early hu hearly,
      fun hfew => ⟨fun pc hdue => ?_, fun sector offset => does_firmwareFetchError hu hruns hfew⟩⟩,
    fun dt s u begun hu hbegun => ⟨fun hhalted => ?_, fun hrun => ?_⟩⟩,
    fun dt s u dom hu => ⟨fun hout hup hfails => does_domainPowerFault hu hout hup hfails,
      fun at_ hfound => does_domainRestore hu hfound, fun at_ hfound hup => ?_⟩⟩
  · obtain ⟨hsame, hleaves⟩ := beginRestart_leaves (u := u) pc hfew
    exact ⟨_, exec_watchdogExpiry_due hu hruns hdue, hsame, hleaves⟩
  · rw [exec_coreRestart, ← hu, State.coreRestart_of_halted hhalted]
  · have hexec : exec (.coreRestart dt) s = .next u.coreRestart := hu ▸ exec_coreRestart dt s
    exact ⟨_, hexec, u.coreRestart_same.mono rfl, State.coreRestart_restarting hbegun hrun, (State.coreRestart_cal hbegun hrun).1,
      State.coreRestart_withdrawn hbegun hrun, State.coreRestart_chan hbegun hrun, State.coreRestart_ctlQueue hbegun hrun,
      (State.coreRestart_cal hbegun hrun).2, u.coreRestart_runsClosed, State.coreRestart_recovers hbegun hrun,
      fun _ hpc => State.coreRestart_tells hbegun hrun hpc⟩
  · rw [exec_domainFaultClear, ← hu, State.domainClear_of_found hfound hup]

end

section
/-! How a flash operation begins (R517, R518, R520, R521, R526, R543, R546). -/

namespace Sys2Proof.Machine
open Sys2Proof

/-! ### What each command runs -/

theorem exec_flashErase (dt : Nat) (sector : Fin 1024) (s : State) :
    exec (.flashErase dt sector) s = .next ((advance dt s).flashErase sector.val) := rfl

theorem exec_flashProgram (dt : Nat) (addr : BitVec 22) (data : List Byte) (s : State) :
    exec (.flashProgram dt addr data) s = .next ((advance dt s).flashProgramStart addr.toNat data) := rfl

/-! ### Which sectors an operation may work on (R517, R520, R543, R546) -/

theorem State.mayUse_iff {s : State} {p : Nat} :
    s.mayUse p = true ↔ 0x180 ≤ p ∧ p ≤ 0x3CB ∧ (s.inDrawer p && s.readOnly) = false ∧ s.retired p = false := by
  simp only [State.mayUse, barred, Bool.and_eq_true, Bool.not_eq_true', Bool.or_eq_false_iff, decide_eq_false_iff_not, Nat.not_lt,
    and_assoc]

theorem State.mayOperate_iff {s : State} {op : HeavyOp} {p : Nat} :
    s.mayOperate op p = true ↔ (s.fwRuns = true ∧ s.leave.holding = some op ∧ s.flash.op = none ∧ s.power.brace = false ∧
      s.core.recovering = false) ∧ s.mayUse p = true := by
  simp only [State.mayOperate, Bool.and_eq_true, State.mayWork_iff]

/-- What bars an erase outside the journal: no hold, brace, the firmware's reach, another operation, a core that does not run or
recovers, a retirement. -/
theorem State.mayOperate_of_barred {s : State} {p : Nat}
    (h : s.leave.holding ≠ some .flashErase ∨ s.power.brace = true ∨ p < 0x180 ∨ 0x3CB < p ∨ s.flash.op.isSome = true ∨
      s.fwRuns = false ∨ s.core.recovering = true ∨ s.retired p = true) : s.mayOperate .flashErase p = false := by
  refine Bool.eq_false_iff.mpr fun hmay => ?_
  obtain ⟨⟨hruns, hheld, hop, hbrace, hrecovering⟩, huse⟩ := State.mayOperate_iff.mp hmay
  obtain ⟨hlow, hhigh, -, hretired⟩ := State.mayUse_iff.mp huse
  simp only [hheld, hbrace, hop, hruns, hrecovering, hretired, ne_eq, not_true_eq_false, Bool.false_eq_true, Option.isSome_none,
    Bool.true_eq_false, false_or, or_false] at h
  omega

/-! ### The start (R521, R674) -/

/-- The operation as it starts. -/
def State.opStarted (s : State) (kind : FlashKind) (journal : Option Nat) : FlashOp :=
  { kind := kind, service := false, journal := journal, startedAt := s.clock, used := 0, done := 0, retries := 0, running := true }

theorem State.startOp_eq (s : State) (kind : FlashKind) (journal : Option Nat) :
    s.startOp kind journal =
      State.withdrawLeave { s with flash := { s.flash with op := some (s.opStarted kind journal) } } := rfl

theorem State.startOp_flash (s : State) (kind : FlashKind) (journal : Option Nat) :
    (s.startOp kind journal).flash = { s.flash with op := some (s.opStarted kind journal) } :=
  State.withdrawLeave_same _ .flash rfl

/-- The core stalls for an operation of the firmware (R521). -/
theorem State.startOp_stalls (s : State) (kind : FlashKind) (journal : Option Nat) :
    (s.startOp kind journal).fwRuns = false := by
  rw [State.fwRuns, State.startOp_flash]
  exact Bool.and_false _

/-- LEAVE stays held through the start. -/
theorem State.startOp_holding (s : State) (kind : FlashKind) (journal : Option Nat) :
    (s.startOp kind journal).leave.holding = s.leave.holding := by
  obtain ⟨b, p, w, f, hleave⟩ :=
    State.withdrawLeave_keepsHold { s with flash := { s.flash with op := some (s.opStarted kind journal) } }
  rw [State.startOp_eq, hleave]

/-! ### FLASH_ERASE (R520, R524 to R526) -/

theorem State.flashErase_of_barred {s : State} {p : Nat} (h : s.mayOperate .flashErase p = false) : s.flashErase p = s :=
  if_neg (Bool.eq_false_iff.mp h)

/-- A sector of no area is erased with no journal entry. -/
theorem State.flashErase_of_free {s : State} {p : Nat} (hmay : s.mayOperate .flashErase p = true)
    (harea : areaOf (s.original p) = none) : s.flashErase p = s.startOp (.erase p) none := by
  rw [State.flashErase, if_pos hmay, harea]

/-- A journal sector that is not the one to reclaim is left alone (R526). -/
theorem State.flashErase_of_unreclaimed {s : State} {p : Nat} (harea : areaOf (s.original p) = some 2)
    (hnot : s.reclaims p = false) : s.flashErase p = s := by
  refine (ite_congr rfl (fun _ => ?_) fun _ => rfl).trans (ite_self s)
  rw [harea]
  exact if_pos (by simp [hnot])

/-- A journaled erase first writes its entry, which leaves LEAVE and the clock as they are. -/
theorem State.flashErase_of_journaled {s : State} {p area : Nat} (hmay : s.mayOperate .flashErase p = true)
    (harea : areaOf (s.original p) = some area) (hreclaims : area = 2 → s.reclaims p = true)
    (hready : area ≠ 2 → s.journalReady = true) :
    ∃ (w : State) (i : Nat), Same [.free, .flash, .mem, .faults] s w ∧ s.flashErase p = w.startOp (.erase p) (some i) := by
  rw [State.flashErase, if_pos hmay, harea]
  dsimp only
  by_cases hjournal : area = 2
  · rw [if_neg (by simp [hjournal, hreclaims hjournal]), if_pos (by simp [hjournal])]
    exact ⟨_, _, State.journalPut_same s _, rfl⟩
  · rw [if_neg (by simp [hjournal, hready hjournal]), if_neg (by simp [hjournal])]
    exact ⟨_, _, State.journalBegin_same s _, rfl⟩

/-- Where it may begin, an erase is under way from now on; a sector of no area has nothing written before it. -/
theorem does_flashErase {dt : Nat} {s u : State} {sector : Fin 1024} (hu : u = advance dt s)
    (hmay : u.mayOperate .flashErase sector.val = true)
    (hreclaims : areaOf (u.original sector.val) = some 2 → u.reclaims sector.val = true)
    (hready : ∀ area : Nat, areaOf (u.original sector.val) = some area → area ≠ 2 → u.journalReady = true) :
    Does (.flashErase dt sector) s u [.free, .flash, .mem, .leave, .faults] fun t =>
      t.flash.op.map (fun o => (o.kind, o.running, o.startedAt)) = some (.erase sector.val, true, u.clock) ∧
        t.fwRuns = false ∧ t.leave.holding = some .flashErase ∧
        (areaOf (u.original sector.val) = none → t.flash.mem = u.flash.mem) := by
  obtain ⟨⟨-, hheld, -⟩, -⟩ := State.mayOperate_iff.mp hmay
  refine ⟨u.flashErase sector.val, hu ▸ exec_flashErase dt sector s, u.flashErase_same _, ?_⟩
  cases harea : areaOf (u.original sector.val) with
  | none =>
    rw [State.flashErase_of_free hmay harea, State.startOp_flash, State.startOp_holding]
    exact ⟨rfl, State.startOp_stalls _ _ _, hheld, fun _ => rfl⟩
  | some area =>
    obtain ⟨w, i, hsame, hstarts⟩ :=
      State.flashErase_of_journaled hmay harea (fun h => hreclaims (h ▸ harea)) (hready area harea)
    rw [hstarts, State.startOp_flash, State.startOp_holding, ← hsame .clock rfl]
    exact ⟨rfl, State.startOp_stalls _ _ _, (congrArg (·.holding) (hsame .leave rfl)).trans hheld, nofun⟩

/-! ### FLASH_PROGRAM (R518, R520, R521, R543) -/

/-- Every sector a program works on may be used. -/
def State.programFits (s : State) (a len : Nat) : Prop := ∀ p ∈ sectorsOf a len, s.mayUse p = true ∧ s.erasing p = false

theorem State.programFits_iff {s : State} {a len : Nat} :
    ((sectorsOf a len).all fun p => s.mayUse p && !s.erasing p) = true ↔ s.programFits a len := by
  simp only [State.programFits, List.all_eq_true, Bool.and_eq_true, Bool.not_eq_true']

theorem State.flashProgramStart_of_free {s : State} {a : Nat} {data : List Byte}
    (hmay : s.mayOperate .flashProgram (a / 4096) = true) (hfits : s.programFits a data.length)
    (hshape : s.programShape a data.length = true) : s.flashProgramStart a data = s.startOp (.program a data) none :=
  if_pos (by rw [hmay, State.programFits_iff.mpr hfits, hshape]; rfl)

theorem State.flashProgramStart_of_barred {s : State} {a : Nat} {data : List Byte}
    (h : ¬s.programFits a data.length ∨ s.programShape a data.length = false) : s.flashProgramStart a data = s := by
  refine if_neg fun hall => ?_
  simp only [Bool.and_eq_true, State.programFits_iff] at hall
  obtain ⟨⟨-, hfits⟩, hshape⟩ := hall
  rw [hshape] at h
  exact h.elim (absurd hfits) nofun

/-- Where it may begin, a program is under way, and the array is as it was until it ends. -/
theorem does_flashProgram {dt : Nat} {s u : State} {addr : BitVec 22} {data : List Byte} (hu : u = advance dt s)
    (hmay : u.mayOperate .flashProgram (addr.toNat / 4096) = true) (hfits : u.programFits addr.toNat data.length)
    (hshape : u.programShape addr.toNat data.length = true) :
    Does (.flashProgram dt addr data) s u [.flash, .leave] fun t =>
      t.flash.op.map (fun o => (o.kind, o.running, o.done)) = some (.program addr.toNat data, true, 0) ∧
        t.flash.mem = u.flash.mem ∧ t.fwRuns = false ∧ t.leave.holding = some .flashProgram := by
  obtain ⟨⟨-, hheld, -⟩, -⟩ := State.mayOperate_iff.mp hmay
  refine ⟨_, hu ▸ exec_flashProgram dt addr data s, u.flashProgramStart_same _ _, ?_⟩
  rw [State.flashProgramStart_of_free hmay hfits hshape]
  dsimp only
  rw [State.startOp_flash, State.startOp_holding]
  exact ⟨rfl, rfl, State.startOp_stalls _ _ _, hheld⟩

end Sys2Proof.Machine

end

section
/-! How a flash operation ends, yields LEAVE, or stops in brace (R30, R518, R520, R521, R523, R545, R549, R589, R593). -/

namespace Sys2Proof.Machine
open Sys2Proof

/-! ### What each command runs -/

theorem exec_flashOperationEnd (dt : Nat) (verified : Bool) (took : Nat) (s : State) :
    exec (.flashOperationEnd dt verified took) s = .next ((advance dt s).flashEnd verified took) := rfl

theorem exec_eraseHoldEnd (dt : Nat) (s : State) : exec (.eraseHoldEnd dt) s = .next (advance dt s).eraseHoldEnd := rfl

theorem exec_flashEraseSuspend (dt : Nat) (s : State) :
    exec (.flashEraseSuspend dt) s = .next (advance dt s).eraseSuspend := rfl

/-! ### LEAVE is given up (R520, R573) -/

/-- LEAVE is held for a flash operation, of the firmware or of the service engine. -/
def holdsFlash (op : HeavyOp) : Prop := op = .flashErase ∨ op = .flashProgram ∨ op = .service

theorem State.releaseFor_of_free {s : State} {op : HeavyOp} (h : s.leave.holding = none) : s.releaseFor op = s :=
  State.releaseFor_other s op (by simp [h])

theorem State.releaseOp_holding_none {s : State} {op : HeavyOp} (hflash : holdsFlash op) (h : s.leave.holding = some op) :
    s.releaseOp.leave.holding = none := by
  have hfree := State.releaseFor_holding_none h
  have hother (op' : HeavyOp) (hne : op ≠ op') : s.releaseFor op' = s :=
    State.releaseFor_other s op' fun hsame => hne (Option.some.inj (h.symm.trans hsame))
  obtain rfl | rfl | rfl := hflash
  · rw [State.releaseOp, State.releaseFor_of_free hfree, State.releaseFor_of_free hfree, hfree]
  · rw [State.releaseOp, hother .flashErase nofun, State.releaseFor_of_free hfree, hfree]
  · rw [State.releaseOp, hother .flashErase nofun, hother .flashProgram nofun, hfree]

/-! ### The stall ends (R30, R523, R593, R674) -/

/-- The halt that was owed. -/
def State.haltLanded (s : State) : State := { s with core := { s.core with halted := true, haltOwed := false } }

theorem State.landHalt_of_owed {s : State} (howed : s.core.haltOwed = true) (hop : s.flash.op = none) :
    s.landHalt = s.haltLanded.dropHold :=
  if_pos (by simp [howed, hop])

theorem State.landHalt_of_not_owed {s : State} (h : s.core.haltOwed = false) : s.landHalt = s := if_neg (by simp [h])

/-- A suspended operation holds an owed halt back (R593). -/
theorem State.landHalt_of_underway {s : State} {o : FlashOp} (hop : s.flash.op = some o) : s.landHalt = s := if_neg (by simp [hop])

/-- With LEAVE released an owed halt has nothing to give back. -/
theorem State.landHalt_same_released {s : State} (h : s.leave.holding = none) : Same [.core] s s.landHalt := by
  have hfree : s.haltLanded.dropHold = s.haltLanded := State.dropHold_of_none h
  have hkept : Same [.core] s s.haltLanded.dropHold := hfree.symm ▸ .upd_core rfl (.refl _ s)
  exact .ite hkept (.refl _ s)

theorem State.landHalt_halted {s : State} (hop : s.flash.op = none) :
    s.landHalt.core.halted = (s.core.halted || s.core.haltOwed) := by
  cases howed : s.core.haltOwed with
  | true =>
    rw [State.landHalt_of_owed howed hop, State.dropHold_same _ .core rfl, Bool.or_true]
    rfl
  | false => rw [State.landHalt_of_not_owed howed, Bool.or_false]

theorem State.landHalt_dogAt (s : State) : s.landHalt.core.dogAt = s.core.dogAt := by
  unfold State.landHalt
  split
  · rw [State.dropHold_same _ .core rfl]
  · rfl

theorem State.stallCost_dogAt {s : State} {o : FlashOp} (h : o.service = false) :
    (s.stallCost o).core.dogAt = s.core.dogAt + (s.clock - o.startedAt) := by
  rw [State.stallCost, if_neg (by simp [h])]

theorem State.stallCost_halted (s : State) (o : FlashOp) :
    (s.stallCost o).core.halted = s.core.halted ∧ (s.stallCost o).core.haltOwed = s.core.haltOwed := by
  unfold State.stallCost
  split
  · exact ⟨rfl, rfl⟩
  · exact ⟨rfl, rfl⟩

/-- Of the strap image a stall changes at most which drift reads are owed (log 73). -/
theorem State.stallCost_strap (s : State) (o : FlashOp) :
    (s.stallCost o).strap = s.strap ∨
      o.service = false ∧ ∃ first : Nat, (s.stallCost o).strap = { s.strap with driftOwed := some first } := by
  unfold State.stallCost
  cases o.service with
  | true => exact .inl rfl
  | false =>
    rw [if_neg Bool.false_ne_true]
    dsimp only
    generalize hlate : (s.strap.latched && _ && _) = late
    cases late with
    | true => exact .inr ⟨rfl, _, rfl⟩
    | false => exact .inl rfl

/-- What follows the cost of the stall and an owed halt touches the scheduler and LEAVE alone. -/
theorem State.endStall_same_landed (s : State) (o : FlashOp) :
    Same [.sched, .leave] (s.stallCost o).landHalt (s.endStall o) :=
  .step (State.resumeLeave_same _) rfl (.step (State.landOwed_same _) rfl (.step (State.withdrawLeave_same _) rfl (.refl _ _)))

theorem State.endStall_core (s : State) (o : FlashOp) : (s.endStall o).core = (s.stallCost o).landHalt.core :=
  s.endStall_same_landed o .core rfl

theorem State.endStall_halted {s : State} {o : FlashOp} (hop : s.flash.op = none) :
    (s.endStall o).core.halted = (s.core.halted || s.core.haltOwed) := by
  obtain ⟨hhalted, howed⟩ := s.stallCost_halted o
  have hop' : (s.stallCost o).flash.op = none := (congrArg (·.op) (s.stallCost_same o .flash rfl)).trans hop
  rw [State.endStall_core, State.landHalt_halted hop', hhalted, howed]

theorem State.endStall_dogAt {s : State} {o : FlashOp} (h : o.service = false) :
    (s.endStall o).core.dogAt = s.core.dogAt + (s.clock - o.startedAt) := by
  rw [State.endStall_core, State.landHalt_dogAt, State.stallCost_dogAt h]

theorem State.endStall_strap (s : State) (o : FlashOp) :
    (s.endStall o).strap = s.strap ∨
      o.service = false ∧ ∃ first : Nat, (s.endStall o).strap = { s.strap with driftOwed := some first } := by
  rw [State.endStall_same_landed s o .strap rfl, State.landHalt_same _ .strap rfl]
  exact s.stallCost_strap o

/-- LEAVE is not won by a request that begins again. -/
theorem State.resumeLeave_holding (s : State) : s.resumeLeave.leave.holding = s.leave.holding := by
  unfold State.resumeLeave
  split
  · obtain ⟨w, f, hsettled⟩ := State.settleWait_eq (s.modLeave fun l => { l with withdrawn := false })
    rw [hsettled]
    rfl
  · obtain ⟨p, i, e, c, hstarted⟩ := State.startRequest_eq (s.modLeave fun l => { l with withdrawn := false })
    obtain ⟨w, f, hsettled⟩ := State.settleWait_eq (s.modLeave fun l => { l with withdrawn := false }).startRequest
    rw [hsettled, hstarted]
    rfl

section Released
variable {s : State} {o : FlashOp} (hfree : s.leave.holding = none)
include hfree

theorem State.stallCost_released : (s.stallCost o).leave.holding = none :=
  (congrArg (·.holding) (s.stallCost_same o .leave rfl)).trans hfree

/-- With LEAVE released before it, the end of a stall changes no channel. -/
theorem State.endStall_same_released : Same [.strap, .sched, .leave, .core] s (s.endStall o) :=
  .step (s.endStall_same_landed o) rfl
    (.step (State.landHalt_same_released (State.stallCost_released hfree)) rfl (.step (s.stallCost_same o) rfl (.refl _ s)))

theorem State.endStall_holding_none : (s.endStall o).leave.holding = none := by
  obtain ⟨b, p, w, f, hwithdrawn⟩ := State.withdrawLeave_keepsHold (s.stallCost o).landHalt
  have hlanded : (s.stallCost o).landHalt.leave = (s.stallCost o).leave :=
    State.landHalt_same_released (State.stallCost_released hfree) .leave rfl
  rw [State.endStall, State.resumeLeave_holding, State.landOwed_same _ .leave rfl, hwithdrawn, hlanded]
  exact State.stallCost_released hfree

end Released

/-! ### ERASE_HOLD_END and FLASH_ERASE_SUSPEND (R520, R523) -/

section Erasing
variable {s u : State} {o : FlashOp} {sector dt : Nat} (hop : u.flash.op = some o) (hkind : o.kind = .erase sector)
include hop hkind

theorem State.eraseSuspend_of_no_brace (hbrace : u.power.brace = false) : u.eraseSuspend = u := by
  simp only [State.eraseSuspend, hop, hkind, hbrace, Bool.and_false, Bool.false_eq_true, if_false]

variable (hrunning : o.running = true) (hheld : u.leave.holding = some .flashErase)
include hheld

theorem State.eraseHoldEnd_of_early (hearly : o.used + (u.clock - o.startedAt) < 50 * 4000000000) : u.eraseHoldEnd = u := by
  have hused : u.holdUsed o = o.used + (u.clock - o.startedAt) := if_pos (by simp [hheld])
  simp only [State.eraseHoldEnd, hop, hkind]
  refine if_neg ?_
  rw [hused, Bool.and_eq_true, decide_eq_true_eq]
  exact fun h => absurd h.2 (Nat.not_le.mpr hearly)

include hrunning

/-- The operation as it goes on past its 50 ms. -/
theorem State.eraseHoldEnd_of_due (hdue : 50 * 4000000000 ≤ o.used + (u.clock - o.startedAt)) :
    u.eraseHoldEnd =
      State.releaseOp { u with flash := { u.flash with op := some { o with used := 200000000000 } } } := by
  have hused : u.holdUsed o = o.used + (u.clock - o.startedAt) := if_pos (by simp [hheld])
  simp only [State.eraseHoldEnd, hop, hkind]
  rw [if_pos (by rw [hrunning, hused, Bool.true_and]; exact decide_eq_true hdue)]
  rfl

theorem State.eraseSuspend_of_brace (hbrace : u.power.brace = true) :
    u.eraseSuspend =
      (State.releaseOp { u with flash := { u.flash with op := some { o with
        running := false, used := min (o.used + (u.clock - o.startedAt)) 200000000000 } } }).endStall o := by
  have hused : u.holdUsed o = o.used + (u.clock - o.startedAt) := if_pos (by simp [hheld])
  simp only [State.eraseSuspend, hop, hkind]
  rw [if_pos (by simp [hrunning, hbrace]), hused]
  rfl

theorem does_eraseHoldEnd (hu : u = advance dt s) (hdue : 50 * 4000000000 ≤ o.used + (u.clock - o.startedAt)) :
    Does (.eraseHoldEnd dt) s u [.flash, .leave] fun t =>
      t.leave.holding = none ∧ t.flash = { u.flash with op := some { o with used := 200000000000 } } := by
  refine ⟨u.eraseHoldEnd, hu ▸ exec_eraseHoldEnd dt s, u.eraseHoldEnd_same, ?_⟩
  rw [State.eraseHoldEnd_of_due hop hkind hrunning hheld hdue]
  exact ⟨State.releaseOp_holding_none (.inl rfl) hheld, State.releaseOp_same _ .flash rfl⟩

/-- Brace ends the stall and the hold; an owed halt goes on waiting for the erase. -/
theorem does_flashEraseSuspend (hu : u = advance dt s) (hbrace : u.power.brace = true) :
    Does (.flashEraseSuspend dt) s u [.strap, .sched, .flash, .leave, .core] fun t =>
      t.core.halted = u.core.halted ∧ t.leave.holding = none ∧ t.flash = { u.flash with op := some { o with
        running := false, used := min (o.used + (u.clock - o.startedAt)) 200000000000 } } := by
  have hexec : exec (.flashEraseSuspend dt) s = .next u.eraseSuspend := hu ▸ exec_flashEraseSuspend dt s
  rw [State.eraseSuspend_of_brace hop hkind hrunning hheld hbrace] at hexec
  generalize hstopped : ({ o with
    running := false, used := min (o.used + (u.clock - o.startedAt)) 200000000000 } : FlashOp) = stopped at hexec ⊢
  have hreleased := State.releaseOp_same { u with flash := { u.flash with op := some stopped } }
  have hfree : (State.releaseOp { u with flash := { u.flash with op := some stopped } }).leave.holding = none :=
    State.releaseOp_holding_none (.inl rfl) hheld
  generalize State.releaseOp { u with flash := { u.flash with op := some stopped } } = w at hexec hreleased hfree
  have hflash : w.flash = { u.flash with op := some stopped } := hreleased .flash rfl
  have hcost : (w.stallCost o).flash.op = some stopped := by rw [State.stallCost_same w o .flash rfl, hflash]
  refine ⟨_, hexec, ?_, ?_, State.endStall_holding_none hfree, (State.endStall_same w o .flash rfl).trans hflash⟩
  · exact .step (State.endStall_same_released hfree) rfl (.step hreleased rfl (.upd_flash rfl (.inr rfl) (.refl _ u)))
  · rw [State.endStall_core, State.landHalt_of_underway hcost, (w.stallCost_halted o).1, hreleased .core rfl]

end Erasing

end Sys2Proof.Machine

end

section
/-! FLASH_OPERATION_END: what an operation leaves in the array, its retries, and what ends with it (R30, R518, R520, R521, R545,
R548, R549, R589, R593). -/

namespace Sys2Proof.Machine
open Sys2Proof

/-! ### What stands in the array alone -/

section Array
variable {s t : State} (hmem : t.flash.mem = s.flash.mem) (hbad : t.flash.bad = s.flash.bad)
include hmem hbad

theorem State.original_of_array (p : Nat) : t.original p = s.original p := by
  have hcells (q : Nat) : t.secCells q = s.secCells q := by rw [State.secCells, State.secCells, hmem]
  have hbadIn (lo len : Nat) : t.badIn lo len = s.badIn lo len := by rw [State.badIn, State.badIn, hbad]
  have hcopy (q : Nat) : t.retireCopy q = s.retireCopy q := by simp only [State.retireCopy, hcells, hbadIn]
  simp only [State.original, State.retireTable, hcopy]

end Array

theorem State.spares_of_flash {s t : State} (h : t.flash = s.flash) : t.spares = s.spares := by
  simp only [State.spares, State.usedSpares, State.retireTable_of_flash h, h]

theorem State.retirements_of_flash {s t : State} (h : t.flash = s.flash) : t.retirements = s.retirements := by
  rw [State.retirements, State.retirements, State.retireTable_of_flash h]

/-- Fault 0x74 as the flash of a state asks for it (R545, R547). -/
def State.sparesTold (s : State) (f : Faults) (time : BitVec 64) : Faults :=
  if s.spares ≤ 4 ∨ 508 ≤ s.retirements then
    f.raised 0x74 time 0xFF (BitVec.ofNat 32 s.spares) (BitVec.ofNat 32 s.retirements)
  else f

theorem State.checkSpares_faults (s : State) : s.checkSpares.faults = s.sparesTold s.faults s.tb.time := by
  unfold State.checkSpares State.sparesTold
  split
  · rw [State.raise_eq]
  · rfl

theorem State.sparesTold_of_flash {s t : State} (h : t.flash = s.flash) : t.sparesTold = s.sparesTold := by
  funext f time
  rw [State.sparesTold, State.sparesTold, State.spares_of_flash h, State.retirements_of_flash h]

/-! ### Retry or end (R545, R548) -/

/-- An operation that needed no second retry wears no sector. -/
theorem State.wear_of_few {s : State} {p retries : Nat} (h : retries < 2) : s.wear p retries = s :=
  if_neg (by simp [Nat.not_le.mpr h])

/-- One that did leaves its sector, where it stands for one of an area, among those that wait for retirement. -/
theorem State.wear_worn {s : State} {p retries : Nat} (h : 2 ≤ retries) (harea : (areaOf (s.original p)).isSome = true) :
    (s.wear p retries).flash.worn.contains p = true := by
  have hdecide : decide (2 ≤ retries) = true := decide_eq_true h
  unfold State.wear
  cases hworn : s.flash.worn.contains p with
  | true => rwa [if_neg (by simp)]
  | false => simp [hdecide, harea]

theorem State.wear_bad (s : State) (p retries : Nat) : (s.wear p retries).flash.bad = s.flash.bad := by
  unfold State.wear
  split
  · rfl
  · rfl

/-- No operation is under way or suspended any more. -/
def State.opGone (s : State) : State := { s with flash := { s.flash with op := none } }

theorem State.opGone_same (s : State) : Same [.flash] s s.opGone := .upd_flash rfl (.inr rfl) (.refl _ s)

/-- An operation closes: LEAVE, the spares, and the end of the stall. -/
def State.opClosed (s : State) (o : FlashOp) : State := s.opGone.releaseOp.checkSpares.endStall o

/-- Up to the end of the stall. -/
theorem State.opClosing_same (s : State) : Same [.flash, .leave, .faults] s s.opGone.releaseOp.checkSpares :=
  .step (State.checkSpares_same _) rfl (.step (State.releaseOp_same _) rfl (.mono s.opGone_same rfl))

theorem State.opClosing_flash (s : State) : s.opGone.releaseOp.checkSpares.flash = { s.flash with op := none } :=
  (State.checkSpares_same _ .flash rfl).trans (State.releaseOp_same _ .flash rfl)

/-- The flash stays as the operation has left it. -/
theorem State.opClosed_flash (s : State) (o : FlashOp) : (s.opClosed o).flash = { s.flash with op := none } :=
  (State.endStall_same _ o .flash rfl).trans s.opClosing_flash

theorem State.opClosed_halted (s : State) (o : FlashOp) :
    (s.opClosed o).core.halted = (s.core.halted || s.core.haltOwed) := by
  rw [State.opClosed, State.endStall_halted (by rw [State.opClosing_flash]), s.opClosing_same .core rfl]

theorem State.opClosed_dogAt {s : State} {o : FlashOp} (h : o.service = false) :
    (s.opClosed o).core.dogAt = s.core.dogAt + (s.clock - o.startedAt) := by
  rw [State.opClosed, State.endStall_dogAt h, s.opClosing_same .core rfl, s.opClosing_same .clock rfl]

theorem State.opClosed_strap (s : State) (o : FlashOp) :
    (s.opClosed o).strap = s.strap ∨
      o.service = false ∧ ∃ first : Nat, (s.opClosed o).strap = { s.strap with driftOwed := some first } :=
  s.opClosing_same .strap rfl ▸ State.endStall_strap s.opGone.releaseOp.checkSpares o

/-- Fault 0x74 stands where spares run out. -/
theorem State.opClosed_faults (s : State) (o : FlashOp) :
    (s.opClosed o).faults = (s.opClosed o).sparesTold s.faults s.tb.time := by
  have hreleased := State.releaseOp_same s.opGone
  have hflash : (s.opClosed o).flash = s.opGone.releaseOp.flash := (s.opClosed_flash o).trans (hreleased .flash rfl).symm
  rw [State.sparesTold_of_flash hflash]
  refine (State.endStall_same _ o .faults rfl).trans ?_
  rw [State.checkSpares_faults, hreleased .faults rfl, hreleased .tb rfl]
  rfl

section Held
variable {s : State} {o : FlashOp} {op : HeavyOp} (hheld : s.leave.holding = some op) (hflash : holdsFlash op)
include hheld hflash

theorem State.opClosing_holding_none : s.opGone.releaseOp.checkSpares.leave.holding = none := by
  have hgone : s.opGone.leave.holding = some op := hheld
  rw [State.checkSpares_same _ .leave rfl, State.releaseOp_holding_none hflash hgone]

theorem State.opClosed_holding_none : (s.opClosed o).leave.holding = none :=
  State.endStall_holding_none (State.opClosing_holding_none hheld hflash)

theorem State.opClosed_same : Same [.strap, .sched, .flash, .leave, .core, .faults] s (s.opClosed o) :=
  .step (State.endStall_same_released (State.opClosing_holding_none hheld hflash)) rfl (.mono s.opClosing_same rfl)

end Held

section End
variable {s u : State} {o : FlashOp} {dt took : Nat} {verified : Bool} (hop : u.flash.op = some o) (hrunning : o.running = true)
include hop hrunning

theorem State.flashEnd_of_retry (hfew : o.retries < 2) :
    u.flashEnd false took = { u with
      flash := { u.flash with op := some { o with retries := o.retries + 1 } }
      faults := u.faults.logged 0x72 u.tb.time 0xFF (BitVec.ofNat 32 o.kind.sector) (BitVec.ofNat 32 (o.retries + 1)) } := by
  have hcount : min 2 (o.retries + 1) = o.retries + 1 := by omega
  simp only [State.flashEnd, hop, hrunning, hfew, hcount, State.retryFault, State.log_eq, Bool.not_true, Bool.not_false,
    Bool.false_eq_true, if_false, decide_true, Bool.true_or, Bool.and_self, if_true]

/-- The last attempt: what it leaves in the array, the erase list and the worn sectors, and the close of the operation. -/
theorem State.flashEnd_of_last (hlast : verified = true ∨ 2 ≤ o.retries ∧ u.keepsRetrying o.kind.sector = false) :
    u.flashEnd verified took =
      (((u.landOp o verified).noteErase o verified took).wear o.kind.sector o.retries).opClosed o := by
  simp only [State.flashEnd, hop]
  rw [if_neg (by simp [hrunning]), if_neg]
  · rfl
  · obtain rfl | ⟨hmany, hkeeps⟩ := hlast
    · simp
    · simp [Nat.not_lt.mpr hmany, hkeeps]

/-- An operation whose attempts never verified ends all the same, and leaves its sector to be retired. -/
theorem does_flashOperationEnd_failed (hu : u = advance dt s) (hmany : 2 ≤ o.retries)
    (hkeeps : u.keepsRetrying o.kind.sector = false) :
    Does (.flashOperationEnd dt false took) s u (touches (.flashOperationEnd dt false took)) fun t =>
      t.flash.op = none ∧ t.core.halted = (u.core.halted || u.core.haltOwed) ∧
        ((areaOf (t.original o.kind.sector)).isSome = true → t.flash.worn.contains o.kind.sector = true) := by
  have hnoted : Same [.free, .flash, .mem, .faults] u ((u.landOp o false).noteErase o false took) :=
    .step (State.noteErase_same _ _ _ _) rfl (.mono (State.landOp_same _ _ _) rfl)
  refine ⟨u.flashEnd false took, hu ▸ exec_flashOperationEnd dt false took s, u.flashEnd_same false took, ?_⟩
  rw [State.flashEnd_of_last hop hrunning (.inr ⟨hmany, hkeeps⟩)]
  generalize (u.landOp o false).noteErase o false took = w at hnoted ⊢
  have hcore : (w.wear o.kind.sector o.retries).core = u.core := (State.wear_same _ _ _ .core rfl).trans (hnoted .core rfl)
  have hleft := (w.wear o.kind.sector o.retries).opClosed_flash o
  have hmem : ((w.wear o.kind.sector o.retries).opClosed o).flash.mem = w.flash.mem := by
    rw [hleft]
    exact State.wear_same w _ _ .mem rfl
  have hbad : ((w.wear o.kind.sector o.retries).opClosed o).flash.bad = w.flash.bad := by
    rw [hleft]
    exact State.wear_bad w _ _
  refine ⟨by rw [hleft], by rw [State.opClosed_halted, hcore], fun harea => ?_⟩
  rw [State.original_of_array hmem hbad] at harea
  rw [hleft]
  exact State.wear_worn hmany harea

theorem State.flashEnd_of_verified (hfew : o.retries < 2) :
    u.flashEnd true took = ((u.landOp o true).noteErase o true took).opClosed o := by
  rw [State.flashEnd_of_last hop hrunning (.inl rfl), State.wear_of_few hfew]

end End

/-! ### What a verified operation leaves in the array (R518) -/

/-- An erase verified and not journaled is noted in the list of R549, with fault 0x71 above 80 ms. -/
theorem State.noteErase_of_unjournaled {s : State} {o : FlashOp} {sector took : Nat} (hkind : o.kind = .erase sector)
    (hjournal : o.journal = none) : (s.landOp o true).noteErase o true took = (s.flashEraseSector sector).noteTook sector took := by
  simp only [State.landOp, State.noteErase, hkind, hjournal, if_true]

theorem State.noteErase_of_program {s : State} {o : FlashOp} {addr took : Nat} {data : List Byte}
    (hkind : o.kind = .program addr data) (hdone : o.done = 0) :
    (s.landOp o true).noteErase o true took = s.flashProgram addr data := by
  simp only [State.landOp, State.noteErase, hkind, hdone, if_true, Nat.add_zero, List.drop_zero]

theorem State.noteTook_eq (s : State) (p took : Nat) :
    s.noteTook p took = { s with
      flash := { s.flash with erases := (took :: s.flash.erases).take 16 }
      faults := if 800 < took then
          s.faults.logged 0x71 s.tb.time 0xFF (BitVec.ofNat 32 p) (sat32 took)
        else s.faults } := by
  unfold State.noteTook remember
  dsimp only
  by_cases hlong : 800 < took
  · rw [if_pos hlong, if_pos hlong, State.log_eq]
  · rw [if_neg hlong, if_neg hlong]

/-- An erased byte: 0xFF, or in the sectors 0x17C to 0x17F, which nothing the part does ever erases, the factory's value. -/
theorem State.flashEraseSector_byte (s : State) (p a : Nat) :
    memGet (s.flashEraseSector p).flash.mem a = if a / 4096 = p then baseByte a else memGet s.flash.mem a := by
  rw [State.flashEraseSector_mem]
  refine if_congr ?_ rfl rfl
  rw [sectorBase, sectorBase]
  omega

/-- A program clears bits in the bytes it names, and changes no other byte. -/
theorem State.flashProgram_byte {s : State} {addr : Nat} {data : List Byte} (hwf : s.flash.wf = true)
    (hroom : addr + data.length ≤ 4194304) (a : Nat) :
    memGet (s.flashProgram addr data).flash.mem a =
      (match data[a - addr]? with
        | some b => if addr ≤ a then memGet s.flash.mem a &&& b else memGet s.flash.mem a
        | none => memGet s.flash.mem a) := by
  by_cases hin : addr ≤ a ∧ a - addr < data.length
  · obtain ⟨hlow, hhigh⟩ := hin
    have hbyte := memGet_memProgram (m := s.flash.mem) hwf hhigh hroom
    rw [Nat.add_sub_cancel' hlow] at hbyte
    rw [List.getElem?_eq_getElem hhigh]
    dsimp only
    rw [if_pos hlow]
    exact hbyte
  · rw [State.flashProgram_mem_outside s addr data (by omega)]
    split
    · next b hb =>
      have hhigh : a - addr < data.length := (List.getElem?_eq_some_iff.mp hb).1
      rw [if_neg fun hlow => hin ⟨hlow, hhigh⟩]
    · rfl

section Verified
variable {s u : State} {o : FlashOp} {dt took : Nat} (hu : u = advance dt s) (hop : u.flash.op = some o)
  (hrunning : o.running = true) (hfew : o.retries < 2)
include hu hop hrunning hfew

theorem does_flashOperationEnd_erase {sector : Nat} (hkind : o.kind = .erase sector) (hjournal : o.journal = none)
    (hheld : u.leave.holding = some .flashErase ∨ u.leave.holding = some .service) :
    Does (.flashOperationEnd dt true took) s u [.strap, .sched, .flash, .mem, .leave, .core, .faults] fun t =>
      t.flash.op = none ∧ t.leave.holding = none ∧
        (o.service = false → t.core.dogAt = u.core.dogAt + (u.clock - o.startedAt)) ∧
        (t.strap = u.strap ∨ o.service = false ∧ ∃ first : Nat, t.strap = { u.strap with driftOwed := some first }) ∧
        t.flash.erases = (took :: u.flash.erases).take 16 ∧
        (∀ a : Nat, memGet t.flash.mem a = if a / 4096 = sector then baseByte a else memGet u.flash.mem a) ∧
        ∃ f : Faults, f = (if 800 < took then
            u.faults.logged 0x71 u.tb.time 0xFF (BitVec.ofNat 32 sector) (sat32 took)
          else u.faults) ∧ t.faults = t.sparesTold f u.tb.time := by
  obtain ⟨op, hheld, hflash⟩ : ∃ op : HeavyOp, u.leave.holding = some op ∧ holdsFlash op :=
    hheld.elim (⟨_, ·, .inl rfl⟩) (⟨_, ·, .inr (.inr rfl)⟩)
  have hexec : exec (.flashOperationEnd dt true took) s = .next (u.flashEnd true took) :=
    hu ▸ exec_flashOperationEnd dt true took s
  rw [State.flashEnd_of_verified hop hrunning hfew, State.noteErase_of_unjournaled hkind hjournal] at hexec
  have hnoted : Same [.flash, .mem, .faults] u ((u.flashEraseSector sector).noteTook sector took) :=
    .step (State.noteTook_same _ _ _) rfl (.mono (State.flashEraseSector_same u sector) rfl)
  have heq := State.noteTook_eq (u.flashEraseSector sector) sector took
  generalize (u.flashEraseSector sector).noteTook sector took = w at hexec hnoted heq
  have hheld' : w.leave.holding = some op := (congrArg (·.holding) (hnoted .leave rfl)).trans hheld
  have hcore : w.core = u.core := hnoted .core rfl
  have hclock : w.clock = u.clock := hnoted .clock rfl
  have hleft := w.opClosed_flash o
  refine ⟨_, hexec, .step (State.opClosed_same hheld' hflash) rfl (.mono hnoted rfl), by rw [hleft],
    State.opClosed_holding_none hheld' hflash, fun hservice => ?dog, ?strap, ?erases, fun a => ?byte, _, rfl, ?faults⟩
  case dog => rw [State.opClosed_dogAt hservice, hcore, hclock]
  case strap => exact hnoted .strap rfl ▸ w.opClosed_strap o
  case erases => rw [hleft, heq]; rfl
  case byte =>
    rw [hleft, heq]
    exact u.flashEraseSector_byte sector a
  case faults => rw [w.opClosed_faults o, heq]; rfl

theorem does_flashOperationEnd_program {addr : Nat} {data : List Byte} (hkind : o.kind = .program addr data) (hdone : o.done = 0)
    (hwf : u.flash.wf = true) (hroom : addr + data.length ≤ 4194304)
    (hheld : u.leave.holding = some .flashProgram ∨ u.leave.holding = some .service) :
    Does (.flashOperationEnd dt true took) s u [.strap, .sched, .flash, .mem, .leave, .core, .faults] fun t =>
      t.flash.op = none ∧ t.leave.holding = none ∧ t.faults = t.sparesTold u.faults u.tb.time ∧
        ∀ a : Nat, memGet t.flash.mem a =
          (match data[a - addr]? with
            | some b => if addr ≤ a then memGet u.flash.mem a &&& b else memGet u.flash.mem a
            | none => memGet u.flash.mem a) := by
  obtain ⟨op, hheld, hflash⟩ : ∃ op : HeavyOp, u.leave.holding = some op ∧ holdsFlash op :=
    hheld.elim (⟨_, ·, .inr (.inl rfl)⟩) (⟨_, ·, .inr (.inr rfl)⟩)
  have hexec : exec (.flashOperationEnd dt true took) s = .next (u.flashEnd true took) :=
    hu ▸ exec_flashOperationEnd dt true took s
  rw [State.flashEnd_of_verified hop hrunning hfew, State.noteErase_of_program hkind hdone] at hexec
  have hleft := (u.flashProgram addr data).opClosed_flash o
  refine ⟨_, hexec, .step (State.opClosed_same hheld hflash) rfl (.mono (State.flashProgram_same u addr data) rfl), by rw [hleft],
    State.opClosed_holding_none hheld hflash, State.opClosed_faults _ o, fun a => ?_⟩
  rw [hleft]
  exact State.flashProgram_byte hwf hroom a

end Verified

end Sys2Proof.Machine

end

section
/-! Retirements and row counters, each whole under one hold of LEAVE (R540, R545 to R548). -/

namespace Sys2Proof.Machine
open Sys2Proof

/-! ### What each command runs -/

theorem exec_sectorRetirement (dt : Nat) (sector : Fin 1024) (s : State) :
    exec (.sectorRetirement dt sector) s = .next ((advance dt s).retire sector.val) := rfl

theorem exec_rowCounterIncrement (dt : Nat) (c : RowId) (s : State) :
    exec (.rowCounterIncrement dt c) s = .next ((advance dt s).rowCounterIncrement c) := rfl

/-! ### SECTOR_RETIREMENT (R545 to R548) -/

/-- A retirement closes: the sector no longer waits for one, and LEAVE is released. -/
def State.retireClosed (s : State) (p : Nat) : State :=
  State.releaseFor { s with flash := { s.flash with worn := s.flash.worn.filter fun q => q != p } } .flashProgram

theorem State.retireClosed_holding_none {s : State} {p : Nat} (h : s.leave.holding = some .flashProgram) :
    (s.retireClosed p).leave.holding = none :=
  State.releaseFor_holding_none (s := { s with flash := { s.flash with worn := s.flash.worn.filter fun q => q != p } }) h

theorem State.retireClosed_flash (s : State) (p : Nat) :
    (s.retireClosed p).flash = { s.flash with worn := s.flash.worn.filter fun q => q != p } :=
  State.releaseFor_same _ _ .flash rfl

theorem State.retireClosed_faults (s : State) (p : Nat) : (s.retireClosed p).faults = s.faults :=
  State.releaseFor_same _ _ .faults rfl

/-- The content of a sector goes to a spare, under a journal entry that is then resolved (R546). -/
def State.retireMoved (s : State) (p area new : Nat) : State :=
  let logical := s.original p - (if area = 1 then 0x180 else if area = 2 then 0x1C0 else 0x1C4)
  let b := s.journalBegin (journalEntry 4 area p logical 0 new)
  let t := if b.2.sectorErased new then b.2 else b.2.eraseNow new
  ((t.moveContent p new (s.original p)).recoverEntry b.1).2.2

theorem State.retireMoved_same (s : State) (p area new : Nat) :
    Same [.free, .flash, .mem, .faults] s (s.retireMoved p area new) := by
  have hbegun : Same [.free, .flash, .mem, .faults] s
      (s.journalBegin (journalEntry 4 area p
        (s.original p - (if area = 1 then 0x180 else if area = 2 then 0x1C0 else 0x1C4)) 0 new)).2 := State.journalBegin_same _ _
  exact .step (State.recoverEntry_same _ _) rfl (.step (State.moveContent_same _ _ _ _) rfl
    (.ite hbegun (.step (State.eraseNow_same _ _) rfl hbegun)))

section Retire
variable {u : State} {area p : Nat} (hmay : u.mayWork .flashProgram = true) (hworn : u.flash.worn.contains p = true)
  (hready : u.journalReady = true) (hreadOnly : area ≠ 1 ∨ u.readOnly = false)
include hmay hworn hready hreadOnly

theorem State.retire_due :
    (u.mayWork .flashProgram && u.flash.worn.contains p && u.journalReady && !(area == 1 && u.readOnly)) = true := by
  have hwrites : (area == 1 && u.readOnly) = false := by
    obtain hother | hopen := hreadOnly
    · simp [hother]
    · simp [hopen]
  simp only [hmay, hworn, hready, hwrites, Bool.and_self, Bool.not_false]

variable (harea : areaOf (u.original p) = some area)
include harea

/-- With no spare left the area holds fault 0x77. -/
theorem State.retire_of_no_spare (hnone : u.nextSpare = none) :
    u.retire p = State.retireClosed { u with
      faults := u.faults.raised 0x77 u.tb.time 0xFF (BitVec.ofNat 32 area) (BitVec.ofNat 32 p) } p := by
  simp only [State.retire, harea, hnone]
  rw [if_pos (State.retire_due hmay hworn hready hreadOnly), State.raise_eq, State.retireClosed]

theorem State.retire_of_spare {new : Nat} (hspare : u.nextSpare = some new) :
    u.retire p =
      (((u.retireMoved p area new).log 0x73 0xFF (BitVec.ofNat 32 p) (BitVec.ofNat 32 new)).retireClosed p).checkSpares := by
  simp only [State.retire, harea, hspare]
  rw [if_pos (State.retire_due hmay hworn hready hreadOnly), State.retireClosed, State.retireMoved]

end Retire

/-- The spare a retirement takes is one of the 512, and not in use. -/
theorem State.nextSpare_free {s : State} {new : Nat} (h : s.nextSpare = some new) :
    s.usedSpares.contains new = false ∧ 0x1CC ≤ new ∧ new ≤ 0x3CB := by
  have hfree := List.find?_some h
  obtain ⟨k, hk, hnew⟩ := List.mem_map.mp (List.mem_of_find?_eq_some h)
  have hrange := List.mem_range.mp hk
  exact ⟨by simpa using hfree, by omega, by omega⟩

/-- What has been told stays told. -/
theorem State.checkSpares_told {s : State} {f : FaultEvent → Bool} (h : s.faults.events.any f = true) :
    s.checkSpares.faults.events.any f = true := by
  rw [State.checkSpares_faults, State.sparesTold, Faults.raised]
  split
  · split
    · exact h
    · rw [List.any_append, h, Bool.true_or]
  · exact h

section Does
variable {s u : State} {dt area : Nat} {sector : Fin 1024} (hu : u = advance dt s)
  (harea : areaOf (u.original sector.val) = some area) (hmay : u.mayWork .flashProgram = true)
  (hworn : u.flash.worn.contains sector.val = true) (hready : u.journalReady = true)
  (hreadOnly : area ≠ 1 ∨ u.readOnly = false)
include hu harea hmay hworn hready hreadOnly

theorem does_sectorRetirement_no_spare (hnone : u.nextSpare = none) :
    Does (.sectorRetirement dt sector) s u [.flash, .leave, .faults] fun t =>
      t.leave.holding = none ∧ t.flash = { u.flash with worn := u.flash.worn.filter fun q => q != sector.val } ∧
        t.faults = u.faults.raised 0x77 u.tb.time 0xFF (BitVec.ofNat 32 area) (BitVec.ofNat 32 sector.val) := by
  obtain ⟨-, hheld, -⟩ := State.mayWork_iff.mp hmay
  have hexec : exec (.sectorRetirement dt sector) s = .next (u.retire sector.val) := hu ▸ exec_sectorRetirement dt sector s
  rw [State.retire_of_no_spare hmay hworn hready hreadOnly harea hnone] at hexec
  refine ⟨_, hexec, ?_, State.retireClosed_holding_none hheld, State.retireClosed_flash _ _, State.retireClosed_faults _ _⟩
  exact .step (State.releaseFor_same _ _) rfl (.upd_flash rfl (.inr rfl) (.upd_faults rfl (.refl _ u)))

theorem does_sectorRetirement_spare {new : Nat} (hspare : u.nextSpare = some new) :
    Does (.sectorRetirement dt sector) s u [.free, .flash, .mem, .leave, .faults] fun t =>
      t.leave.holding = none ∧ t.flash.worn.contains sector.val = false ∧ u.usedSpares.contains new = false ∧
        0x1CC ≤ new ∧ new ≤ 0x3CB ∧
        t.faults.events.any (fun e => e.code == 0x73 && e.detailA == BitVec.ofNat 32 sector.val &&
          e.detailB == BitVec.ofNat 32 new) = true := by
  obtain ⟨-, hheld, -⟩ := State.mayWork_iff.mp hmay
  have hmoved := u.retireMoved_same sector.val area new
  have hretires := State.retire_of_spare hmay hworn hready hreadOnly harea hspare
  refine ⟨u.retire sector.val, hu ▸ exec_sectorRetirement dt sector s, u.retire_same _, ?_⟩
  rw [hretires, State.log_eq]
  generalize u.retireMoved sector.val area new = w at hmoved
  have hheld' : w.leave.holding = some .flashProgram := (congrArg (·.holding) (hmoved .leave rfl)).trans hheld
  refine ⟨?_, ?_, (State.nextSpare_free hspare).1, (State.nextSpare_free hspare).2.1, (State.nextSpare_free hspare).2.2,
    State.checkSpares_told ?_⟩
  · rw [State.checkSpares_same _ .leave rfl]
    exact State.retireClosed_holding_none hheld'
  · rw [State.checkSpares_same _ .flash rfl, State.retireClosed_flash]
    simp
  · rw [State.retireClosed_faults]
    simp [Faults.logged]

end Does

/-! ### ROW_COUNTER_INCREMENT (R540) -/

theorem State.retried_mem (s : State) (p n : Nat) : (s.retried p n).flash.mem = s.flash.mem := State.retried_same s p n .mem rfl

/-- A program within a step does what a program does, but where its last repeat does not verify. -/
theorem State.programNow_mem (s : State) (x : Nat) (bs : List Byte) :
    (s.programNow x bs).flash.mem =
      if Config.freeNat s.free % 4 = 3 then (s.drawNat.2.spoilProgram x bs).flash.mem else (s.flashProgram x bs).flash.mem := by
  rw [State.programNow, State.retried_mem]
  exact apply_ite (fun t : State => t.flash.mem) _ _ _

theorem State.isTally_rowSectors (s : State) (c : RowId) : s.isTally (s.rowSectors c).1 = true := by
  cases c with
  | session => simp [State.isTally, State.rowSectors]
  | commit => simp [State.isTally, State.rowSectors]

/-- The byte a row counter's next increment goes to. -/
def State.rowCell (s : State) (c : RowId) : Nat := 4096 * (s.rowSectors c).1 + s.tally (s.rowSectors c).1

/-- What the array holds there after the increment: 0, or, where the last repeat does not verify, the cell with a free part of its
bits cleared (log 4, log 38). -/
def State.rowCellByte (s : State) (c : RowId) : Byte :=
  if Config.freeNat s.free % 4 = 3 then memGet s.flash.mem (s.rowCell c) &&& Config.freeByte (s.free + 1) else 0

section Row
variable {s : State} {c : RowId} (hshort : s.tally (s.rowSectors c).1 + 1 < 4096)
include hshort

theorem State.rowIncrement_of_short : s.rowIncrement c = s.programNow (s.rowCell c) [0] :=
  if_neg (Nat.ne_of_lt hshort)

/-- One byte is programmed: with 0, or with what a program that does not verify leaves of it. -/
theorem State.rowIncrement_program :
    (s.rowIncrement c).flash.mem = (s.flashProgram (s.rowCell c)
      [if Config.freeNat s.free % 4 = 3 then Config.freeByte (s.free + 1) else 0]).flash.mem := by
  have hsector : s.rowCell c / 4096 = (s.rowSectors c).1 := by rw [State.rowCell]; omega
  have hor (b : Byte) : 0 ||| b = b := BitVec.zero_or
  have htally : s.drawNat.2.isTally (s.rowCell c / 4096) = true := hsector ▸ s.isTally_rowSectors c
  rw [State.rowIncrement_of_short hshort, State.programNow_mem]
  by_cases hspoils : Config.freeNat s.free % 4 = 3
  · rw [if_pos hspoils, if_pos hspoils, State.spoilProgram, if_pos htally]
    dsimp only
    rw [List.map_singleton, hor]
    rfl
  · rw [if_neg hspoils, if_neg hspoils]

theorem State.rowIncrement_byte (hwf : s.flash.wf = true) (hsector : (s.rowSectors c).1 < 1024) (a : Nat) :
    memGet (s.rowIncrement c).flash.mem a = if a = s.rowCell c then s.rowCellByte c else memGet s.flash.mem a := by
  have hroom : s.rowCell c + 1 ≤ 4194304 := by rw [State.rowCell]; omega
  rw [State.rowIncrement_program hshort]
  by_cases hcell : a = s.rowCell c
  · have hbyte := memGet_memProgram (m := s.flash.mem) hwf (x := s.rowCell c) (i := 0)
      (bs := [if Config.freeNat s.free % 4 = 3 then Config.freeByte (s.free + 1) else 0]) Nat.zero_lt_one hroom
    rw [if_pos hcell, hcell, State.rowCellByte]
    refine hbyte.trans ?_
    dsimp only [List.getElem_cons_zero, Nat.add_zero]
    split
    · rfl
    · exact BitVec.and_zero
  · rw [if_neg hcell]
    exact State.flashProgram_mem_outside _ _ _ (by simp only [List.length_singleton]; omega)

end Row

theorem State.rowCounterIncrement_of_barred {s : State} {c : RowId}
    (h : s.leave.holding ≠ some .flashProgram ∨ s.flash.op.isSome = true ∨ s.power.brace = true ∨ s.fwRuns = false ∨
      s.core.recovering = true ∨ s.rowReady c = false) : s.rowCounterIncrement c = s := by
  refine if_neg fun hmay => ?_
  obtain ⟨hwork, hready⟩ := (Bool.and_eq_true _ _).mp hmay
  obtain ⟨hruns, hheld, hop, hbrace, hrecovering⟩ := State.mayWork_iff.mp hwork
  simp [hruns, hheld, hop, hbrace, hrecovering, hready] at h

/-- Short of a carry an increment changes one byte of the array, and LEAVE is released. -/
theorem does_rowCounterIncrement {dt : Nat} {c : RowId} {s u : State} (hu : u = advance dt s)
    (hmay : u.mayWork .flashProgram = true) (hready : u.rowReady c = true) (hwf : u.flash.wf = true)
    (hsector : (u.rowSectors c).1 < 1024) (hshort : u.tally (u.rowSectors c).1 + 1 < 4096) :
    Does (.rowCounterIncrement dt c) s u [.free, .flash, .mem, .leave, .faults] fun t =>
      t.leave.holding = none ∧
        ∀ a : Nat, memGet t.flash.mem a = if a = u.rowCell c then u.rowCellByte c else memGet u.flash.mem a := by
  obtain ⟨-, hheld, -⟩ := State.mayWork_iff.mp hmay
  have hdue : u.rowCounterIncrement c = (u.rowIncrement c).releaseFor .flashProgram := if_pos (by rw [hmay, hready]; rfl)
  have hleave : (u.rowIncrement c).leave = u.leave := u.rowIncrement_same c .leave rfl
  refine ⟨u.rowCounterIncrement c, hu ▸ exec_rowCounterIncrement dt c s, u.rowCounterIncrement_same c, ?_⟩
  rw [hdue]
  dsimp only
  rw [State.releaseFor_same _ _ .mem rfl]
  exact ⟨State.releaseFor_holding_none (hleave ▸ hheld), State.rowIncrement_byte hshort hwf hsector⟩

end Sys2Proof.Machine

end

section
/-! What the obligation on flash operations comes to: it asks that the factory's bytes read erased (R517, R635, log 8), and that a
tally cell whose program never verified is clear all the same (R545, logs 4 and 38), two facts about constants no proof can see. -/

namespace Sys2Proof.Machine
open Sys2Proof

/-- The factory's values in sectors 0x17C to 0x17F are all 0xFF. -/
def FactoryReadsErased : Prop := ∀ x : Nat, 0x17C000 ≤ x → x < 0x180000 → Config.factoryByte x = 0xFF

/-- Where the repeats of a program within a step run out unverified, the byte drawn for its tally cell is 0. -/
def UnverifiedCellsClear : Prop := ∀ n : Nat, Config.freeNat n % 4 = 3 → Config.freeByte (n + 1) = 0

theorem baseByte_of_readsErased (h : FactoryReadsErased) (x : Nat) : baseByte x = 0xFF := by
  rw [baseByte]
  split
  · next hin => exact h x hin.1 hin.2
  · rfl

theorem State.rowCellByte_of_clear (h : UnverifiedCellsClear) (s : State) (c : RowId) : s.rowCellByte c = 0 := by
  rw [State.rowCellByte]
  split
  · next hspoils => rw [h _ hspoils]; exact BitVec.and_zero
  · rfl

/-- The part as it rests, LEAVE held for an operation, with this free value next, this operation under way and an erased array. -/
def resting (held : HeavyOp) (op : Option FlashOp) (free : Nat) : State :=
  { State.reset with
    free := free
    core := { Core.reset with boot := .ready }
    leave := { Leave.reset with holding := some held }
    flash := { State.reset.flash with mem := [], op := op } }

theorem advance_resting (held : HeavyOp) (op : Option FlashOp) (free : Nat) :
    advance 0 (resting held op free) = State.pass 0 (resting held op free) :=
  advance_quiet 0 _ (by rw [State.atRest, resting]; rfl)

/-- An erase under way in this sector. -/
def eraseOf (sector : Nat) : FlashOp :=
  { kind := .erase sector, service := false, journal := none, startedAt := 0, used := 0, done := 0, retries := 0, running := true }

end Sys2Proof.Machine

open Sys2Proof Sys2Proof.Machine

/-- Were both so, every clause of the obligation would hold. -/
theorem flashOperationsWork_of (hfactory : FactoryReadsErased) (hcells : UnverifiedCellsClear) :
    Obligations.FlashOperationsWork := by
  refine ⟨fun dt s u hu => ⟨fun sector => ⟨fun hbar => ?barred, fun hmay hreclaims hready =>
      does_flashErase hu hmay hreclaims hready⟩, fun addr data => ⟨fun hmay hfits hshape =>
      does_flashProgram hu hmay hfits hshape, fun hbar => ?unfit⟩⟩,
    fun dt took s u o hu hop hrunning => ⟨fun sector hkind hjournal hfew hheld => ?erase,
      fun addr data hkind hdone hwf hroom hfew hheld =>
        does_flashOperationEnd_program hu hop hrunning hfew hkind hdone hwf hroom hheld, fun hfew => ?retry,
      fun hmany hkeeps => does_flashOperationEnd_failed hop hrunning hu hmany hkeeps⟩,
    ⟨fun dt sector s u o hu hop hrunning hkind hheld => ⟨fun hdue => does_eraseHoldEnd hop hkind hrunning hheld hu hdue,
        fun hearly => ?hold, fun hbrace => ?nobrace, fun hbrace => does_flashEraseSuspend hop hkind hrunning hheld hu hbrace⟩,
      fun dt area s u sector hu hruns harea hworn hheld hop hbrace hreadOnly hrecovering hready => ?retire⟩,
    fun dt c s u hu => ⟨fun hbar => ?rowBarred,
      fun hruns hheld hop hbrace hrecovering hready hwf hsector hshort => ?row⟩⟩
  case barred =>
    rw [exec_flashErase, ← hu]
    by_cases hjournal : areaOf (u.original sector.val) = some 2 ∧ u.reclaims sector.val = false
    · rw [State.flashErase_of_unreclaimed hjournal.1 hjournal.2]
    · simp only [hjournal, or_false] at hbar
      rw [State.flashErase_of_barred (State.mayOperate_of_barred hbar)]
  case unfit =>
    rw [exec_flashProgram, ← hu, State.flashProgramStart_of_barred]
    refine hbar.imp_left fun ⟨p, hp, hbad⟩ hfits => ?_
    obtain ⟨huse, herasing⟩ := hfits p hp
    simp [huse, herasing] at hbad
  case erase =>
    obtain ⟨t, hexec, hsame, hnone, hfree, hdog, hstrap, herases, hbytes, f, hf, hfaults⟩ :=
      does_flashOperationEnd_erase (took := took) hu hop hrunning hfew hkind hjournal hheld
    refine ⟨t, hexec, hsame, hnone, hfree, hdog, hstrap, herases, fun a => ?_, f, hf, hfaults⟩
    rw [hbytes a, baseByte_of_readsErased hfactory]
  case retry => rw [exec_flashOperationEnd, ← hu, State.flashEnd_of_retry hop hrunning hfew]
  case hold => rw [exec_eraseHoldEnd, ← hu, State.eraseHoldEnd_of_early hop hkind hheld hearly]
  case nobrace => rw [exec_flashEraseSuspend, ← hu, State.eraseSuspend_of_no_brace hop hkind hbrace]
  case retire =>
    have hmay := State.mayWork_iff.mpr ⟨hruns, hheld, hop, hbrace, hrecovering⟩
    exact ⟨does_sectorRetirement_no_spare hu harea hmay hworn hready hreadOnly,
      fun new => does_sectorRetirement_spare hu harea hmay hworn hready hreadOnly⟩
  case rowBarred => rw [exec_rowCounterIncrement, ← hu, State.rowCounterIncrement_of_barred hbar]
  case row =>
    obtain ⟨t, hexec, hsame, hfree, hbytes⟩ := does_rowCounterIncrement hu
      (State.mayWork_iff.mpr ⟨hruns, hheld, hop, hbrace, hrecovering⟩) hready hwf hsector hshort
    refine ⟨t, hexec, hsame, hfree, fun a => ?_⟩
    rw [hbytes a, State.rowCellByte_of_clear hcells]
    rfl

/-- The clause on a verified erase speaks of every sector an operation may name, those of the factory's values among them. -/
theorem factoryReadsErased_of (h : Obligations.FlashOperationsWork) : FactoryReadsErased := by
  intro x hlow hhigh
  obtain ⟨-, hends, -⟩ := h
  let u := State.pass 0 (resting .flashErase (some (eraseOf (x / 4096))) 0)
  have hu : u = advance 0 (resting .flashErase (some (eraseOf (x / 4096))) 0) := (advance_resting _ _ _).symm
  obtain ⟨t, hexec, -, -, -, -, -, -, hasked, -⟩ :=
    (hends 0 0 _ u (eraseOf (x / 4096)) hu rfl rfl).1 (x / 4096) rfl rfl Nat.zero_lt_two (.inl rfl)
  obtain ⟨t', hexec', -, -, -, -, -, -, hfound, -⟩ :=
    does_flashOperationEnd_erase (took := 0) hu (o := eraseOf (x / 4096)) rfl rfl Nat.zero_lt_two rfl rfl (.inl rfl)
  obtain rfl : t = t' := Host.Outcome.next.inj (hexec.symm.trans hexec')
  have hbyte := (hfound x).symm.trans (hasked x)
  rwa [if_pos rfl, if_pos rfl, baseByte, if_pos ⟨hlow, hhigh⟩] at hbyte

/-- The clause on an increment leaves out that its program may be repeated until no repeat is left (R545, log 38). -/
theorem unverifiedCellsClear_of (h : Obligations.FlashOperationsWork) : UnverifiedCellsClear := by
  intro n hspoils
  obtain ⟨-, -, -, hrows⟩ := h
  let u := State.pass 0 (resting .flashProgram none n)
  have hu : u = advance 0 (resting .flashProgram none n) := (advance_resting _ _ _).symm
  have hready : u.rowReady .session = true := (by decide : (resting .flashProgram none 0).rowReady .session = true)
  have hsector : (u.rowSectors .session).1 < 1024 :=
    (by decide : ((resting .flashProgram none 0).rowSectors .session).1 < 1024)
  have hshort : u.tally (u.rowSectors .session).1 + 1 < 4096 :=
    (by decide : (resting .flashProgram none 0).tally ((resting .flashProgram none 0).rowSectors .session).1 + 1 < 4096)
  obtain ⟨t, hexec, -, -, hasked⟩ := (hrows 0 .session _ u hu).2 rfl rfl rfl rfl rfl hready rfl hsector hshort
  obtain ⟨t', hexec', -, -, hfound⟩ :=
    does_rowCounterIncrement hu (State.mayWork_iff.mpr ⟨rfl, rfl, rfl, rfl, rfl⟩) hready rfl hsector hshort
  obtain rfl : t = t' := Host.Outcome.next.inj (hexec.symm.trans hexec')
  have hbyte : u.rowCellByte .session = 0 := by
    have hcell := hfound (u.rowCell .session)
    rw [if_pos rfl] at hcell
    exact hcell.symm.trans ((hasked (u.rowCell .session)).trans (if_pos rfl))
  have hfree : u.free = n := rfl
  have hplace : u.rowCell .session = 0x1C4000 := (by decide : (resting .flashProgram none 0).rowCell .session = 0x1C4000)
  have herased : memGet u.flash.mem (u.rowCell .session) = 0xFF := by
    rw [hplace]
    rfl
  rw [State.rowCellByte, hfree, if_pos hspoils, herased] at hbyte
  rwa [show (0xFF : Byte) = BitVec.allOnes 8 from rfl, BitVec.allOnes_and] at hbyte

/-- Where the obligation stands: it says as much as these two facts about opaque constants, so that it can be neither proved nor
refuted. An erase clause for the sectors `mayUse` leaves to the firmware, and an increment clause for a program that verifies,
would be free of both. -/
theorem flashOperationsWork_iff :
    Obligations.FlashOperationsWork ↔ FactoryReadsErased ∧ UnverifiedCellsClear :=
  ⟨fun h => ⟨factoryReadsErased_of h, unverifiedCellsClear_of h⟩, fun h => flashOperationsWork_of h.1 h.2⟩
end
